-- ==== Sys2Proof/Word.lean ====
section
/-! DEFINITION. The register word and the byte, and the plainest arithmetic over them. -/

namespace Sys2Proof

/-- A 32-bit register word (R420). -/
abbrev Word := BitVec 32

/-- One byte of the cellar, of a descriptor or of a message. -/
abbrev Byte := BitVec 8

end Sys2Proof
end

