-- ==== Sys2Proof/Syntax.lean ====
section
/-! DEFINITION. The commands: one constructor a row of the opcode table, with the row's operands. An operand is what
comes from outside the block: a value written, a message or record received, data that host memory supplied, or how
a unit of work that the spec does not compute ended. -/

namespace Sys2Proof

/-- A submission descriptor (R109). -/
structure Desc where
  src : BitVec 64
  dst : BitVec 64
  len : Word
  progress : Word
  tag : BitVec 16
  op : BitVec 8
  flags : BitVec 8
  bin : BitVec 16
  wrap : BitVec 8
  deriving DecidableEq, Repr

/-- How a channel's work on its descriptor ended (R112): its data moved and confirmed, a request to the host failed,
the confirming read differed, or its staging buffer gave an uncorrectable error (R347). -/
inductive XferEnd where
  | ok | busErr | readback | sramUe
  deriving DecidableEq, Repr

/-- Bytes that channels had moved and confirmed when they were stopped (R115, R119): a channel and its bytes. -/
abbrev Moved := List (Fin 32 × List Byte)

/-- What the DRAM gives for one line from now on, until the line is written anew: its byte address, and the error pattern of
its codeword (R337): coefficients, and what is XORed into each symbol. With `parity` it is instead one command for that line
that fails command/address parity and passes on its retry (R342). -/
structure LineFault where
  addr : BitVec 38
  err : List (Fin 80 × Byte)
  parity : Bool := false
  deriving DecidableEq, Repr

/-- A tap hard failure (R144, R148): the tap, KIND, STEP, ROW and WORD of TP_FAIL_INFO, and the cask word for an
uncorrectable cask error (KIND 4): cask row, residue, word. -/
structure TapFail where
  tap : Fin 68
  kind : Fin 5
  step : Fin 5
  row : Fin 16
  word : Fin 32
  caskRow : Fin 8192
  residue : Fin 4
  deriving DecidableEq, Repr

/-- An ECC error in an on-die SRAM by its ARRAY number (R347): the word, and whether it is uncorrectable. -/
structure SramErr where
  array : Fin 9
  word : BitVec 20
  ue : Bool
  deriving DecidableEq, Repr

/-- The faults of one shot's computation: groups that passed on retry by tap (R144), the first hard failure, the cask words
corrected (R147): cask row, residue, word, and the other errors in SRAMs (R347). -/
structure TapFaults where
  retries : List (Fin 68 × Fin 57)
  fail : Option TapFail
  ce : List (Fin 8192 × Fin 4 × Fin 32) := []
  sram : List SramErr := []
  deriving DecidableEq, Repr

/-- The transient fault of a press engine (R89). -/
inductive EngineFault where
  | none
  | saffron (computed : Word)
  | poison
  | decode (detail : Fin 10)
  | sram (word : BitVec 20)
  deriving DecidableEq, Repr

/-- Which lattice parameter is written (R38). -/
inductive LatParam where
  | step | dscale | cfg
  deriving DecidableEq, Repr

/-- Which motion limit is written (R250). -/
inductive Limit where
  | vmax | amax | jmax
  deriving DecidableEq, Repr

/-- One interferometer sample (R198): I and Q of axes Y1, Y2, X1, X2 as the converters deliver them. -/
structure Sample where
  i0 : BitVec 16
  q0 : BitVec 16
  i1 : BitVec 16
  q1 : BitVec 16
  i2 : BitVec 16
  q2 : BitVec 16
  i3 : BitVec 16
  q3 : BitVec 16
  deriving DecidableEq, Repr

/-- A Rhadutas message as received: port, header fields (R298) and payload; `tagOk` says whether the AES-256-GCM tag
verifies under the named session's key (R321). TYPE is the command's own, or `type` where that is one which R299 does not list. -/
structure NetMsg where
  port : Fin 2
  devId : BitVec 64
  seq : BitVec 64
  session : Word
  corr : Word
  auth : Bool
  tagOk : Bool
  payload : List Byte
  magic : BitVec 16 := 0x4852
  ver : Byte := 1
  len : BitVec 16 := BitVec.ofNat 16 payload.length
  type : Option Byte := none
  deriving DecidableEq, Repr

/-- What a certificate carries as far as R320 and R321 read it: the signature's verdict under each loaded anchor, its
key usage, its serialNumber attribute, its validity in TIM seconds, and its public key. -/
structure Cert where
  signedBy : List (Fin 4)
  usage : Bool
  serial : BitVec 64
  notBefore : BitVec 64
  notAfter : BitVec 64
  ownKey : Bool
  deriving DecidableEq, Repr

/-- A housekeeping round's readings (R357, R366): sensor temperatures with ADC saturation, supply channels, canary
margins in ps, ring oscillator counts, and the eye monitors of the return and pair lanes. -/
structure HkRound where
  temps : List (BitVec 16 × Bool)
  supplies : List (BitVec 16)
  canaries : List (BitVec 16)
  rings : List Word
  foms : List Byte
  deriving DecidableEq, Repr

/-- A PTP Sync, with its Follow_Up where the master is a two-step one (R308): port, domain, the sender's port identity, and the
master's time as its origin timestamp (seconds, ns) and correction (2⁻¹⁶ ns). -/
structure PtpSync where
  port : Fin 2
  domain : Byte
  source : BitVec 80
  sec : BitVec 48
  ns : Word
  corr : BitVec 64
  deriving DecidableEq, Repr

/-- What a PTP Announce tells of its sender and the grandmaster (R308): domain, the sender's port identity, priority1, the clock
quality (class, accuracy, variance, most significant first), priority2, and the steps removed. -/
structure PtpSource where
  domain : Byte
  source : BitVec 80
  prio1 : Byte
  quality : Word
  prio2 : Byte
  steps : BitVec 16
  deriving DecidableEq, Repr

/-- A PTP Announce (R308): its port, the grandmaster's identity, and currentUtcOffset beside its data. -/
structure PtpAnnounce extends PtpSource where
  port : Fin 2
  gm : BitVec 64
  utcOff : BitVec 16
  deriving DecidableEq, Repr

/-- A PTP Delay_Resp (R308): the master's receive time in seconds and ns, and the correction in 2⁻¹⁶ ns. -/
structure PtpDelay where
  sec : BitVec 48
  ns : Word
  corr : BitVec 64
  deriving DecidableEq, Repr

/-- A Neighbour Discovery, ARP or echo request (R295): over IPv6 or IPv4, and its data. -/
structure IpRequest where
  v6 : Bool
  data : List Byte
  deriving DecidableEq, Repr

/-- What a pair-link message ends with, and whether the whole message came with its CRC right (R266). -/
structure Arrived (α : Type) where
  data : α
  intact : Bool
  deriving DecidableEq, Repr

/-- Bytes written to the cellar, and the errors of the lines that they meet. -/
structure CellarWrite where
  data : List Byte
  faults : List LineFault
  deriving DecidableEq, Repr

/-- The commands of the block. -/
inductive Instr where
  -- power, clocks, reset and Dormant (chapter 13)
  | powerUp
  | supplyLoss (aonLost : Bool)
  | supplyReturn
  | pinReset
  | commandReset (key : BitVec 16)
  | resetInitDone (bad : List (BitVec 14)) (corrected : BitVec 16)
  | start
  | trainingDone (failed : BitVec 4) (ranks : Fin 3) (dens16 : Bool)
  | linkReset (moved : Moved)
  | linkChange (up : Bool) (speed : Fin 6) (width : Fin 17)
  | hifCplTimeout (ch : Fin 32) (data : List Byte)
  | pllUnlock (dom : Fin 8)
  | pllRelockTry (dom : Fin 8) (locks : Bool)
  | devclkPresence (present : Bool)
  | dormant (linkPm : Bool) (moved : Moved)
  | dormantEntered
  | wake
  | wakeN
  | netWake (m : NetMsg)
  | wakeDone (us : BitVec 16)
  | domDown (doms : Byte) (moved : Moved)
  | domUp (doms : Byte)
  | proxyAccess (addr : BitVec 20) (data : Option Word)
  | l12Return
  -- the job (chapters 1 and 8)
  | arm
  | disarm
  | stopEnd
  | stopSafe
  | flush
  | jobDataWrite (w : Word)
  | drainComplete
  -- the lattice (chapter 2)
  | openLattice
  | openGain
  | openDerived
  | openClass
  | openLees
  | latClose
  | check
  | checkDone
  | latDataAccess (data : Option Word) (sram : List SramErr)
  | latParamWrite (p : LatParam) (w : Word)
  | digestDone
  -- the cask and the taps (chapter 5)
  | tapShotStart (f : TapFaults)
  | tapShotDone
  | cskSteerWrite (spare : Fin 4) (w : Word)
  | steerApply
  | commitWritesDone (ce : List (Fin 8192 × Fin 4 × Fin 32)) (ue : Option TapFail)
  -- the press (chapter 3)
  | pressStripeStart
  | pressDispatch (faults : List LineFault)
  | clusterPass (engine : Fin 16)
  | clusterFail (engine : Fin 16) (fault : EngineFault)
  -- DMA and the cellar (chapter 4)
  | doorbell (ring : Fin 128) (pi : Word) (entries : List (List Byte))
  | consumerIndexWrite (ring : Fin 128) (ci : Word)
  | completionStallEnd (cq : Fin 32)
  | ringReset (ring : Fin 128) (moved : Moved)
  | descriptorTake (ring : Fin 64) (entry : BitVec 256)
  | transferDone (ch : Fin 32) (data : List Byte) (res : XferEnd) (faults : List LineFault)
  | reservationGrant
  | fenceDone (ring : Fin 64)
  | bar2Read (off : BitVec 28) (len : Fin 65) (faults : List LineFault)
  | bar2Write (off : BitVec 28) (data : CellarWrite)
  | drop
  | celLayoutWrite (pool : Bool) (w : Word)
  -- the plate link (chapter 6)
  | strobeEdge
  | takePoint
  | frameSent (lane : Fin 64) (internalError : Bool)
  | sealIssue
  | sealDeadline
  | laneStat (rec : BitVec 64)
  | ack (rec : BitVec 64)
  | ackTimeout (halfB : Bool)
  | returnRecordDiscard (rec : BitVec 64)
  | laneSilence (p : Fin 64)
  | train
  | relock
  | idle
  | bringupAbort
  | bringupStepTimeout
  | plkFijCfgWrite (w : Word)
  -- position, shots, tracking and calibration (chapter 7)
  | posSample (x : Sample) (crcOk : Bool)
  | estDiscard (ax : Fin 4)
  | jrxSyncChange (up : Bool)
  | jtxSyncChange (up : Bool)
  | sysrefEdge (onBoundary : Bool)
  | realign
  | clearLost (axes : BitVec 4)
  | edgeFreeze
  | trkSample
  | trkDataAccess (data : Option Word)
  | commit
  | load
  | calStepApply
  | calRampEnd (ax : Fin 4)
  -- the trajectory (chapter 8)
  | setpointPeriod
  | runInStart
  | move
  | stop
  | limitWrite (l : Limit) (w : Word)
  | limitLatchApply
  | rackDwellEnd
  | rackAbandon
  | ltqLaunch (q : Fin 16) (sramUe : Bool)
  -- the pair (chapter 9); of a message sent on several lanes the command is the copy that R268 takes, but for SIG, whose two
  -- copies come apart; `intact` is false where the CRC fails or a MSG block cuts the message short (R266)
  | hbSend
  | hb (word : Word) (data : Arrived (BitVec 128))
  | sig (shot : Word) (group : Fin 8) (copyLane : Fin 8) (sigs : Arrived (List (BitVec 64)))
  | vote (shot : Word) (data : Arrived (BitVec 64))
  | speed (period : Word) (v : Arrived (BitVec 64))
  | mateCommit (sample : Word) (axes : BitVec 4) (cause : Arrived (Fin 4))
  | regwr (at' : Word) (addr : BitVec 20) (value : Arrived Word)
  | stopMsg (shot : Word) (reason : Fin 8) (seq : Arrived Word)
  | digestMsg (digest : BitVec 64) (req : Arrived Word)
  | sdig (stripe : Word) (digest : Arrived (BitVec 64))
  | roleMsg (period : Word) (mateActive : Arrived Bool)
  | reentry (shot : Word) (period : Arrived Word)
  | ckpt (offset : Word) (data : Arrived (List Byte))
  | xfer (stripe : Word) (offset : BitVec 40) (data : List Byte) (poisoned : Arrived Bool)
  | hbTimeout
  | netTimeout
  | pair
  | join
  | unpair
  | digest
  | joinAbort
  | joinStepTimeout
  | reclaimSwap
  | parFijCfgWrite (w : Word)
  -- the control network, time and identity (chapter 10)
  | announceSend
  | announce (m : NetMsg)
  | partnerLost (slot : Fin 64)
  | hello (m : NetMsg) (cert : Cert)
  | helloReply (m : NetMsg) (cert : Cert) (sigOk : Bool)
  | keyConfirm (m : NetMsg) (sigOk : Bool)
  | sessionExpire (slot : Fin 8)
  | attestReq (m : NetMsg)
  | regRead (m : NetMsg)
  | regWrite (m : NetMsg)
  | launch (m : NetMsg)
  | mateHbSend
  | mateHb (m : NetMsg)
  | withdrawn (m : NetMsg)
  | tmapSend
  | tmap (m : NetMsg)
  | ptpSync (y : PtpSync)
  | ptpAnnounce (port : Fin 2) (gm : BitVec 64) (src : PtpSource) (utcOff : BitVec 16)
  | ptpDelayResp (delay : PtpDelay)
  | holdover
  | set
  | timStep
  | netLinkChange (port : Fin 2) (up : Bool) (speed : Fin 3) (fec : Fin 3)
  | netFijCfgWrite (port : Fin 2) (w : Word)
  | openDev
  | openOwner
  | openAnchor
  | writeOwner (cert : Cert)
  | ownerWritten
  | idnClose
  | idnDataAccess (data : Option Word) (onCurve : Bool)
  -- memory controllers and check units (chapter 11)
  | refresh (mc : Fin 4) (rank : Fin 2)
  | mr4Poll (mc : Fin 4) (rank : Fin 2) (rate : BitVec 3) (hot : Bool)
  | ceRateSecond (mc : Fin 4) (rank : Fin 2)
  | migStart
  | migDone (faults : List LineFault)
  | scrubStart
  | scrubStop (lines : BitVec 32) (faults : List LineFault)
  | scrubDone (faults : List LineFault)
  | ckInit (k : Fin 4)
  | ckCfgWrite (k : Fin 4) (w : Word)
  | ckValWrite (k : Fin 4) (hi : Bool) (w : Word)
  | ckFeed8 (k : Fin 4) (w : Word)
  | ckFeed16 (k : Fin 4) (w : Word)
  | ckFeed32 (k : Fin 4) (w : Word)
  -- temperature, ageing and self-test (chapter 12)
  | hkRound (r : HkRound)
  | include (s : Fin 32)
  | exclude (s : Fin 32)
  | planAvs
  | planLanes
  | planAll
  | planDone
  | avsWriteDone (ok : Bool) (margin : BitVec 16)
  | log
  | autoLog
  | logWritten
  | ageDataAccess (data : Option Word)
  | bistSliceStart
  | bistSliceDone (fail : Bool) (shadowUe : Bool)
  | bistResume
  | runNext
  | skip
  | restart
  -- ledgers, fault injection, pages and events (chapters 14 and 15)
  | ledgerCheck
  | fijArmWrite (w : Word)
  | expired
  | ldgSelWrite (w : Word)
  | evtPendClear (page : BitVec 8) (w : Word)
  | evtForce (page : BitVec 8) (w : Word)
  | evtEnWrite (page : BitVec 8) (w : Word)
  | msixUnmask (v : Fin 64)
  | srst (page : BitVec 8)
  | freeze (page : BitVec 8) (on : Bool)
  | en (page : BitVec 8) (on : Bool)
  | pageQuiescent (page : BitVec 8)
  | errClr (page : BitVec 8)
  | injEn (page : BitVec 8) (on : Bool)
  | otpDataRead
  | registerWrite (addr : BitVec 20) (w : Word) (bytes : BitVec 4)
  | returnLaneLock (lane : Fin 4) (up : Bool) (inverted : Bool) (group : Fin 4)
  | pairLaneBlockLock (lane : Fin 8) (up : Bool)
  | swapHoldExpiry (lane : Fin 64)
  | ptpPortMove
  | ndArpEchoRequest (port : Fin 2) (payload : IpRequest)
  | aerReport (uncorrectable : Bool)
  | latchedRead (addr : BitVec 20)
  deriving DecidableEq, Repr

end Sys2Proof
end

