-- ==== Sys2Proof/Machine/Ecc.lean ====
section
/-! DEFINITION. The line code (R337, R338, R340): RS(80,64) over GF(2⁸), the layout of a line on its ten devices, and the decoder.
Polynomials are lists of coefficients, the constant first; a codeword is 16 check symbols and then 64 data symbols. -/

namespace Sys2Proof.Machine

/-! ### The field (R337) -/

/-- α times a field element; the field polynomial is x⁸ + x⁴ + x³ + x² + 1. -/
def gfTwice (a : Nat) : Nat := if 256 ≤ 2 * a then Nat.xor (2 * a) 0x11D else 2 * a

/-- A product of field elements, over the lowest `n` bits of `b`. -/
def gfMulBits : Nat → Nat → Nat → Nat
  | 0, _, _ => 0
  | n + 1, a, b => Nat.xor (if b % 2 = 1 then a else 0) (gfMulBits n (gfTwice a) (b / 2))

/-- A product of field elements. -/
def gfMul (a b : Nat) : Nat := gfMulBits 8 a b

/-- A power of a field element. -/
def gfPow (a : Nat) : Nat → Nat
  | 0 => 1
  | n + 1 => gfMul a (gfPow a n)

/-- The inverse of a field element other than 0: its power 254. -/
def gfInv (a : Nat) : Nat := gfPow a 254

/-- αⁱ. -/
def alpha (i : Nat) : Nat := gfPow 2 i

/-- α⁻ⁱ, the power 255 − i. -/
def alphaInv (i : Nat) : Nat := gfPow 2 (255 - i % 255)

/-! ### Polynomials -/

/-- A polynomial's value at a point. -/
def polyAt (p : List Nat) (x : Nat) : Nat := p.foldr (fun c acc => Nat.xor c (gfMul x acc)) 0

/-- The product with `a + b·x`. -/
def polyLin (a b : Nat) (p : List Nat) : List Nat :=
  (List.range (p.length + 1)).map fun i =>
    Nat.xor (gfMul a (p.getD i 0)) (if i = 0 then 0 else gfMul b (p.getD (i - 1) 0))

/-! ### The code (R337) -/

/-- The generator: the product of x − αⁱ for i from 0 to 15. -/
def rsGenerator : List Nat := (List.range 16).foldl (fun g i => polyLin (alpha i) 1 g) [1]

/-- One symbol more of m(x), highest first, in x¹⁶·m(x) mod g(x). -/
def rsShift (g rem : List Nat) (sym : Nat) : List Nat :=
  let f := Nat.xor sym (rem.getD 15 0)
  (List.range 16).map fun i => Nat.xor (if i = 0 then 0 else rem.getD (i - 1) 0) (gfMul f (g.getD i 0))

/-- The 16 check symbols of 64 data symbols. -/
def rsCheck (data : List Nat) : List Nat :=
  let g := rsGenerator
  data.foldr (fun c rem => rsShift g rem c) (List.replicate 16 0)

/-- The nibble that data device `d` carries in beat `k` of a line. -/
def lineNibble (line : List Nat) (d k : Nat) : Nat := line.getD (4 * k + d / 2) 0 / 16 ^ (d % 2) % 16

/-- The 64 data symbols of a line: symbol 8d + j is device d's nibbles of beats 2j and 2j + 1. -/
def lineSymbols (line : List Nat) : List Nat :=
  (List.range 64).map fun i => lineNibble line (i / 8) (2 * (i % 8)) + 16 * lineNibble line (i / 8) (2 * (i % 8) + 1)

/-- The 64 bytes of a line from its data symbols. -/
def symbolLine (syms : List Nat) : List Nat :=
  let nib := fun (d k : Nat) => syms.getD (8 * d + k / 2) 0 / 16 ^ (k % 2) % 16
  (List.range 64).map fun i => nib (i % 4 * 2) (i / 4) + 16 * nib (i % 4 * 2 + 1) (i / 4)

/-- The codeword of a line. -/
def lineCode (line : List Nat) : List Nat :=
  let d := lineSymbols line
  rsCheck d ++ d

/-- The device that carries a coefficient of the codeword: 8 and 9 carry the check symbols. -/
def symbolDevice (i : Nat) : Nat := if i < 16 then 8 + i / 8 else (i - 16) / 8

/-- The coefficients that a device carries. -/
def devicePositions (d : Nat) : List Nat := (List.range 8).map fun j => if d < 8 then 16 + 8 * d + j else 8 * (d - 8) + j

/-- The poison pattern (R340): all-ones data, and each of its check symbols XORed with 0x5A. -/
def poisonCode : List Nat :=
  let c := lineCode (List.replicate 64 0xFF)
  (c.take 16).map (fun x => Nat.xor x 0x5A) ++ c.drop 16

/-! ### The decoder (R338) -/

/-- The 16 syndromes of a received word. -/
def rsSyndromes (word : List Nat) : List Nat := (List.range 16).map fun i => polyAt word (alpha i)

/-- The product of 1 − αᵖ·x over the erased coefficients. -/
def rsLocator (positions : List Nat) : List Nat := positions.foldl (fun g p => polyLin 1 (alpha p) g) [1]

/-- The first 16 coefficients of a product. -/
def polyMul16 (p q : List Nat) : List Nat :=
  (List.range 16).map fun k => (List.range (k + 1)).foldl (fun acc i => Nat.xor acc (gfMul (p.getD i 0) (q.getD (k - i) 0))) 0

/-- The syndromes times the locator of a device's symbols. -/
def rsErased (syn : List Nat) (d : Nat) : List Nat := polyMul16 syn (rsLocator (devicePositions d))

/-- Erasing the 8 symbols of a device leaves zero residual syndromes. -/
def rsResidualZero (syn : List Nat) (d : Nat) : Bool := ((rsErased syn d).drop 8).all fun x => x == 0

/-- The error at a coefficient of an erased device. -/
def rsErrorAt (syn : List Nat) (d p : Nat) : Nat :=
  let x := alphaInv p
  let others := (devicePositions d).filter fun q => q != p
  gfMul (polyAt ((rsErased syn d).take 8) x) (gfInv (others.foldl (fun acc q => gfMul acc (Nat.xor 1 (gfMul (alpha q) x))) 1))

/-- A received word with the symbols of a device corrected. -/
def rsCorrect (word syn : List Nat) (d : Nat) : List Nat :=
  (List.range 80).map fun i => if symbolDevice i = d then Nat.xor (word.getD i 0) (rsErrorAt syn d i) else word.getD i 0

/-- What the decoder answers: the line's bytes, where it gives any. -/
inductive Decoded where
  | clean (line : List Nat)
  | poison
  | corrected (dev : Nat) (line : List Nat)
  | bad
  deriving DecidableEq, Repr

/-- The decoder, in the order of R338. -/
def rsDecode (word : List Nat) : Decoded :=
  let syn := rsSyndromes word
  if syn.all fun x => x == 0 then .clean (symbolLine (word.drop 16))
  else if syn == rsSyndromes poisonCode then .poison
  else match (List.range 10).filter (rsResidualZero syn) with
    | [d] => .corrected d (symbolLine ((rsCorrect word syn d).drop 16))
    | _ => .bad

/-- A word with errors XORed in. -/
def withErrors (word : List Nat) (err : List (Nat × Nat)) : List Nat :=
  err.foldl (fun w e => w.set e.1 (Nat.xor (w.getD e.1 0) (e.2 % 256))) word

end Sys2Proof.Machine
end

