-- ==== Sys2Proof/Config.lean ====
section
/-! DEFINITION. What the manual leaves open: constants of an implementation and free values. None has a body, so no
proof can rest on a value of one. The assumption log names each. -/

namespace Sys2Proof.Config

/-- The OTP words as they left manufacture (R438): serial, MAC address, trims, baselines, signatures, certificate. -/
opaque otpWord : Nat → BitVec 32

/-- A random number of the on-die source, by draw (R321). -/
opaque random : Nat → BitVec 256

/-- SHA-384 of a byte string (R304, R321, R322). -/
opaque sha384 : List Nat → BitVec 384

/-- An ECDSA P-384 signature by the device's private key over a digest, by draw (R318, R321, R322). -/
opaque ecdsaSign : Nat → BitVec 384 → BitVec 768

/-- An ephemeral P-384 public key, by draw (R321). -/
opaque ephemeral : Nat → BitVec 768

/-- The 76 bytes that HKDF-SHA-384 gives for the exchange of two payloads (R321). -/
opaque hkdf : Nat → List Nat → List Nat → BitVec 608

/-- The AES-256-GCM tag of a message: the session's keys, the direction (true: from the starter), SEQ, header and
payload (R321). -/
opaque gcmTag : BitVec 608 → Bool → Nat → List Nat → BitVec 128

/-- Which free spill buffer a reservation takes next, by draw and place in the chain (R76, R78): an index into the free
buffers, taken modulo their number. -/
opaque pickUnit : Nat → Nat → Nat

/-- C of R201 for S = −1, where 1/√(1 − S²) has no value. -/
opaque cAtMinusOne : Nat

/-- Whether rounding, and the precision kept between windows, leave parameter `par` of a candidate (0 P, 1 Qo, 2 R, 3 S) one unit
above its step rounded down (R208, R209), by draw: neither is stated. -/
opaque candidateUp : Nat → Nat → Bool

/-- Parameter `par` of a candidate where R208 gives no value that its field holds, by draw. -/
opaque candidateOpen : Nat → Nat → BitVec 16

/-- Over how many ticks, in 2⁻¹⁶ tick, the servo spreads its correction for an offset and the sum of the offsets (R309): the
manual gives the gains, and not this time. -/
opaque servoSpan : Int → Int → Nat

/-- Whether 24 anchor words are a point of the curve, as far as a write that no command judges goes (R321). -/
opaque onCurve : List Nat → Bool

/-- Fraction bits, up to 24, of a smoothed figure of merit's word (R366): the manual gives the recursion, and not the precision
that the word keeps. -/
opaque fomFrac : Nat

/-- Whether the recursion of R366 rounds up where its step is inexact, by the word before and the figure. -/
opaque fomUp : Nat → Nat → Bool

/-- Whether a smoothed word with a fraction shows the next higher figure (R366, R380). -/
opaque fomShownUp : Nat → Bool

/-- A smoothed DRAM correction rate's word after a round, from the word before and the rank's correction count (R366). -/
opaque smoothRate : Nat → Nat → Nat

/-- The corrections per hour that a smoothed word stands for (R366, R371). -/
opaque rateOfWord : Nat → BitVec 16

/-- A value that the manual does not state: the site (numbered in the assumption log), and the draw. -/
opaque unstated : Nat → Nat → Nat

end Sys2Proof.Config
end

