-- ==== Sys2Proof/Machine/Regs.lean ====
section
/-! DEFINITION. The register map: every block-specific register and every page header of the spec, its BAR0
address, its fields, its access type and its value after reset (R4, R5, R8, R11, R420 to R426 and the register
tables of every chapter). -/

namespace Sys2Proof.Machine

/-- A field of a register: the register's BAR0 address, its lowest bit and its width. -/
structure Fld where
  addr : Nat
  lo : Nat
  width : Nat
  deriving DecidableEq, Repr

/-- One row (or one array) of a register table: offset in the page, number of entries and their distance, the
value after reset, and the bits of each access type of R11. The remaining bits are RO or WO. -/
structure RegDesc where
  off : Nat
  count : Nat
  stride : Nat
  reset : Nat
  rw : Nat
  rwl : Nat
  wo : Nat
  deriving DecidableEq, Repr


/-! The registers' BAR0 addresses; an array is a function of its index, taken modulo the number of its entries. -/

@[reducible] def R.LAT_CMD : Nat := 0x31100
@[reducible] def R.LAT_STAT : Nat := 0x31104
@[reducible] def R.LAT_IDX : Nat := 0x31108
@[reducible] def R.LAT_DATA : Nat := 0x3110c
@[reducible] def R.LAT_STEP : Nat := 0x31110
@[reducible] def R.LAT_DSCALE : Nat := 0x31114
@[reducible] def R.LAT_CFG : Nat := 0x31118
@[reducible] def R.LAT_DYMAX : Nat := 0x3111c
@[reducible] def R.LAT_BAD : Nat := 0x31120
@[reducible] def R.LAT_NVIS : Nat := 0x31124
@[reducible] def R.LAT_QMISM_CNT : Nat := 0x31128
@[reducible] def R.LAT_HOTF : Nat := 0x3112c
@[reducible] def R.LAT_HOTR : Nat := 0x31130
@[reducible] def R.LAT_DEAD_CNT : Nat := 0x31134
@[reducible] def R.LAT_SHORT_RING : Nat := 0x31140
@[reducible] def R.LAT_SHORT_CNT : Nat := 0x31144
@[reducible] def R.LAT_SHORT_LOST : Nat := 0x31148
@[reducible] def R.PRS_CFG : Nat := 0x18100
@[reducible] def R.PRS_STAT : Nat := 0x18104
@[reducible] def R.PRS_CUR_STRIPE : Nat := 0x18108
@[reducible] def R.PRS_CUR_ROW : Nat := 0x1810c
@[reducible] def R.PRS_FILL : Nat := 0x18110
@[reducible] def R.PRS_MARKS : Nat := 0x18114
@[reducible] def R.PRS_REFUSE : Nat := 0x18118
@[reducible] def R.PRS_REFUSE_STRIPE : Nat := 0x1811c
@[reducible] def R.PRS_ERR_RING : Nat := 0x18120
@[reducible] def R.PRS_CNT_SAFFRON : Nat := 0x18124
@[reducible] def R.PRS_CNT_POISON : Nat := 0x18128
@[reducible] def R.PRS_CNT_DECODE : Nat := 0x1812c
@[reducible] def R.PRS_CNT_RETRY_OK : Nat := 0x18130
@[reducible] def R.PRS_CNT_LOST : Nat := 0x18134
@[reducible] def R.PRS_CNT_REFUSED : Nat := 0x18138
@[reducible] def R.PRS_ERR_LOST : Nat := 0x1813c
@[reducible] def R.PE_STAT (i : Nat) : Nat := 0x20100 + i % 16 * 0x1000
@[reducible] def R.PE_CLUSTERS (i : Nat) : Nat := 0x20104 + i % 16 * 0x1000
@[reducible] def R.PE_FAILS (i : Nat) : Nat := 0x20108 + i % 16 * 0x1000
@[reducible] def R.PE_LAST (i : Nat) : Nat := 0x2010c + i % 16 * 0x1000
@[reducible] def R.DMA_CH_CFG (i : Nat) : Nat := 0x9100 + i % 32 * 0x40
@[reducible] def R.DMA_CH_STAT (i : Nat) : Nat := 0x9104 + i % 32 * 0x40
@[reducible] def R.DMA_CH_DONE (i : Nat) : Nat := 0x9108 + i % 32 * 0x40
@[reducible] def R.DMA_CH_PREEMPT (i : Nat) : Nat := 0x910c + i % 32 * 0x40
@[reducible] def R.DMA_CH_BYTES_LO (i : Nat) : Nat := 0x9110 + i % 32 * 0x40
@[reducible] def R.DMA_CH_BYTES_HI (i : Nat) : Nat := 0x9114 + i % 32 * 0x40
@[reducible] def R.DMA_ACTIVE : Nat := 0x9900
@[reducible] def R.DMA_PARKED : Nat := 0x9904
@[reducible] def R.RNG_BASE_LO (i : Nat) : Nat := 0xa100 + i % 128 * 0x20
@[reducible] def R.RNG_BASE_HI (i : Nat) : Nat := 0xa104 + i % 128 * 0x20
@[reducible] def R.RNG_CFG (i : Nat) : Nat := 0xa108 + i % 128 * 0x20
@[reducible] def R.RNG_PI (i : Nat) : Nat := 0xa10c + i % 128 * 0x20
@[reducible] def R.RNG_CI (i : Nat) : Nat := 0xa110 + i % 128 * 0x20
@[reducible] def R.RNG_CHMASK (i : Nat) : Nat := 0xa114 + i % 128 * 0x20
@[reducible] def R.RNG_STAT (i : Nat) : Nat := 0xa118 + i % 128 * 0x20
@[reducible] def R.CEL_BIN_CFG : Nat := 0x15100
@[reducible] def R.CEL_POOL_UNITS : Nat := 0x15104
@[reducible] def R.CEL_CAPACITY : Nat := 0x15108
@[reducible] def R.CEL_POOL_FREE : Nat := 0x1510c
@[reducible] def R.CEL_STAT : Nat := 0x15110
@[reducible] def R.CEL_BIN_SEL : Nat := 0x15114
@[reducible] def R.CEL_BIN_INFO : Nat := 0x15118
@[reducible] def R.CEL_APERTURE : Nat := 0x1511c
@[reducible] def R.CEL_BIN_CMD : Nat := 0x15120
@[reducible] def R.CSK_STAT : Nat := 0x30100
@[reducible] def R.CSK_FIT : Nat := 0x30104
@[reducible] def R.CSK_LEAD : Nat := 0x30108
@[reducible] def R.CSK_OLDEST : Nat := 0x3010c
@[reducible] def R.CSK_BASE : Nat := 0x30110
@[reducible] def R.CSK_CE_CNT : Nat := 0x30114
@[reducible] def R.CSK_UE_CNT : Nat := 0x30118
@[reducible] def R.CSK_ECC_LOC : Nat := 0x3011c
@[reducible] def R.CSK_STEER (i : Nat) : Nat := 0x30120 + i % 4 * 0x4
@[reducible] def R.TP_STAT (i : Nat) : Nat := 0x40100 + i % 68 * 0x1000
@[reducible] def R.TP_RETRY_OK (i : Nat) : Nat := 0x40104 + i % 68 * 0x1000
@[reducible] def R.TP_FAILS (i : Nat) : Nat := 0x40108 + i % 68 * 0x1000
@[reducible] def R.TP_FAIL_INFO (i : Nat) : Nat := 0x4010c + i % 68 * 0x1000
@[reducible] def R.TP_FAIL_SHOT (i : Nat) : Nat := 0x40110 + i % 68 * 0x1000
@[reducible] def R.PLK_CFG : Nat := 0x90100
@[reducible] def R.PLK_CMD : Nat := 0x90104
@[reducible] def R.PLK_STAT : Nat := 0x90108
@[reducible] def R.PLK_MAP : Nat := 0x9010c
@[reducible] def R.PLK_FOM : Nat := 0x90110
@[reducible] def R.PLK_LOCK_HOLD : Nat := 0x90114
@[reducible] def R.PLK_VINTAGE : Nat := 0x90118
@[reducible] def R.PLK_COUNT : Nat := 0x9011c
@[reducible] def R.PLK_SEAL_LO : Nat := 0x90120
@[reducible] def R.PLK_SEAL_HI : Nat := 0x90124
@[reducible] def R.PLK_BLANK_CNT : Nat := 0x90128
@[reducible] def R.PLK_BLANK_SHOT : Nat := 0x9012c
@[reducible] def R.PLK_BLANK_INFO : Nat := 0x90130
@[reducible] def R.PLK_LATE_CNT : Nat := 0x90134
@[reducible] def R.PLK_SENDCHK_CNT : Nat := 0x90138
@[reducible] def R.PLK_STB : Nat := 0x9013c
@[reducible] def R.PLK_FIJ_CFG : Nat := 0x90140
@[reducible] def R.PLK_FIJ_N : Nat := 0x90144
@[reducible] def R.PLK_FIJ_BITS : Nat := 0x90148
@[reducible] def R.PLK_FIJ_DONE : Nat := 0x9014c
@[reducible] def R.LQ_CTRL (b : Nat) : Nat := 0x91100 + b / 4 * 0x1000 + b % 4 * 0x20
@[reducible] def R.LQ_FIR (b : Nat) : Nat := 0x91104 + b / 4 * 0x1000 + b % 4 * 0x20
@[reducible] def R.LQ_AMP (b : Nat) : Nat := 0x91108 + b / 4 * 0x1000 + b % 4 * 0x20
@[reducible] def R.LQ_STAT (b : Nat) : Nat := 0x9110c + b / 4 * 0x1000 + b % 4 * 0x20
@[reducible] def R.LQ_CRC_ERR (b : Nat) : Nat := 0x91110 + b / 4 * 0x1000 + b % 4 * 0x20
@[reducible] def R.LQ_FEC_CORR (b : Nat) : Nat := 0x91114 + b / 4 * 0x1000 + b % 4 * 0x20
@[reducible] def R.LQ_FEC_UNCORR (b : Nat) : Nat := 0x91118 + b / 4 * 0x1000 + b % 4 * 0x20
@[reducible] def R.PRT_STAT : Nat := 0xa1100
@[reducible] def R.PRT_CFG : Nat := 0xa1104
@[reducible] def R.PRT_REC_ERR : Nat := 0xa1108
@[reducible] def R.PRT_ACK_MISS : Nat := 0xa110c
@[reducible] def R.PRT_ACK_LO : Nat := 0xa1110
@[reducible] def R.PRT_ACK_HI : Nat := 0xa1114
@[reducible] def R.POS_CFG : Nat := 0xb0100
@[reducible] def R.POS_STAT : Nat := 0xb0104
@[reducible] def R.POS_TS : Nat := 0xb0108
@[reducible] def R.POS_ADC_LAT : Nat := 0xb010c
@[reducible] def R.POS_PIXEL : Nat := 0xb0110
@[reducible] def R.POS_BASE : Nat := 0xb0114
@[reducible] def R.POS_ARM : Nat := 0xb0118
@[reducible] def R.POS_YAW_LIM : Nat := 0xb011c
@[reducible] def R.POS_Y_LO : Nat := 0xb0120
@[reducible] def R.POS_Y_HI : Nat := 0xb0124
@[reducible] def R.POS_X_LO : Nat := 0xb0128
@[reducible] def R.POS_X_HI : Nat := 0xb012c
@[reducible] def R.POS_VEL : Nat := 0xb0130
@[reducible] def R.POS_YAW : Nat := 0xb0134
@[reducible] def R.POS_EST_CFG : Nat := 0xb0138
@[reducible] def R.POS_RLIM : Nat := 0xb013c
@[reducible] def R.POS_JRX_ERR : Nat := 0xb0140
@[reducible] def R.POS_CMD : Nat := 0xb0144
@[reducible] def R.AX_CTRL (i : Nat) : Nat := 0xb0200 + i % 4 * 0x40
@[reducible] def R.AX_LAMBDA (i : Nat) : Nat := 0xb0204 + i % 4 * 0x40
@[reducible] def R.AX_ORG_LO (i : Nat) : Nat := 0xb0208 + i % 4 * 0x40
@[reducible] def R.AX_ORG_HI (i : Nat) : Nat := 0xb020c + i % 4 * 0x40
@[reducible] def R.AX_CNT_LO (i : Nat) : Nat := 0xb0210 + i % 4 * 0x40
@[reducible] def R.AX_CNT_HI (i : Nat) : Nat := 0xb0214 + i % 4 * 0x40
@[reducible] def R.AX_HEY_PQ (i : Nat) : Nat := 0xb0218 + i % 4 * 0x40
@[reducible] def R.AX_HEY_RS (i : Nat) : Nat := 0xb021c + i % 4 * 0x40
@[reducible] def R.AX_CAND_PQ (i : Nat) : Nat := 0xb0220 + i % 4 * 0x40
@[reducible] def R.AX_CAND_RS (i : Nat) : Nat := 0xb0224 + i % 4 * 0x40
@[reducible] def R.AX_STAT (i : Nat) : Nat := 0xb0228 + i % 4 * 0x40
@[reducible] def R.AX_WIN (i : Nat) : Nat := 0xb022c + i % 4 * 0x40
@[reducible] def R.SHT_CFG : Nat := 0xb1100
@[reducible] def R.SHT_SEAL_LEAD : Nat := 0xb1104
@[reducible] def R.SHT_BACKLASH : Nat := 0xb1108
@[reducible] def R.SHT_MIN_PERIOD : Nat := 0xb110c
@[reducible] def R.SHT_DELAY : Nat := 0xb1110
@[reducible] def R.SHT_NEXT : Nat := 0xb1114
@[reducible] def R.SHT_EDGE_LO : Nat := 0xb1118
@[reducible] def R.SHT_EDGE_HI : Nat := 0xb111c
@[reducible] def R.SHT_OVERSPEED_CNT : Nat := 0xb1120
@[reducible] def R.SHT_BACKLASH_CNT : Nat := 0xb1124
@[reducible] def R.SHT_REVERSE_CNT : Nat := 0xb1128
@[reducible] def R.SHT_PRED_ERR : Nat := 0xb112c
@[reducible] def R.SHT_LATE_MOVE : Nat := 0xb1130
@[reducible] def R.TRK_CFG : Nat := 0xb2100
@[reducible] def R.TRK_TS : Nat := 0xb2104
@[reducible] def R.TRK_DAC_LAT : Nat := 0xb2108
@[reducible] def R.TRK_VNOM : Nat := 0xb210c
@[reducible] def R.TRK_KPIX : Nat := 0xb2110
@[reducible] def R.TRK_OFFX : Nat := 0xb2114
@[reducible] def R.TRK_EMAX : Nat := 0xb2118
@[reducible] def R.TRK_IDX : Nat := 0xb211c
@[reducible] def R.TRK_DATA : Nat := 0xb2120
@[reducible] def R.TRK_STAT : Nat := 0xb2124
@[reducible] def R.TRK_CLIP_CNT : Nat := 0xb2128
@[reducible] def R.CAL_CFG : Nat := 0xd3100
@[reducible] def R.CAL_DT : Nat := 0xd3104
@[reducible] def R.CAL_RAMP : Nat := 0xd3108
@[reducible] def R.CAL_CMD : Nat := 0xd310c
@[reducible] def R.CAL_TEXT : Nat := 0xd3110
@[reducible] def R.CAL_TREF : Nat := 0xd3114
@[reducible] def R.CAL_STAT : Nat := 0xd3118
@[reducible] def R.CAL_CNT : Nat := 0xd311c
@[reducible] def R.JOB_CMD : Nat := 0x7100
@[reducible] def R.JOB_STAT : Nat := 0x7104
@[reducible] def R.JOB_DATA : Nat := 0x7108
@[reducible] def R.JOB_REFUSE : Nat := 0x710c
@[reducible] def R.JOB_CUR : Nat := 0x7110
@[reducible] def R.JOB_HEAD : Nat := 0x7114
@[reducible] def R.JOB_DONE_CNT : Nat := 0x7118
@[reducible] def R.MOT_CFG : Nat := 0xb4100
@[reducible] def R.MOT_LEAD : Nat := 0xb4104
@[reducible] def R.MOT_VMAX : Nat := 0xb4108
@[reducible] def R.MOT_AMAX : Nat := 0xb410c
@[reducible] def R.MOT_JMAX : Nat := 0xb4110
@[reducible] def R.MOT_VMIN : Nat := 0xb4114
@[reducible] def R.MOT_PMARGIN : Nat := 0xb4118
@[reducible] def R.MOT_SETTLE : Nat := 0xb411c
@[reducible] def R.MOT_RACK : Nat := 0xb4120
@[reducible] def R.MOT_RACK_WAIT : Nat := 0xb4124
@[reducible] def R.MOT_YLIM_LO : Nat := 0xb4128
@[reducible] def R.MOT_YLIM_HI : Nat := 0xb412c
@[reducible] def R.MOT_XLIM_LO : Nat := 0xb4130
@[reducible] def R.MOT_XLIM_HI : Nat := 0xb4134
@[reducible] def R.MOT_FE_Y : Nat := 0xb4138
@[reducible] def R.MOT_FE_X : Nat := 0xb413c
@[reducible] def R.MOT_CMD : Nat := 0xb4140
@[reducible] def R.MOT_TGT_Y : Nat := 0xb4144
@[reducible] def R.MOT_TGT_X : Nat := 0xb4148
@[reducible] def R.MOT_STAT : Nat := 0xb414c
@[reducible] def R.MOT_VCMD : Nat := 0xb4150
@[reducible] def R.MOT_FE_MAX : Nat := 0xb4154
@[reducible] def R.MOT_SP_SEQ : Nat := 0xb4158
@[reducible] def R.MOT_SP_LATE : Nat := 0xb415c
@[reducible] def R.MOT_RACK_INFO : Nat := 0xb4160
@[reducible] def R.MOT_RACK_SHOT : Nat := 0xb4164
@[reducible] def R.MOT_RACK_CNT : Nat := 0xb4168
@[reducible] def R.PAR_CFG : Nat := 0xa8100
@[reducible] def R.PAR_CMD : Nat := 0xa8104
@[reducible] def R.PAR_STAT : Nat := 0xa8108
@[reducible] def R.PAR_DIGEST_LO : Nat := 0xa810c
@[reducible] def R.PAR_DIGEST_HI : Nat := 0xa8110
@[reducible] def R.PAR_MATE_DIGEST_LO : Nat := 0xa8114
@[reducible] def R.PAR_MATE_DIGEST_HI : Nat := 0xa8118
@[reducible] def R.PAR_HB : Nat := 0xa811c
@[reducible] def R.PAR_SPLIT_INFO : Nat := 0xa8120
@[reducible] def R.PAR_SPLIT_SHOT : Nat := 0xa8124
@[reducible] def R.PAR_DEFER_CNT : Nat := 0xa8128
@[reducible] def R.PAR_WD_CNT : Nat := 0xa812c
@[reducible] def R.PAR_SOLE_CNT : Nat := 0xa8130
@[reducible] def R.PAR_WD_SHOT : Nat := 0xa8134
@[reducible] def R.PAR_MSG_ERR : Nat := 0xa8138
@[reducible] def R.PAR_TAKEOVER_CNT : Nat := 0xa813c
@[reducible] def R.PAR_FIJ_CFG : Nat := 0xa8140
@[reducible] def R.PAR_FIJ_N : Nat := 0xa8144
@[reducible] def R.PAR_FIJ_BITS : Nat := 0xa8148
@[reducible] def R.PAR_FIJ_DONE : Nat := 0xa814c
@[reducible] def R.PAR_JOIN_STRIPE : Nat := 0xa8150
@[reducible] def R.PAR_SDIG_STRIPE : Nat := 0xa8154
@[reducible] def R.PAR_LANES : Nat := 0xa8158
@[reducible] def R.NET_CFG (i : Nat) : Nat := 0xc0100 + i % 2 * 0x1000
@[reducible] def R.NET_STAT (i : Nat) : Nat := 0xc0104 + i % 2 * 0x1000
@[reducible] def R.NET_MAC_LO (i : Nat) : Nat := 0xc0108 + i % 2 * 0x1000
@[reducible] def R.NET_MAC_HI (i : Nat) : Nat := 0xc010c + i % 2 * 0x1000
@[reducible] def R.NET_VLAN (i : Nat) : Nat := 0xc0110 + i % 2 * 0x1000
@[reducible] def R.NET_IP4 (i : Nat) : Nat := 0xc0114 + i % 2 * 0x1000
@[reducible] def R.NET_IP6_0 (i : Nat) : Nat := 0xc0118 + i % 2 * 0x1000
@[reducible] def R.NET_IP6_1 (i : Nat) : Nat := 0xc011c + i % 2 * 0x1000
@[reducible] def R.NET_IP6_2 (i : Nat) : Nat := 0xc0120 + i % 2 * 0x1000
@[reducible] def R.NET_IP6_3 (i : Nat) : Nat := 0xc0124 + i % 2 * 0x1000
@[reducible] def R.NET_PORTS (i : Nat) : Nat := 0xc0128 + i % 2 * 0x1000
@[reducible] def R.NET_TS_LAT (i : Nat) : Nat := 0xc012c + i % 2 * 0x1000
@[reducible] def R.NET_RX_CNT (i : Nat) : Nat := 0xc0130 + i % 2 * 0x1000
@[reducible] def R.NET_TX_CNT (i : Nat) : Nat := 0xc0134 + i % 2 * 0x1000
@[reducible] def R.NET_DROP_CNT (i : Nat) : Nat := 0xc0138 + i % 2 * 0x1000
@[reducible] def R.NET_DUP_CNT (i : Nat) : Nat := 0xc013c + i % 2 * 0x1000
@[reducible] def R.NET_AUTH_FAIL (i : Nat) : Nat := 0xc0140 + i % 2 * 0x1000
@[reducible] def R.NET_FIJ_CFG (i : Nat) : Nat := 0xc0144 + i % 2 * 0x1000
@[reducible] def R.NET_FIJ_N (i : Nat) : Nat := 0xc0148 + i % 2 * 0x1000
@[reducible] def R.NET_FIJ_BITS (i : Nat) : Nat := 0xc014c + i % 2 * 0x1000
@[reducible] def R.NET_FIJ_DONE (i : Nat) : Nat := 0xc0150 + i % 2 * 0x1000
@[reducible] def R.TIM_CFG : Nat := 0xc2100
@[reducible] def R.TIM_STAT : Nat := 0xc2104
@[reducible] def R.TIM_INC_LO : Nat := 0xc2108
@[reducible] def R.TIM_INC_HI : Nat := 0xc210c
@[reducible] def R.TIM_NS : Nat := 0xc2110
@[reducible] def R.TIM_SEC_LO : Nat := 0xc2114
@[reducible] def R.TIM_SEC_HI : Nat := 0xc2118
@[reducible] def R.TIM_OFFSET : Nat := 0xc211c
@[reducible] def R.TIM_PATH : Nat := 0xc2120
@[reducible] def R.TIM_LOCK_THR : Nat := 0xc2124
@[reducible] def R.TIM_STEP_LIM : Nat := 0xc2128
@[reducible] def R.TIM_SLEW : Nat := 0xc212c
@[reducible] def R.TIM_SET_NS : Nat := 0xc2130
@[reducible] def R.TIM_SET_SEC_LO : Nat := 0xc2134
@[reducible] def R.TIM_SET_SEC_HI : Nat := 0xc2138
@[reducible] def R.TIM_CMD : Nat := 0xc213c
@[reducible] def R.TIM_GM_LO : Nat := 0xc2140
@[reducible] def R.TIM_GM_HI : Nat := 0xc2144
@[reducible] def R.TIM_UTC_OFF : Nat := 0xc2148
@[reducible] def R.LTQ_Q_CFG (i : Nat) : Nat := 0xc3100 + i % 16 * 0x10
@[reducible] def R.LTQ_Q_STAT (i : Nat) : Nat := 0xc3104 + i % 16 * 0x10
@[reducible] def R.LTQ_Q_SENT (i : Nat) : Nat := 0xc3108 + i % 16 * 0x10
@[reducible] def R.LTQ_Q_LATE (i : Nat) : Nat := 0xc310c + i % 16 * 0x10
@[reducible] def R.LTQ_NODEST : Nat := 0xc3200
@[reducible] def R.LTQ_ERR_MAX : Nat := 0xc3204
@[reducible] def R.LTQ_POOL_FREE : Nat := 0xc3208
@[reducible] def R.IDN_CMD : Nat := 0xc4100
@[reducible] def R.IDN_STAT : Nat := 0xc4104
@[reducible] def R.IDN_IDX : Nat := 0xc4108
@[reducible] def R.IDN_DATA : Nat := 0xc410c
@[reducible] def R.IDN_SERIAL_LO : Nat := 0xc4110
@[reducible] def R.IDN_SERIAL_HI : Nat := 0xc4114
@[reducible] def R.IDN_REV : Nat := 0xc4118
@[reducible] def R.IDN_SESS : Nat := 0xc411c
@[reducible] def R.IDN_AUTH_FAIL : Nat := 0xc4120
@[reducible] def R.IDN_POLICY : Nat := 0xc4124
@[reducible] def R.DSC_CFG : Nat := 0xc5100
@[reducible] def R.DSC_MATE_LO : Nat := 0xc5104
@[reducible] def R.DSC_MATE_HI : Nat := 0xc5108
@[reducible] def R.DSC_STAT : Nat := 0xc510c
@[reducible] def R.DSC_SEL : Nat := 0xc5110
@[reducible] def R.DSC_E_ID_LO : Nat := 0xc5114
@[reducible] def R.DSC_E_ID_HI : Nat := 0xc5118
@[reducible] def R.DSC_E_INFO : Nat := 0xc511c
@[reducible] def R.DSC_E_AGE : Nat := 0xc5120
@[reducible] def R.DSC_DROP : Nat := 0xc5124
@[reducible] def R.MC_CFG (i : Nat) : Nat := 0x10100 + i % 4 * 0x1000
@[reducible] def R.MC_STAT (i : Nat) : Nat := 0x10104 + i % 4 * 0x1000
@[reducible] def R.MC_GEOM (i : Nat) : Nat := 0x10108 + i % 4 * 0x1000
@[reducible] def R.MC_SCHED (i : Nat) : Nat := 0x1010c + i % 4 * 0x1000
@[reducible] def R.MC_MR4 (i : Nat) : Nat := 0x10110 + i % 4 * 0x1000
@[reducible] def R.MC_CE_CNT0 (i : Nat) : Nat := 0x10114 + i % 4 * 0x1000
@[reducible] def R.MC_CE_CNT1 (i : Nat) : Nat := 0x10118 + i % 4 * 0x1000
@[reducible] def R.MC_UE_CNT0 (i : Nat) : Nat := 0x1011c + i % 4 * 0x1000
@[reducible] def R.MC_UE_CNT1 (i : Nat) : Nat := 0x10120 + i % 4 * 0x1000
@[reducible] def R.MC_CAPAR_CNT (i : Nat) : Nat := 0x10124 + i % 4 * 0x1000
@[reducible] def R.MC_ERR_LO (i : Nat) : Nat := 0x10128 + i % 4 * 0x1000
@[reducible] def R.MC_ERR_HI (i : Nat) : Nat := 0x1012c + i % 4 * 0x1000
@[reducible] def R.MEM_CFG : Nat := 0x14100
@[reducible] def R.MEM_STAT : Nat := 0x14104
@[reducible] def R.MEM_MIG_RATE : Nat := 0x14108
@[reducible] def R.MEM_MIG_PROG : Nat := 0x1410c
@[reducible] def R.MEM_MIG_LOST : Nat := 0x14110
@[reducible] def R.MEM_REC_RING : Nat := 0x14114
@[reducible] def R.MEM_REC_LOST : Nat := 0x14118
@[reducible] def R.MEM_TRAIN : Nat := 0x1411c
@[reducible] def R.MEM_SCRUB_START_LO : Nat := 0x14120
@[reducible] def R.MEM_SCRUB_START_HI : Nat := 0x14124
@[reducible] def R.MEM_SCRUB_LEN_LO : Nat := 0x14128
@[reducible] def R.MEM_SCRUB_LEN_HI : Nat := 0x1412c
@[reducible] def R.MEM_SCRUB_CFG : Nat := 0x14130
@[reducible] def R.MEM_SCRUB_CMD : Nat := 0x14134
@[reducible] def R.MEM_SCRUB_STAT : Nat := 0x14138
@[reducible] def R.MEM_SCRUB_LINES_LO : Nat := 0x14140
@[reducible] def R.MEM_SCRUB_LINES_HI : Nat := 0x14144
@[reducible] def R.MEM_SCRUB_CE : Nat := 0x14148
@[reducible] def R.MEM_SCRUB_UE : Nat := 0x1414c
@[reducible] def R.MEM_SCRUB_FIRST_LO : Nat := 0x14150
@[reducible] def R.MEM_SCRUB_FIRST_HI : Nat := 0x14154
@[reducible] def R.MEM_SCRUB_LAST_LO : Nat := 0x14158
@[reducible] def R.MEM_SCRUB_LAST_HI : Nat := 0x1415c
@[reducible] def R.MEM_SRAM_CE_CNT : Nat := 0x14160
@[reducible] def R.MEM_SRAM_UE_CNT : Nat := 0x14164
@[reducible] def R.MEM_SRAM_LOC : Nat := 0x14168
@[reducible] def R.CK_CFG (i : Nat) : Nat := 0xc8100 + i % 4 * 0x1000
@[reducible] def R.CK_CMD (i : Nat) : Nat := 0xc8104 + i % 4 * 0x1000
@[reducible] def R.CK_FEED8 (i : Nat) : Nat := 0xc8108 + i % 4 * 0x1000
@[reducible] def R.CK_FEED16 (i : Nat) : Nat := 0xc810c + i % 4 * 0x1000
@[reducible] def R.CK_FEED32 (i : Nat) : Nat := 0xc8110 + i % 4 * 0x1000
@[reducible] def R.CK_VAL_LO (i : Nat) : Nat := 0xc8114 + i % 4 * 0x1000
@[reducible] def R.CK_VAL_HI (i : Nat) : Nat := 0xc8118 + i % 4 * 0x1000
@[reducible] def R.CK_RES_LO (i : Nat) : Nat := 0xc811c + i % 4 * 0x1000
@[reducible] def R.CK_RES_HI (i : Nat) : Nat := 0xc8120 + i % 4 * 0x1000
@[reducible] def R.CK_CNT (i : Nat) : Nat := 0xc8124 + i % 4 * 0x1000
@[reducible] def R.THM_CFG : Nat := 0xd0100
@[reducible] def R.THM_MAX : Nat := 0xd0104
@[reducible] def R.THM_WARN : Nat := 0xd0108
@[reducible] def R.THM_TRIP : Nat := 0xd010c
@[reducible] def R.THM_RISE : Nat := 0xd0110
@[reducible] def R.THM_STAT : Nat := 0xd0114
@[reducible] def R.THM_CMD : Nat := 0xd0118
@[reducible] def R.THM_RISE_MAX : Nat := 0xd011c
@[reducible] def R.THM_ROUND : Nat := 0xd0120
@[reducible] def R.THM_T (i : Nat) : Nat := 0xd0180 + i % 28 * 0x4
@[reducible] def R.THM_NBR (i : Nat) : Nat := 0xd0200 + i % 28 * 0x4
@[reducible] def R.HK_VAL (i : Nat) : Nat := 0xd0400 + i % 64 * 0x10
@[reducible] def R.HK_LIM (i : Nat) : Nat := 0xd0404 + i % 64 * 0x10
@[reducible] def R.HK_STAT (i : Nat) : Nat := 0xd0408 + i % 64 * 0x10
@[reducible] def R.AGE_CFG : Nat := 0xd1100
@[reducible] def R.AGE_CMD : Nat := 0xd1104
@[reducible] def R.AGE_STAT : Nat := 0xd1108
@[reducible] def R.AGE_AVS : Nat := 0xd110c
@[reducible] def R.AGE_CAN_MIN : Nat := 0xd1110
@[reducible] def R.AGE_IDX : Nat := 0xd1114
@[reducible] def R.AGE_DATA : Nat := 0xd1118
@[reducible] def R.AGE_LAST_LOG : Nat := 0xd111c
@[reducible] def R.AGE_FOM_MIN : Nat := 0xd1120
@[reducible] def R.BST_CFG : Nat := 0xd2100
@[reducible] def R.BST_PATTERNS : Nat := 0xd2104
@[reducible] def R.BST_IDLE : Nat := 0xd2108
@[reducible] def R.BST_YIELD_MAX : Nat := 0xd210c
@[reducible] def R.BST_STAT : Nat := 0xd2110
@[reducible] def R.BST_CMD : Nat := 0xd2114
@[reducible] def R.BST_ROT_CNT : Nat := 0xd2118
@[reducible] def R.BST_FAIL_CNT : Nat := 0xd211c
@[reducible] def R.BST_SKIP_CNT : Nat := 0xd2120
@[reducible] def R.BST_YIELD_CNT : Nat := 0xd2124
@[reducible] def R.BST_LAST_FAIL : Nat := 0xd2128
@[reducible] def R.AON_RST_CAUSE : Nat := 0x2100
@[reducible] def R.AON_RST_CMD : Nat := 0x2104
@[reducible] def R.AON_WAKE_CFG : Nat := 0x2108
@[reducible] def R.AON_WAKE_SRC : Nat := 0x210c
@[reducible] def R.CLK_STAT : Nat := 0x3100
@[reducible] def R.CLK_DEVCLK : Nat := 0x3104
@[reducible] def R.CLK_UNLOCK_CNT : Nat := 0x3108
@[reducible] def R.CLK_LAST_UNLOCK : Nat := 0x310c
@[reducible] def R.PWR_CMD : Nat := 0x4100
@[reducible] def R.PWR_STAT : Nat := 0x4104
@[reducible] def R.PWR_WAKE_US : Nat := 0x4108
@[reducible] def R.PWR_DORM_CNT : Nat := 0x410c
@[reducible] def R.PWR_PARK_CNT : Nat := 0x4110
@[reducible] def R.PWR_AVS : Nat := 0x4114
@[reducible] def R.LDG_STAT : Nat := 0x5100
@[reducible] def R.LDG_SEL : Nat := 0x5104
@[reducible] def R.LDG_SNAP_IN_LO : Nat := 0x5108
@[reducible] def R.LDG_SNAP_IN_HI : Nat := 0x510c
@[reducible] def R.LDG_SNAP_OUT_LO : Nat := 0x5110
@[reducible] def R.LDG_SNAP_OUT_HI : Nat := 0x5114
@[reducible] def R.LDG_SNAP_HELD_LO : Nat := 0x5118
@[reducible] def R.LDG_SNAP_HELD_HI : Nat := 0x511c
@[reducible] def R.LDG_CHECKS : Nat := 0x5120
@[reducible] def R.LDG_VIOL_INFO : Nat := 0x5124
@[reducible] def R.LDG_VIOL_CHECK : Nat := 0x5128
@[reducible] def R.FIJ_ARM : Nat := 0x6100
@[reducible] def R.FIJ_EXPIRE : Nat := 0x6104
@[reducible] def R.FIJ_STAT : Nat := 0x6108
@[reducible] def R.FIJ_DONE : Nat := 0x610c
@[reducible] def R.EVT_ROUTE (i : Nat) : Nat := 0x1100 + i % 256 * 0x8
@[reducible] def R.EVT_CNT (i : Nat) : Nat := 0x1104 + i % 256 * 0x8
@[reducible] def R.EVT_SUM (i : Nat) : Nat := 0x1900 + i % 8 * 0x4
@[reducible] def R.EVT_TP_SUM (i : Nat) : Nat := 0x1920 + i % 3 * 0x4
@[reducible] def R.EVT_MSG_LOST : Nat := 0x1930
@[reducible] def R.HIF_LINK : Nat := 0x8100
@[reducible] def R.HIF_RETRAIN_CNT : Nat := 0x8104
@[reducible] def R.HIF_RESET_CNT : Nat := 0x8108
@[reducible] def R.HIF_AER_CE_CNT : Nat := 0x810c
@[reducible] def R.HIF_AER_UE_CNT : Nat := 0x8110
@[reducible] def R.HIF_CPL_TO : Nat := 0x8114
@[reducible] def R.HIF_MSIX (i : Nat) : Nat := 0x8400 + i % 256 * 0x4
@[reducible] def R.HIF_PBA (i : Nat) : Nat := 0x8800 + i % 2 * 0x4
@[reducible] def R.TOP_STAT : Nat := 0x100
@[reducible] def R.TOP_REFUSE : Nat := 0x104
@[reducible] def R.TOP_FAULT : Nat := 0x108
@[reducible] def R.TOP_TRANS_CNT : Nat := 0x10c
@[reducible] def R.OTP_STAT : Nat := 0xf0100
@[reducible] def R.OTP_IDX : Nat := 0xf0104
@[reducible] def R.OTP_DATA : Nat := 0xf0108
@[reducible] def R.OTP_FAIL_IDX : Nat := 0xf010c

/-! The registers' fields. -/

@[reducible] def F.LAT_CMD_CMD : Fld := ⟨R.LAT_CMD, 0, 4⟩
@[reducible] def F.LAT_STAT_WINDOW : Fld := ⟨R.LAT_STAT, 12, 3⟩
@[reducible] def F.LAT_STAT_CLOSE_HOT : Fld := ⟨R.LAT_STAT, 10, 1⟩
@[reducible] def F.LAT_STAT_QMISM : Fld := ⟨R.LAT_STAT, 9, 1⟩
@[reducible] def F.LAT_STAT_UNEVEN : Fld := ⟨R.LAT_STAT, 8, 1⟩
@[reducible] def F.LAT_STAT_RESULT : Fld := ⟨R.LAT_STAT, 4, 4⟩
@[reducible] def F.LAT_STAT_CHK_STATE : Fld := ⟨R.LAT_STAT, 0, 2⟩
@[reducible] def F.LAT_IDX_INDEX : Fld := ⟨R.LAT_IDX, 0, 24⟩
@[reducible] def F.LAT_STEP_STEP : Fld := ⟨R.LAT_STEP, 0, 7⟩
@[reducible] def F.LAT_DSCALE_W : Fld := ⟨R.LAT_DSCALE, 0, 16⟩
@[reducible] def F.LAT_CFG_DEPTH : Fld := ⟨R.LAT_CFG, 0, 2⟩
@[reducible] def F.LAT_DYMAX_DYMAX : Fld := ⟨R.LAT_DYMAX, 0, 13⟩
@[reducible] def F.LAT_BAD_CLASS : Fld := ⟨R.LAT_BAD, 20, 8⟩
@[reducible] def F.LAT_BAD_INDEX : Fld := ⟨R.LAT_BAD, 0, 20⟩
@[reducible] def F.LAT_NVIS_MAX : Fld := ⟨R.LAT_NVIS, 8, 7⟩
@[reducible] def F.LAT_NVIS_MIN : Fld := ⟨R.LAT_NVIS, 0, 7⟩
@[reducible] def F.LAT_QMISM_CNT_COUNT : Fld := ⟨R.LAT_QMISM_CNT, 0, 20⟩
@[reducible] def F.LAT_HOTF_COUNT : Fld := ⟨R.LAT_HOTF, 0, 20⟩
@[reducible] def F.LAT_HOTR_COUNT : Fld := ⟨R.LAT_HOTR, 0, 20⟩
@[reducible] def F.LAT_DEAD_CNT_COUNT : Fld := ⟨R.LAT_DEAD_CNT, 0, 20⟩
@[reducible] def F.LAT_SHORT_RING_EN : Fld := ⟨R.LAT_SHORT_RING, 8, 1⟩
@[reducible] def F.LAT_SHORT_RING_RING : Fld := ⟨R.LAT_SHORT_RING, 0, 4⟩
@[reducible] def F.PRS_CFG_RETIRE_N : Fld := ⟨R.PRS_CFG, 8, 4⟩
@[reducible] def F.PRS_CFG_RETRY : Fld := ⟨R.PRS_CFG, 0, 4⟩
@[reducible] def F.PRS_STAT_AVAIL : Fld := ⟨R.PRS_STAT, 16, 5⟩
@[reducible] def F.PRS_STAT_RETIRED : Fld := ⟨R.PRS_STAT, 0, 16⟩
@[reducible] def F.PRS_CUR_ROW_ROW : Fld := ⟨R.PRS_CUR_ROW, 0, 21⟩
@[reducible] def F.PRS_FILL_ROWS : Fld := ⟨R.PRS_FILL, 0, 14⟩
@[reducible] def F.PRS_MARKS_HIGH : Fld := ⟨R.PRS_MARKS, 16, 16⟩
@[reducible] def F.PRS_MARKS_LOW : Fld := ⟨R.PRS_MARKS, 0, 16⟩
@[reducible] def F.PRS_REFUSE_CODE : Fld := ⟨R.PRS_REFUSE, 0, 4⟩
@[reducible] def F.PRS_ERR_RING_EN : Fld := ⟨R.PRS_ERR_RING, 8, 1⟩
@[reducible] def F.PRS_ERR_RING_RING : Fld := ⟨R.PRS_ERR_RING, 0, 4⟩
@[reducible] def F.PE_STAT_STRIPE_FAILS (i : Nat) : Fld := ⟨R.PE_STAT i, 4, 4⟩
@[reducible] def F.PE_STAT_BIST (i : Nat) : Fld := ⟨R.PE_STAT i, 2, 1⟩
@[reducible] def F.PE_STAT_RETIRED (i : Nat) : Fld := ⟨R.PE_STAT i, 1, 1⟩
@[reducible] def F.PE_STAT_BUSY (i : Nat) : Fld := ⟨R.PE_STAT i, 0, 1⟩
@[reducible] def F.DMA_CH_CFG_EN (i : Nat) : Fld := ⟨R.DMA_CH_CFG i, 8, 1⟩
@[reducible] def F.DMA_CH_CFG_CLASS (i : Nat) : Fld := ⟨R.DMA_CH_CFG i, 0, 2⟩
@[reducible] def F.DMA_CH_STAT_DINDEX (i : Nat) : Fld := ⟨R.DMA_CH_STAT i, 16, 16⟩
@[reducible] def F.DMA_CH_STAT_SRING (i : Nat) : Fld := ⟨R.DMA_CH_STAT i, 8, 6⟩
@[reducible] def F.DMA_CH_STAT_STATE (i : Nat) : Fld := ⟨R.DMA_CH_STAT i, 0, 3⟩
@[reducible] def F.RNG_CFG_EN (i : Nat) : Fld := ⟨R.RNG_CFG i, 31, 1⟩
@[reducible] def F.RNG_CFG_RESET (i : Nat) : Fld := ⟨R.RNG_CFG i, 30, 1⟩
@[reducible] def F.RNG_CFG_DIR (i : Nat) : Fld := ⟨R.RNG_CFG i, 16, 1⟩
@[reducible] def F.RNG_CFG_LINK (i : Nat) : Fld := ⟨R.RNG_CFG i, 8, 8⟩
@[reducible] def F.RNG_CFG_SIZE (i : Nat) : Fld := ⟨R.RNG_CFG i, 0, 5⟩
@[reducible] def F.RNG_STAT_POOL_WAIT (i : Nat) : Fld := ⟨R.RNG_STAT i, 3, 1⟩
@[reducible] def F.RNG_STAT_STALLED (i : Nat) : Fld := ⟨R.RNG_STAT i, 2, 1⟩
@[reducible] def F.RNG_STAT_FULL (i : Nat) : Fld := ⟨R.RNG_STAT i, 1, 1⟩
@[reducible] def F.RNG_STAT_EMPTY (i : Nat) : Fld := ⟨R.RNG_STAT i, 0, 1⟩
@[reducible] def F.CEL_BIN_CFG_NBINS : Fld := ⟨R.CEL_BIN_CFG, 16, 10⟩
@[reducible] def F.CEL_BIN_CFG_BIN_MIB : Fld := ⟨R.CEL_BIN_CFG, 0, 16⟩
@[reducible] def F.CEL_POOL_UNITS_UNITS : Fld := ⟨R.CEL_POOL_UNITS, 0, 19⟩
@[reducible] def F.CEL_CAPACITY_MIB : Fld := ⟨R.CEL_CAPACITY, 0, 19⟩
@[reducible] def F.CEL_POOL_FREE_UNITS : Fld := ⟨R.CEL_POOL_FREE, 0, 19⟩
@[reducible] def F.CEL_STAT_POOL_WAIT : Fld := ⟨R.CEL_STAT, 31, 1⟩
@[reducible] def F.CEL_STAT_WAIT_BIN : Fld := ⟨R.CEL_STAT, 16, 10⟩
@[reducible] def F.CEL_STAT_WAIT_UNITS : Fld := ⟨R.CEL_STAT, 0, 16⟩
@[reducible] def F.CEL_BIN_SEL_BIN : Fld := ⟨R.CEL_BIN_SEL, 0, 10⟩
@[reducible] def F.CEL_BIN_INFO_STATE : Fld := ⟨R.CEL_BIN_INFO, 30, 2⟩
@[reducible] def F.CEL_BIN_INFO_SRING : Fld := ⟨R.CEL_BIN_INFO, 24, 6⟩
@[reducible] def F.CEL_BIN_INFO_STRIPE : Fld := ⟨R.CEL_BIN_INFO, 0, 24⟩
@[reducible] def F.CEL_APERTURE_BASE : Fld := ⟨R.CEL_APERTURE, 10, 22⟩
@[reducible] def F.CEL_BIN_CMD_CMD : Fld := ⟨R.CEL_BIN_CMD, 0, 4⟩
@[reducible] def F.CSK_STAT_HEAD : Fld := ⟨R.CSK_STAT, 24, 7⟩
@[reducible] def F.CSK_STAT_DISCARD : Fld := ⟨R.CSK_STAT, 16, 7⟩
@[reducible] def F.CSK_STAT_HELD : Fld := ⟨R.CSK_STAT, 8, 8⟩
@[reducible] def F.CSK_STAT_FREE : Fld := ⟨R.CSK_STAT, 0, 8⟩
@[reducible] def F.CSK_FIT_VALID : Fld := ⟨R.CSK_FIT, 31, 1⟩
@[reducible] def F.CSK_FIT_OTHER : Fld := ⟨R.CSK_FIT, 18, 10⟩
@[reducible] def F.CSK_FIT_ROW : Fld := ⟨R.CSK_FIT, 8, 10⟩
@[reducible] def F.CSK_FIT_CODE : Fld := ⟨R.CSK_FIT, 0, 4⟩
@[reducible] def F.CSK_LEAD_HB : Fld := ⟨R.CSK_LEAD, 16, 8⟩
@[reducible] def F.CSK_LEAD_ROWS : Fld := ⟨R.CSK_LEAD, 0, 14⟩
@[reducible] def F.CSK_BASE_ROW : Fld := ⟨R.CSK_BASE, 0, 13⟩
@[reducible] def F.CSK_ECC_LOC_UE : Fld := ⟨R.CSK_ECC_LOC, 31, 1⟩
@[reducible] def F.CSK_ECC_LOC_ROW : Fld := ⟨R.CSK_ECC_LOC, 16, 13⟩
@[reducible] def F.CSK_ECC_LOC_RES : Fld := ⟨R.CSK_ECC_LOC, 5, 2⟩
@[reducible] def F.CSK_ECC_LOC_WORD : Fld := ⟨R.CSK_ECC_LOC, 0, 5⟩
@[reducible] def F.CSK_STEER_EN (i : Nat) : Fld := ⟨R.CSK_STEER i, 31, 1⟩
@[reducible] def F.CSK_STEER_ACTIVE (i : Nat) : Fld := ⟨R.CSK_STEER i, 30, 1⟩
@[reducible] def F.CSK_STEER_AUTO (i : Nat) : Fld := ⟨R.CSK_STEER i, 29, 1⟩
@[reducible] def F.CSK_STEER_LANE (i : Nat) : Fld := ⟨R.CSK_STEER i, 0, 6⟩
@[reducible] def F.TP_STAT_LANE (i : Nat) : Fld := ⟨R.TP_STAT i, 24, 6⟩
@[reducible] def F.TP_STAT_SPARE (i : Nat) : Fld := ⟨R.TP_STAT i, 23, 1⟩
@[reducible] def F.TP_STAT_RETRIES (i : Nat) : Fld := ⟨R.TP_STAT i, 8, 5⟩
@[reducible] def F.TP_STAT_STATE (i : Nat) : Fld := ⟨R.TP_STAT i, 0, 2⟩
@[reducible] def F.TP_FAIL_INFO_KIND (i : Nat) : Fld := ⟨R.TP_FAIL_INFO i, 28, 4⟩
@[reducible] def F.TP_FAIL_INFO_STEP (i : Nat) : Fld := ⟨R.TP_FAIL_INFO i, 24, 4⟩
@[reducible] def F.TP_FAIL_INFO_ROW (i : Nat) : Fld := ⟨R.TP_FAIL_INFO i, 8, 4⟩
@[reducible] def F.TP_FAIL_INFO_WORD (i : Nat) : Fld := ⟨R.TP_FAIL_INFO i, 0, 5⟩
@[reducible] def F.PLK_CFG_BLANK_STOP : Fld := ⟨R.PLK_CFG, 8, 1⟩
@[reducible] def F.PLK_CMD_CMD : Fld := ⟨R.PLK_CMD, 0, 4⟩
@[reducible] def F.PLK_STAT_LOCKED : Fld := ⟨R.PLK_STAT, 16, 7⟩
@[reducible] def F.PLK_STAT_ERR : Fld := ⟨R.PLK_STAT, 4, 4⟩
@[reducible] def F.PLK_STAT_BRINGUP : Fld := ⟨R.PLK_STAT, 0, 4⟩
@[reducible] def F.PLK_MAP_PORT_REV : Fld := ⟨R.PLK_MAP, 31, 1⟩
@[reducible] def F.PLK_MAP_OVERRIDE : Fld := ⟨R.PLK_MAP, 30, 1⟩
@[reducible] def F.PLK_MAP_QREV : Fld := ⟨R.PLK_MAP, 0, 16⟩
@[reducible] def F.PLK_FOM_MIN : Fld := ⟨R.PLK_FOM, 8, 8⟩
@[reducible] def F.PLK_FOM_WARN : Fld := ⟨R.PLK_FOM, 0, 8⟩
@[reducible] def F.PLK_LOCK_HOLD_US : Fld := ⟨R.PLK_LOCK_HOLD, 0, 16⟩
@[reducible] def F.PLK_VINTAGE_CURRENT : Fld := ⟨R.PLK_VINTAGE, 16, 16⟩
@[reducible] def F.PLK_VINTAGE_NEXT : Fld := ⟨R.PLK_VINTAGE, 0, 16⟩
@[reducible] def F.PLK_BLANK_INFO_STRIPE_LO : Fld := ⟨R.PLK_BLANK_INFO, 16, 16⟩
@[reducible] def F.PLK_BLANK_INFO_HALF : Fld := ⟨R.PLK_BLANK_INFO, 8, 1⟩
@[reducible] def F.PLK_BLANK_INFO_RESULT : Fld := ⟨R.PLK_BLANK_INFO, 0, 3⟩
@[reducible] def F.PLK_STB_EN_B : Fld := ⟨R.PLK_STB, 31, 1⟩
@[reducible] def F.PLK_STB_EN_A : Fld := ⟨R.PLK_STB, 30, 1⟩
@[reducible] def F.PLK_STB_TRIM_B : Fld := ⟨R.PLK_STB, 16, 8⟩
@[reducible] def F.PLK_STB_TRIM_A : Fld := ⟨R.PLK_STB, 8, 8⟩
@[reducible] def F.PLK_STB_WIDTH : Fld := ⟨R.PLK_STB, 0, 8⟩
@[reducible] def F.PLK_FIJ_CFG_KIND : Fld := ⟨R.PLK_FIJ_CFG, 28, 4⟩
@[reducible] def F.PLK_FIJ_CFG_TARGET : Fld := ⟨R.PLK_FIJ_CFG, 27, 1⟩
@[reducible] def F.PLK_FIJ_CFG_ALL : Fld := ⟨R.PLK_FIJ_CFG, 26, 1⟩
@[reducible] def F.PLK_FIJ_CFG_LANE : Fld := ⟨R.PLK_FIJ_CFG, 0, 6⟩
@[reducible] def F.PLK_FIJ_BITS_NBITS : Fld := ⟨R.PLK_FIJ_BITS, 28, 4⟩
@[reducible] def F.PLK_FIJ_BITS_BIT : Fld := ⟨R.PLK_FIJ_BITS, 0, 17⟩
@[reducible] def F.LQ_CTRL_PRBS (i : Nat) : Fld := ⟨R.LQ_CTRL i, 3, 1⟩
@[reducible] def F.LQ_CTRL_PRECODE (i : Nat) : Fld := ⟨R.LQ_CTRL i, 2, 1⟩
@[reducible] def F.LQ_CTRL_IDLE (i : Nat) : Fld := ⟨R.LQ_CTRL i, 1, 1⟩
@[reducible] def F.LQ_CTRL_INV (i : Nat) : Fld := ⟨R.LQ_CTRL i, 0, 1⟩
@[reducible] def F.LQ_FIR_CM3 (i : Nat) : Fld := ⟨R.LQ_FIR i, 24, 6⟩
@[reducible] def F.LQ_FIR_CM2 (i : Nat) : Fld := ⟨R.LQ_FIR i, 18, 6⟩
@[reducible] def F.LQ_FIR_CM1 (i : Nat) : Fld := ⟨R.LQ_FIR i, 12, 6⟩
@[reducible] def F.LQ_FIR_C0 (i : Nat) : Fld := ⟨R.LQ_FIR i, 6, 6⟩
@[reducible] def F.LQ_FIR_C1 (i : Nat) : Fld := ⟨R.LQ_FIR i, 0, 6⟩
@[reducible] def F.LQ_AMP_AMP (i : Nat) : Fld := ⟨R.LQ_AMP i, 0, 4⟩
@[reducible] def F.LQ_STAT_FOM (i : Nat) : Fld := ⟨R.LQ_STAT i, 24, 8⟩
@[reducible] def F.LQ_STAT_INPUT (i : Nat) : Fld := ⟨R.LQ_STAT i, 16, 6⟩
@[reducible] def F.LQ_STAT_SIG (i : Nat) : Fld := ⟨R.LQ_STAT i, 15, 1⟩
@[reducible] def F.LQ_STAT_LOCK (i : Nat) : Fld := ⟨R.LQ_STAT i, 14, 1⟩
@[reducible] def F.LQ_STAT_LOGICAL (i : Nat) : Fld := ⟨R.LQ_STAT i, 8, 6⟩
@[reducible] def F.PRT_CFG_ACK_REQ : Fld := ⟨R.PRT_CFG, 31, 1⟩
@[reducible] def F.PRT_CFG_TIMEOUT : Fld := ⟨R.PRT_CFG, 0, 16⟩
@[reducible] def F.POS_CFG_YAW_STOP : Fld := ⟨R.POS_CFG, 16, 1⟩
@[reducible] def F.POS_CFG_CRC_CHK : Fld := ⟨R.POS_CFG, 8, 1⟩
@[reducible] def F.POS_CFG_LANES : Fld := ⟨R.POS_CFG, 0, 2⟩
@[reducible] def F.POS_STAT_JRX_UP : Fld := ⟨R.POS_STAT, 31, 1⟩
@[reducible] def F.POS_STAT_SYSREF_OK : Fld := ⟨R.POS_STAT, 30, 1⟩
@[reducible] def F.POS_STAT_SYSREF_MOVED : Fld := ⟨R.POS_STAT, 29, 1⟩
@[reducible] def F.POS_STAT_LOST : Fld := ⟨R.POS_STAT, 4, 4⟩
@[reducible] def F.POS_STAT_VALID : Fld := ⟨R.POS_STAT, 0, 4⟩
@[reducible] def F.POS_ADC_LAT_LAT : Fld := ⟨R.POS_ADC_LAT, 0, 16⟩
@[reducible] def F.POS_Y_HI_VALUE : Fld := ⟨R.POS_Y_HI, 0, 16⟩
@[reducible] def F.POS_X_HI_VALUE : Fld := ⟨R.POS_X_HI, 0, 16⟩
@[reducible] def F.POS_EST_CFG_K : Fld := ⟨R.POS_EST_CFG, 24, 4⟩
@[reducible] def F.POS_EST_CFG_MIN : Fld := ⟨R.POS_EST_CFG, 16, 8⟩
@[reducible] def F.POS_EST_CFG_N : Fld := ⟨R.POS_EST_CFG, 0, 16⟩
@[reducible] def F.POS_RLIM_RMAX : Fld := ⟨R.POS_RLIM, 16, 16⟩
@[reducible] def F.POS_RLIM_RMIN : Fld := ⟨R.POS_RLIM, 0, 16⟩
@[reducible] def F.POS_CMD_AXES : Fld := ⟨R.POS_CMD, 8, 4⟩
@[reducible] def F.POS_CMD_CMD : Fld := ⟨R.POS_CMD, 0, 4⟩
@[reducible] def F.AX_CTRL_FOLD (i : Nat) : Fld := ⟨R.AX_CTRL i, 16, 4⟩
@[reducible] def F.AX_CTRL_NEG (i : Nat) : Fld := ⟨R.AX_CTRL i, 1, 1⟩
@[reducible] def F.AX_CTRL_SWAPIQ (i : Nat) : Fld := ⟨R.AX_CTRL i, 0, 1⟩
@[reducible] def F.AX_ORG_HI_VALUE (i : Nat) : Fld := ⟨R.AX_ORG_HI i, 0, 16⟩
@[reducible] def F.AX_CNT_HI_VALUE (i : Nat) : Fld := ⟨R.AX_CNT_HI i, 0, 16⟩
@[reducible] def F.AX_HEY_PQ_P (i : Nat) : Fld := ⟨R.AX_HEY_PQ i, 16, 16⟩
@[reducible] def F.AX_HEY_PQ_QO (i : Nat) : Fld := ⟨R.AX_HEY_PQ i, 0, 16⟩
@[reducible] def F.AX_HEY_RS_R (i : Nat) : Fld := ⟨R.AX_HEY_RS i, 16, 16⟩
@[reducible] def F.AX_HEY_RS_S (i : Nat) : Fld := ⟨R.AX_HEY_RS i, 0, 16⟩
@[reducible] def F.AX_CAND_PQ_P (i : Nat) : Fld := ⟨R.AX_CAND_PQ i, 16, 16⟩
@[reducible] def F.AX_CAND_PQ_QO (i : Nat) : Fld := ⟨R.AX_CAND_PQ i, 0, 16⟩
@[reducible] def F.AX_CAND_RS_R (i : Nat) : Fld := ⟨R.AX_CAND_RS i, 16, 16⟩
@[reducible] def F.AX_CAND_RS_S (i : Nat) : Fld := ⟨R.AX_CAND_RS i, 0, 16⟩
@[reducible] def F.AX_STAT_RADIUS (i : Nat) : Fld := ⟨R.AX_STAT i, 16, 16⟩
@[reducible] def F.AX_STAT_CAND_VALID (i : Nat) : Fld := ⟨R.AX_STAT i, 8, 1⟩
@[reducible] def F.AX_STAT_SLIP (i : Nat) : Fld := ⟨R.AX_STAT i, 2, 1⟩
@[reducible] def F.AX_STAT_LOST (i : Nat) : Fld := ⟨R.AX_STAT i, 1, 1⟩
@[reducible] def F.AX_STAT_VALID (i : Nat) : Fld := ⟨R.AX_STAT i, 0, 1⟩
@[reducible] def F.AX_WIN_DISCARDED (i : Nat) : Fld := ⟨R.AX_WIN i, 16, 16⟩
@[reducible] def F.AX_WIN_CLOSED (i : Nat) : Fld := ⟨R.AX_WIN i, 0, 16⟩
@[reducible] def F.SHT_CFG_VWIN : Fld := ⟨R.SHT_CFG, 0, 3⟩
@[reducible] def F.SHT_SEAL_LEAD_NS : Fld := ⟨R.SHT_SEAL_LEAD, 0, 9⟩
@[reducible] def F.SHT_BACKLASH_COUNTS : Fld := ⟨R.SHT_BACKLASH, 0, 16⟩
@[reducible] def F.SHT_MIN_PERIOD_NS : Fld := ⟨R.SHT_MIN_PERIOD, 0, 16⟩
@[reducible] def F.SHT_DELAY_DLY_R : Fld := ⟨R.SHT_DELAY, 16, 16⟩
@[reducible] def F.SHT_DELAY_DLY_F : Fld := ⟨R.SHT_DELAY, 0, 16⟩
@[reducible] def F.SHT_PRED_ERR_MAX : Fld := ⟨R.SHT_PRED_ERR, 16, 16⟩
@[reducible] def F.SHT_PRED_ERR_LAST : Fld := ⟨R.SHT_PRED_ERR, 0, 16⟩
@[reducible] def F.TRK_CFG_EN : Fld := ⟨R.TRK_CFG, 31, 1⟩
@[reducible] def F.TRK_CFG_FF : Fld := ⟨R.TRK_CFG, 30, 1⟩
@[reducible] def F.TRK_CFG_FEC : Fld := ⟨R.TRK_CFG, 29, 1⟩
@[reducible] def F.TRK_OFFX_OFFX_R : Fld := ⟨R.TRK_OFFX, 16, 16⟩
@[reducible] def F.TRK_OFFX_OFFX_F : Fld := ⟨R.TRK_OFFX, 0, 16⟩
@[reducible] def F.TRK_EMAX_LIMIT : Fld := ⟨R.TRK_EMAX, 0, 16⟩
@[reducible] def F.TRK_IDX_INDEX : Fld := ⟨R.TRK_IDX, 0, 12⟩
@[reducible] def F.TRK_DATA_RAMP_X : Fld := ⟨R.TRK_DATA, 16, 16⟩
@[reducible] def F.TRK_DATA_RAMP_Y : Fld := ⟨R.TRK_DATA, 0, 16⟩
@[reducible] def F.TRK_STAT_JTX_UP : Fld := ⟨R.TRK_STAT, 31, 1⟩
@[reducible] def F.TRK_STAT_INDEX : Fld := ⟨R.TRK_STAT, 0, 12⟩
@[reducible] def F.CAL_CFG_TSEL : Fld := ⟨R.CAL_CFG, 24, 5⟩
@[reducible] def F.CAL_CFG_RAMP : Fld := ⟨R.CAL_CFG, 0, 4⟩
@[reducible] def F.CAL_DT_DT : Fld := ⟨R.CAL_DT, 0, 8⟩
@[reducible] def F.CAL_RAMP_MS : Fld := ⟨R.CAL_RAMP, 0, 16⟩
@[reducible] def F.CAL_CMD_CMD : Fld := ⟨R.CAL_CMD, 0, 4⟩
@[reducible] def F.CAL_TEXT_TEMP : Fld := ⟨R.CAL_TEXT, 0, 16⟩
@[reducible] def F.CAL_TREF_TEMP : Fld := ⟨R.CAL_TREF, 0, 16⟩
@[reducible] def F.CAL_STAT_PENDING : Fld := ⟨R.CAL_STAT, 31, 1⟩
@[reducible] def F.CAL_STAT_RAMPING : Fld := ⟨R.CAL_STAT, 30, 1⟩
@[reducible] def F.CAL_STAT_CAUSE : Fld := ⟨R.CAL_STAT, 28, 2⟩
@[reducible] def F.CAL_STAT_AXES : Fld := ⟨R.CAL_STAT, 0, 4⟩
@[reducible] def F.JOB_CMD_CMD : Fld := ⟨R.JOB_CMD, 0, 4⟩
@[reducible] def F.JOB_STAT_LAST : Fld := ⟨R.JOB_STAT, 31, 1⟩
@[reducible] def F.JOB_STAT_DEPTH : Fld := ⟨R.JOB_STAT, 16, 11⟩
@[reducible] def F.JOB_STAT_NEXT : Fld := ⟨R.JOB_STAT, 0, 2⟩
@[reducible] def F.JOB_REFUSE_CODE : Fld := ⟨R.JOB_REFUSE, 0, 4⟩
@[reducible] def F.MOT_CFG_EN : Fld := ⟨R.MOT_CFG, 8, 1⟩
@[reducible] def F.MOT_CFG_SUPPLY : Fld := ⟨R.MOT_CFG, 4, 1⟩
@[reducible] def F.MOT_CFG_LTQ : Fld := ⟨R.MOT_CFG, 0, 4⟩
@[reducible] def F.MOT_LEAD_US : Fld := ⟨R.MOT_LEAD, 0, 16⟩
@[reducible] def F.MOT_PMARGIN_NS : Fld := ⟨R.MOT_PMARGIN, 0, 8⟩
@[reducible] def F.MOT_RACK_REPEAT : Fld := ⟨R.MOT_RACK, 16, 4⟩
@[reducible] def F.MOT_RACK_DWELL : Fld := ⟨R.MOT_RACK, 0, 16⟩
@[reducible] def F.MOT_RACK_WAIT_MS : Fld := ⟨R.MOT_RACK_WAIT, 0, 16⟩
@[reducible] def F.MOT_FE_Y_TRIP : Fld := ⟨R.MOT_FE_Y, 16, 16⟩
@[reducible] def F.MOT_FE_Y_WARN : Fld := ⟨R.MOT_FE_Y, 0, 16⟩
@[reducible] def F.MOT_FE_X_TRIP : Fld := ⟨R.MOT_FE_X, 16, 16⟩
@[reducible] def F.MOT_FE_X_WARN : Fld := ⟨R.MOT_FE_X, 0, 16⟩
@[reducible] def F.MOT_CMD_CMD : Fld := ⟨R.MOT_CMD, 0, 4⟩
@[reducible] def F.MOT_STAT_MOVING : Fld := ⟨R.MOT_STAT, 31, 1⟩
@[reducible] def F.MOT_STAT_LATCHED : Fld := ⟨R.MOT_STAT, 30, 1⟩
@[reducible] def F.MOT_STAT_REFUSED : Fld := ⟨R.MOT_STAT, 29, 1⟩
@[reducible] def F.MOT_STAT_SUPPLY : Fld := ⟨R.MOT_STAT, 28, 1⟩
@[reducible] def F.MOT_STAT_WAIT : Fld := ⟨R.MOT_STAT, 27, 1⟩
@[reducible] def F.MOT_STAT_PHASE : Fld := ⟨R.MOT_STAT, 0, 4⟩
@[reducible] def F.MOT_FE_MAX_Y : Fld := ⟨R.MOT_FE_MAX, 16, 16⟩
@[reducible] def F.MOT_FE_MAX_X : Fld := ⟨R.MOT_FE_MAX, 0, 16⟩
@[reducible] def F.MOT_RACK_INFO_CAUSE : Fld := ⟨R.MOT_RACK_INFO, 28, 4⟩
@[reducible] def F.MOT_RACK_INFO_REPEAT : Fld := ⟨R.MOT_RACK_INFO, 24, 4⟩
@[reducible] def F.MOT_RACK_INFO_STRIPE_LO : Fld := ⟨R.MOT_RACK_INFO, 0, 16⟩
@[reducible] def F.PAR_CFG_ACCEPT : Fld := ⟨R.PAR_CFG, 9, 1⟩
@[reducible] def F.PAR_CFG_PREFER : Fld := ⟨R.PAR_CFG, 8, 1⟩
@[reducible] def F.PAR_CFG_COMEBACK : Fld := ⟨R.PAR_CFG, 0, 1⟩
@[reducible] def F.PAR_CMD_CMD : Fld := ⟨R.PAR_CMD, 0, 4⟩
@[reducible] def F.PAR_STAT_DIGEST_EQ : Fld := ⟨R.PAR_STAT, 28, 1⟩
@[reducible] def F.PAR_STAT_JOIN_STEP : Fld := ⟨R.PAR_STAT, 24, 4⟩
@[reducible] def F.PAR_STAT_LANES_UP : Fld := ⟨R.PAR_STAT, 16, 8⟩
@[reducible] def F.PAR_STAT_JOIN_ERR : Fld := ⟨R.PAR_STAT, 12, 4⟩
@[reducible] def F.PAR_STAT_WD_MATE : Fld := ⟨R.PAR_STAT, 9, 1⟩
@[reducible] def F.PAR_STAT_WD_SELF : Fld := ⟨R.PAR_STAT, 8, 1⟩
@[reducible] def F.PAR_STAT_MATE : Fld := ⟨R.PAR_STAT, 4, 2⟩
@[reducible] def F.PAR_STAT_ROLE : Fld := ⟨R.PAR_STAT, 0, 3⟩
@[reducible] def F.PAR_HB_NET_TIMEOUT : Fld := ⟨R.PAR_HB, 16, 16⟩
@[reducible] def F.PAR_HB_HB_TIMEOUT : Fld := ⟨R.PAR_HB, 0, 16⟩
@[reducible] def F.PAR_SPLIT_INFO_CAUSE : Fld := ⟨R.PAR_SPLIT_INFO, 28, 4⟩
@[reducible] def F.PAR_SPLIT_INFO_STRIPE_LO : Fld := ⟨R.PAR_SPLIT_INFO, 0, 16⟩
@[reducible] def F.PAR_FIJ_CFG_KIND : Fld := ⟨R.PAR_FIJ_CFG, 28, 4⟩
@[reducible] def F.PAR_FIJ_CFG_TARGET : Fld := ⟨R.PAR_FIJ_CFG, 16, 8⟩
@[reducible] def F.PAR_FIJ_CFG_ALL : Fld := ⟨R.PAR_FIJ_CFG, 15, 1⟩
@[reducible] def F.PAR_FIJ_CFG_PLANE : Fld := ⟨R.PAR_FIJ_CFG, 8, 6⟩
@[reducible] def F.PAR_FIJ_CFG_LANE : Fld := ⟨R.PAR_FIJ_CFG, 0, 3⟩
@[reducible] def F.PAR_FIJ_BITS_NBITS : Fld := ⟨R.PAR_FIJ_BITS, 28, 4⟩
@[reducible] def F.PAR_FIJ_BITS_BIT : Fld := ⟨R.PAR_FIJ_BITS, 0, 13⟩
@[reducible] def F.PAR_LANES_TX_UP : Fld := ⟨R.PAR_LANES, 8, 8⟩
@[reducible] def F.PAR_LANES_RX_UP : Fld := ⟨R.PAR_LANES, 0, 8⟩
@[reducible] def F.NET_CFG_SPEED (i : Nat) : Fld := ⟨R.NET_CFG i, 16, 3⟩
@[reducible] def F.NET_CFG_FEC (i : Nat) : Fld := ⟨R.NET_CFG i, 12, 2⟩
@[reducible] def F.NET_CFG_DORMANT (i : Nat) : Fld := ⟨R.NET_CFG i, 8, 1⟩
@[reducible] def F.NET_CFG_V4 (i : Nat) : Fld := ⟨R.NET_CFG i, 4, 1⟩
@[reducible] def F.NET_CFG_V6 (i : Nat) : Fld := ⟨R.NET_CFG i, 3, 1⟩
@[reducible] def F.NET_CFG_VLAN (i : Nat) : Fld := ⟨R.NET_CFG i, 0, 1⟩
@[reducible] def F.NET_STAT_LINK (i : Nat) : Fld := ⟨R.NET_STAT i, 31, 1⟩
@[reducible] def F.NET_STAT_SPEED (i : Nat) : Fld := ⟨R.NET_STAT i, 28, 3⟩
@[reducible] def F.NET_STAT_FEC (i : Nat) : Fld := ⟨R.NET_STAT i, 26, 2⟩
@[reducible] def F.NET_MAC_HI_MAC (i : Nat) : Fld := ⟨R.NET_MAC_HI i, 0, 16⟩
@[reducible] def F.NET_VLAN_PCP (i : Nat) : Fld := ⟨R.NET_VLAN i, 13, 3⟩
@[reducible] def F.NET_VLAN_VID (i : Nat) : Fld := ⟨R.NET_VLAN i, 0, 12⟩
@[reducible] def F.NET_PORTS_EVT (i : Nat) : Fld := ⟨R.NET_PORTS i, 16, 16⟩
@[reducible] def F.NET_PORTS_MSG (i : Nat) : Fld := ⟨R.NET_PORTS i, 0, 16⟩
@[reducible] def F.NET_TS_LAT_RX (i : Nat) : Fld := ⟨R.NET_TS_LAT i, 16, 16⟩
@[reducible] def F.NET_TS_LAT_TX (i : Nat) : Fld := ⟨R.NET_TS_LAT i, 0, 16⟩
@[reducible] def F.NET_FIJ_CFG_KIND (i : Nat) : Fld := ⟨R.NET_FIJ_CFG i, 28, 4⟩
@[reducible] def F.NET_FIJ_CFG_ALL (i : Nat) : Fld := ⟨R.NET_FIJ_CFG i, 27, 1⟩
@[reducible] def F.NET_FIJ_CFG_TARGET (i : Nat) : Fld := ⟨R.NET_FIJ_CFG i, 0, 8⟩
@[reducible] def F.NET_FIJ_BITS_NBITS (i : Nat) : Fld := ⟨R.NET_FIJ_BITS i, 28, 4⟩
@[reducible] def F.NET_FIJ_BITS_BIT (i : Nat) : Fld := ⟨R.NET_FIJ_BITS i, 0, 11⟩
@[reducible] def F.TIM_CFG_SERVO : Fld := ⟨R.TIM_CFG, 31, 1⟩
@[reducible] def F.TIM_CFG_XPORT : Fld := ⟨R.TIM_CFG, 24, 2⟩
@[reducible] def F.TIM_CFG_PORT : Fld := ⟨R.TIM_CFG, 16, 2⟩
@[reducible] def F.TIM_CFG_DOMAIN : Fld := ⟨R.TIM_CFG, 8, 7⟩
@[reducible] def F.TIM_STAT_STATE : Fld := ⟨R.TIM_STAT, 30, 2⟩
@[reducible] def F.TIM_STAT_DEFERRED : Fld := ⟨R.TIM_STAT, 29, 1⟩
@[reducible] def F.TIM_STAT_PORT : Fld := ⟨R.TIM_STAT, 16, 1⟩
@[reducible] def F.TIM_LOCK_THR_NS : Fld := ⟨R.TIM_LOCK_THR, 0, 16⟩
@[reducible] def F.TIM_SLEW_PPM : Fld := ⟨R.TIM_SLEW, 0, 16⟩
@[reducible] def F.TIM_CMD_CMD : Fld := ⟨R.TIM_CMD, 0, 4⟩
@[reducible] def F.TIM_UTC_OFF_OFF : Fld := ⟨R.TIM_UTC_OFF, 0, 16⟩
@[reducible] def F.LTQ_Q_CFG_EN (i : Nat) : Fld := ⟨R.LTQ_Q_CFG i, 31, 1⟩
@[reducible] def F.LTQ_Q_CFG_SEND_LATE (i : Nat) : Fld := ⟨R.LTQ_Q_CFG i, 30, 1⟩
@[reducible] def F.LTQ_Q_CFG_PORT (i : Nat) : Fld := ⟨R.LTQ_Q_CFG i, 28, 2⟩
@[reducible] def F.LTQ_Q_CFG_TOL (i : Nat) : Fld := ⟨R.LTQ_Q_CFG i, 0, 16⟩
@[reducible] def F.LTQ_Q_STAT_DEPTH (i : Nat) : Fld := ⟨R.LTQ_Q_STAT i, 0, 9⟩
@[reducible] def F.LTQ_POOL_FREE_FREE : Fld := ⟨R.LTQ_POOL_FREE, 0, 11⟩
@[reducible] def F.IDN_CMD_CMD : Fld := ⟨R.IDN_CMD, 0, 4⟩
@[reducible] def F.IDN_STAT_OWNER : Fld := ⟨R.IDN_STAT, 31, 1⟩
@[reducible] def F.IDN_STAT_NOTIME : Fld := ⟨R.IDN_STAT, 30, 1⟩
@[reducible] def F.IDN_STAT_ANCHORS : Fld := ⟨R.IDN_STAT, 24, 4⟩
@[reducible] def F.IDN_STAT_ERR : Fld := ⟨R.IDN_STAT, 20, 4⟩
@[reducible] def F.IDN_STAT_WINDOW : Fld := ⟨R.IDN_STAT, 0, 3⟩
@[reducible] def F.IDN_IDX_INDEX : Fld := ⟨R.IDN_IDX, 0, 10⟩
@[reducible] def F.IDN_SESS_UP : Fld := ⟨R.IDN_SESS, 0, 8⟩
@[reducible] def F.IDN_POLICY_ATT_AUTH : Fld := ⟨R.IDN_POLICY, 2, 1⟩
@[reducible] def F.IDN_POLICY_SP_AUTH : Fld := ⟨R.IDN_POLICY, 1, 1⟩
@[reducible] def F.IDN_POLICY_RD_AUTH : Fld := ⟨R.IDN_POLICY, 0, 1⟩
@[reducible] def F.DSC_CFG_INTERVAL : Fld := ⟨R.DSC_CFG, 16, 16⟩
@[reducible] def F.DSC_CFG_COLUMN : Fld := ⟨R.DSC_CFG, 0, 9⟩
@[reducible] def F.DSC_STAT_ENTRIES : Fld := ⟨R.DSC_STAT, 16, 7⟩
@[reducible] def F.DSC_STAT_MATE : Fld := ⟨R.DSC_STAT, 0, 1⟩
@[reducible] def F.DSC_SEL_SEL : Fld := ⟨R.DSC_SEL, 0, 6⟩
@[reducible] def F.DSC_E_INFO_VALID : Fld := ⟨R.DSC_E_INFO, 31, 1⟩
@[reducible] def F.DSC_E_INFO_SESSION : Fld := ⟨R.DSC_E_INFO, 30, 1⟩
@[reducible] def F.DSC_E_INFO_ROLE : Fld := ⟨R.DSC_E_INFO, 27, 3⟩
@[reducible] def F.DSC_E_INFO_PREF : Fld := ⟨R.DSC_E_INFO, 26, 1⟩
@[reducible] def F.DSC_E_INFO_HEARD : Fld := ⟨R.DSC_E_INFO, 24, 2⟩
@[reducible] def F.DSC_E_INFO_STATE : Fld := ⟨R.DSC_E_INFO, 20, 4⟩
@[reducible] def F.DSC_E_INFO_COLUMN : Fld := ⟨R.DSC_E_INFO, 0, 9⟩
@[reducible] def F.MC_CFG_SOLDERED (i : Nat) : Fld := ⟨R.MC_CFG i, 31, 1⟩
@[reducible] def F.MC_CFG_RATE (i : Nat) : Fld := ⟨R.MC_CFG i, 16, 2⟩
@[reducible] def F.MC_CFG_CAPAR (i : Nat) : Fld := ⟨R.MC_CFG i, 0, 1⟩
@[reducible] def F.MC_STAT_TRAINED (i : Nat) : Fld := ⟨R.MC_STAT i, 31, 1⟩
@[reducible] def F.MC_STAT_REF_HIGH (i : Nat) : Fld := ⟨R.MC_STAT i, 12, 2⟩
@[reducible] def F.MC_STAT_RANK1 (i : Nat) : Fld := ⟨R.MC_STAT i, 10, 2⟩
@[reducible] def F.MC_STAT_RANK0 (i : Nat) : Fld := ⟨R.MC_STAT i, 8, 2⟩
@[reducible] def F.MC_GEOM_RANKS (i : Nat) : Fld := ⟨R.MC_GEOM i, 24, 2⟩
@[reducible] def F.MC_GEOM_DENS (i : Nat) : Fld := ⟨R.MC_GEOM i, 16, 1⟩
@[reducible] def F.MC_SCHED_HIT_CAP (i : Nat) : Fld := ⟨R.MC_SCHED i, 24, 8⟩
@[reducible] def F.MC_SCHED_AGE (i : Nat) : Fld := ⟨R.MC_SCHED i, 12, 12⟩
@[reducible] def F.MC_SCHED_WR_HI (i : Nat) : Fld := ⟨R.MC_SCHED i, 6, 6⟩
@[reducible] def F.MC_SCHED_WR_LO (i : Nat) : Fld := ⟨R.MC_SCHED i, 0, 6⟩
@[reducible] def F.MC_MR4_RANK1 (i : Nat) : Fld := ⟨R.MC_MR4 i, 8, 3⟩
@[reducible] def F.MC_MR4_RANK0 (i : Nat) : Fld := ⟨R.MC_MR4 i, 0, 3⟩
@[reducible] def F.MC_ERR_HI_UE (i : Nat) : Fld := ⟨R.MC_ERR_HI i, 31, 1⟩
@[reducible] def F.MC_ERR_HI_DEVICE (i : Nat) : Fld := ⟨R.MC_ERR_HI i, 24, 4⟩
@[reducible] def F.MC_ERR_HI_SUB (i : Nat) : Fld := ⟨R.MC_ERR_HI i, 23, 1⟩
@[reducible] def F.MC_ERR_HI_RANK (i : Nat) : Fld := ⟨R.MC_ERR_HI i, 22, 1⟩
@[reducible] def F.MC_ERR_HI_ADDR (i : Nat) : Fld := ⟨R.MC_ERR_HI i, 0, 8⟩
@[reducible] def F.MEM_CFG_CE_RATE : Fld := ⟨R.MEM_CFG, 16, 8⟩
@[reducible] def F.MEM_CFG_SPARE : Fld := ⟨R.MEM_CFG, 1, 1⟩
@[reducible] def F.MEM_CFG_ECC_MODE : Fld := ⟨R.MEM_CFG, 0, 1⟩
@[reducible] def F.MEM_STAT_MIG : Fld := ⟨R.MEM_STAT, 31, 1⟩
@[reducible] def F.MEM_STAT_MIG_QUEUED : Fld := ⟨R.MEM_STAT, 30, 1⟩
@[reducible] def F.MEM_STAT_MIG_CH : Fld := ⟨R.MEM_STAT, 28, 2⟩
@[reducible] def F.MEM_STAT_SPARE_USED : Fld := ⟨R.MEM_STAT, 4, 4⟩
@[reducible] def F.MEM_STAT_NO_SPARE : Fld := ⟨R.MEM_STAT, 0, 4⟩
@[reducible] def F.MEM_MIG_RATE_RATE : Fld := ⟨R.MEM_MIG_RATE, 0, 16⟩
@[reducible] def F.MEM_REC_RING_EN : Fld := ⟨R.MEM_REC_RING, 8, 1⟩
@[reducible] def F.MEM_REC_RING_RING : Fld := ⟨R.MEM_REC_RING, 0, 4⟩
@[reducible] def F.MEM_TRAIN_WAIT : Fld := ⟨R.MEM_TRAIN, 31, 1⟩
@[reducible] def F.MEM_TRAIN_DONE : Fld := ⟨R.MEM_TRAIN, 30, 1⟩
@[reducible] def F.MEM_TRAIN_FAIL : Fld := ⟨R.MEM_TRAIN, 29, 1⟩
@[reducible] def F.MEM_TRAIN_CMD : Fld := ⟨R.MEM_TRAIN, 0, 4⟩
@[reducible] def F.MEM_SCRUB_CFG_MODE : Fld := ⟨R.MEM_SCRUB_CFG, 30, 2⟩
@[reducible] def F.MEM_SCRUB_CFG_RATE : Fld := ⟨R.MEM_SCRUB_CFG, 0, 16⟩
@[reducible] def F.MEM_SCRUB_CMD_CMD : Fld := ⟨R.MEM_SCRUB_CMD, 0, 4⟩
@[reducible] def F.MEM_SCRUB_STAT_STATE : Fld := ⟨R.MEM_SCRUB_STAT, 30, 2⟩
@[reducible] def F.MEM_SCRUB_STAT_PAUSED : Fld := ⟨R.MEM_SCRUB_STAT, 29, 1⟩
@[reducible] def F.MEM_SRAM_LOC_ARRAY : Fld := ⟨R.MEM_SRAM_LOC, 24, 8⟩
@[reducible] def F.MEM_SRAM_LOC_UE : Fld := ⟨R.MEM_SRAM_LOC, 23, 1⟩
@[reducible] def F.MEM_SRAM_LOC_WORD : Fld := ⟨R.MEM_SRAM_LOC, 0, 20⟩
@[reducible] def F.CK_CFG_POLY (i : Nat) : Fld := ⟨R.CK_CFG i, 0, 2⟩
@[reducible] def F.CK_CMD_CMD (i : Nat) : Fld := ⟨R.CK_CMD i, 0, 4⟩
@[reducible] def F.CK_FEED8_DATA (i : Nat) : Fld := ⟨R.CK_FEED8 i, 0, 8⟩
@[reducible] def F.CK_FEED16_DATA (i : Nat) : Fld := ⟨R.CK_FEED16 i, 0, 16⟩
@[reducible] def F.THM_CFG_DWELL : Fld := ⟨R.THM_CFG, 24, 4⟩
@[reducible] def F.THM_CFG_HYST : Fld := ⟨R.THM_CFG, 16, 8⟩
@[reducible] def F.THM_CFG_XCHK : Fld := ⟨R.THM_CFG, 8, 8⟩
@[reducible] def F.THM_CFG_XROUNDS : Fld := ⟨R.THM_CFG, 4, 4⟩
@[reducible] def F.THM_CFG_HK_HYST : Fld := ⟨R.THM_CFG, 0, 4⟩
@[reducible] def F.THM_MAX_SENSOR : Fld := ⟨R.THM_MAX, 16, 5⟩
@[reducible] def F.THM_MAX_TEMP : Fld := ⟨R.THM_MAX, 0, 16⟩
@[reducible] def F.THM_WARN_TEMP : Fld := ⟨R.THM_WARN, 0, 16⟩
@[reducible] def F.THM_TRIP_TEMP : Fld := ⟨R.THM_TRIP, 0, 16⟩
@[reducible] def F.THM_RISE_TRIP : Fld := ⟨R.THM_RISE, 16, 16⟩
@[reducible] def F.THM_RISE_WARN : Fld := ⟨R.THM_RISE, 0, 16⟩
@[reducible] def F.THM_STAT_WARN : Fld := ⟨R.THM_STAT, 31, 1⟩
@[reducible] def F.THM_STAT_TRIP : Fld := ⟨R.THM_STAT, 30, 1⟩
@[reducible] def F.THM_STAT_RWARN : Fld := ⟨R.THM_STAT, 29, 1⟩
@[reducible] def F.THM_STAT_RTRIP : Fld := ⟨R.THM_STAT, 28, 1⟩
@[reducible] def F.THM_STAT_EXCL : Fld := ⟨R.THM_STAT, 0, 28⟩
@[reducible] def F.THM_CMD_SENSOR : Fld := ⟨R.THM_CMD, 8, 5⟩
@[reducible] def F.THM_CMD_CMD : Fld := ⟨R.THM_CMD, 0, 4⟩
@[reducible] def F.THM_RISE_MAX_SENSOR : Fld := ⟨R.THM_RISE_MAX, 16, 5⟩
@[reducible] def F.THM_RISE_MAX_RATE : Fld := ⟨R.THM_RISE_MAX, 0, 16⟩
@[reducible] def F.THM_T_TEMP (i : Nat) : Fld := ⟨R.THM_T i, 0, 16⟩
@[reducible] def F.HK_VAL_VAL (i : Nat) : Fld := ⟨R.HK_VAL i, 0, 16⟩
@[reducible] def F.HK_LIM_HIGH (i : Nat) : Fld := ⟨R.HK_LIM i, 16, 16⟩
@[reducible] def F.HK_LIM_LOW (i : Nat) : Fld := ⟨R.HK_LIM i, 0, 16⟩
@[reducible] def F.HK_STAT_HI (i : Nat) : Fld := ⟨R.HK_STAT i, 1, 1⟩
@[reducible] def F.HK_STAT_LO (i : Nat) : Fld := ⟨R.HK_STAT i, 0, 1⟩
@[reducible] def F.AGE_CFG_AUTO : Fld := ⟨R.AGE_CFG, 31, 1⟩
@[reducible] def F.AGE_CFG_TARGET : Fld := ⟨R.AGE_CFG, 16, 8⟩
@[reducible] def F.AGE_CFG_WARN : Fld := ⟨R.AGE_CFG, 8, 8⟩
@[reducible] def F.AGE_CFG_CRIT : Fld := ⟨R.AGE_CFG, 0, 8⟩
@[reducible] def F.AGE_CMD_CMD : Fld := ⟨R.AGE_CMD, 0, 4⟩
@[reducible] def F.AGE_STAT_PLAN : Fld := ⟨R.AGE_STAT, 30, 2⟩
@[reducible] def F.AGE_STAT_BURN : Fld := ⟨R.AGE_STAT, 29, 1⟩
@[reducible] def F.AGE_STAT_USED : Fld := ⟨R.AGE_STAT, 20, 9⟩
@[reducible] def F.AGE_STAT_ERR : Fld := ⟨R.AGE_STAT, 16, 4⟩
@[reducible] def F.AGE_AVS_CODE : Fld := ⟨R.AGE_AVS, 0, 5⟩
@[reducible] def F.AGE_CAN_MIN_CANARY : Fld := ⟨R.AGE_CAN_MIN, 16, 6⟩
@[reducible] def F.AGE_CAN_MIN_PS : Fld := ⟨R.AGE_CAN_MIN, 0, 16⟩
@[reducible] def F.AGE_IDX_WIN : Fld := ⟨R.AGE_IDX, 28, 4⟩
@[reducible] def F.AGE_IDX_INDEX : Fld := ⟨R.AGE_IDX, 0, 12⟩
@[reducible] def F.AGE_FOM_MIN_LANE : Fld := ⟨R.AGE_FOM_MIN, 8, 6⟩
@[reducible] def F.AGE_FOM_MIN_FOM : Fld := ⟨R.AGE_FOM_MIN, 0, 8⟩
@[reducible] def F.BST_CFG_EN : Fld := ⟨R.BST_CFG, 31, 1⟩
@[reducible] def F.BST_CFG_TAPS : Fld := ⟨R.BST_CFG, 30, 1⟩
@[reducible] def F.BST_CFG_PE : Fld := ⟨R.BST_CFG, 29, 1⟩
@[reducible] def F.BST_CFG_SI : Fld := ⟨R.BST_CFG, 28, 1⟩
@[reducible] def F.BST_CFG_INTERVAL : Fld := ⟨R.BST_CFG, 0, 16⟩
@[reducible] def F.BST_PATTERNS_GROUPS : Fld := ⟨R.BST_PATTERNS, 0, 16⟩
@[reducible] def F.BST_IDLE_US : Fld := ⟨R.BST_IDLE, 0, 16⟩
@[reducible] def F.BST_YIELD_MAX_YIELDS : Fld := ⟨R.BST_YIELD_MAX, 0, 16⟩
@[reducible] def F.BST_STAT_STATE : Fld := ⟨R.BST_STAT, 30, 2⟩
@[reducible] def F.BST_STAT_SLICE : Fld := ⟨R.BST_STAT, 23, 7⟩
@[reducible] def F.BST_STAT_NEXT : Fld := ⟨R.BST_STAT, 16, 7⟩
@[reducible] def F.BST_STAT_GROUP : Fld := ⟨R.BST_STAT, 0, 16⟩
@[reducible] def F.BST_CMD_CMD : Fld := ⟨R.BST_CMD, 0, 4⟩
@[reducible] def F.BST_LAST_FAIL_SLICE : Fld := ⟨R.BST_LAST_FAIL, 24, 8⟩
@[reducible] def F.BST_LAST_FAIL_KIND : Fld := ⟨R.BST_LAST_FAIL, 20, 4⟩
@[reducible] def F.AON_RST_CAUSE_SUPPLY : Fld := ⟨R.AON_RST_CAUSE, 4, 1⟩
@[reducible] def F.AON_RST_CAUSE_COMMAND : Fld := ⟨R.AON_RST_CAUSE, 3, 1⟩
@[reducible] def F.AON_RST_CAUSE_THERMAL : Fld := ⟨R.AON_RST_CAUSE, 2, 1⟩
@[reducible] def F.AON_RST_CAUSE_PIN : Fld := ⟨R.AON_RST_CAUSE, 1, 1⟩
@[reducible] def F.AON_RST_CAUSE_POR : Fld := ⟨R.AON_RST_CAUSE, 0, 1⟩
@[reducible] def F.AON_RST_CMD_KEY : Fld := ⟨R.AON_RST_CMD, 0, 16⟩
@[reducible] def F.AON_WAKE_CFG_PIN : Fld := ⟨R.AON_WAKE_CFG, 2, 1⟩
@[reducible] def F.AON_WAKE_CFG_HOST : Fld := ⟨R.AON_WAKE_CFG, 1, 1⟩
@[reducible] def F.AON_WAKE_CFG_NET : Fld := ⟨R.AON_WAKE_CFG, 0, 1⟩
@[reducible] def F.AON_WAKE_SRC_SRC : Fld := ⟨R.AON_WAKE_SRC, 0, 2⟩
@[reducible] def F.CLK_STAT_DEVCLK : Fld := ⟨R.CLK_STAT, 9, 1⟩
@[reducible] def F.CLK_STAT_TIME_SRC : Fld := ⟨R.CLK_STAT, 8, 1⟩
@[reducible] def F.CLK_STAT_LOCKED : Fld := ⟨R.CLK_STAT, 0, 8⟩
@[reducible] def F.CLK_DEVCLK_EN : Fld := ⟨R.CLK_DEVCLK, 8, 1⟩
@[reducible] def F.CLK_DEVCLK_FREQ : Fld := ⟨R.CLK_DEVCLK, 0, 3⟩
@[reducible] def F.CLK_LAST_UNLOCK_DOMAINS : Fld := ⟨R.CLK_LAST_UNLOCK, 0, 8⟩
@[reducible] def F.PWR_CMD_DOMS : Fld := ⟨R.PWR_CMD, 8, 8⟩
@[reducible] def F.PWR_CMD_CMD : Fld := ⟨R.PWR_CMD, 0, 4⟩
@[reducible] def F.PWR_STAT_ON : Fld := ⟨R.PWR_STAT, 24, 8⟩
@[reducible] def F.PWR_STAT_REFUSE : Fld := ⟨R.PWR_STAT, 20, 4⟩
@[reducible] def F.PWR_STAT_DORM_ACCESS : Fld := ⟨R.PWR_STAT, 19, 1⟩
@[reducible] def F.PWR_STAT_WAKING : Fld := ⟨R.PWR_STAT, 18, 1⟩
@[reducible] def F.PWR_STAT_ENTERING : Fld := ⟨R.PWR_STAT, 17, 1⟩
@[reducible] def F.PWR_WAKE_US_US : Fld := ⟨R.PWR_WAKE_US, 0, 16⟩
@[reducible] def F.PWR_AVS_FAIL : Fld := ⟨R.PWR_AVS, 31, 1⟩
@[reducible] def F.PWR_AVS_MV : Fld := ⟨R.PWR_AVS, 0, 16⟩
@[reducible] def F.LDG_STAT_VIOL : Fld := ⟨R.LDG_STAT, 0, 7⟩
@[reducible] def F.LDG_SEL_ACCT : Fld := ⟨R.LDG_SEL, 0, 3⟩
@[reducible] def F.LDG_SNAP_IN_HI_VALUE : Fld := ⟨R.LDG_SNAP_IN_HI, 0, 16⟩
@[reducible] def F.LDG_SNAP_OUT_HI_VALUE : Fld := ⟨R.LDG_SNAP_OUT_HI, 0, 16⟩
@[reducible] def F.LDG_SNAP_HELD_HI_VALUE : Fld := ⟨R.LDG_SNAP_HELD_HI, 0, 16⟩
@[reducible] def F.LDG_VIOL_INFO_VALID : Fld := ⟨R.LDG_VIOL_INFO, 31, 1⟩
@[reducible] def F.LDG_VIOL_INFO_ACCT : Fld := ⟨R.LDG_VIOL_INFO, 24, 3⟩
@[reducible] def F.LDG_VIOL_INFO_TEST : Fld := ⟨R.LDG_VIOL_INFO, 16, 4⟩
@[reducible] def F.LDG_VIOL_INFO_LANE : Fld := ⟨R.LDG_VIOL_INFO, 0, 6⟩
@[reducible] def F.FIJ_ARM_KEY : Fld := ⟨R.FIJ_ARM, 16, 16⟩
@[reducible] def F.FIJ_ARM_ARM : Fld := ⟨R.FIJ_ARM, 0, 1⟩
@[reducible] def F.FIJ_EXPIRE_S : Fld := ⟨R.FIJ_EXPIRE, 0, 16⟩
@[reducible] def F.FIJ_STAT_ARMED : Fld := ⟨R.FIJ_STAT, 31, 1⟩
@[reducible] def F.FIJ_STAT_PAGES : Fld := ⟨R.FIJ_STAT, 16, 4⟩
@[reducible] def F.FIJ_STAT_LEFT : Fld := ⟨R.FIJ_STAT, 0, 16⟩
@[reducible] def F.EVT_ROUTE_MSIX (i : Nat) : Fld := ⟨R.EVT_ROUTE i, 31, 1⟩
@[reducible] def F.EVT_ROUTE_VECTOR (i : Nat) : Fld := ⟨R.EVT_ROUTE i, 24, 6⟩
@[reducible] def F.EVT_ROUTE_MSG (i : Nat) : Fld := ⟨R.EVT_ROUTE i, 23, 1⟩
@[reducible] def F.EVT_ROUTE_RING (i : Nat) : Fld := ⟨R.EVT_ROUTE i, 22, 1⟩
@[reducible] def F.HIF_LINK_UP : Fld := ⟨R.HIF_LINK, 31, 1⟩
@[reducible] def F.HIF_LINK_SPEED : Fld := ⟨R.HIF_LINK, 24, 3⟩
@[reducible] def F.HIF_LINK_WIDTH : Fld := ⟨R.HIF_LINK, 16, 5⟩
@[reducible] def F.HIF_LINK_L12 : Fld := ⟨R.HIF_LINK, 7, 1⟩
@[reducible] def F.HIF_LINK_DEGRADED : Fld := ⟨R.HIF_LINK, 6, 1⟩
@[reducible] def F.HIF_CPL_TO_MS : Fld := ⟨R.HIF_CPL_TO, 0, 16⟩
@[reducible] def F.TOP_STAT_PREV : Fld := ⟨R.TOP_STAT, 16, 4⟩
@[reducible] def F.TOP_STAT_ROLE : Fld := ⟨R.TOP_STAT, 8, 3⟩
@[reducible] def F.TOP_STAT_STATE : Fld := ⟨R.TOP_STAT, 0, 4⟩
@[reducible] def F.TOP_REFUSE_PAGE : Fld := ⟨R.TOP_REFUSE, 24, 8⟩
@[reducible] def F.TOP_REFUSE_CMD : Fld := ⟨R.TOP_REFUSE, 16, 8⟩
@[reducible] def F.TOP_REFUSE_COND : Fld := ⟨R.TOP_REFUSE, 8, 8⟩
@[reducible] def F.TOP_REFUSE_DETAIL : Fld := ⟨R.TOP_REFUSE, 0, 8⟩
@[reducible] def F.TOP_FAULT_CAUSE : Fld := ⟨R.TOP_FAULT, 24, 8⟩
@[reducible] def F.TOP_FAULT_PAGE : Fld := ⟨R.TOP_FAULT, 16, 8⟩
@[reducible] def F.TOP_FAULT_DETAIL : Fld := ⟨R.TOP_FAULT, 0, 16⟩
@[reducible] def F.OTP_STAT_LOADED : Fld := ⟨R.OTP_STAT, 31, 1⟩
@[reducible] def F.OTP_STAT_FAIL : Fld := ⟨R.OTP_STAT, 30, 1⟩
@[reducible] def F.OTP_STAT_CE : Fld := ⟨R.OTP_STAT, 0, 16⟩
@[reducible] def F.OTP_IDX_INDEX : Fld := ⟨R.OTP_IDX, 0, 14⟩
@[reducible] def F.OTP_FAIL_IDX_VALID : Fld := ⟨R.OTP_FAIL_IDX, 31, 1⟩
@[reducible] def F.OTP_FAIL_IDX_INDEX : Fld := ⟨R.OTP_FAIL_IDX, 0, 14⟩

/-! The register tables, one list a page kind: offset, count, stride, reset, RW, RWL and WO bits. -/

def tableTOP : List RegDesc :=
  [⟨0x100, 1, 0x4, 0x1, 0x0, 0x0, 0x0⟩,
   ⟨0x104, 1, 0x4, 0x0, 0x0, 0x0, 0x0⟩,
   ⟨0x108, 1, 0x4, 0x0, 0x0, 0x0, 0x0⟩,
   ⟨0x10c, 1, 0x4, 0x0, 0x0, 0x0, 0x0⟩]

def tableEVT : List RegDesc :=
  [⟨0x100, 256, 0x8, 0x0, 0xbfc00000, 0x0, 0x0⟩,
   ⟨0x104, 256, 0x8, 0x0, 0x0, 0x0, 0x0⟩,
   ⟨0x900, 8, 0x4, 0x0, 0x0, 0x0, 0x0⟩,
   ⟨0x920, 3, 0x4, 0x0, 0x0, 0x0, 0x0⟩,
   ⟨0x930, 1, 0x4, 0x0, 0x0, 0x0, 0x0⟩]

def tableAON : List RegDesc :=
  [⟨0x100, 1, 0x4, 0x1, 0x0, 0x0, 0x0⟩,
   ⟨0x104, 1, 0x4, 0x0, 0x0, 0x0, 0xffff⟩,
   ⟨0x108, 1, 0x4, 0x7, 0x7, 0x0, 0x0⟩,
   ⟨0x10c, 1, 0x4, 0x0, 0x0, 0x0, 0x0⟩]

def tableCLK : List RegDesc :=
  [⟨0x100, 1, 0x4, 0x0, 0x0, 0x0, 0x0⟩,
   ⟨0x104, 1, 0x4, 0x103, 0x0, 0x107, 0x0⟩,
   ⟨0x108, 1, 0x4, 0x0, 0x0, 0x0, 0x0⟩,
   ⟨0x10c, 1, 0x4, 0x0, 0x0, 0x0, 0x0⟩]

def tablePWR : List RegDesc :=
  [⟨0x100, 1, 0x4, 0x0, 0x0, 0x0, 0xff0f⟩,
   ⟨0x104, 1, 0x4, 0xff000000, 0x0, 0x0, 0x0⟩,
   ⟨0x108, 1, 0x4, 0x0, 0x0, 0x0, 0x0⟩,
   ⟨0x10c, 1, 0x4, 0x0, 0x0, 0x0, 0x0⟩,
   ⟨0x110, 1, 0x4, 0x0, 0x0, 0x0, 0x0⟩,
   ⟨0x114, 1, 0x4, 0x2ee, 0x0, 0x0, 0x0⟩]

def tableLDG : List RegDesc :=
  [⟨0x100, 1, 0x4, 0x0, 0x0, 0x0, 0x0⟩,
   ⟨0x104, 1, 0x4, 0x0, 0x7, 0x0, 0x0⟩,
   ⟨0x108, 1, 0x4, 0x0, 0x0, 0x0, 0x0⟩,
   ⟨0x10c, 1, 0x4, 0x0, 0x0, 0x0, 0x0⟩,
   ⟨0x110, 1, 0x4, 0x0, 0x0, 0x0, 0x0⟩,
   ⟨0x114, 1, 0x4, 0x0, 0x0, 0x0, 0x0⟩,
   ⟨0x118, 1, 0x4, 0x0, 0x0, 0x0, 0x0⟩,
   ⟨0x11c, 1, 0x4, 0x0, 0x0, 0x0, 0x0⟩,
   ⟨0x120, 1, 0x4, 0x0, 0x0, 0x0, 0x0⟩,
   ⟨0x124, 1, 0x4, 0x0, 0x0, 0x0, 0x0⟩,
   ⟨0x128, 1, 0x4, 0x0, 0x0, 0x0, 0x0⟩]

def tableFIJ : List RegDesc :=
  [⟨0x100, 1, 0x4, 0x0, 0x1, 0x0, 0xffff0000⟩,
   ⟨0x104, 1, 0x4, 0x258, 0xffff, 0x0, 0x0⟩,
   ⟨0x108, 1, 0x4, 0x0, 0x0, 0x0, 0x0⟩,
   ⟨0x10c, 1, 0x4, 0x0, 0x0, 0x0, 0x0⟩]

def tableJOB : List RegDesc :=
  [⟨0x100, 1, 0x4, 0x0, 0x0, 0x0, 0xf⟩,
   ⟨0x104, 1, 0x4, 0x0, 0x0, 0x0, 0x0⟩,
   ⟨0x108, 1, 0x4, 0x0, 0xffffffff, 0x0, 0x0⟩,
   ⟨0x10c, 1, 0x4, 0x0, 0x0, 0x0, 0x0⟩,
   ⟨0x110, 1, 0x4, 0x0, 0x0, 0x0, 0x0⟩,
   ⟨0x114, 1, 0x4, 0x0, 0x0, 0x0, 0x0⟩,
   ⟨0x118, 1, 0x4, 0x0, 0x0, 0x0, 0x0⟩]

def tableHIF : List RegDesc :=
  [⟨0x100, 1, 0x4, 0x0, 0x0, 0x0, 0x0⟩,
   ⟨0x104, 1, 0x4, 0x0, 0x0, 0x0, 0x0⟩,
   ⟨0x108, 1, 0x4, 0x0, 0x0, 0x0, 0x0⟩,
   ⟨0x10c, 1, 0x4, 0x0, 0x0, 0x0, 0x0⟩,
   ⟨0x110, 1, 0x4, 0x0, 0x0, 0x0, 0x0⟩,
   ⟨0x114, 1, 0x4, 0xa, 0xffff, 0x0, 0x0⟩,
   ⟨0x400, 256, 0x4, 0x0, 0xffffffff, 0x0, 0x0⟩,
   ⟨0x800, 2, 0x4, 0x0, 0x0, 0x0, 0x0⟩]

def tableDMA : List RegDesc :=
  [⟨0x100, 32, 0x40, 0x1, 0x103, 0x0, 0x0⟩,
   ⟨0x104, 32, 0x40, 0x0, 0x0, 0x0, 0x0⟩,
   ⟨0x108, 32, 0x40, 0x0, 0x0, 0x0, 0x0⟩,
   ⟨0x10c, 32, 0x40, 0x0, 0x0, 0x0, 0x0⟩,
   ⟨0x110, 32, 0x40, 0x0, 0x0, 0x0, 0x0⟩,
   ⟨0x114, 32, 0x40, 0x0, 0x0, 0x0, 0x0⟩,
   ⟨0x900, 1, 0x4, 0x0, 0x0, 0x0, 0x0⟩,
   ⟨0x904, 1, 0x4, 0x0, 0x0, 0x0, 0x0⟩]

def tableRNG : List RegDesc :=
  [⟨0x100, 128, 0x20, 0x0, 0xffffffff, 0x0, 0x0⟩,
   ⟨0x104, 128, 0x20, 0x0, 0xffffffff, 0x0, 0x0⟩,
   ⟨0x108, 128, 0x20, 0xc, 0x8001ff1f, 0x0, 0x40000000⟩,
   ⟨0x10c, 128, 0x20, 0x0, 0xffffffff, 0x0, 0x0⟩,
   ⟨0x110, 128, 0x20, 0x0, 0xffffffff, 0x0, 0x0⟩,
   ⟨0x114, 128, 0x20, 0x0, 0xffffffff, 0x0, 0x0⟩,
   ⟨0x118, 128, 0x20, 0x1, 0x0, 0x0, 0x0⟩]

def tableMC : List RegDesc :=
  [⟨0x100, 1, 0x4, 0x1, 0x0, 0x80030001, 0x0⟩,
   ⟨0x104, 1, 0x4, 0x0, 0x0, 0x0, 0x0⟩,
   ⟨0x108, 1, 0x4, 0x0, 0x0, 0x3010000, 0x0⟩,
   ⟨0x10c, 1, 0x4, 0x400c8c10, 0xffffffff, 0x0, 0x0⟩,
   ⟨0x110, 1, 0x4, 0x0, 0x0, 0x0, 0x0⟩,
   ⟨0x114, 1, 0x4, 0x0, 0x0, 0x0, 0x0⟩,
   ⟨0x118, 1, 0x4, 0x0, 0x0, 0x0, 0x0⟩,
   ⟨0x11c, 1, 0x4, 0x0, 0x0, 0x0, 0x0⟩,
   ⟨0x120, 1, 0x4, 0x0, 0x0, 0x0, 0x0⟩,
   ⟨0x124, 1, 0x4, 0x0, 0x0, 0x0, 0x0⟩,
   ⟨0x128, 1, 0x4, 0x0, 0x0, 0x0, 0x0⟩,
   ⟨0x12c, 1, 0x4, 0x0, 0x0, 0x0, 0x0⟩]

def tableMEM : List RegDesc :=
  [⟨0x100, 1, 0x4, 0x640000, 0x0, 0xff0003, 0x0⟩,
   ⟨0x104, 1, 0x4, 0x0, 0x0, 0x0, 0x0⟩,
   ⟨0x108, 1, 0x4, 0x50, 0xffff, 0x0, 0x0⟩,
   ⟨0x10c, 1, 0x4, 0x0, 0x0, 0x0, 0x0⟩,
   ⟨0x110, 1, 0x4, 0x0, 0x0, 0x0, 0x0⟩,
   ⟨0x114, 1, 0x4, 0x0, 0x10f, 0x0, 0x0⟩,
   ⟨0x118, 1, 0x4, 0x0, 0x0, 0x0, 0x0⟩,
   ⟨0x11c, 1, 0x4, 0x0, 0x0, 0x0, 0xf⟩,
   ⟨0x120, 1, 0x4, 0x0, 0xffffffff, 0x0, 0x0⟩,
   ⟨0x124, 1, 0x4, 0x0, 0xffffffff, 0x0, 0x0⟩,
   ⟨0x128, 1, 0x4, 0x0, 0xffffffff, 0x0, 0x0⟩,
   ⟨0x12c, 1, 0x4, 0x0, 0xffffffff, 0x0, 0x0⟩,
   ⟨0x130, 1, 0x4, 0xa, 0xc000ffff, 0x0, 0x0⟩,
   ⟨0x134, 1, 0x4, 0x0, 0x0, 0x0, 0xf⟩,
   ⟨0x138, 1, 0x4, 0x0, 0x0, 0x0, 0x0⟩,
   ⟨0x140, 1, 0x4, 0x0, 0x0, 0x0, 0x0⟩,
   ⟨0x144, 1, 0x4, 0x0, 0x0, 0x0, 0x0⟩,
   ⟨0x148, 1, 0x4, 0x0, 0x0, 0x0, 0x0⟩,
   ⟨0x14c, 1, 0x4, 0x0, 0x0, 0x0, 0x0⟩,
   ⟨0x150, 1, 0x4, 0x0, 0x0, 0x0, 0x0⟩,
   ⟨0x154, 1, 0x4, 0x0, 0x0, 0x0, 0x0⟩,
   ⟨0x158, 1, 0x4, 0x0, 0x0, 0x0, 0x0⟩,
   ⟨0x15c, 1, 0x4, 0x0, 0x0, 0x0, 0x0⟩,
   ⟨0x160, 1, 0x4, 0x0, 0x0, 0x0, 0x0⟩,
   ⟨0x164, 1, 0x4, 0x0, 0x0, 0x0, 0x0⟩,
   ⟨0x168, 1, 0x4, 0x0, 0x0, 0x0, 0x0⟩]

def tableCEL : List RegDesc :=
  [⟨0x100, 1, 0x4, 0x0, 0x0, 0x3ffffff, 0x0⟩,
   ⟨0x104, 1, 0x4, 0x0, 0x0, 0x7ffff, 0x0⟩,
   ⟨0x108, 1, 0x4, 0x0, 0x0, 0x0, 0x0⟩,
   ⟨0x10c, 1, 0x4, 0x0, 0x0, 0x0, 0x0⟩,
   ⟨0x110, 1, 0x4, 0x0, 0x0, 0x0, 0x0⟩,
   ⟨0x114, 1, 0x4, 0x0, 0x3ff, 0x0, 0x0⟩,
   ⟨0x118, 1, 0x4, 0x0, 0x0, 0x0, 0x0⟩,
   ⟨0x11c, 1, 0x4, 0x0, 0xfffffc00, 0x0, 0x0⟩,
   ⟨0x120, 1, 0x4, 0x0, 0x0, 0x0, 0xf⟩]

def tablePRS : List RegDesc :=
  [⟨0x100, 1, 0x4, 0x402, 0x0, 0xf0f, 0x0⟩,
   ⟨0x104, 1, 0x4, 0x0, 0x0, 0x0, 0x0⟩,
   ⟨0x108, 1, 0x4, 0x0, 0x0, 0x0, 0x0⟩,
   ⟨0x10c, 1, 0x4, 0x0, 0x0, 0x0, 0x0⟩,
   ⟨0x110, 1, 0x4, 0x0, 0x0, 0x0, 0x0⟩,
   ⟨0x114, 1, 0x4, 0xa00040, 0xffffffff, 0x0, 0x0⟩,
   ⟨0x118, 1, 0x4, 0x0, 0x0, 0x0, 0x0⟩,
   ⟨0x11c, 1, 0x4, 0x0, 0x0, 0x0, 0x0⟩,
   ⟨0x120, 1, 0x4, 0x0, 0x10f, 0x0, 0x0⟩,
   ⟨0x124, 1, 0x4, 0x0, 0x0, 0x0, 0x0⟩,
   ⟨0x128, 1, 0x4, 0x0, 0x0, 0x0, 0x0⟩,
   ⟨0x12c, 1, 0x4, 0x0, 0x0, 0x0, 0x0⟩,
   ⟨0x130, 1, 0x4, 0x0, 0x0, 0x0, 0x0⟩,
   ⟨0x134, 1, 0x4, 0x0, 0x0, 0x0, 0x0⟩,
   ⟨0x138, 1, 0x4, 0x0, 0x0, 0x0, 0x0⟩,
   ⟨0x13c, 1, 0x4, 0x0, 0x0, 0x0, 0x0⟩]

def tablePE : List RegDesc :=
  [⟨0x100, 1, 0x4, 0x0, 0x0, 0x0, 0x0⟩,
   ⟨0x104, 1, 0x4, 0x0, 0x0, 0x0, 0x0⟩,
   ⟨0x108, 1, 0x4, 0x0, 0x0, 0x0, 0x0⟩,
   ⟨0x10c, 1, 0x4, 0x0, 0x0, 0x0, 0x0⟩]

def tableCSK : List RegDesc :=
  [⟨0x100, 1, 0x4, 0x0, 0x0, 0x0, 0x0⟩,
   ⟨0x104, 1, 0x4, 0x0, 0x0, 0x0, 0x0⟩,
   ⟨0x108, 1, 0x4, 0x0, 0x0, 0x0, 0x0⟩,
   ⟨0x10c, 1, 0x4, 0x0, 0x0, 0x0, 0x0⟩,
   ⟨0x110, 1, 0x4, 0x0, 0x0, 0x0, 0x0⟩,
   ⟨0x114, 1, 0x4, 0x0, 0x0, 0x0, 0x0⟩,
   ⟨0x118, 1, 0x4, 0x0, 0x0, 0x0, 0x0⟩,
   ⟨0x11c, 1, 0x4, 0x0, 0x0, 0x0, 0x0⟩,
   ⟨0x120, 4, 0x4, 0x0, 0x8000003f, 0x0, 0x0⟩]

def tableLAT : List RegDesc :=
  [⟨0x100, 1, 0x4, 0x0, 0x0, 0x0, 0xf⟩,
   ⟨0x104, 1, 0x4, 0x0, 0x0, 0x0, 0x0⟩,
   ⟨0x108, 1, 0x4, 0x0, 0xffffff, 0x0, 0x0⟩,
   ⟨0x10c, 1, 0x4, 0x0, 0xffffffff, 0x0, 0x0⟩,
   ⟨0x110, 1, 0x4, 0x20, 0x0, 0x7f, 0x0⟩,
   ⟨0x114, 1, 0x4, 0x400, 0x0, 0xffff, 0x0⟩,
   ⟨0x118, 1, 0x4, 0x0, 0x0, 0x3, 0x0⟩,
   ⟨0x11c, 1, 0x4, 0x0, 0x0, 0x0, 0x0⟩,
   ⟨0x120, 1, 0x4, 0x0, 0x0, 0x0, 0x0⟩,
   ⟨0x124, 1, 0x4, 0x0, 0x0, 0x0, 0x0⟩,
   ⟨0x128, 1, 0x4, 0x0, 0x0, 0x0, 0x0⟩,
   ⟨0x12c, 1, 0x4, 0x0, 0x0, 0x0, 0x0⟩,
   ⟨0x130, 1, 0x4, 0x0, 0x0, 0x0, 0x0⟩,
   ⟨0x134, 1, 0x4, 0x0, 0x0, 0x0, 0x0⟩,
   ⟨0x140, 1, 0x4, 0x0, 0x10f, 0x0, 0x0⟩,
   ⟨0x144, 1, 0x4, 0x0, 0x0, 0x0, 0x0⟩,
   ⟨0x148, 1, 0x4, 0x0, 0x0, 0x0, 0x0⟩]

def tableTP : List RegDesc :=
  [⟨0x100, 1, 0x4, 0x0, 0x0, 0x0, 0x0⟩,
   ⟨0x104, 1, 0x4, 0x0, 0x0, 0x0, 0x0⟩,
   ⟨0x108, 1, 0x4, 0x0, 0x0, 0x0, 0x0⟩,
   ⟨0x10c, 1, 0x4, 0x0, 0x0, 0x0, 0x0⟩,
   ⟨0x110, 1, 0x4, 0x0, 0x0, 0x0, 0x0⟩]

def tablePLK : List RegDesc :=
  [⟨0x100, 1, 0x4, 0x100, 0x0, 0x100, 0x0⟩,
   ⟨0x104, 1, 0x4, 0x0, 0x0, 0x0, 0xf⟩,
   ⟨0x108, 1, 0x4, 0x0, 0x0, 0x0, 0x0⟩,
   ⟨0x10c, 1, 0x4, 0x0, 0x0, 0xc000ffff, 0x0⟩,
   ⟨0x110, 1, 0x4, 0x8070, 0xffff, 0x0, 0x0⟩,
   ⟨0x114, 1, 0x4, 0x3e8, 0xffff, 0x0, 0x0⟩,
   ⟨0x118, 1, 0x4, 0x1, 0x0, 0xffff, 0x0⟩,
   ⟨0x11c, 1, 0x4, 0x0, 0x0, 0x0, 0x0⟩,
   ⟨0x120, 1, 0x4, 0x0, 0x0, 0x0, 0x0⟩,
   ⟨0x124, 1, 0x4, 0x0, 0x0, 0x0, 0x0⟩,
   ⟨0x128, 1, 0x4, 0x0, 0x0, 0x0, 0x0⟩,
   ⟨0x12c, 1, 0x4, 0x0, 0x0, 0x0, 0x0⟩,
   ⟨0x130, 1, 0x4, 0x0, 0x0, 0x0, 0x0⟩,
   ⟨0x134, 1, 0x4, 0x0, 0x0, 0x0, 0x0⟩,
   ⟨0x138, 1, 0x4, 0x0, 0x0, 0x0, 0x0⟩,
   ⟨0x13c, 1, 0x4, 0xc0000028, 0xc0ffffff, 0x0, 0x0⟩,
   ⟨0x140, 1, 0x4, 0x0, 0xfc00003f, 0x0, 0x0⟩,
   ⟨0x144, 1, 0x4, 0x1, 0xffffffff, 0x0, 0x0⟩,
   ⟨0x148, 1, 0x4, 0x0, 0xf001ffff, 0x0, 0x0⟩,
   ⟨0x14c, 1, 0x4, 0x0, 0x0, 0x0, 0x0⟩]

def tableLQ : List RegDesc :=
  [⟨0x100, 4, 0x20, 0x0, 0x0, 0xf, 0x0⟩,
   ⟨0x104, 4, 0x20, 0x38dc0, 0x0, 0x3fffffff, 0x0⟩,
   ⟨0x108, 4, 0x20, 0xc, 0x0, 0xf, 0x0⟩,
   ⟨0x10c, 4, 0x20, 0x0, 0x0, 0x0, 0x0⟩,
   ⟨0x110, 4, 0x20, 0x0, 0x0, 0x0, 0x0⟩,
   ⟨0x114, 4, 0x20, 0x0, 0x0, 0x0, 0x0⟩,
   ⟨0x118, 4, 0x20, 0x0, 0x0, 0x0, 0x0⟩]

def tablePRT : List RegDesc :=
  [⟨0x100, 1, 0x4, 0x0, 0x0, 0x0, 0x0⟩,
   ⟨0x104, 1, 0x4, 0x800001f4, 0x8000ffff, 0x0, 0x0⟩,
   ⟨0x108, 1, 0x4, 0x0, 0x0, 0x0, 0x0⟩,
   ⟨0x10c, 1, 0x4, 0x0, 0x0, 0x0, 0x0⟩,
   ⟨0x110, 1, 0x4, 0x0, 0x0, 0x0, 0x0⟩,
   ⟨0x114, 1, 0x4, 0x0, 0x0, 0x0, 0x0⟩]

def tablePAR : List RegDesc :=
  [⟨0x100, 1, 0x4, 0x0, 0x0, 0x301, 0x0⟩,
   ⟨0x104, 1, 0x4, 0x0, 0x0, 0x0, 0xf⟩,
   ⟨0x108, 1, 0x4, 0x0, 0x0, 0x0, 0x0⟩,
   ⟨0x10c, 1, 0x4, 0x0, 0x0, 0x0, 0x0⟩,
   ⟨0x110, 1, 0x4, 0x0, 0x0, 0x0, 0x0⟩,
   ⟨0x114, 1, 0x4, 0x0, 0x0, 0x0, 0x0⟩,
   ⟨0x118, 1, 0x4, 0x0, 0x0, 0x0, 0x0⟩,
   ⟨0x11c, 1, 0x4, 0x32000a, 0xffffffff, 0x0, 0x0⟩,
   ⟨0x120, 1, 0x4, 0x0, 0x0, 0x0, 0x0⟩,
   ⟨0x124, 1, 0x4, 0x0, 0x0, 0x0, 0x0⟩,
   ⟨0x128, 1, 0x4, 0x0, 0x0, 0x0, 0x0⟩,
   ⟨0x12c, 1, 0x4, 0x0, 0x0, 0x0, 0x0⟩,
   ⟨0x130, 1, 0x4, 0x0, 0x0, 0x0, 0x0⟩,
   ⟨0x134, 1, 0x4, 0x0, 0x0, 0x0, 0x0⟩,
   ⟨0x138, 1, 0x4, 0x0, 0x0, 0x0, 0x0⟩,
   ⟨0x13c, 1, 0x4, 0x0, 0x0, 0x0, 0x0⟩,
   ⟨0x140, 1, 0x4, 0x0, 0xf0ffbf07, 0x0, 0x0⟩,
   ⟨0x144, 1, 0x4, 0x1, 0xffffffff, 0x0, 0x0⟩,
   ⟨0x148, 1, 0x4, 0x0, 0xf0001fff, 0x0, 0x0⟩,
   ⟨0x14c, 1, 0x4, 0x0, 0x0, 0x0, 0x0⟩,
   ⟨0x150, 1, 0x4, 0x0, 0x0, 0x0, 0x0⟩,
   ⟨0x154, 1, 0x4, 0x0, 0x0, 0x0, 0x0⟩,
   ⟨0x158, 1, 0x4, 0x0, 0x0, 0x0, 0x0⟩]

def tablePOS : List RegDesc :=
  [⟨0x100, 1, 0x4, 0x100, 0x0, 0x10103, 0x0⟩,
   ⟨0x104, 1, 0x4, 0x0, 0x0, 0x0, 0x0⟩,
   ⟨0x108, 1, 0x4, 0x1400000, 0x0, 0xffffffff, 0x0⟩,
   ⟨0x10c, 1, 0x4, 0x3c0, 0x0, 0xffff, 0x0⟩,
   ⟨0x110, 1, 0x4, 0x989680, 0x0, 0xffffffff, 0x0⟩,
   ⟨0x114, 1, 0x4, 0x0, 0x0, 0xffffffff, 0x0⟩,
   ⟨0x118, 1, 0x4, 0x0, 0x0, 0xffffffff, 0x0⟩,
   ⟨0x11c, 1, 0x4, 0x64, 0xffffffff, 0x0, 0x0⟩,
   ⟨0x120, 1, 0x4, 0x0, 0x0, 0x0, 0x0⟩,
   ⟨0x124, 1, 0x4, 0x0, 0x0, 0x0, 0x0⟩,
   ⟨0x128, 1, 0x4, 0x0, 0x0, 0x0, 0x0⟩,
   ⟨0x12c, 1, 0x4, 0x0, 0x0, 0x0, 0x0⟩,
   ⟨0x130, 1, 0x4, 0x0, 0x0, 0x0, 0x0⟩,
   ⟨0x134, 1, 0x4, 0x0, 0x0, 0x0, 0x0⟩,
   ⟨0x138, 1, 0x4, 0x4400100, 0xfffffff, 0x0, 0x0⟩,
   ⟨0x13c, 1, 0x4, 0x7fff0800, 0xffffffff, 0x0, 0x0⟩,
   ⟨0x140, 1, 0x4, 0x0, 0x0, 0x0, 0x0⟩,
   ⟨0x144, 1, 0x4, 0x0, 0x0, 0x0, 0xf0f⟩,
   ⟨0x200, 4, 0x40, 0x40000, 0x0, 0xf0003, 0x0⟩,
   ⟨0x204, 4, 0x40, 0x25baad18, 0x0, 0xffffffff, 0x0⟩,
   ⟨0x208, 4, 0x40, 0x0, 0x0, 0xffffffff, 0x0⟩,
   ⟨0x20c, 4, 0x40, 0x0, 0x0, 0xffff, 0x0⟩,
   ⟨0x210, 4, 0x40, 0x0, 0x0, 0x0, 0x0⟩,
   ⟨0x214, 4, 0x40, 0x0, 0x0, 0x0, 0x0⟩,
   ⟨0x218, 4, 0x40, 0x0, 0x0, 0xffffffff, 0x0⟩,
   ⟨0x21c, 4, 0x40, 0x40000000, 0x0, 0xffffffff, 0x0⟩,
   ⟨0x220, 4, 0x40, 0x0, 0x0, 0x0, 0x0⟩,
   ⟨0x224, 4, 0x40, 0x40000000, 0x0, 0x0, 0x0⟩,
   ⟨0x228, 4, 0x40, 0x0, 0x0, 0x0, 0x0⟩,
   ⟨0x22c, 4, 0x40, 0x0, 0x0, 0x0, 0x0⟩]

def tableSHT : List RegDesc :=
  [⟨0x100, 1, 0x4, 0x5, 0x0, 0x7, 0x0⟩,
   ⟨0x104, 1, 0x4, 0x96, 0x0, 0x1ff, 0x0⟩,
   ⟨0x108, 1, 0x4, 0x2, 0x0, 0xffff, 0x0⟩,
   ⟨0x10c, 1, 0x4, 0x320, 0x0, 0xffff, 0x0⟩,
   ⟨0x110, 1, 0x4, 0x0, 0x0, 0xffffffff, 0x0⟩,
   ⟨0x114, 1, 0x4, 0x0, 0x0, 0x0, 0x0⟩,
   ⟨0x118, 1, 0x4, 0x0, 0x0, 0x0, 0x0⟩,
   ⟨0x11c, 1, 0x4, 0x0, 0x0, 0x0, 0x0⟩,
   ⟨0x120, 1, 0x4, 0x0, 0x0, 0x0, 0x0⟩,
   ⟨0x124, 1, 0x4, 0x0, 0x0, 0x0, 0x0⟩,
   ⟨0x128, 1, 0x4, 0x0, 0x0, 0x0, 0x0⟩,
   ⟨0x12c, 1, 0x4, 0x0, 0x0, 0x0, 0x0⟩,
   ⟨0x130, 1, 0x4, 0x0, 0x0, 0x0, 0x0⟩]

def tableTRK : List RegDesc :=
  [⟨0x100, 1, 0x4, 0x60000000, 0x0, 0xe0000000, 0x0⟩,
   ⟨0x104, 1, 0x4, 0x800000, 0x0, 0xffffffff, 0x0⟩,
   ⟨0x108, 1, 0x4, 0x280, 0x0, 0xffffffff, 0x0⟩,
   ⟨0x10c, 1, 0x4, 0x28f5c3, 0x0, 0xffffffff, 0x0⟩,
   ⟨0x110, 1, 0x4, 0x1000000, 0x0, 0xffffffff, 0x0⟩,
   ⟨0x114, 1, 0x4, 0x0, 0x0, 0xffffffff, 0x0⟩,
   ⟨0x118, 1, 0x4, 0x400, 0xffff, 0x0, 0x0⟩,
   ⟨0x11c, 1, 0x4, 0x0, 0xfff, 0x0, 0x0⟩,
   ⟨0x120, 1, 0x4, 0x0, 0x0, 0xffffffff, 0x0⟩,
   ⟨0x124, 1, 0x4, 0x0, 0x0, 0x0, 0x0⟩,
   ⟨0x128, 1, 0x4, 0x0, 0x0, 0x0, 0x0⟩]

def tableMOT : List RegDesc :=
  [⟨0x100, 1, 0x4, 0x10, 0x0, 0x11f, 0x0⟩,
   ⟨0x104, 1, 0x4, 0x7d0, 0x0, 0xffff, 0x0⟩,
   ⟨0x108, 1, 0x4, 0x2faf080, 0xffffffff, 0x0, 0x0⟩,
   ⟨0x10c, 1, 0x4, 0x1e8480, 0xffffffff, 0x0, 0x0⟩,
   ⟨0x110, 1, 0x4, 0x186a0, 0xffffffff, 0x0, 0x0⟩,
   ⟨0x114, 1, 0x4, 0x1e8480, 0xffffffff, 0x0, 0x0⟩,
   ⟨0x118, 1, 0x4, 0x8, 0x0, 0xff, 0x0⟩,
   ⟨0x11c, 1, 0x4, 0x13880, 0x0, 0xffffffff, 0x0⟩,
   ⟨0x120, 1, 0x4, 0x300e6, 0xfffff, 0x0, 0x0⟩,
   ⟨0x124, 1, 0x4, 0x2710, 0xffff, 0x0, 0x0⟩,
   ⟨0x128, 1, 0x4, 0x0, 0x0, 0xffffffff, 0x0⟩,
   ⟨0x12c, 1, 0x4, 0x0, 0x0, 0xffffffff, 0x0⟩,
   ⟨0x130, 1, 0x4, 0x0, 0x0, 0xffffffff, 0x0⟩,
   ⟨0x134, 1, 0x4, 0x0, 0x0, 0xffffffff, 0x0⟩,
   ⟨0x138, 1, 0x4, 0xc3501388, 0xffffffff, 0x0, 0x0⟩,
   ⟨0x13c, 1, 0x4, 0x4000200, 0xffffffff, 0x0, 0x0⟩,
   ⟨0x140, 1, 0x4, 0x0, 0x0, 0x0, 0xf⟩,
   ⟨0x144, 1, 0x4, 0x0, 0xffffffff, 0x0, 0x0⟩,
   ⟨0x148, 1, 0x4, 0x0, 0xffffffff, 0x0, 0x0⟩,
   ⟨0x14c, 1, 0x4, 0x0, 0x0, 0x0, 0x0⟩,
   ⟨0x150, 1, 0x4, 0x0, 0x0, 0x0, 0x0⟩,
   ⟨0x154, 1, 0x4, 0x0, 0x0, 0x0, 0x0⟩,
   ⟨0x158, 1, 0x4, 0x0, 0x0, 0x0, 0x0⟩,
   ⟨0x15c, 1, 0x4, 0x0, 0x0, 0x0, 0x0⟩,
   ⟨0x160, 1, 0x4, 0x0, 0x0, 0x0, 0x0⟩,
   ⟨0x164, 1, 0x4, 0x0, 0x0, 0x0, 0x0⟩,
   ⟨0x168, 1, 0x4, 0x0, 0x0, 0x0, 0x0⟩]

def tableNET : List RegDesc :=
  [⟨0x100, 1, 0x4, 0x108, 0x0, 0x73119, 0x0⟩,
   ⟨0x104, 1, 0x4, 0x0, 0x0, 0x0, 0x0⟩,
   ⟨0x108, 1, 0x4, 0x0, 0x0, 0x0, 0x0⟩,
   ⟨0x10c, 1, 0x4, 0x0, 0x0, 0x0, 0x0⟩,
   ⟨0x110, 1, 0x4, 0x0, 0x0, 0xefff, 0x0⟩,
   ⟨0x114, 1, 0x4, 0x0, 0x0, 0xffffffff, 0x0⟩,
   ⟨0x118, 1, 0x4, 0x0, 0x0, 0xffffffff, 0x0⟩,
   ⟨0x11c, 1, 0x4, 0x0, 0x0, 0xffffffff, 0x0⟩,
   ⟨0x120, 1, 0x4, 0x0, 0x0, 0xffffffff, 0x0⟩,
   ⟨0x124, 1, 0x4, 0x0, 0x0, 0xffffffff, 0x0⟩,
   ⟨0x128, 1, 0x4, 0xb7fdb7fc, 0x0, 0xffffffff, 0x0⟩,
   ⟨0x12c, 1, 0x4, 0x0, 0xffffffff, 0x0, 0x0⟩,
   ⟨0x130, 1, 0x4, 0x0, 0x0, 0x0, 0x0⟩,
   ⟨0x134, 1, 0x4, 0x0, 0x0, 0x0, 0x0⟩,
   ⟨0x138, 1, 0x4, 0x0, 0x0, 0x0, 0x0⟩,
   ⟨0x13c, 1, 0x4, 0x0, 0x0, 0x0, 0x0⟩,
   ⟨0x140, 1, 0x4, 0x0, 0x0, 0x0, 0x0⟩,
   ⟨0x144, 1, 0x4, 0x0, 0xf80000ff, 0x0, 0x0⟩,
   ⟨0x148, 1, 0x4, 0x1, 0xffffffff, 0x0, 0x0⟩,
   ⟨0x14c, 1, 0x4, 0x0, 0xf00007ff, 0x0, 0x0⟩,
   ⟨0x150, 1, 0x4, 0x0, 0x0, 0x0, 0x0⟩]

def tableTIM : List RegDesc :=
  [⟨0x100, 1, 0x4, 0x80020000, 0x0, 0x83037f00, 0x0⟩,
   ⟨0x104, 1, 0x4, 0x0, 0x0, 0x0, 0x0⟩,
   ⟨0x108, 1, 0x4, 0x0, 0xffffffff, 0x0, 0x0⟩,
   ⟨0x10c, 1, 0x4, 0x4, 0xffffffff, 0x0, 0x0⟩,
   ⟨0x110, 1, 0x4, 0x0, 0x0, 0x0, 0x0⟩,
   ⟨0x114, 1, 0x4, 0x0, 0x0, 0x0, 0x0⟩,
   ⟨0x118, 1, 0x4, 0x0, 0x0, 0x0, 0x0⟩,
   ⟨0x11c, 1, 0x4, 0x0, 0x0, 0x0, 0x0⟩,
   ⟨0x120, 1, 0x4, 0x0, 0x0, 0x0, 0x0⟩,
   ⟨0x124, 1, 0x4, 0x64, 0xffff, 0x0, 0x0⟩,
   ⟨0x128, 1, 0x4, 0xf4240, 0xffffffff, 0x0, 0x0⟩,
   ⟨0x12c, 1, 0x4, 0x1f4, 0xffff, 0x0, 0x0⟩,
   ⟨0x130, 1, 0x4, 0x0, 0xffffffff, 0x0, 0x0⟩,
   ⟨0x134, 1, 0x4, 0x0, 0xffffffff, 0x0, 0x0⟩,
   ⟨0x138, 1, 0x4, 0x0, 0xffffffff, 0x0, 0x0⟩,
   ⟨0x13c, 1, 0x4, 0x0, 0x0, 0x0, 0xf⟩,
   ⟨0x140, 1, 0x4, 0x0, 0x0, 0x0, 0x0⟩,
   ⟨0x144, 1, 0x4, 0x0, 0x0, 0x0, 0x0⟩,
   ⟨0x148, 1, 0x4, 0x0, 0x0, 0x0, 0x0⟩]

def tableLTQ : List RegDesc :=
  [⟨0x100, 16, 0x10, 0x200007d0, 0x0, 0xf000ffff, 0x0⟩,
   ⟨0x104, 16, 0x10, 0x0, 0x0, 0x0, 0x0⟩,
   ⟨0x108, 16, 0x10, 0x0, 0x0, 0x0, 0x0⟩,
   ⟨0x10c, 16, 0x10, 0x0, 0x0, 0x0, 0x0⟩,
   ⟨0x200, 1, 0x4, 0x0, 0x0, 0x0, 0x0⟩,
   ⟨0x204, 1, 0x4, 0x0, 0x0, 0x0, 0x0⟩,
   ⟨0x208, 1, 0x4, 0x400, 0x0, 0x0, 0x0⟩]

def tableIDN : List RegDesc :=
  [⟨0x100, 1, 0x4, 0x0, 0x0, 0x0, 0xf⟩,
   ⟨0x104, 1, 0x4, 0x0, 0x0, 0x0, 0x0⟩,
   ⟨0x108, 1, 0x4, 0x0, 0x3ff, 0x0, 0x0⟩,
   ⟨0x10c, 1, 0x4, 0x0, 0xffffffff, 0x0, 0x0⟩,
   ⟨0x110, 1, 0x4, 0x0, 0x0, 0x0, 0x0⟩,
   ⟨0x114, 1, 0x4, 0x0, 0x0, 0x0, 0x0⟩,
   ⟨0x118, 1, 0x4, 0x52484101, 0x0, 0x0, 0x0⟩,
   ⟨0x11c, 1, 0x4, 0x0, 0x0, 0x0, 0x0⟩,
   ⟨0x120, 1, 0x4, 0x0, 0x0, 0x0, 0x0⟩,
   ⟨0x124, 1, 0x4, 0x7, 0x0, 0x7, 0x0⟩]

def tableDSC : List RegDesc :=
  [⟨0x100, 1, 0x4, 0x3e80000, 0x0, 0xffff01ff, 0x0⟩,
   ⟨0x104, 1, 0x4, 0x0, 0x0, 0xffffffff, 0x0⟩,
   ⟨0x108, 1, 0x4, 0x0, 0x0, 0xffffffff, 0x0⟩,
   ⟨0x10c, 1, 0x4, 0x0, 0x0, 0x0, 0x0⟩,
   ⟨0x110, 1, 0x4, 0x0, 0x3f, 0x0, 0x0⟩,
   ⟨0x114, 1, 0x4, 0x0, 0x0, 0x0, 0x0⟩,
   ⟨0x118, 1, 0x4, 0x0, 0x0, 0x0, 0x0⟩,
   ⟨0x11c, 1, 0x4, 0x0, 0x0, 0x0, 0x0⟩,
   ⟨0x120, 1, 0x4, 0x0, 0x0, 0x0, 0x0⟩,
   ⟨0x124, 1, 0x4, 0x0, 0x0, 0x0, 0x0⟩]

def tableCK : List RegDesc :=
  [⟨0x100, 1, 0x4, 0x0, 0x3, 0x0, 0x0⟩,
   ⟨0x104, 1, 0x4, 0x0, 0x0, 0x0, 0xf⟩,
   ⟨0x108, 1, 0x4, 0x0, 0x0, 0x0, 0xff⟩,
   ⟨0x10c, 1, 0x4, 0x0, 0x0, 0x0, 0xffff⟩,
   ⟨0x110, 1, 0x4, 0x0, 0xffffffff, 0x0, 0x0⟩,
   ⟨0x114, 1, 0x4, 0xffffffff, 0xffffffff, 0x0, 0x0⟩,
   ⟨0x118, 1, 0x4, 0x0, 0xffffffff, 0x0, 0x0⟩,
   ⟨0x11c, 1, 0x4, 0x0, 0x0, 0x0, 0x0⟩,
   ⟨0x120, 1, 0x4, 0x0, 0x0, 0x0, 0x0⟩,
   ⟨0x124, 1, 0x4, 0x0, 0x0, 0x0, 0x0⟩]

def tableTHM : List RegDesc :=
  [⟨0x100, 1, 0x4, 0x3206044, 0xfffffff, 0x0, 0x0⟩,
   ⟨0x104, 1, 0x4, 0x0, 0x0, 0x0, 0x0⟩,
   ⟨0x108, 1, 0x4, 0x5f0, 0xffff, 0x0, 0x0⟩,
   ⟨0x10c, 1, 0x4, 0x690, 0xffff, 0x0, 0x0⟩,
   ⟨0x110, 1, 0x4, 0x19000a0, 0xffffffff, 0x0, 0x0⟩,
   ⟨0x114, 1, 0x4, 0x0, 0x0, 0x0, 0x0⟩,
   ⟨0x118, 1, 0x4, 0x0, 0x0, 0x0, 0x1f0f⟩,
   ⟨0x11c, 1, 0x4, 0x0, 0x0, 0x0, 0x0⟩,
   ⟨0x120, 1, 0x4, 0x0, 0x0, 0x0, 0x0⟩,
   ⟨0x180, 28, 0x4, 0x0, 0x0, 0x0, 0x0⟩,
   ⟨0x200, 28, 0x4, 0x0, 0xffffffff, 0x0, 0x0⟩,
   ⟨0x400, 64, 0x10, 0x0, 0x0, 0x0, 0x0⟩,
   ⟨0x404, 64, 0x10, 0x0, 0xffffffff, 0x0, 0x0⟩,
   ⟨0x408, 64, 0x10, 0x0, 0x0, 0x0, 0x0⟩]

def tableAGE : List RegDesc :=
  [⟨0x100, 1, 0x4, 0x8028190f, 0x80ffffff, 0x0, 0x0⟩,
   ⟨0x104, 1, 0x4, 0x0, 0x0, 0x0, 0xf⟩,
   ⟨0x108, 1, 0x4, 0x0, 0x0, 0x0, 0x0⟩,
   ⟨0x10c, 1, 0x4, 0xa, 0x0, 0x1f, 0x0⟩,
   ⟨0x110, 1, 0x4, 0x0, 0x0, 0x0, 0x0⟩,
   ⟨0x114, 1, 0x4, 0x0, 0xf0000fff, 0x0, 0x0⟩,
   ⟨0x118, 1, 0x4, 0x0, 0xffffffff, 0x0, 0x0⟩,
   ⟨0x11c, 1, 0x4, 0x0, 0x0, 0x0, 0x0⟩,
   ⟨0x120, 1, 0x4, 0x0, 0x0, 0x0, 0x0⟩]

def tableBST : List RegDesc :=
  [⟨0x100, 1, 0x4, 0xf000023f, 0xf000ffff, 0x0, 0x0⟩,
   ⟨0x104, 1, 0x4, 0x100, 0xffff, 0x0, 0x0⟩,
   ⟨0x108, 1, 0x4, 0x64, 0xffff, 0x0, 0x0⟩,
   ⟨0x10c, 1, 0x4, 0x40, 0xffff, 0x0, 0x0⟩,
   ⟨0x110, 1, 0x4, 0x0, 0x0, 0x0, 0x0⟩,
   ⟨0x114, 1, 0x4, 0x0, 0x0, 0x0, 0xf⟩,
   ⟨0x118, 1, 0x4, 0x0, 0x0, 0x0, 0x0⟩,
   ⟨0x11c, 1, 0x4, 0x0, 0x0, 0x0, 0x0⟩,
   ⟨0x120, 1, 0x4, 0x0, 0x0, 0x0, 0x0⟩,
   ⟨0x124, 1, 0x4, 0x0, 0x0, 0x0, 0x0⟩,
   ⟨0x128, 1, 0x4, 0x0, 0x0, 0x0, 0x0⟩]

def tableCAL : List RegDesc :=
  [⟨0x100, 1, 0x4, 0xf, 0x0, 0x1f00000f, 0x0⟩,
   ⟨0x104, 1, 0x4, 0x10, 0xff, 0x0, 0x0⟩,
   ⟨0x108, 1, 0x4, 0xa, 0xffff, 0x0, 0x0⟩,
   ⟨0x10c, 1, 0x4, 0x0, 0x0, 0x0, 0xf⟩,
   ⟨0x110, 1, 0x4, 0x0, 0xffff, 0x0, 0x0⟩,
   ⟨0x114, 1, 0x4, 0x0, 0x0, 0x0, 0x0⟩,
   ⟨0x118, 1, 0x4, 0x0, 0x0, 0x0, 0x0⟩,
   ⟨0x11c, 1, 0x4, 0x0, 0x0, 0x0, 0x0⟩]

def tableOTP : List RegDesc :=
  [⟨0x100, 1, 0x4, 0x0, 0x0, 0x0, 0x0⟩,
   ⟨0x104, 1, 0x4, 0x0, 0x3fff, 0x0, 0x0⟩,
   ⟨0x108, 1, 0x4, 0x0, 0x0, 0x0, 0x0⟩,
   ⟨0x10c, 1, 0x4, 0x0, 0x0, 0x0, 0x0⟩]

/-! The event bits of every page (R430). -/

/-- An event bit of a page. -/
structure Evt where
  page : Nat
  bit : Nat
  deriving DecidableEq, Repr

@[reducible] def E.TOP_STATE_CHANGE : Evt := ⟨0x000, 0⟩
@[reducible] def E.TOP_REQ_REFUSED : Evt := ⟨0x000, 1⟩
@[reducible] def E.EVT_MSG_LOST : Evt := ⟨0x001, 0⟩
@[reducible] def E.AON_RESET_DONE : Evt := ⟨0x002, 0⟩
@[reducible] def E.CLK_CLK_UNLOCK : Evt := ⟨0x003, 0⟩
@[reducible] def E.CLK_TIME_SRC : Evt := ⟨0x003, 1⟩
@[reducible] def E.PWR_DORMANT_ENTERED : Evt := ⟨0x004, 0⟩
@[reducible] def E.PWR_DORMANT_REFUSED : Evt := ⟨0x004, 1⟩
@[reducible] def E.PWR_DORMANT_ABORT : Evt := ⟨0x004, 2⟩
@[reducible] def E.PWR_WAKE_DONE : Evt := ⟨0x004, 3⟩
@[reducible] def E.PWR_DOM_DOWN : Evt := ⟨0x004, 4⟩
@[reducible] def E.PWR_DOM_UP : Evt := ⟨0x004, 5⟩
@[reducible] def E.PWR_AVS_FAIL : Evt := ⟨0x004, 6⟩
@[reducible] def E.LDG_VIOLATION : Evt := ⟨0x005, 0⟩
@[reducible] def E.FIJ_ARMED : Evt := ⟨0x006, 0⟩
@[reducible] def E.FIJ_DISARMED : Evt := ⟨0x006, 1⟩
@[reducible] def E.FIJ_EXPIRED : Evt := ⟨0x006, 2⟩
@[reducible] def E.JOB_DESC_REFUSED : Evt := ⟨0x007, 0⟩
@[reducible] def E.JOB_ENVELOPE : Evt := ⟨0x007, 1⟩
@[reducible] def E.JOB_STRIPE_START : Evt := ⟨0x007, 2⟩
@[reducible] def E.JOB_STRIPE_DONE : Evt := ⟨0x007, 3⟩
@[reducible] def E.JOB_JOB_DONE : Evt := ⟨0x007, 4⟩
@[reducible] def E.JOB_TURN_WAIT : Evt := ⟨0x007, 5⟩
@[reducible] def E.HIF_LINK_CHANGE : Evt := ⟨0x008, 0⟩
@[reducible] def E.HIF_LINK_RESET : Evt := ⟨0x008, 1⟩
@[reducible] def E.HIF_AER : Evt := ⟨0x008, 2⟩
@[reducible] def E.DMA_PARKED : Evt := ⟨0x009, 0⟩
@[reducible] def E.DMA_RESUMED : Evt := ⟨0x009, 1⟩
@[reducible] def E.DMA_DESC_ERR : Evt := ⟨0x009, 2⟩
@[reducible] def E.DMA_CQ_STALL : Evt := ⟨0x009, 3⟩
@[reducible] def E.RNG_CQ (c : Nat) : Evt := ⟨0x00a, c⟩
@[reducible] def E.MC_CE (i : Nat) : Evt := ⟨0x010 + i, 0⟩
@[reducible] def E.MC_UE (i : Nat) : Evt := ⟨0x010 + i, 1⟩
@[reducible] def E.MC_CA_PARITY (i : Nat) : Evt := ⟨0x010 + i, 2⟩
@[reducible] def E.MC_REFRESH_HIGH (i : Nat) : Evt := ⟨0x010 + i, 3⟩
@[reducible] def E.MC_DRAM_HOT (i : Nat) : Evt := ⟨0x010 + i, 4⟩
@[reducible] def E.MC_CE_RATE (i : Nat) : Evt := ⟨0x010 + i, 5⟩
@[reducible] def E.MEM_RETIRED : Evt := ⟨0x014, 0⟩
@[reducible] def E.MEM_MIG_START : Evt := ⟨0x014, 1⟩
@[reducible] def E.MEM_MIG_DONE : Evt := ⟨0x014, 2⟩
@[reducible] def E.MEM_MIG_LOST : Evt := ⟨0x014, 3⟩
@[reducible] def E.MEM_NO_SPARE : Evt := ⟨0x014, 4⟩
@[reducible] def E.MEM_SCRUB_DONE : Evt := ⟨0x014, 5⟩
@[reducible] def E.MEM_SRAM_CE : Evt := ⟨0x014, 6⟩
@[reducible] def E.MEM_SRAM_UE : Evt := ⟨0x014, 7⟩
@[reducible] def E.CEL_POOL_WAIT : Evt := ⟨0x015, 0⟩
@[reducible] def E.CEL_BIN_READY : Evt := ⟨0x015, 1⟩
@[reducible] def E.CEL_BAR2_DROP : Evt := ⟨0x015, 2⟩
@[reducible] def E.PRS_REFUSED : Evt := ⟨0x018, 0⟩
@[reducible] def E.PRS_SAFFRON : Evt := ⟨0x018, 1⟩
@[reducible] def E.PRS_POISON : Evt := ⟨0x018, 2⟩
@[reducible] def E.PRS_DECODE : Evt := ⟨0x018, 3⟩
@[reducible] def E.PRS_LOST : Evt := ⟨0x018, 4⟩
@[reducible] def E.PRS_RETIRED : Evt := ⟨0x018, 5⟩
@[reducible] def E.PRS_FILL_LOW : Evt := ⟨0x018, 6⟩
@[reducible] def E.CSK_FIT_FAIL : Evt := ⟨0x030, 0⟩
@[reducible] def E.CSK_CASK_CE : Evt := ⟨0x030, 1⟩
@[reducible] def E.CSK_CASK_UE : Evt := ⟨0x030, 2⟩
@[reducible] def E.CSK_STEERED : Evt := ⟨0x030, 3⟩
@[reducible] def E.CSK_NO_SPARE : Evt := ⟨0x030, 4⟩
@[reducible] def E.LAT_CHECK_DONE : Evt := ⟨0x031, 0⟩
@[reducible] def E.LAT_CHECK_REFUSED : Evt := ⟨0x031, 1⟩
@[reducible] def E.LAT_SHORT_PIXEL : Evt := ⟨0x031, 2⟩
@[reducible] def E.LAT_SHORT_LOST : Evt := ⟨0x031, 3⟩
@[reducible] def E.TP_RETRY (i : Nat) : Evt := ⟨0x040 + i, 0⟩
@[reducible] def E.TP_HARD_FAIL (i : Nat) : Evt := ⟨0x040 + i, 1⟩
@[reducible] def E.TP_RETIRED (i : Nat) : Evt := ⟨0x040 + i, 2⟩
@[reducible] def E.PLK_BRINGUP_DONE : Evt := ⟨0x090, 0⟩
@[reducible] def E.PLK_BRINGUP_FAIL : Evt := ⟨0x090, 1⟩
@[reducible] def E.PLK_LANE_DOWN : Evt := ⟨0x090, 2⟩
@[reducible] def E.PLK_FOM_LOW : Evt := ⟨0x090, 3⟩
@[reducible] def E.PLK_LATE : Evt := ⟨0x090, 4⟩
@[reducible] def E.PLK_SEND_CHECK : Evt := ⟨0x090, 5⟩
@[reducible] def E.PLK_PLATE_BLANK : Evt := ⟨0x090, 6⟩
@[reducible] def E.PLK_FIJ_DONE : Evt := ⟨0x090, 7⟩
@[reducible] def E.PRT_RETURN_DOWN : Evt := ⟨0x0a1, 0⟩
@[reducible] def E.PRT_ACK_MISS : Evt := ⟨0x0a1, 1⟩
@[reducible] def E.PRT_REC_ERR : Evt := ⟨0x0a1, 2⟩
@[reducible] def E.PAR_PAIRED : Evt := ⟨0x0a8, 0⟩
@[reducible] def E.PAR_ROLE_CHANGE : Evt := ⟨0x0a8, 1⟩
@[reducible] def E.PAR_LINK_DOWN : Evt := ⟨0x0a8, 2⟩
@[reducible] def E.PAR_LINK_UP : Evt := ⟨0x0a8, 3⟩
@[reducible] def E.PAR_MATE_LOST : Evt := ⟨0x0a8, 4⟩
@[reducible] def E.PAR_TAKEOVER : Evt := ⟨0x0a8, 5⟩
@[reducible] def E.PAR_DEFER : Evt := ⟨0x0a8, 6⟩
@[reducible] def E.PAR_WITHDRAW : Evt := ⟨0x0a8, 7⟩
@[reducible] def E.PAR_SPLIT : Evt := ⟨0x0a8, 8⟩
@[reducible] def E.PAR_DIGEST_MISMATCH : Evt := ⟨0x0a8, 9⟩
@[reducible] def E.PAR_STRIPE_DIGEST : Evt := ⟨0x0a8, 10⟩
@[reducible] def E.PAR_SP_MISMATCH : Evt := ⟨0x0a8, 11⟩
@[reducible] def E.PAR_POS_MISMATCH : Evt := ⟨0x0a8, 12⟩
@[reducible] def E.PAR_JOIN_DONE : Evt := ⟨0x0a8, 13⟩
@[reducible] def E.PAR_JOIN_FAIL : Evt := ⟨0x0a8, 14⟩
@[reducible] def E.PAR_MSG_ERR : Evt := ⟨0x0a8, 15⟩
@[reducible] def E.PAR_FIJ_DONE : Evt := ⟨0x0a8, 16⟩
@[reducible] def E.POS_JRX_DOWN : Evt := ⟨0x0b0, 0⟩
@[reducible] def E.POS_SYSREF_MOVED : Evt := ⟨0x0b0, 1⟩
@[reducible] def E.POS_AXIS_LOST : Evt := ⟨0x0b0, 2⟩
@[reducible] def E.POS_SLIP : Evt := ⟨0x0b0, 3⟩
@[reducible] def E.POS_YAW : Evt := ⟨0x0b0, 4⟩
@[reducible] def E.POS_EST_DISCARD : Evt := ⟨0x0b0, 5⟩
@[reducible] def E.SHT_OVERSPEED : Evt := ⟨0x0b1, 0⟩
@[reducible] def E.SHT_REVERSE : Evt := ⟨0x0b1, 1⟩
@[reducible] def E.SHT_LATE_MOVE : Evt := ⟨0x0b1, 2⟩
@[reducible] def E.TRK_JTX_DOWN : Evt := ⟨0x0b2, 0⟩
@[reducible] def E.TRK_TRK_CLIP : Evt := ⟨0x0b2, 1⟩
@[reducible] def E.MOT_FE_WARN : Evt := ⟨0x0b4, 0⟩
@[reducible] def E.MOT_FE_TRIP : Evt := ⟨0x0b4, 1⟩
@[reducible] def E.MOT_MOVE_DONE : Evt := ⟨0x0b4, 2⟩
@[reducible] def E.MOT_MOVE_REFUSED : Evt := ⟨0x0b4, 3⟩
@[reducible] def E.MOT_LIMIT_LATCHED : Evt := ⟨0x0b4, 4⟩
@[reducible] def E.MOT_SUPPLY_SLOW : Evt := ⟨0x0b4, 5⟩
@[reducible] def E.MOT_SP_LATE : Evt := ⟨0x0b4, 6⟩
@[reducible] def E.MOT_RACK_START : Evt := ⟨0x0b4, 7⟩
@[reducible] def E.MOT_RACK_REENTRY : Evt := ⟨0x0b4, 8⟩
@[reducible] def E.MOT_RACK_ABANDON : Evt := ⟨0x0b4, 9⟩
@[reducible] def E.NET_LINK_UP (i : Nat) : Evt := ⟨0x0c0 + i, 0⟩
@[reducible] def E.NET_LINK_DOWN (i : Nat) : Evt := ⟨0x0c0 + i, 1⟩
@[reducible] def E.NET_AUTH_FAIL (i : Nat) : Evt := ⟨0x0c0 + i, 2⟩
@[reducible] def E.NET_FIJ_DONE (i : Nat) : Evt := ⟨0x0c0 + i, 3⟩
@[reducible] def E.TIM_LOCKED : Evt := ⟨0x0c2, 0⟩
@[reducible] def E.TIM_UNLOCKED : Evt := ⟨0x0c2, 1⟩
@[reducible] def E.TIM_HOLDOVER : Evt := ⟨0x0c2, 2⟩
@[reducible] def E.TIM_STEP : Evt := ⟨0x0c2, 3⟩
@[reducible] def E.TIM_STEP_DEFERRED : Evt := ⟨0x0c2, 4⟩
@[reducible] def E.TIM_GM_CHANGE : Evt := ⟨0x0c2, 5⟩
@[reducible] def E.LTQ_LATE : Evt := ⟨0x0c3, 0⟩
@[reducible] def E.LTQ_NO_STAGE : Evt := ⟨0x0c3, 1⟩
@[reducible] def E.IDN_SESSION_UP : Evt := ⟨0x0c4, 0⟩
@[reducible] def E.IDN_SESSION_DOWN : Evt := ⟨0x0c4, 1⟩
@[reducible] def E.IDN_CERT_REJECT : Evt := ⟨0x0c4, 2⟩
@[reducible] def E.IDN_ATTESTED : Evt := ⟨0x0c4, 3⟩
@[reducible] def E.IDN_OWNER_WRITTEN : Evt := ⟨0x0c4, 4⟩
@[reducible] def E.DSC_PARTNER_NEW : Evt := ⟨0x0c5, 0⟩
@[reducible] def E.DSC_PARTNER_LOST : Evt := ⟨0x0c5, 1⟩
@[reducible] def E.DSC_TABLE_FULL : Evt := ⟨0x0c5, 2⟩
@[reducible] def E.DSC_ID_CONFLICT : Evt := ⟨0x0c5, 3⟩
@[reducible] def E.DSC_COLUMN_CONFLICT : Evt := ⟨0x0c5, 4⟩
@[reducible] def E.THM_THM_WARN : Evt := ⟨0x0d0, 0⟩
@[reducible] def E.THM_THM_TRIP : Evt := ⟨0x0d0, 1⟩
@[reducible] def E.THM_RISE_WARN : Evt := ⟨0x0d0, 2⟩
@[reducible] def E.THM_RISE_TRIP : Evt := ⟨0x0d0, 3⟩
@[reducible] def E.THM_SENSOR_EXCLUDED : Evt := ⟨0x0d0, 4⟩
@[reducible] def E.THM_SENSOR_LIMIT : Evt := ⟨0x0d0, 5⟩
@[reducible] def E.THM_HK_LIMIT : Evt := ⟨0x0d0, 6⟩
@[reducible] def E.AGE_MARGIN_LOW : Evt := ⟨0x0d1, 0⟩
@[reducible] def E.AGE_MARGIN_CRIT : Evt := ⟨0x0d1, 1⟩
@[reducible] def E.AGE_FOM_TREND : Evt := ⟨0x0d1, 2⟩
@[reducible] def E.AGE_PLAN_DONE : Evt := ⟨0x0d1, 3⟩
@[reducible] def E.AGE_PLAN_FAIL : Evt := ⟨0x0d1, 4⟩
@[reducible] def E.AGE_LOG_WRITTEN : Evt := ⟨0x0d1, 5⟩
@[reducible] def E.AGE_LOG_FULL : Evt := ⟨0x0d1, 6⟩
@[reducible] def E.BST_BIST_FAIL : Evt := ⟨0x0d2, 0⟩
@[reducible] def E.BST_BIST_SKIP : Evt := ⟨0x0d2, 1⟩
@[reducible] def E.BST_SHADOW_UE : Evt := ⟨0x0d2, 2⟩
@[reducible] def E.BST_ROTATION_DONE : Evt := ⟨0x0d2, 3⟩
@[reducible] def E.CAL_COMMIT : Evt := ⟨0x0d3, 0⟩
@[reducible] def E.CAL_COMMIT_DEFERRED : Evt := ⟨0x0d3, 1⟩
@[reducible] def E.OTP_LOAD_ERR : Evt := ⟨0x0f0, 0⟩

/-! The page map (R425) and the value of every address after reset. -/

/-- A row of the page map (R425): first page, number of pages, first event source, events a page raises, and the
flags EARLY, DORMANT, LEDGER and INJ. -/
structure PageRow where
  first : Nat
  count : Nat
  source : Nat
  events : Nat
  early : Bool
  dormant : Bool
  ledger : Bool
  inj : Bool
  table : List RegDesc

/-- The page map (R425). -/
def pageMap : List PageRow :=
  [⟨0x000, 1, 0, 2, true, true, false, false, tableTOP⟩,
   ⟨0x001, 1, 2, 1, false, true, false, false, tableEVT⟩,
   ⟨0x002, 1, 3, 1, true, true, false, false, tableAON⟩,
   ⟨0x003, 1, 4, 2, true, true, false, false, tableCLK⟩,
   ⟨0x004, 1, 6, 7, true, true, false, false, tablePWR⟩,
   ⟨0x005, 1, 13, 1, false, false, true, false, tableLDG⟩,
   ⟨0x006, 1, 14, 3, false, false, false, false, tableFIJ⟩,
   ⟨0x007, 1, 17, 6, false, false, false, false, tableJOB⟩,
   ⟨0x008, 1, 23, 3, true, false, false, false, tableHIF⟩,
   ⟨0x009, 1, 26, 4, false, false, true, false, tableDMA⟩,
   ⟨0x00A, 1, 30, 32, false, false, true, false, tableRNG⟩,
   ⟨0x010, 4, 62, 6, true, false, false, false, tableMC⟩,
   ⟨0x014, 1, 86, 8, true, false, false, false, tableMEM⟩,
   ⟨0x015, 1, 94, 3, false, false, true, false, tableCEL⟩,
   ⟨0x018, 1, 97, 7, false, false, true, false, tablePRS⟩,
   ⟨0x020, 16, 0, 0, false, false, false, false, tablePE⟩,
   ⟨0x030, 1, 104, 5, false, false, false, false, tableCSK⟩,
   ⟨0x031, 1, 109, 4, false, false, true, false, tableLAT⟩] ++
  [⟨0x040, 68, 113, 3, false, false, false, false, tableTP⟩,
   ⟨0x090, 1, 116, 8, false, false, true, true, tablePLK⟩,
   ⟨0x091, 16, 0, 0, false, false, false, false, tableLQ⟩,
   ⟨0x0A1, 1, 124, 3, false, false, false, false, tablePRT⟩,
   ⟨0x0A8, 1, 127, 17, false, false, false, true, tablePAR⟩,
   ⟨0x0B0, 1, 144, 6, false, false, false, false, tablePOS⟩,
   ⟨0x0B1, 1, 150, 3, false, false, true, false, tableSHT⟩,
   ⟨0x0B2, 1, 153, 2, false, false, false, false, tableTRK⟩,
   ⟨0x0B4, 1, 155, 10, false, false, false, false, tableMOT⟩,
   ⟨0x0C0, 2, 165, 4, false, false, false, true, tableNET⟩,
   ⟨0x0C2, 1, 173, 6, false, false, false, false, tableTIM⟩,
   ⟨0x0C3, 1, 179, 2, false, false, false, false, tableLTQ⟩,
   ⟨0x0C4, 1, 181, 5, false, false, false, false, tableIDN⟩,
   ⟨0x0C5, 1, 186, 5, false, false, false, false, tableDSC⟩,
   ⟨0x0C8, 4, 0, 0, false, false, false, false, tableCK⟩,
   ⟨0x0D0, 1, 191, 7, false, false, false, false, tableTHM⟩,
   ⟨0x0D1, 1, 198, 7, false, false, false, false, tableAGE⟩,
   ⟨0x0D2, 1, 205, 4, false, false, false, false, tableBST⟩,
   ⟨0x0D3, 1, 209, 2, false, false, false, false, tableCAL⟩,
   ⟨0x0F0, 1, 211, 1, true, false, false, false, tableOTP⟩]

/-- The row of the page map that lists a page. -/
def pageRow (page : Nat) : Option PageRow := pageMap.find? fun r => decide (r.first ≤ page) && decide (page < r.first + r.count)

/-- The source number of event `bit` of a page (R430); the pages of TP share three sources, and an MC or NET page's
sources follow those of the page before it. -/
def evtSource (page bit : Nat) : Nat :=
  match pageRow page with
  | some r => if r.first = 0x040 then r.source + bit else r.source + (page - r.first) * r.events + bit
  | none => 255

/-- Number of event bits of a page (R425). -/
def pageEvents (page : Nat) : Nat := match pageRow page with | some r => r.events | none => 0

/-- The page and event bit of a source (R430); for the shared TP sources the first TP page. -/
def sourcePage (src : Nat) : Nat × Nat :=
  match pageMap.find? fun r => decide (r.source ≤ src) &&
      decide (src < r.source + (if r.first = 0x040 then 3 else r.count * r.events)) with
  | some r => if r.first = 0x040 then (0x40, src - r.source)
      else (r.first + (src - r.source) / r.events, (src - r.source) % r.events)
  | none => (0xFFF, 0)

/-- The register or array of a table that holds an offset, if it is a defined one. -/
def findDesc (t : List RegDesc) (off : Nat) : Option RegDesc :=
  t.find? fun d => decide (d.off ≤ off) && (off - d.off) % d.stride == 0 && decide ((off - d.off) / d.stride < d.count)

/-- The block-specific register at a BAR0 address (R420, R421, R426); page 0x00B holds the rings 120 to 127. -/
def regDesc (addr : Nat) : Option RegDesc :=
  let page := addr / 0x1000
  let off := addr % 0x1000
  if page = 0x00B then (if off < 0x100 then findDesc tableRNG (off + 0x1000) else none)
  else match pageRow page with
    | some r => findDesc r.table off
    | none => none

/-- The default neighbours of a temperature sensor (R356). -/
def nbrDefault (s : Nat) : List Nat :=
  if s < 8 then [(s + 7) % 8, (s + 1) % 8]
  else match s with
    | 8 => [9, 16] | 9 => [8, 17]
    | 10 => [11, 16] | 11 => [10, 12, 16] | 12 => [11, 13, 16]
    | 13 => [12, 14, 17] | 14 => [13, 15, 17] | 15 => [14, 17]
    | 16 => [17, 8, 12] | 17 => [16, 9, 13]
    | 18 => [19] | 19 => [18, 20] | 20 => [19, 21] | 21 => [20]
    | 22 => [23, 27] | 23 => [22, 27] | 24 => [0, 7] | 25 => [26, 27] | 26 => [25, 27] | 27 => [12, 13, 26]
    | _ => []

/-- THM_NBR after reset: one byte a neighbour, 0xFF for none (R379). -/
def nbrReset (s : Nat) : Nat :=
  let n := nbrDefault s
  n.getD 0 0xFF + n.getD 1 0xFF * 0x100 + n.getD 2 0xFF * 0x10000 + n.getD 3 0xFF * 0x1000000

/-- HK_LIM after reset, LOW and HIGH of a channel (R357); a temperature channel has none. -/
def hkLimits (ch : Nat) : Nat × Nat :=
  if ch < 28 then (0, 0) else if ch ≤ 31 then (720, 780) else if ch ≤ 34 then (720, 780)
  else if ch ≤ 38 then (825, 875) else if ch ≤ 40 then (1164, 1236) else if ch ≤ 44 then (1067, 1133)
  else if ch ≤ 46 then (1746, 1854) else if ch = 47 then (825, 875) else if ch ≤ 51 then (0, 5000)
  else if ch = 52 then (0, 1500) else if ch ≤ 56 then (0, 1200) else if ch = 57 then (0, 1000)
  else if ch ≤ 61 then (0, 500) else if ch = 62 then (0, 1000) else if ch = 63 then (0, 300) else (0, 0)

/-- The value of an address after reset. PAGE_CTRL has EN set on every page (R422); the MSI-X vectors are masked
(R435, PCI Express); the limits and neighbours of the THM page are as R356 and R357 give; NET_CFG.DORMANT is 1 on
NET0 and 0 on NET1 (R325). -/
def resetValue (addr : Nat) : Word :=
  let page := addr / 0x1000
  let off := addr % 0x1000
  if off = 0x008 ∧ page ≠ 0x00B then (if (pageRow page).isSome then 1 else 0)
  else if page = 0x0D0 ∧ 0x200 ≤ off ∧ off < 0x270 ∧ off % 4 = 0 then BitVec.ofNat 32 (nbrReset ((off - 0x200) / 4))
  else if page = 0x0D0 ∧ 0x400 ≤ off ∧ off < 0x800 ∧ off % 16 = 4 then
    let l := hkLimits ((off - 0x400) / 16)
    BitVec.ofNat 32 (l.2 * 0x10000 + l.1)
  else if page = 0x008 ∧ 0x400 ≤ off ∧ off < 0x800 ∧ off % 16 = 12 then 1
  else if addr = 0xC1100 then 0x008
  else match regDesc addr with
    | some d => BitVec.ofNat 32 d.reset
    | none => 0

end Sys2Proof.Machine
end

