-- ==== Sys2Proof/Machine/Dose.lean ====
section
/-! DEFINITION. The dose arithmetic of one visit (R40 to R47) and the geometry of a stripe (R34, R35), exact integers
throughout. -/

namespace Sys2Proof.Machine

/-- Limit `x` to `lo` .. `hi` (the manual's `sat()`, R10). -/
def satI (x lo hi : Int) : Int := if x < lo then lo else if hi < x then hi else x

/-- The largest code of a dose depth (R41): 255, 63 or 15. -/
def cmaxOf (depth : Nat) : Nat := if depth = 0 then 255 else if depth = 1 then 63 else 15

/-- Bits of a code (R40): 8, 6 or 4. -/
def codeBits (depth : Nat) : Nat := if depth = 0 then 8 else if depth = 1 then 6 else 4

/-- The class factor F, unsigned 4.12, saturated (R40). -/
def classFactor (w n : Nat) : Nat := min ((w * 16 + n / 2) / n) 0xFFFF

/-- The share S4 of one visit, unsigned 12.4 (R40). -/
def share (t f : Nat) : Nat := (t * f + 128) / 256 % 65536

/-- The stored lees code SAT (R45). -/
def leesSat : Nat := 8

/-- The decoded magnitude of a lees code, in sixteenths (R46). -/
def leesMag (i : Nat) : Nat :=
  match i with
  | 0 => 0 | 1 => 2 | 2 => 4 | 3 => 6 | 4 => 8 | 5 => 12 | 6 => 16 | _ => 20

/-- Decode a stored lees code (R46); SAT decodes to 0. -/
def leesDecode (c4 : Nat) : Int :=
  if c4 = leesSat then 0
  else if 8 ≤ c4 then -(leesMag (c4 % 8) : Int) else (leesMag (c4 % 8) : Int)

/-- The magnitude index of a lees (R46); 8 stands for SAT. -/
def leesIndex (a : Nat) : Nat :=
  if a ≤ 1 then 0 else if a ≤ 3 then 1 else if a ≤ 5 then 2 else if a ≤ 7 then 3
  else if a ≤ 10 then 4 else if a ≤ 14 then 5 else if a ≤ 18 then 6 else if a ≤ 22 then 7 else 8

/-- Encode a lees in sixteenths (R46). -/
def leesEncode (l8 : Int) : Nat :=
  let i := leesIndex l8.natAbs
  if i = 8 then leesSat else if i = 0 then 0 else if l8 < 0 then 8 + i else i

/-- What one visit gives (R42, R47): the code sent, the lees written, and the closing result. -/
structure Visit where
  code : Nat
  lees4 : Nat
  write : Bool
  closed : Bool
  exact : Bool
  lees8 : Int
  deriving DecidableEq, Repr

/-- The charge a live visit asks for (R42 step 1), in sixteenths. -/
def visitWant (s4 lees4 w : Nat) : Int := (w : Int) * s4 + leesDecode lees4

/-- The code of a live visit (R42 step 2): round to nearest, ties towards plus infinity, limited. -/
def visitCode (want : Int) (q cmax : Nat) : Nat := (satI ((want * q + 16384) / 32768) 0 cmax).toNat

/-- The charge the code delivers (R42 step 3), in sixteenths. -/
def visitDelivered (code g : Nat) : Nat := (code * g + 64) / 128

/-- The lees after the visit (R42 step 4), in sixteenths, saturated to an 8-bit signed value. -/
def visitLees (want : Int) (code g : Nat) : Int := satI (want - visitDelivered code g) (-128) 127

/-- One visit (R42, R43, R48): the manual's `visit()`. -/
def visit (s4 lees4 g q w : Nat) (closing : Bool) (cmax : Nat) : Visit :=
  if g = 0 then ⟨0, lees4, false, false, false, 0⟩
  else
    let want := visitWant s4 lees4 w
    let code := visitCode want q cmax
    let l8 := visitLees want code g
    if closing then ⟨code, lees4, false, true, decide (lees4 ≠ leesSat ∧ -8 ≤ l8 ∧ l8 ≤ 8), l8⟩
    else ⟨code, if lees4 = leesSat then leesSat else leesEncode l8, true, false, false, l8⟩

/-- Shots of a stripe (R35). -/
def shotCount (len dymax s : Nat) : Nat := (len - 1 + dymax) / s + 1

/-- The pixel row under a beam of Y offset `dy` in shot `n` (R34). -/
def pixelRow (rev : Bool) (len dymax s n dy : Nat) : Int :=
  if rev then (len : Int) - 1 + dymax - n * s - dy else (n : Int) * s - dy

/-- A pixel row in scan order (R129). -/
def scanRow (rev : Bool) (len : Nat) (y : Nat) : Nat := if rev then len - 1 - y else y

end Sys2Proof.Machine
end

