-- ==== Sys2Proof/Machine/Lattice.lean ====
section
/-! DEFINITION. The lattice and gain check (R36, R37, R39, R461), the derived and class tables, and the window fit
(R130), as functions of the loaded tables. -/

namespace Sys2Proof.Machine

/-- What the check reads (R36): the descriptor words, the gain words, and the three registers. -/
structure LatIn where
  lattice : List (Nat × Word)
  gain : List (Nat × Word)
  s : Nat
  w : Nat
  depth : Nat
  deriving DecidableEq, Repr

/-- The word of a sparse table; an entry nothing has written is 0. -/
def tableWord (t : List (Nat × Word)) (i : Nat) : Nat :=
  match t.find? (fun e => e.1 == i) with
  | some e => e.2.toNat
  | none => 0

/-- DY of a row (R29). -/
def LatIn.dy (t : LatIn) (r : Nat) : Nat := tableWord t.lattice r % 8192
/-- DX of a row (R29). -/
def LatIn.dx (t : LatIn) (r : Nat) : Nat := tableWord t.lattice r / 65536 % 4
/-- FCLOSE of a row (R29). -/
def LatIn.fclose (t : LatIn) (r : Nat) : Bool := (tableWord t.lattice r).testBit 24
/-- RCLOSE of a row (R29). -/
def LatIn.rclose (t : LatIn) (r : Nat) : Bool := (tableWord t.lattice r).testBit 25
/-- G of a beam (R55, the gain window). -/
def LatIn.g (t : LatIn) (b : Nat) : Nat := tableWord t.gain b % 4096
/-- Q of a beam (R55, the gain window). -/
def LatIn.q (t : LatIn) (b : Nat) : Nat := tableWord t.gain b / 65536 % 4096

/-- The beam rows. -/
def beamRows : List Nat := List.range 1024
/-- The beam indexes, 512·r + c. -/
def beams : List Nat := List.range 524288

/-- The class index of a row, 64·k + j (R31). -/
def LatIn.cls (t : LatIn) (r : Nat) : Nat := 64 * t.dx r + t.dy r % t.s
/-- The rows of a class in ascending row number (R31). -/
def LatIn.classRows (t : LatIn) (k : Nat) : List Nat := beamRows.filter fun r => t.cls r == k
/-- The class indexes in ascending order (R461). -/
def LatIn.classes (t : LatIn) : List Nat :=
  (List.range 4).flatMap fun k => (List.range t.s).map fun j => 64 * k + j

/-- Largest DY of some rows. -/
def LatIn.maxDy (t : LatIn) (rs : List Nat) : Nat := (rs.map t.dy).foldl max 0
/-- Smallest DY of some rows (8191 of none). -/
def LatIn.minDy (t : LatIn) (rs : List Nat) : Nat := (rs.map t.dy).foldl min 8191
/-- DYMAX (R30). -/
def LatIn.dymax (t : LatIn) : Nat := t.maxDy beamRows
/-- DYMIN (R130). -/
def LatIn.dymin (t : LatIn) : Nat := t.minDy beamRows

/-- Insertion of a row into a list ordered by rising DY. -/
def LatIn.insertByDy (t : LatIn) (r : Nat) : List Nat → List Nat
  | [] => [r]
  | x :: xs => if t.dy r < t.dy x then r :: x :: xs else x :: LatIn.insertByDy t r xs

/-- Rows in the visit order of a direction (R34): rising DY in forward scan, falling in reverse. -/
def LatIn.visitOrder (t : LatIn) (rev : Bool) (rs : List Nat) : List Nat :=
  let up := rs.foldr t.insertByDy []
  if rev then up.reverse else up

/-- The offence of a refused check: RESULT, LAT_BAD.INDEX, LAT_BAD.CLASS (R461). -/
structure LatBad where
  result : Nat
  index : Nat
  cls : Nat
  deriving DecidableEq, Repr

/-- DX_GROUP (R36): the first group of four rows that does not hold each DX once. -/
def LatIn.badDxGroup (t : LatIn) : Option LatBad :=
  ((List.range 256).find? fun m =>
    !((List.range 4).all fun d => (List.range 4).any fun i => t.dx (4 * m + i) == d)).map
    fun m => ⟨2, 4 * m, 0⟩

/-- COLLIDE (R36): the first row that repeats an earlier row's DX and DY. -/
def LatIn.badCollide (t : LatIn) : Option LatBad :=
  (beamRows.find? fun r => (List.range r).any fun r' => t.dx r' == t.dx r && t.dy r' == t.dy r).map
    fun r => ⟨3, r, t.cls r⟩

/-- EMPTY_CLASS (R36). -/
def LatIn.badEmpty (t : LatIn) : Option LatBad :=
  (t.classes.find? fun k => (t.classRows k).isEmpty).map fun k => ⟨4, 0, k⟩

/-- CLASS_OVER (R36): the 64th row of the first class of more than 63 rows. -/
def LatIn.badOver (t : LatIn) : Option LatBad :=
  (t.classes.find? fun k => decide (63 < (t.classRows k).length)).map
    fun k => ⟨5, (t.classRows k).getD 63 0, k⟩

/-- A row's closing flags as R36 requires them within its class. -/
def LatIn.flagsWrong (t : LatIn) (k r : Nat) : Bool :=
  let rs := t.classRows k
  (t.fclose r != (t.dy r == t.maxDy rs)) || (t.rclose r != (t.dy r == t.minDy rs))

/-- CLOSE_FLAG (R36). -/
def LatIn.badFlag (t : LatIn) : Option LatBad :=
  t.classes.findSome? fun k => ((t.classRows k).find? (t.flagsWrong k)).map fun r => ⟨6, r, k⟩

/-- GAIN_LOW (R36). -/
def LatIn.badGain (t : LatIn) : Option LatBad :=
  (beams.find? fun b => decide (1 ≤ t.g b ∧ t.g b ≤ 0x400)).map fun b => ⟨7, b, t.cls (b / 512)⟩

/-- DEAD_CHAIN (R36): every beam of a chain has G = 0. -/
def LatIn.badDead (t : LatIn) : Option LatBad :=
  t.classes.findSome? fun k =>
    let rs := t.classRows k
    ((List.range 512).find? fun c => rs.all fun r => t.g (512 * r + c) == 0).map
      fun c => ⟨8, 512 * ((t.visitOrder false rs).headD 0) + c, k⟩

/-- The first condition of R36 that refuses the tables, with its first offence (R461). -/
def LatIn.check (t : LatIn) : Option LatBad :=
  if t.s < 8 ∨ 64 < t.s ∨ t.depth = 3 then some ⟨1, 0, 0⟩
  else t.badDxGroup <|> t.badCollide <|> t.badEmpty <|> t.badOver <|> t.badFlag <|> t.badGain <|> t.badDead

/-- Weights along a chain (R39): pairs of a row and its weight, dead rows with 0; `gap` counts the dead beams passed
since the previous live one. -/
def chainWeights (g : Nat → Nat) : Nat → List Nat → List (Nat × Nat)
  | _, [] => []
  | gap, r :: rs =>
    if g r = 0 then (r, 0) :: chainWeights g (gap + 1) rs
    else if rs.all (fun x => g x == 0) then (r, 1 + gap + rs.length) :: rs.map (fun x => (x, 0))
    else (r, 1 + gap) :: chainWeights g 0 rs

/-- The chain of beam (r, c) in the visit order of a direction (R32). -/
def LatIn.chain (t : LatIn) (rev : Bool) (r : Nat) : List Nat := t.visitOrder rev (t.classRows (t.cls r))

/-- The derived weight w of a beam (R39). -/
def LatIn.weight (t : LatIn) (rev : Bool) (b : Nat) : Nat :=
  let c := b % 512
  match (chainWeights (fun r => t.g (512 * r + c)) 0 (t.chain rev (b / 512))).find? (fun e => e.1 == b / 512) with
  | some e => e.2
  | none => 0

/-- The effective closing flag of a beam (R39): the last live beam of its chain. -/
def LatIn.closing (t : LatIn) (rev : Bool) (b : Nat) : Bool :=
  let c := b % 512
  ((t.chain rev (b / 512)).filter fun r => t.g (512 * r + c) != 0).getLast? == some (b / 512)

/-- The visit count n of a class (R31). -/
def LatIn.count (t : LatIn) (k : Nat) : Nat := (t.classRows k).length

/-- The class factor F of a class (R40). -/
def LatIn.factor (t : LatIn) (k : Nat) : Nat := classFactor t.w (t.count k)

/-- A word of the derived window (R55). -/
def LatIn.derivedWord (t : LatIn) (b : Nat) : Nat :=
  t.weight false b + t.weight true b * 256 + (if t.closing false b then 65536 else 0)
    + (if t.closing true b then 131072 else 0) + (if t.g b = 0 then 262144 else 0)

/-- A word of the class window (R55); entries with j ≥ s read 0. -/
def LatIn.classWord (t : LatIn) (i : Nat) : Nat :=
  if i < 256 ∧ i % 64 < t.s then t.factor i + t.count i * 65536 else 0

/-- Class counts in class order. -/
def LatIn.counts (t : LatIn) : List Nat := t.classes.map t.count
/-- LAT_NVIS.MIN (R37). -/
def LatIn.nvisMin (t : LatIn) : Nat := t.counts.foldl min 127
/-- LAT_NVIS.MAX (R37). -/
def LatIn.nvisMax (t : LatIn) : Nat := t.counts.foldl max 0
/-- Beams behind QMISM (R37). -/
def LatIn.qmism (t : LatIn) : Nat :=
  (beams.filter fun b => t.g b != 0 && decide (2 ^ 14 < ((t.g b * t.q b : Nat) - (2 ^ 22 : Nat) : Int).natAbs)).length
/-- Closing beams of a direction with G above 1.0 (R37). -/
def LatIn.hot (t : LatIn) (rev : Bool) : Nat :=
  (beams.filter fun b => t.closing rev b && decide (0x800 < t.g b)).length
/-- Dead beams (R55, LAT_DEAD_CNT). -/
def LatIn.dead (t : LatIn) : Nat := (beams.filter fun b => t.g b == 0).length

/-- The rows of a lane (R9). -/
def laneRows (n : Nat) : List Nat := (List.range 16).map fun i => 16 * n + i

/-- The row of smallest DY, the lower row number on a tie (R130). -/
def LatIn.rowOfMin (t : LatIn) (rs : List Nat) : Nat := (rs.find? fun r => t.dy r == t.minDy rs).getD 0
/-- The row of largest DY, the lower row number on a tie (R130). -/
def LatIn.rowOfMax (t : LatIn) (rs : List Nat) : Nat := (rs.find? fun r => t.dy r == t.maxDy rs).getD 0

/-- HB, the bands held for the taps (R130). -/
def LatIn.hb (t : LatIn) : Nat := (3 * t.s + t.dymax - t.dymin + 1 + 63) / 64 + 1
/-- CSK_LEAD.ROWS (R130). -/
def LatIn.leadRows (t : LatIn) : Nat := 8192 - 64 * t.hb

/-- The gap of two lanes' DY ranges (R130, PHASE). -/
def LatIn.laneGap (t : LatIn) (a b : Nat) : Int :=
  max ((t.minDy (laneRows a) : Int) - t.maxDy (laneRows b)) ((t.minDy (laneRows b) : Int) - t.maxDy (laneRows a))

/-- The first failure of the fit conditions: CODE, ROW, OTHER (R130); zeros where none fails. -/
def LatIn.fit (t : LatIn) : Nat × Nat × Nat :=
  match (List.range 64).find? fun n => decide (t.minDy (laneRows n) + 63 < t.maxDy (laneRows n)) with
  | some n => (1, t.rowOfMin (laneRows n), t.rowOfMax (laneRows n))
  | none =>
    match ((List.range 64).flatMap fun a => (List.range 64).map fun b => (a, b)).find? fun p =>
        decide (p.1 < p.2 ∧ p.1 % 2 = p.2 % 2 ∧ t.laneGap p.1 p.2 < 64) with
    | some p => (2, 16 * p.1, 16 * p.2)
    | none =>
      match (beamRows.flatMap fun a => beamRows.map fun b => (a, b)).find? fun p =>
          decide (p.1 < p.2 ∧ p.1 / 16 ≠ p.2 / 16 ∧ t.cls p.1 = t.cls p.2 ∧
            ((t.dy p.1 : Int) - t.dy p.2).natAbs ≤ 3 * t.s) with
      | some p => (3, p.1, p.2)
      | none => if t.leadRows < 1024 then (4, 0, 0) else (0, 0, 0)

end Sys2Proof.Machine
end

