-- ==== Sys2Proof/Machine/Crc.lean ====
section
/-! DEFINITION. Cyclic redundancy checks: one bit-serial register, and the algorithms of R349 with the uses the other
chapters make of them (R61, R76, R143, R163, R233). Byte-order helpers. -/

namespace Sys2Proof.Machine

/-- One bit into a CRC register of width `w`, most significant bit first. -/
def crcBit (w poly crc : Nat) (b : Bool) : Nat :=
  let top := crc / 2 ^ (w - 1) % 2 == 1
  let sh := crc * 2 % 2 ^ w
  if top != b then Nat.xor sh poly else sh

/-- The bits of a byte, most significant first. -/
def byteBitsMsb (x : Nat) : List Bool := (List.range 8).map fun i => Nat.testBit x (7 - i)

/-- The bits of a byte, least significant first. -/
def byteBitsLsb (x : Nat) : List Bool := (List.range 8).map fun i => Nat.testBit x i

/-- Reverse the low `w` bits. -/
def reflect (w x : Nat) : Nat :=
  (List.range w).foldl (fun acc i => acc * 2 + (if Nat.testBit x i then 1 else 0)) 0

/-- The parameters of a CRC (R349): width, polynomial, initial value, reflection in and out, final XOR. -/
structure CrcAlg where
  width : Nat
  poly : Nat
  init : Nat
  refl : Bool
  xorOut : Nat
  deriving DecidableEq, Repr

/-- Feed one byte into the running register (kept unreflected). -/
def crcByte (a : CrcAlg) (crc byte : Nat) : Nat :=
  (if a.refl then byteBitsLsb byte else byteBitsMsb byte).foldl (fun c b => crcBit a.width a.poly c b) crc

/-- The value of a running register. -/
def crcOut (a : CrcAlg) (crc : Nat) : Nat :=
  Nat.xor (if a.refl then reflect a.width crc else crc) a.xorOut

/-- The CRC of a byte string. -/
def crcOf (a : CrcAlg) (bs : List Nat) : Nat := crcOut a (bs.foldl (crcByte a) a.init)

/-- CRC-32 as IEEE 802.3 defines it. -/
def crc32 : CrcAlg := ⟨32, 0x04C11DB7, 0xFFFFFFFF, true, 0xFFFFFFFF⟩
/-- CRC-32C (Castagnoli). -/
def crc32c : CrcAlg := ⟨32, 0x1EDC6F41, 0xFFFFFFFF, true, 0xFFFFFFFF⟩
/-- CRC-64/ECMA-182 (R143). -/
def crc64 : CrcAlg := ⟨64, 0x42F0E1EBA9EA3693, 0, false, 0⟩

/-- The `n` low bytes of `x`, little-endian (R6). -/
def leBytes : Nat → Nat → List Nat
  | 0, _ => []
  | n + 1, x => x % 256 :: leBytes n (x / 256)

/-- The number that little-endian bytes spell (R6). -/
def leNat : List Nat → Nat
  | [] => 0
  | b :: bs => b % 256 + 256 * leNat bs

/-- `n` bytes starting at byte `o`; missing bytes read as 0. -/
def bytesAt (bs : List Nat) (o n : Nat) : List Nat := (List.range n).map fun i => bs.getD (o + i) 0

/-- A little-endian field of a byte string. -/
def leAt (bs : List Nat) (o n : Nat) : Nat := leNat (bytesAt bs o n)

/-- A signed value in two's complement of `w` bits. -/
def toSigned (w x : Nat) : Int := if 2 ^ (w - 1) ≤ x % 2 ^ w then (x % 2 ^ w : Nat) - (2 ^ w : Nat) else (x % 2 ^ w : Nat)

/-- The `w` low bits of an integer in two's complement. -/
def ofSigned (w : Nat) (x : Int) : Nat := (x % (2 ^ w : Nat)).toNat

end Sys2Proof.Machine
end

