-- ==== Sys2Proof/Machine/Melris.lean ====
section
/-! DEFINITION. The stripe image (R58 to R63), its ingest audit (R73, R75, R79), and the decoding of its blocks and
clusters (R64 to R72, R74, R83, R89), as functions of the image's bytes. -/

namespace Sys2Proof.Machine

/-- Slot bytes of a ratio class (R63). -/
def slotBytes (ratio : Nat) : Nat := 128 / 2 ^ ratio

/-- The fields of a stripe header (R59). -/
structure StripeHdr where
  magic : Nat
  format : Nat
  hdrLen : Nat
  stripe : Nat
  len : Nat
  tbl : Bool
  ratio : Nat
  spillRecs : Nat
  primaryLen : Nat
  saffronLen : Nat
  spillLen : Nat
  spillBudget : Nat
  imageLen : Nat
  hostTag : Nat
  melrisVer : Nat
  hdrCrc : Nat
  deriving DecidableEq, Repr

/-- Read the header fields from its 256 bytes (R59). -/
def parseHdr (bs : List Nat) : StripeHdr where
  magic := leAt bs 0 4
  format := leAt bs 4 2
  hdrLen := leAt bs 6 2
  stripe := leAt bs 8 4
  len := leAt bs 0x0C 4
  tbl := (leAt bs 0x10 4).testBit 8
  ratio := leAt bs 0x10 4 % 4
  spillRecs := leAt bs 0x14 4
  primaryLen := leAt bs 0x18 8
  saffronLen := leAt bs 0x20 8
  spillLen := leAt bs 0x28 8
  spillBudget := leAt bs 0x30 8
  imageLen := leAt bs 0x38 8
  hostTag := leAt bs 0x40 8
  melrisVer := leAt bs 0xF8 4
  hdrCrc := leAt bs 0xFC 4

/-- Offset of the primary area (R58). -/
def StripeHdr.p0 (h : StripeHdr) : Nat := if h.tbl then 512 else 256
/-- Blocks of the stripe (R58). -/
def StripeHdr.nb (h : StripeHdr) : Nat := 8 * h.len
/-- Offset of the saffron array (R58). -/
def StripeHdr.saffronOff (h : StripeHdr) : Nat := h.p0 + h.nb * slotBytes h.ratio
/-- Offset of the spill stream (R58). -/
def StripeHdr.spillOff (h : StripeHdr) : Nat := h.saffronOff + 4 * h.len
/-- The bytes of a spill buffer that hold the spill stream (R76). -/
def spillUnitBytes : Nat := 1048512
/-- Buffers a stripe reserves (R78). -/
def StripeHdr.units (h : StripeHdr) : Nat := (h.spillBudget + spillUnitBytes - 1) / spillUnitBytes

/-- The refusal code found on the header, 0 where none (R79): codes 0x1 to 0x4 and 0x6, the lowest first. `want` is the
stripe number of the bin's stripe descriptor, `binBytes` the bin's size, `pool` the pool's buffers. -/
def headerCode (bs : List Nat) (want binBytes pool : Nat) : Nat :=
  let h := parseHdr bs
  if h.magic ≠ 0x53524C4D ∨ h.format ≠ 1 ∨ h.hdrLen ≠ 0x100 ∨ h.stripe ≠ want then 1
  else if h.hdrCrc ≠ crcOf crc32c (bytesAt bs 0 0xFC) then 2
  else if h.len % 16 ≠ 0 ∨ h.len < 16 ∨ 33554432 < h.len then 3
  else if h.primaryLen ≠ h.nb * slotBytes h.ratio ∨ h.saffronLen ≠ 4 * h.len ∨
      h.imageLen ≠ h.spillOff + h.spillLen ∨ binBytes < h.spillOff then 4
  else if h.spillBudget < h.spillLen ∨ 260 * h.nb < h.spillBudget ∨ pool < h.units then 6
  else 0

/-! ### Code tables -/

/-- The code lengths of the static table (R72). -/
def staticLen (z : Nat) : Nat :=
  if z = 0 then 2 else if z = 1 ∨ z = 2 ∨ z = 256 then 3 else if z ≤ 6 then 5 else if z ≤ 14 then 6
  else if z ≤ 30 then 8 else if z ≤ 62 then 10 else if z ≤ 125 then 12 else 13

/-- The static table as a list of 257 lengths. -/
def staticLens : List Nat := (List.range 257).map staticLen

/-- Symbols of a length. -/
def lenCount (lens : List Nat) (b : Nat) : Nat := (lens.filter (· == b)).length

/-- The first canonical code of a length (R71). -/
def firstCode (lens : List Nat) : Nat → Nat
  | 0 => 0
  | b + 1 => (firstCode lens b + (if b = 0 then 0 else lenCount lens b)) * 2

/-- The symbol whose canonical code of `b` bits is `c` (R71). -/
def codeSymbol (lens : List Nat) (b c : Nat) : Option Nat :=
  if c < firstCode lens b then none
  else ((List.range lens.length).filter fun z => lens.getD z 0 == b)[c - firstCode lens b]?

/-- The lengths held in a dynamic code table section (R73). -/
def tableLens (t : List Nat) : List Nat :=
  (List.range 257).map fun z => let b := t.getD (8 + z / 2) 0; if z % 2 = 0 then b % 16 else b / 16 % 16

/-- Whether the ingest audit accepts a dynamic code table (R73). -/
def tableOk (t : List Nat) : Bool :=
  let lens := tableLens t
  let used := lens.filter (· != 0)
  leAt t 0 4 == 0x54524C4D && leAt t 0xFC 4 == crcOf crc32c (bytesAt t 0 0xFC) && leAt t 4 2 == 257 &&
    decide (2 ≤ used.length) && (used.map fun l => 2 ^ (15 - l)).sum == 32768

/-! ### Blocks -/

/-- Bit `i` of a byte stream (R65); none past its end. -/
def streamBit (bs : List Nat) (i : Nat) : Option Bool := (bs[i / 8]?).map fun b => Nat.testBit b (i % 8)

/-- A field of `n` bits at stream bit `i`, least significant bit first (R65). -/
def streamField (bs : List Nat) (i : Nat) : Nat → Option Nat
  | 0 => some 0
  | n + 1 =>
    match streamBit bs i, streamField bs (i + 1) n with
    | some b, some v => some ((if b then 1 else 0) + 2 * v)
    | _, _ => none

/-- Read one prefix code, most significant bit first (R65, R71): the symbol and the bits used. -/
def readCode (lens bs : List Nat) (i : Nat) : Nat → Nat → Nat → Option (Nat × Nat)
  | 0, _, _ => none
  | fuel + 1, used, acc =>
    match streamBit bs (i + used) with
    | none => none
    | some b =>
      let acc' := acc * 2 + (if b then 1 else 0)
      match codeSymbol lens (used + 1) acc' with
      | some z => some (z, used + 1)
      | none => readCode lens bs i fuel (used + 1) acc'

/-- The prediction of DELTA (R68) for pixel `i`, from the pixels decoded so far. -/
def predict (kind seed : Nat) (px : List Nat) (i : Nat) : Nat :=
  let x := i % 16
  let y := i / 16
  let n := px.getD (i - 16) 0
  let w := px.getD (i - 1) 0
  let nw := px.getD (i - 17) 0
  if i = 0 then seed
  else if y = 0 then w
  else if x = 0 then n
  else if kind = 0 then w
  else if kind = 1 then n
  else if kind = 2 then
    (if max n w ≤ nw then min n w else if nw ≤ min n w then max n w else n + w - nw)
  else (n + w + 1) / 2

/-- The residual of a symbol, modulo 256 (R69). -/
def residual (z : Nat) : Nat := if z % 2 = 0 then z / 2 else (256 - (z + 1) / 2) % 256

/-- `k` pixels of residual 0 (R69, ZRUN). -/
def zeroRun (kind seed : Nat) : Nat → List Nat → List Nat
  | 0, px => px
  | k + 1, px => zeroRun kind seed k (px ++ [predict kind seed px px.length])

/-- Decode the residuals of a DELTA block (R68, R69), or the detail code of R89. -/
def decodeDelta (lens bs : List Nat) (kind seed : Nat) : Nat → Nat → List Nat → Except Nat (List Nat)
  | 0, _, px => .ok px
  | fuel + 1, i, px =>
    if 256 ≤ px.length then .ok px
    else
      match readCode lens bs i 15 0 0 with
      | none => .error 4
      | some (z, used) =>
        if z = 256 then
          match streamField bs (i + used) 8 with
          | none => .error 4
          | some n =>
            if 256 < px.length + n + 2 then .error 5
            else decodeDelta lens bs kind seed fuel (i + used + 8) (zeroRun kind seed (n + 2) px)
        else decodeDelta lens bs kind seed fuel (i + used)
          (px ++ [(predict kind seed px px.length + residual z) % 256])

/-- The sixteen positions of an EDGE block (R66, R67), or the detail code of R89. -/
def edgePositions (bs : List Nat) : Nat → Nat → Except Nat (List Nat)
  | 0, _ => .ok []
  | n + 1, i =>
    match streamField bs i 5 with
    | none => .error 4
    | some p =>
      if 16 < p then .error 3
      else match edgePositions bs n (i + 5) with
        | .ok ps => .ok (p :: ps)
        | .error e => .error e

/-- The pixels of an EDGE block (R67). -/
def edgePixels (t grey : Bool) (a b : Nat) (ps gs : List Nat) : List Nat :=
  (List.range 256).map fun i =>
    let along := if t then i / 16 else i % 16
    let line := if t then i % 16 else i / 16
    let p := ps.getD line 0
    if along < p then a else if along = p ∧ grey then gs.getD line 0 else b

/-- Index bits of PAL (R66). -/
def palBits (k : Nat) : Nat := if k = 1 then 0 else if k = 2 then 1 else if k ≤ 4 then 2 else if k ≤ 8 then 3 else 4

/-- The indices of a PAL block as pixels (R66), or the detail code of R89. -/
def palPixels (levels bs : List Nat) (k b : Nat) : Nat → Nat → Except Nat (List Nat)
  | 0, _ => .ok []
  | n + 1, i =>
    match streamField bs i b with
    | none => .error 4
    | some v =>
      if k ≤ v then .error 2
      else match palPixels levels bs k b n (i + b) with
        | .ok ps => .ok (levels.getD v 0 :: ps)
        | .error e => .error e

/-- Decode a block from its header byte and the body bytes that its slot or record holds (R66 to R70), or the detail
code of R89. ESCAPE is the caller's. -/
def decodeBlock (dyn : Option (List Nat)) (hdr : Nat) (body : List Nat) : Except Nat (List Nat) :=
  let mode := hdr / 32 % 8
  match mode with
  | 0 =>
    match body with
    | v :: _ => .ok (List.replicate 256 v)
    | [] => .error 4
  | 1 =>
    if body.length < 2 then .error 4
    else
      let grey := Nat.testBit hdr 1
      match edgePositions (bytesAt body 2 (min 10 (body.length - 2))) 16 0 with
      | .error e => .error e
      | .ok ps =>
        if grey ∧ body.length < 28 then .error 4
        else .ok (edgePixels (Nat.testBit hdr 0) grey (body.getD 0 0) (body.getD 1 0) ps (body.drop 12))
  | 2 =>
    let k := hdr % 16 + 1
    if body.length < k then .error 4
    else palPixels (body.take k) (body.drop k) k (palBits k) 256 0
  | 3 =>
    match (if Nat.testBit hdr 2 then dyn else some staticLens) with
    | none => .error 6
    | some lens =>
      match body with
      | [] => .error 4
      | seed :: rest => decodeDelta lens rest (hdr % 4) seed 257 0 []
  | 4 => if body.length < 256 then .error 4 else .ok (body.take 256)
  | 5 => .error 9
  | _ => .error 1

/-- Decode a spill record (R75): its four header bytes, then the body bytes within BODY_LEN that exist. R89 orders conditions by
position and, at one position, by their code; the model takes the four header bytes as one position (DESIGN CHOICE). -/
def decodeRecord (dyn : Option (List Nat)) (m : Nat) (rec : List Nat) : Except Nat (List Nat) :=
  let h := leAt rec 0 4
  let hdr := h % 256
  if 6 ≤ hdr / 32 % 8 then .error 1
  else if hdr / 32 % 8 = 3 ∧ Nat.testBit hdr 2 ∧ dyn.isNone then .error 6
  else if h / 16777216 % 256 ≠ m % 256 then .error 8
  else if hdr / 32 % 8 = 5 then .error 9
  else decodeBlock dyn hdr ((rec.drop 4).take (h / 256 % 65536))

/-- The bytes of a spill record that begins at spill offset `o`, cut at the end of the spill stream. `rd` reads a
byte of the image, none where the cellar line is unreadable. -/
def recordBytes (rd : Nat → Option Nat) (h : StripeHdr) (o : Nat) : Option (List Nat) :=
  match (List.range (min 4 (h.spillLen - o))).mapM fun i => rd (h.spillOff + o + i) with
  | none => none
  | some hd =>
    let n := leAt hd 1 2
    ((List.range (min (4 + n) (h.spillLen - o))).mapM fun i => rd (h.spillOff + o + i))

/-- The bytes of slot `m` (R63). -/
def slotOf (rd : Nat → Option Nat) (h : StripeHdr) (m : Nat) : Option (List Nat) :=
  (List.range (slotBytes h.ratio)).mapM fun i => rd (h.p0 + m * slotBytes h.ratio + i)

/-- The spill offset of an escaped block (R66), where it is one the press follows (R74). -/
def escapeOffset (slot : List Nat) : Nat := leAt slot 1 6

/-- Whether a slot escapes to the spill stream. -/
def isEscape (slot : List Nat) : Bool := slot.getD 0 0 / 32 % 8 == 5

/-- Whether an ESCAPE offset is one R74 allows. -/
def escapeOk (h : StripeHdr) (o : Nat) : Bool := o % 4 == 0 && decide (o < h.spillLen)

/-- How a cluster's decoding ends (R89): its 2048 pixels, or a fault kind with its detail and computed word. -/
inductive ClusterResult where
  | pass (pixels : List Nat)
  | saffron (computed : Nat)
  | poison
  | decode (detail : Nat)
  deriving DecidableEq, Repr

/-- Decode the block of index `m` from its slot, following an escape (R74). -/
def blockPixels (rd : Nat → Option Nat) (h : StripeHdr) (dyn : Option (List Nat)) (m : Nat) (slot : List Nat) :
    Except Nat (List Nat) :=
  let hdr := slot.getD 0 0
  if isEscape slot then
    if escapeOk h (escapeOffset slot) then
      match recordBytes rd h (escapeOffset slot) with
      | some r => decodeRecord dyn m r
      | none => .error 4
    else .error 7
  else if hdr / 32 % 8 = 4 then .error 9
  else decodeBlock dyn hdr (slot.drop 1)

/-- Decode blocks in ascending index up to the first fault. -/
def blocksPixels (rd : Nat → Option Nat) (h : StripeHdr) (dyn : Option (List Nat)) :
    List (Nat × List Nat) → Except Nat (List Nat)
  | [] => .ok []
  | (m, slot) :: rest =>
    match blockPixels rd h dyn m slot with
    | .error e => .error e
    | .ok px =>
      match blocksPixels rd h dyn rest with
      | .error e => .error e
      | .ok ps => .ok (px ++ ps)

/-- The blocks of cluster `q` in ascending bx (R61). -/
def clusterBlocks (q : Nat) : List Nat := (List.range 8).map fun i => 128 * (q / 16) + 8 * (q % 16) + i

/-- The dynamic code table of an image, where it has one (R58). -/
def imageTable (rd : Nat → Option Nat) (h : StripeHdr) : Option (List Nat) :=
  if h.tbl then ((List.range 256).mapM fun i => rd (256 + i)).map tableLens else none

/-- A block's header byte calls for the stripe's dynamic table (R70). -/
def wantsTable (hdr : Nat) : Bool := hdr / 32 % 8 == 3 && Nat.testBit hdr 2

/-- The decoding of a cluster reads the dynamic table: some slot, or the record that it escapes to, calls for it. -/
def usesTable (rd : Nat → Option Nat) (h : StripeHdr) (slots : List (Nat × List Nat)) : Bool :=
  h.tbl && slots.any fun e => wantsTable (e.2.getD 0 0) || (isEscape e.2 && escapeOk h (escapeOffset e.2) &&
    match rd (h.spillOff + escapeOffset e.2) with | some b => wantsTable b | none => false)

/-- Decode cluster `q` of an image (R83, R89): poison first, in whatever line it reads, then the first decode fault, then the
saffron word. -/
def decodeCluster (rd : Nat → Option Nat) (h : StripeHdr) (q : Nat) : ClusterResult :=
  match (clusterBlocks q).mapM fun m => (slotOf rd h m).map fun s => (m, s) with
  | none => .poison
  | some slots =>
    let recs := slots.filter fun e => isEscape e.2 && escapeOk h (escapeOffset e.2)
    if recs.any fun e => (recordBytes rd h (escapeOffset e.2)).isNone then .poison
    else if usesTable rd h slots && (imageTable rd h).isNone then .poison
    else
      match (List.range 4).mapM fun i => rd (h.saffronOff + 4 * q + i) with
      | none => .poison
      | some w =>
        match blocksPixels rd h (imageTable rd h) slots with
        | .error e => .decode e
        | .ok px => let c := crcOf crc32c px; if c = leNat w then .pass px else .saffron c

/-- How far the audit's walk over the spill records has come (R79 code 0x7). -/
inductive Walked where
  | bad | more | done
  deriving DecidableEq, Repr

/-- The walk over the record headers of the spill stream (R75, R79), from offset `o` with `n` records passed, as far
as the first `limit` bytes of the image are confirmed. An unreadable header is left to the caller. -/
def spillWalk (rd : Nat → Option Nat) (h : StripeHdr) (limit : Nat) : Nat → Nat → Nat → Walked
  | 0, _, _ => .bad
  | fuel + 1, o, n =>
    if o = h.spillLen then (if limit < h.spillOff + o then .more else if n = h.spillRecs then .done else .bad)
    else if h.spillLen < o + 4 then .bad
    else if limit < h.spillOff + o + 4 then .more
    else
      match (List.range 4).mapM fun i => rd (h.spillOff + o + i) with
      | none => .more
      | some hd =>
        let len := leAt hd 1 2
        let mode := hd.getD 0 0 / 32 % 8
        let next := o + 4 + (len + 3) / 4 * 4
        if len = 0 ∨ 256 < len ∨ 4 < mode ∨ (mode = 4 ∧ len ≠ 256) ∨ h.spillLen < next then .bad
        else spillWalk rd h limit fuel next (n + 1)

/-- The refusal code that the audit finds past the header in the first `limit` bytes, 0 where none: TABLE, then
SPILL_WALK (R79). -/
def bodyCode (rd : Nat → Option Nat) (h : StripeHdr) (limit : Nat) : Nat :=
  let badTable := h.tbl && decide (512 ≤ limit) && match (List.range 256).mapM fun i => rd (256 + i) with
    | some t => !tableOk t
    | none => false
  if badTable then 5
  else if spillWalk rd h limit (h.spillLen / 4 + 2) 0 0 = .bad then 7 else 0

end Sys2Proof.Machine
end

