-- ==== Sys2Proof/WellFormed.lean ====
section
/-! DEFINITION. Which commands describe something that can happen at the block's interfaces: where the length of an operand is
fixed by the spec, it has that length. Every other operand's type already bounds it. -/

namespace Sys2Proof

/-- A housekeeping round reads 28 sensors, 36 supply channels, 48 canaries, 16 ring oscillators and the eye monitors of 4
return and 8 pair lanes (R356, R357, R366). -/
def roundOk (r : HkRound) : Bool :=
  r.temps.length == 28 && r.supplies.length == 36 && r.canaries.length == 48 && r.rings.length == 16 && r.foms.length == 12

/-- A command's lists have the lengths that the spec gives: 8 signatures in a SIG message (R267), the readings of a round
(R357), 256-byte entries of a control-message ring (R104). -/
def Instr.wf : Instr → Bool
  | .sig _ _ _ sigs => sigs.data.length == 8
  | .hkRound r => roundOk r
  | .doorbell _ _ entries => entries.all fun e => e.length == 256
  | _ => true

end Sys2Proof
end

