-- ==== Sys2Proof/Machine/State.lean ====
section
/-! DEFINITION. The state of the block as plain data: the device state and pair role, the ledgers, the events, the
registers, the cellar, the structures of every chapter, and the queue of waiting commands. -/

namespace Sys2Proof.Machine

/-! ### Modes -/

/-- The nine device states (R18), numbered as TOP_STAT.STATE. -/
inductive DevState where
  | off | reset | dormant | ready | armed | writing | racking | draining | fault
  deriving DecidableEq, Repr

/-- TOP_STAT.STATE of a state (R436). -/
def DevState.code : DevState → Nat
  | .off => 0 | .reset => 1 | .dormant => 2 | .ready => 3 | .armed => 4
  | .writing => 5 | .racking => 6 | .draining => 7 | .fault => 8

/-- The pair roles (R260), numbered as HB ROLE (R270). -/
inductive Role where
  | solo | active | standby | joining | split
  deriving DecidableEq, Repr

/-- HB ROLE of a role (R270). -/
def Role.code : Role → Nat
  | .solo => 0 | .active => 1 | .standby => 2 | .joining => 3 | .split => 4

/-- The edges of R19 and R22 (a reset source acts in every powered state; a supply loss in every powered state). -/
def DevState.edge : DevState → DevState → Bool
  | .off, .reset => true
  | .off, _ => false
  | _, .off => true
  | _, .reset => true
  | .reset, .ready => true
  | .ready, .dormant => true
  | .dormant, .ready => true
  | .ready, .armed => true
  | .armed, .ready => true
  | .armed, .writing => true
  | .writing, .racking => true
  | .racking, .writing => true
  | .writing, .draining => true
  | .racking, .draining => true
  | .draining, .ready => true
  | .armed, .fault => true
  | .writing, .fault => true
  | .racking, .fault => true
  | .draining, .fault => true
  | _, _ => false

/-- The edges of R290; a reset makes any device SOLO outside this table, and a FAULT notice passes the ACTIVE role
away (R283). -/
def Role.edge : Role → Role → Bool
  | .solo, .active => true
  | .solo, .standby => true
  | .solo, .joining => true
  | .joining, .standby => true
  | .joining, .solo => true
  | .standby, .active => true
  | .active, .standby => true
  | .active, .split => true
  | .standby, .split => true
  | .standby, .solo => true
  | .active, .solo => true
  | .split, .solo => true
  | _, _ => false

/-! ### Ledgers -/

/-- The seven accounts of the six ledgers (R405), numbered as LDG_SEL. -/
inductive Ledger where
  | tile | creditDma | creditCel | frame | shot | dose | ring
  deriving DecidableEq, Repr

/-- The account numbers of LDG_SEL (R416). -/
def Ledger.code : Ledger → Nat
  | .tile => 0 | .creditDma => 1 | .creditCel => 2 | .frame => 3 | .shot => 4 | .dose => 5 | .ring => 6

/-- One account: 48-bit counts (R405). -/
structure Account where
  inn : BitVec 48 := 0
  out : BitVec 48 := 0
  held : BitVec 48 := 0
  deriving DecidableEq, Repr

/-- The accounts. -/
structure Ledgers where
  tile : Account := {}
  creditDma : Account := {}
  creditCel : Account := {}
  frame : Account := {}
  shot : Account := {}
  dose : Account := {}
  ring : Account := {}
  deriving DecidableEq, Repr

/-! ### The lattice, the window and the taps -/

/-- The loaded tables, what the last passing check captured, and the digests (chapters 2 and 9). -/
structure LatBlk where
  /-- Lattice window (R29); an unlisted row reads 0. -/
  lattice : List (Nat × Word) := []
  /-- Gain window (R55); an unlisted beam reads 0. -/
  gain : List (Nat × Word) := []
  /-- The gain window has been written since the last reset or wake (R437 condition 0x02). -/
  gainWritten : Bool := false
  /-- The tables and registers of the last passing check since reset or wake (R38). -/
  cap : Option LatIn := none
  /-- The last word read or written through LAT_DATA, which the read-back path of R113 returns. -/
  lastData : Word := 0
  deriving DecidableEq, Repr

/-- How one pixel's closing visit ended (R48, R50). -/
structure Close where
  x : Nat
  y : Nat
  beam : Nat
  exact : Bool
  satRead : Bool
  lees8 : Int
  deriving DecidableEq, Repr

/-- One shot in the taps: a pending slot of every tap, and the payloads built (R136, R138, R142, R143). -/
structure Slot where
  shot : Nat
  complete : Bool := false
  /-- Payload codes by beam index; an unlisted beam carries code 0. -/
  codes : List (Nat × Nat) := []
  /-- New lees codes by cask pixel (2048 · cask row + X). -/
  lees : List (Nat × Nat) := []
  closes : List Close := []
  /-- The 64 lane signatures (R143). -/
  sigs : List Nat := []
  /-- The slot of the last shot of its stripe. -/
  last : Bool := false
  /-- Window row of the earliest row that the shot reads, counted as Stripe.base (R132). -/
  row : Nat := 0
  deriving DecidableEq, Repr

/-- A stripe as it is pressed and written: its descriptor, its header's L, and its place in the cask (R129). -/
structure Stripe where
  num : Nat
  bin : Nat
  rev : Bool
  last : Bool
  len : Nat
  y0 : Int
  x : Int
  base : Nat
  /-- N of R35. -/
  shots : Nat
  deriving DecidableEq, Repr

/-- The cask and the taps (chapter 5). -/
structure CaskBlk where
  /-- Pixels by 2048 · cask row + X: target · 16 + lees4; an unlisted pixel reads 0. -/
  cask : List (Nat × Nat) := []
  slots : List Slot := []
  /-- Slots being committed, oldest first (R140). -/
  draining : List Slot := []
  /-- Next shot of the stripe that the taps start (R136). -/
  nextShot : Nat := 0
  /-- The oldest shot of the stripe being written that no slot drains (R132). -/
  oldest : Nat := 0
  /-- The window row, counted without wrapping, at which the discard pointer stands (R132). -/
  discard : Nat := 0
  /-- Taps to retire at the end of the stripe (R146, R151). -/
  retireAtEnd : List Nat := []
  /-- Steering requests waiting for a boundary (R149). -/
  steerPending : List Nat := []
  /-- Spares that serve a lane now, each with its lane (R149). -/
  serve : List (Nat × Nat) := []
  /-- Window row of the last row that the press released, counted as Stripe.base (R132, R152). -/
  head : Option Nat := none
  deriving DecidableEq, Repr

/-! ### The press, the cellar and DMA -/

/-- A cluster on an engine (R84, R90). -/
structure Cluster where
  q : Nat
  engine : Nat
  attempt : Nat
  /-- A line of its slots or records did not read (R338). -/
  poisoned : Bool := false
  deriving DecidableEq, Repr

/-- A stripe in the press (R84, R86, R88). -/
structure Run where
  stripe : Stripe
  hdr : StripeHdr
  /-- Clusters dispatched in scan order so far. -/
  dispatched : Nat := 0
  busy : List Cluster := []
  /-- Failed clusters waiting for a retry: q, last engine, attempt (R90). -/
  retry : List Cluster := []
  /-- Clusters that have passed and whose block row is not released. -/
  passed : List Nat := []
  lost : List Nat := []
  /-- Block rows released in scan order (R86). -/
  released : Nat := 0
  /-- Failures within this stripe by engine (R92). -/
  fails : List (Nat × Nat) := []
  deriving DecidableEq, Repr

/-- The press (chapter 3). -/
structure PressBlk where
  /-- Stripes started and not yet finished, oldest first: the first is the one that the taps compute and the device
  writes, the last the one that the press dispatches. -/
  runs : List Run := []
  /-- Window row at which the next stripe begins (R129), counted without wrapping from the arm. -/
  nextBase : Nat := 0
  /-- FILL_LOW may be raised (R87). -/
  fillArmed : Bool := true
  deriving DecidableEq, Repr

/-- A bin's state (R117). -/
inductive BinState where
  | filling | ready | current
  deriving DecidableEq, Repr

/-- One piece of a stripe image (R118, R119). -/
structure Piece where
  off : Nat
  len : Nat
  confirmed : Nat
  ended : Bool
  last : Bool
  deriving DecidableEq, Repr

/-- A bin that is not FREE (R117). -/
structure Bin where
  num : Nat
  state : BinState
  stripe : Nat
  sring : Option Nat
  /-- A piece overlapped another, or reached beyond the image, or carried LAST elsewhere than at its end (R118). -/
  overrun : Bool := false
  /-- Which filling this is: bins are numbered anew at each acceptance. -/
  gen : Nat := 0
  /-- Bytes of the confirmed prefix that the audit has read. -/
  audited : Nat := 0
  /-- The header, once it has passed codes 0x1 to 0x4 (R81). -/
  hdr : Option StripeHdr := none
  /-- Pool buffers reserved, in chain order (R78). -/
  units : List Nat := []
  /-- Pieces in the order in which they were taken (R118). -/
  pieces : List Piece := []
  /-- Own and mate's stripe digests (R264). -/
  sdig : Option Nat := none
  mateSdig : Option Nat := none
  /-- Clusters whose blocks have been booked out (R81). -/
  booked : List Nat := []
  /-- Bytes confirmed in each setpoint period, newest first (R241). -/
  rate : List Nat := []
  deriving DecidableEq, Repr

/-- The cellar's bins and pool (chapter 4). -/
structure CellarBlk where
  bins : List Bin := []
  /-- Bins whose reservations wait, oldest first (R120). -/
  waits : List Nat := []
  /-- The mate's digests of stripes that this device does not hold READY yet (R264): stripe, digest. -/
  earlySdig : List (Nat × Nat) := []
  /-- Lines marked poisoned (R341), by address of the line's first byte. -/
  poison : List Nat := []
  /-- Number of the next filling. -/
  fillings : Nat := 0
  deriving DecidableEq, Repr

/-- A descriptor taken and not yet completed in ring order (R110). -/
structure InFlight where
  ring : Nat
  dindex : Nat
  desc : Desc
  /-- The filling of its bin. -/
  gen : Nat := 0
  /-- Bytes confirmed so far (PROGRESS). -/
  confirmed : Nat := 0
  /-- STATUS once ended (R112). -/
  ended : Option Nat := none
  /-- Its bytes are confirmed and it waits for the audit (R118). -/
  awaits : Bool := false
  deriving DecidableEq, Repr

/-- A DMA channel at work on a descriptor (R101, R113, R115). -/
structure Chan where
  ch : Nat
  ring : Nat
  dindex : Nat
  parked : Bool := false
  preempted : Bool := false
  poolWait : Bool := false
  deriving DecidableEq, Repr

/-- The DMA engine (chapter 4). -/
structure DmaBlk where
  chans : List Chan := []
  /-- Descriptors taken and not completed, in the order in which they were taken. -/
  inflight : List InFlight := []
  /-- Submission rings that wait for room in their completion ring (R108). -/
  stalled : List Nat := []
  /-- Completion entries of a reset ring that wait for room (R108, R125): ring, entry, IRQ. -/
  owed : List (Nat × List Nat × Bool) := []
  /-- Answers that wait for room in the reply ring (R301): header and payload. -/
  replies : List (List Nat × List Nat) := []
  deriving DecidableEq, Repr

/-! ### The job and the shot path -/

/-- An entry of the job queue (R233, R234). -/
structure JobEntry where
  stripe : Nat
  bin : Nat
  rev : Bool
  last : Bool
  y0 : Int
  x : Int
  tag : Nat
  /-- The 32 descriptor bytes (R264). -/
  bytes : List Nat
  missing : Bool := false
  outOfTravel : Bool := false
  deriving DecidableEq, Repr

/-- The job queue (chapter 8). -/
structure JobBlk where
  /-- Words of the descriptor being written, first first. -/
  words : List Word := []
  lastWord : Word := 0
  queue : List JobEntry := []
  /-- Last accepted STRIPE since reset or FLUSH. -/
  head : Option Nat := none
  /-- A stop at stripe end waits (R19), and one that the mate has named for a stripe still to come (R280). -/
  stopEnd : Bool := false
  stopAfter : Option Nat := none
  /-- A stop at a safe point waits for WRITING (R19). -/
  pendSafe : Bool := false
  /-- The stage waits, or may wait, for a further stripe (R248). -/
  turnWait : Bool := false
  disarming : Bool := false
  /-- An arm request waits for both digests (R262, R280): its number. -/
  armReq : Option Nat := none
  armCount : Nat := 0
  deriving DecidableEq, Repr

/-- One shot between its frames and its strobe (R137, R165 to R172). -/
structure ShotRec where
  shot : Nat
  /-- Its frames were taken (data or HOLD). -/
  taken : Bool := false
  hold : Bool := false
  /-- COUNT of its frames. -/
  count : Nat := 0
  /-- Lanes that have not sent their frame. -/
  unsent : List Nat := []
  /-- A detected internal error (R271), with its VOTE DETAIL. -/
  det : Option Nat := none
  /-- XOR of the 64 lane signatures once the taps completed the shot (R165, R272). -/
  sig : Nat := 0
  /-- The settled verdict, coded as R165. -/
  verdict : Option Nat := none
  /-- The seal issued: verdict code and time of issue. -/
  sealed : Option (Nat × Int) := none
  /-- Withheld, with the racking cause (0 where none applies). -/
  withheld : Option Nat := none
  /-- Withheld before, so that its next frames carry REXP (R172). -/
  rexp : Bool := false
  triggered : Bool := false
  ownVote : Option Nat := none
  mateVote : Option Nat := none
  /-- The mate's signatures by group (R267, R268): copies from lane j, those from lane j + 1, and groups whose lane j copy was
  discarded. -/
  mateSigs : List (Nat × List Nat) := []
  mateAlt : List (Nat × List Nat) := []
  sigBad : List Nat := []
  deriving DecidableEq, Repr

/-- A frame in a lane's queue (R161, R162). -/
structure TxFrame where
  lane : Nat
  shot : Nat
  count : Nat
  vintage : Nat
  stripe : Nat
  hold : Bool
  rexp : Bool
  first : Bool
  last : Bool
  rev : Bool
  depth : Nat
  /-- Payload codes of the lane by beam within the lane; unlisted codes are 0. -/
  codes : List (Nat × Nat)
  /-- The tap's signature (R143). -/
  sig : Nat
  /-- An injection that acts on it: kind, first bit, bits (R191). -/
  inj : Nat × Nat × Nat := (0, 0, 0)
  deriving DecidableEq, Repr

/-- A driven edge that waits for its ACK (R176). -/
structure AckWait where
  half : Nat
  shot : Nat
  stripe : Nat
  exposing : Bool
  /-- The PT of the edge. -/
  edge : Int
  deriving DecidableEq, Repr

/-- The plate link (chapter 6). -/
structure PlateBlk where
  txq : List TxFrame := []
  /-- COUNT of the next frame, by lane. -/
  counts : List Nat := List.replicate 64 0
  /-- COUNT of each lane before the last shot's frames were taken (R192); empty before a job's first frames. -/
  before : List Nat := []
  acks : List AckWait := []
  /-- Inputs reporting LOCK. -/
  locked : List Nat := []
  /-- Lanes that have gone down and not come back (R177). -/
  down : List Nat := []
  /-- Lanes whose FOM_LOW waits for re-arming (R193). -/
  fomLow : List Nat := []
  /-- Return lanes with block lock. -/
  retLock : List Nat := []
  /-- Inputs that have met the running step's condition. -/
  stepOk : List Nat := []
  /-- Steps that the running bring-up still has to run, the current one first. -/
  steps : List Nat := []
  /-- Ball lane that each input decoded in step 3 (input, ball lane). -/
  ballOf : List (Nat × Nat) := []
  /-- INV reports of the rounds of step 3: (input, round, INV). -/
  rounds : List (Nat × Nat × Bool) := []
  round : Nat := 0
  /-- LQ_CTRL.INV as it stood before step 3, by ball lane. -/
  inv0 : List Bool := []
  /-- Fresh reports of each input in the current round or trial (R178, R180). -/
  reports : List (Nat × Nat) := []
  /-- Adaptation of each input's lane: trial index, best FOM, coefficients, moved (R180). -/
  adapt : List (Nat × (Nat × Nat × List Int × Bool)) := []
  /-- Ticks at which the lock hold of step 6 began, and the input whose bad report began it anew. -/
  holdStart : Nat := 0
  holdInput : Nat := 0
  /-- The armed injection (R191): targets still to count on each lane. -/
  fijLeft : List (Nat × Nat) := []
  /-- Frames held by SWAP. -/
  swapHeld : List TxFrame := []
  deriving DecidableEq, Repr

/-- The shot unit (R214 to R222, R227). Times are PT in 2⁻¹⁶ tick. -/
structure ShotBlk where
  /-- The unit arms indices of the stripe being written. -/
  active : Bool := false
  /-- First shot of the run; its two take points lie before it (R214). -/
  runStart : Nat := 0
  /-- Next index to arm or armed, from runStart − 2. -/
  next : Int := 0
  armed : Bool := false
  /-- Yc must first go back beyond P_{N−2} (R217). -/
  needBack : Bool := false
  /-- The last index triggered before a racking's reversal, until Yc has gone back beyond it (R216). -/
  backOf : Option Int := none
  /-- Yc has come into the band of the last index, or beyond it (R216). -/
  reached : Bool := false
  /-- Yc is at the position of the last index, or beyond it (R215). -/
  beyond : Bool := false
  pred : Option Int := none
  lastEdge : Option Int := none
  prevEdge : Option Int := none
  lastVel : Int := 0
  /-- Frozen edges not yet reached: index and time. -/
  frozen : List (Int × Int) := []
  recs : List ShotRec := []
  /-- Lowest shot of the stripe that has not been strobed. -/
  first : Nat := 0
  /-- Next shot whose frames the plate link takes (R137). -/
  takeNext : Nat := 0
  /-- Lowest shot withheld since the last strobe or re-entry (N of R252). -/
  floor : Option Nat := none
  /-- N after its frames were taken again, until the stage crosses it (R253). -/
  reentered : Option Nat := none
  /-- First shot that a stop withholds (R19, R280). -/
  stopFrom : Option Nat := none
  /-- Triggered, withheld and unresolved, one entry a trigger (R227). -/
  unresolved : List Nat := []
  resolved : Nat := 0
  reexposed : Nat := 0
  abandoned : Nat := 0
  /-- N of the racking under way or last begun, and rackings that began from it without a strobe (R255). -/
  rackN : Option Nat := none
  rackTimes : Nat := 0
  /-- A racking trigger that waits for the trigger of N in a pair (R279). -/
  rackWait : Option (Nat × Nat) := none
  /-- Triggered shots until the samples span their crossings (SHT_PRED_ERR, R229): frozen edge, P_k in the scan direction,
  reverse. -/
  crossWait : List (Int × Int × Bool) := []
  /-- The freeze is due in the tick in which a sample arrives, which is taken first (R219). -/
  freezeWait : Bool := false
  deriving DecidableEq, Repr

/-! ### Position and calibration -/

/-- Heydemann parameters P, Qo, R, S in register units (R201). -/
structure Hey where
  p : Int := 0
  qo : Int := 0
  r : Nat := 0x4000
  s : Int := 0
  deriving DecidableEq, Repr

/-- A calibration ramp (R211): from, to, samples done, samples in all. -/
structure Ramp where
  src : Hey
  dst : Hey
  done : Nat
  total : Nat
  deriving DecidableEq, Repr

/-- One sector of an estimation window (R207): n, Σi, Σq, Σi², Σq², Σi·q. -/
structure Sector where
  n : Nat := 0
  i : Int := 0
  q : Int := 0
  ii : Int := 0
  qq : Int := 0
  iq : Int := 0
  deriving DecidableEq, Repr

/-- One interferometer axis. -/
structure Axis where
  cnt : Int := 0
  phi : Option Nat := none
  badRun : Nat := 0
  lost : Bool := false
  /-- Parameters in force. -/
  cur : Hey := {}
  ramp : Option Ramp := none
  /-- Sectors of the window that hold samples, by sector number. -/
  win : List (Nat × Sector) := []
  deriving DecidableEq, Repr

/-- Position measurement (chapter 7). -/
structure PosBlk where
  ax0 : Axis := {}
  ax1 : Axis := {}
  ax2 : Axis := {}
  ax3 : Axis := {}
  /-- Sample index n since PT was zeroed. -/
  n : Nat := 0
  /-- PT now, in 2⁻¹⁶ tick. -/
  pt : Int := 0
  /-- REALIGN awaits its SYSREF edge. -/
  realign : Bool := false
  /-- Recent samples, newest first: n, Yc, good on all axes. -/
  hist : List (Nat × Int × Bool) := []
  yc : Int := 0
  xc : Int := 0
  yawArmed : Bool := true
  /-- Commits decided for a sample: sample, axis mask, cause (R212). -/
  commits : List (Nat × Nat × Nat) := []
  /-- Register writes decided for a sample (R263): sample, address, value. -/
  writes : List (Nat × Nat × Word) := []
  /-- Step commits waiting for a stripe boundary (R211): axis and parameters. -/
  stepWait : List (Nat × Hey) := []
  /-- Tracking samples sent, and the ramp table (R226). -/
  trkN : Nat := 0
  ramp : List (Nat × Word) := []
  trkClipped : Bool := false
  lastTrk : Word := 0
  /-- Latched high words of wide reads (R228): by address. -/
  latched : List (Nat × Word) := []
  /-- The multiblock whose CRC-12 failure has been counted (R197, R228). -/
  crcBlock : Option Nat := none
  /-- The tick at which a commit was last decided, and its cause (R210). -/
  calAt : Option (Nat × Nat) := none
  deriving DecidableEq, Repr

/-! ### The trajectory generator -/

/-- A segment: its periods, its rounded jerk and planned end (R237), and the rounded deceleration that a stop holds (R238). -/
structure Seg where
  periods : Nat
  jerk : Rat
  acc : Option Rat := none
  endP : Rat
  endV : Rat
  endA : Rat
  deriving DecidableEq, Repr

/-- What an axis's plan may be replanned to when a limit changes (R250): nothing, a stop, or a speed. -/
inductive Aim where
  | keep
  | stop
  | speed (v : Rat)
  deriving DecidableEq, Repr

/-- One axis of the generator: its state at the current period and its plan. -/
structure Gen where
  p : Rat := 0
  v : Rat := 0
  a : Rat := 0
  j : Rat := 0
  /-- State at the start of the current segment, and periods done in it. -/
  p0 : Rat := 0
  v0 : Rat := 0
  a0 : Rat := 0
  k : Nat := 0
  segs : List Seg := []
  aim : Aim := .keep
  deriving DecidableEq, Repr

/-- What the generator is doing (PHASE of R245). -/
inductive Phase where
  | idle | move | runIn | write | turn | rack | stop
  deriving DecidableEq, Repr

/-- PHASE codes (R245). -/
def Phase.code : Phase → Nat
  | .idle => 0 | .move => 1 | .runIn => 2 | .write => 3 | .turn => 4 | .rack => 5 | .stop => 6

/-- A computed setpoint (R244, R245): its period, SEQ, payload and the Y and X states. -/
structure Setpoint where
  period : Nat
  seq : Nat
  bytes : List Nat
  y : Rat
  vy : Rat
  ay : Rat
  jy : Rat
  x : Rat
  vx : Rat
  axx : Rat
  jx : Rat
  deriving DecidableEq, Repr

/-- The stripe whose run-in came last: its number, direction, P_(N-1) in pixels, and LAST. -/
structure MotStripe where
  num : Nat
  rev : Bool
  lastPos : Rat
  last : Bool
  deriving DecidableEq, Repr

/-- The trajectory generator (chapter 8). -/
structure MotBlk where
  y : Gen := {}
  x : Gen := {}
  phase : Phase := .idle
  /-- Setpoint period being generated, t_app = 50 µs · period. -/
  period : Nat := 0
  replan : Bool := false
  /-- Targets queued after the present motion (R248, R251): Y then X. -/
  thenY : Option Rat := none
  thenX : Option Rat := none
  /-- Part of the racking profile, 0 outside racking (R253). -/
  rackPart : Nat := 0
  dwell : Nat := 0
  /-- Periods at which a racking profile reverses (R217) and arrives at its re-entry point (R254), until they apply. -/
  reverseAt : Option Nat := none
  arriveAt : Option Nat := none
  /-- Earliest re-entry periods named by this device and by the mate (R279). -/
  reentryOwn : Option Nat := none
  reentryMate : Option Nat := none
  /-- The stripe being written, or last written. -/
  cur : Option MotStripe := none
  /-- The stripe that the motion serves (STRIPE of R245). -/
  stripe : Nat := 0
  /-- Computed setpoints, newest first, as far back as samples need them. -/
  sps : List Setpoint := []
  /-- The first period after the run-in of the stripe at hand (R249). -/
  xFrom : Option Nat := none
  slowRaised : Bool := false
  lateRaised : Bool := false
  feYArmed : Bool := true
  feXArmed : Bool := true
  /-- Axes (0 Y, 1 X) above their trip level (R249). -/
  feTrip : List Nat := []
  /-- Latched limit writes: register address and value (R250). -/
  latched : List (Nat × Word) := []
  /-- Limit and MOT register writes for a period (R263): period, address, value. -/
  writes : List (Nat × Nat × Word) := []
  /-- Own and mate supply speeds by period, newest first (R243). -/
  ownSpeed : List (Nat × Nat) := []
  mateSpeed : List (Nat × Nat) := []
  /-- A MOVE is under way. -/
  moving : Bool := false
  deriving DecidableEq, Repr

/-! ### The pair -/

/-- The mate's status (R281), numbered as PAR_STAT.MATE. -/
inductive Mate where
  | none | up | linkDown | lost
  deriving DecidableEq, Repr

/-- PAR_STAT.MATE (R292). -/
def Mate.code : Mate → Nat
  | .none => 0 | .up => 1 | .linkDown => 2 | .lost => 3

/-- Pair operation (chapter 9). -/
structure PairBlk where
  mate : Mate := .none
  mateState : Nat := 0
  mateRole : Nat := 0
  mateRackOk : Bool := false
  mateFault : Bool := false
  /-- The mate is withdrawn for the stripe (R275, R284). -/
  wdMate : Bool := false
  wdSelf : Bool := false
  /-- Receive lanes with block lock, as the mate numbers them, and the PT of each lane's latest valid HB (R265). -/
  rxLock : List Nat := []
  rxHb : List (Nat × Int) := []
  /-- PT of the latest MATE heartbeat (R281). -/
  netAt : Option Int := none
  /-- Transmit lanes up as the mate's latest HB reports them. -/
  txUp : Nat := 0
  /-- The last DEFER shot (R277). -/
  defer : Option Nat := none
  /-- The mate's last SP_SEQ reported, SP_PCRC and sample compare. -/
  mateSeq : Nat := 0
  mismatch : Bool := false
  /-- Own and mate's last digests, each with its arm request number (0: none). -/
  ownDigest : Option (Nat × Nat) := none
  mateDigest : Option (Nat × Nat) := none
  /-- A digest is being computed, for this arm request (0: none). -/
  digestReq : Option Nat := none
  /-- Joining: step (0 none), as joiner, JOIN or PAIR, consecutive HB checks passed. -/
  joinStep : Nat := 0
  isJoin : Bool := false
  joiner : Bool := false
  hbChecks : Nat := 0
  /-- PT at which the step began, the joiner's origin has been set, and the last stripe that the mate reported (R287). -/
  stepAt : Int := 0
  aligned : Bool := false
  mateStripe : Option Nat := none
  /-- Parts of the checkpoint received so far (R288): offset and bytes. -/
  ckpt : List (Nat × List Nat) := []
  /-- Word of the HB compared last (R285, R287). -/
  hbWord : Option Nat := none
  /-- Receive lanes that lost block lock in a job and have not regained it (R459). -/
  rxStuck : List Nat := []
  /-- The STANDBY of the pair has joined it (R289). -/
  joined : Bool := false
  /-- Whole stripes as STANDBY with no DEFER, WITHDRAW or SPLIT (R289). -/
  cleanStripes : Nat := 0
  dirty : Bool := false
  /-- Role change at a setpoint period (R289): period, own new role is ACTIVE. -/
  roleAt : Option (Nat × Bool) := none
  /-- Stop at stripe end as SPLIT (R285): cause. -/
  splitEnd : Nat := 0
  /-- Withdraw decision of a STANDBY (R284) ends in SOLO. -/
  soloAtEnd : Bool := false
  /-- The armed injection: targets still to count by lane (R291). -/
  fijLeft : List (Nat × Nat) := []
  /-- First shot whose SIG messages have not been sent (R280). -/
  sigNext : Nat := 0
  /-- Messages held by an interrupted outer message or a SWAP injection (R266, R291): lane and bytes. -/
  swapHeld : List (Nat × List Nat) := []
  deriving DecidableEq, Repr

/-! ### The network, time and identity -/

/-- A partner table entry (R305 to R307). -/
structure Partner where
  slot : Nat
  /-- ROLE as DSC_E_INFO: 0 HOST, 1 MATE, 2 STAGE, 3 PEER, 4 TIMEKEEPER. -/
  role : Nat
  id : Nat
  column : Nat
  /-- Bit p: heard on NETp. -/
  heard : Nat
  /-- The port on which it was last heard (R297). -/
  port : Nat
  state : Nat
  interval : Nat
  /-- TIME tick of the last hearing, and its order among all hearings. -/
  at' : Nat
  order : Nat
  deriving DecidableEq, Repr

/-- A session (R321, R302). -/
structure Session where
  slot : Nat
  partner : Nat
  /-- Role of the partner as DSC_E_INFO. -/
  role : Nat
  id : Nat
  /-- The 76 bytes of HKDF output as a number. -/
  keys : Nat
  /-- SEQ of the last message sent on it. -/
  sent : Nat := 0
  /-- Highest SEQ accepted and the accepted ones among the 64 below it. -/
  high : Nat := 0
  seen : List Nat := []
  /-- Replaced: accepted for one more second. -/
  old : Bool := false
  /-- This device has verified the partner's signature, so the session is up. -/
  up : Bool := false
  /-- This device started the exchange. -/
  starter : Bool := false
  deriving DecidableEq, Repr

/-- A session exchange that this device started or answered and that is not complete (R321). -/
structure Exchange where
  partner : Nat
  role : Nat
  port : Nat
  purpose : Nat
  starter : Bool
  /-- The HELLO payload that this device sent. -/
  hello : List Nat := []
  keys : Nat := 0
  deriving DecidableEq, Repr

/-- The control network (chapter 10). -/
structure NetBlk where
  partners : List Partner := []
  /-- Order of the next hearing. -/
  hearings : Nat := 0
  /-- TABLE_FULL has been raised and no entry has freed since. -/
  fullRaised : Bool := false
  sessions : List Session := []
  exchanges : List Exchange := []
  /-- SEQ of the last message sent on no session. -/
  plainSeq : Nat := 0
  /-- Messages still to count before an armed injection acts, by port (R324). -/
  fijLeft : List (Nat × Nat) := []
  /-- A message held by a SWAP injection: port, type, bytes. -/
  swapHeld : List (Nat × Nat × List Nat) := []
  /-- LTQ_Q whose current run of late frames has raised LATE (R315). -/
  lateRun : List Nat := []
  /-- NO_STAGE raised in this stripe (R316). -/
  noStage : Bool := false
  /-- TIM time in ns at which the last ANNOUNCE was due (R303). -/
  announced : Option Nat := none
  deriving DecidableEq, Repr

/-- A frame in a launch-time queue (R314, R317): launch time in TIM, partner entry (none: every STAGE partner), type
and payload. -/
structure LtqFrame where
  queue : Nat
  sec : Nat
  ns : Nat
  entry : Option Nat
  type : Nat
  payload : List Nat
  deriving DecidableEq, Repr

/-- A pair time map (R313). -/
structure TimeMap where
  sample : Nat
  sec : Nat
  ns : Nat
  inc : Nat
  deriving DecidableEq, Repr

/-- A PTP master as its Announce messages describe it (R308): the port it is heard on, its port identity, and the data that the best
master is chosen by. -/
structure Master where
  port : Nat
  source : Nat
  prio1 : Nat
  quality : Nat
  prio2 : Nat
  gm : Nat
  steps : Nat
  deriving DecidableEq, Repr

/-- Time (R309 to R313): the TIM counter, the servo and the maps. -/
structure TimBlk where
  sec : Nat := 0
  /-- Nanoseconds, 32.32. -/
  ns : Nat := 0
  /-- TIME clock ticks since reset. -/
  ticks : Nat := 0
  /-- Those ticks when injections were last armed (R417), and at the last ledger check or, before the first, at READY (R406). -/
  armed : Nat := 0
  checkAt : Nat := 0
  /-- Integral part of the servo. -/
  integral : Int := 0
  /-- SET waits for the next tick (R326): seconds, and nanoseconds in 32.32. -/
  load : Option (Nat × Nat) := none
  /-- TIM before its steps and changes of rate, newest first (R312): the tick that ended a time, TIM at it in 2⁻³² ns, TIM_INC. -/
  past : List (Nat × Int × Nat) := []
  /-- Masters heard (R308), and the port identity of the one that the clock follows. -/
  masters : List Master := []
  parent : Option Nat := none
  /-- Of the last usable Sync (R308, R310): its tick, and its receive time less the master's, in 2⁻³² ns. -/
  syncAt : Nat := 0
  syncDiff : Int := 0
  /-- Send time of the last Delay_Req, and the mean path delay, in 2⁻³² ns (R308). -/
  reqAt : Option Int := none
  path : Int := 0
  /-- Consecutive Syncs within the lock threshold, and beyond four times it. -/
  inRun : Nat := 0
  outRun : Nat := 0
  /-- The deferred step (R311): the master's offset. -/
  step : Option Int := none
  /-- Maps in force and to come, newest first (R313). -/
  maps : List TimeMap := []
  /-- Frames in the launch-time queues, in the order they were queued (R314). -/
  ltq : List LtqFrame := []
  deriving DecidableEq, Repr

/-- Identity (R318 to R322, R328). -/
structure IdnBlk where
  /-- Owner window words written (R320). -/
  ownerWin : List (Nat × Word) := []
  /-- Anchor window words written (R321). -/
  anchors : List (Nat × Word) := []
  /-- The owner certificate is being burned: its words. -/
  burning : Option (List Word) := none
  /-- The last word of the window read or written, which the read-back path of R113 returns. -/
  lastData : Word := 0
  deriving DecidableEq, Repr

/-! ### Memory -/

/-- A migration or scrub at work (R343 to R346): channel or mode, first line address, lines in all, lines done, and the part of
the next line that its rate has earned so far. -/
structure Walk where
  kind : Nat
  start : Nat
  lines : Nat
  /-- The pointer. -/
  done : Nat := 0
  earned : Nat := 0
  /-- CORRECTED lines, UNCORRECTABLE and POISON lines, and the first and last bad line (R346). -/
  ce : Nat := 0
  ue : Nat := 0
  first : Option Nat := none
  last : Option Nat := none
  deriving DecidableEq, Repr

/-- The memory controllers and the scrubber (chapter 11). -/
structure MemBlk where
  /-- START has been accepted: configuration is locked (R332). -/
  locked : Bool := false
  /-- Ranks that are OUT or migrating: channel, rank. -/
  retired : List (Nat × Nat) := []
  /-- The migration under way, its channel as `kind` (R343). -/
  mig : Option Walk := none
  migQueue : List Nat := []
  scrub : Option Walk := none
  /-- Corrections of each rank in the current second, by 2·channel + rank (R339). -/
  ceSecond : List (Nat × Nat) := []
  /-- Ranks whose CE_RATE waits for re-arming, and whose CE has been raised in this second. -/
  ceHigh : List Nat := []
  ceRaised : List Nat := []
  /-- Consecutive polls that reported normal, by rank at the doubled rate (R336). -/
  normalPolls : List (Nat × Nat) := []
  /-- Ranks that reported DRAM_HOT at their last poll. -/
  hot : List Nat := []
  /-- Error patterns of lines as they stand in DRAM, by line address (R337). -/
  errs : List (Nat × List (Fin 80 × Byte)) := []
  /-- Lines whose corrected data wait to be written back (R339, R345). -/
  wb : List Nat := []
  /-- Channels on which a migration has written every line that held no codeword as poison (R343). -/
  poisonFill : List Nat := []
  deriving DecidableEq, Repr

/-! ### Health, ageing and self-test -/

/-- A level (R359): its state and the run of rounds towards a change. -/
structure Level where
  above : Bool := false
  run : Nat := 0
  deriving DecidableEq, Repr

/-- Temperatures and supplies (chapter 12). -/
structure ThmBlk where
  warn : Level := {}
  trip : Level := {}
  riseWarn : Level := {}
  riseTrip : Level := {}
  /-- Levels of the supply channels: 2·channel for LOW, 2·channel + 1 for HIGH. -/
  supply : List (Nat × Level) := []
  /-- Temperatures of the last rounds, newest first, by sensor. -/
  history : List (List Int) := []
  /-- Rounds since a sensor was last included, by sensor; unlisted sensors have been in use since reset. -/
  included : List (Nat × Nat) := []
  strikes : List (Nat × Nat) := []
  /-- Consecutive rounds at 120.0 °C or above (R361). -/
  hotRun : Nat := 0
  /-- SENSOR_LIMIT raised while 8 or more are excluded (R365). -/
  limited : Bool := false
  deriving DecidableEq, Repr

/-- A command that waits for a plan or a log burn (R369, R370). -/
inductive Waiting where
  | arm
  | dormant (linkPm : Bool) (moved : Moved)
  | pair
  | join
  deriving DecidableEq, Repr

/-- A plan at work (R369): AVS first, then lanes; `down` is a step down that may be undone. -/
structure Plan where
  /-- The voltage and the lanes are still to be planned. -/
  avs : Bool
  lanes : Bool
  /-- The voltage has been stepped up, or down. -/
  up : Bool := false
  down : Bool := false
  /-- ERR of a plan that has failed. -/
  fail : Nat := 0
  /-- Inputs whose lanes adapt, and those raised in amplitude. -/
  left : List Nat := []
  raised : List Nat := []
  deriving DecidableEq, Repr

/-- Ageing (R366 to R371). -/
structure AgeBlk where
  warn : Level := {}
  crit : Level := {}
  canaries : List (Nat × Nat) := []
  rings : List (Nat × Nat) := []
  /-- Smoothed figures of merit, words of window 3. -/
  foms : List (Nat × Nat) := []
  /-- Smoothed correction rates, words of window 4. -/
  rates : List (Nat × Nat) := []
  /-- Plate lanes that have raised FOM_TREND. -/
  trend : List Nat := []
  plan : Option Plan := none
  /-- CODE before the VoltageWrite under way, and its cause: 1 plan, 2 register write, 3 log. -/
  avsOld : Option (Nat × Nat) := none
  waiting : List Waiting := []
  /-- The log entry at work: CODE to restore, and the ring counts measured at CODE 10 once they are (R370). -/
  burn : Option Nat := none
  logRings : Option (List (Nat × Nat)) := none
  /-- TIM seconds of the last entry, where it was written since reset (R370). -/
  logAt : Option Nat := none
  fullRaised : Bool := false
  /-- Ticks at the previous entry or reset, and ticks spent in WRITING since. -/
  since : Nat := 0
  writing : Nat := 0
  /-- The last word of the window read or written, which the read-back path of R113 returns. -/
  lastData : Word := 0
  deriving DecidableEq, Repr

/-- A slice under test (R374, R375). -/
structure SliceTest where
  slice : Nat
  repeated : Bool := false
  yielded : Bool := false
  /-- TIME tick at which it started or was resumed, and groups complete before (R374, R375). -/
  since : Nat := 0
  group : Nat := 0
  deriving DecidableEq, Repr

/-- Self-test (R372 to R377). -/
structure BstBlk where
  cur : Option SliceTest := none
  /-- Slices of the rotation that have passed, failed or been skipped. -/
  done : List Nat := []
  yields : List (Nat × Nat) := []
  /-- The lane of a tap under test and the spare that serves it, until the next steering boundary (R149, R150). -/
  cover : Option (Nat × Nat) := none
  /-- TIME tick of the last request to a slice (R372), and of the scheduler's last start (R373). -/
  used : List (Nat × Nat) := []
  slotAt : Nat := 0
  /-- A slice whose state is being restored after its test was given up or gave way (R375, R377), and the TIME tick of that. -/
  restoring : Option Nat := none
  restoreAt : Nat := 0
  deriving DecidableEq, Repr

/-! ### Power and events -/

/-- Power sequencing that no register shows (chapter 13). -/
structure PwrBlk where
  /-- In OFF: VDD_AON has left its window, so the return is a power-on reset (R383). -/
  aonLost : Bool := false
  /-- RESET_DONE follows at READY (R402). -/
  resetDone : Bool := false
  /-- Domains whose PLL has lost lock, by domain number (R389). -/
  unlocked : List Nat := []
  /-- DEVCLK is present (R388). -/
  devclk : Bool := false
  /-- TIME tick of a domain's loss of lock or last try to lock again, by domain number (R389). -/
  tryAt : List (Nat × Nat) := []
  /-- OTP words found uncorrectable at load (R438). -/
  otpBad : List Nat := []
  /-- TIME ticks: of the last host access in DORMANT (R396), of the wake request (R397), of the last WAKE_DONE (R457). -/
  linkAt : Nat := 0
  wakeAt : Nat := 0
  wokenAt : Option Nat := none
  deriving DecidableEq, Repr

/-- Event registers and deliveries (R427 to R434). -/
structure EvtBlk where
  /-- EVT_RAW and EVT_EN by page index. -/
  raw : List (Nat × Word) := []
  en : List (Nat × Word) := []
  /-- EVT_CNT and the time of the last raise (seconds, whole ns), by source. -/
  cnt : List (Nat × Word) := []
  time : List (Nat × (Nat × Nat)) := []
  /-- Pending bits of the 64 MSI-X vectors. -/
  pba : List Nat := []
  /-- EVT_MSG_LOST. -/
  lost : Word := 0
  /-- Deliveries of a Dormant sleep, oldest first: source, page, bit, forced (R433). -/
  deferred : List (Nat × Nat × Nat × Bool) := []
  deriving DecidableEq, Repr

/-! ### What the device puts out -/

/-- What one command makes the device put out at its interfaces. -/
inductive Out where
  /-- A message of an MSI-X vector: its address and data from the table (R431). -/
  | msix (vector addr data : Nat)
  /-- An entry written to a ring in host memory: ring, free-running index, bus address, bytes (R105, R107). -/
  | ring (ring index addr : Nat) (bytes : List Nat)
  /-- Bytes written to host memory at a bus address. -/
  | host (addr : Nat) (bytes : List Nat)
  /-- A run of bytes that a channel read from a source buffer of the host: bus address, length (R103). -/
  | hostRead (addr len : Nat)
  /-- PROGRESS of a parked transfer: ring, descriptor index, bus address of the field, bytes confirmed (R109, R115). -/
  | progress (ring index addr bytes : Nat)
  /-- The completion of a host read: bytes, poisoned. -/
  | completion (bytes : List Nat) (poisoned : Bool)
  /-- Unsupported Request (R99). -/
  | unsupported
  /-- A Rhadutas message: port, partner DEV_ID (0: multicast), the bytes of its datagram, FCS damaged (R298, R324). -/
  | net (port partner : Nat) (bytes : List Nat) (fcsBad : Bool)
  /-- A membership report for a group, MLDv2 or IGMPv3: port, source address, group address (R295). -/
  | report (port : Nat) (src group : List Nat)
  /-- A PTP Delay_Req on a port (R308). -/
  | delayReq (port : Nat)
  /-- An answer to Neighbour Discovery, ARP or echo: port, data (R295). -/
  | answer (port : Nat) (payload : List Nat)
  /-- A frame on a plate lane: its bytes as they are sent (R161, R191). -/
  | frame (lane : Nat) (bytes : List Nat)
  /-- A seal on a plate lane, and the 14 bytes that SEAL_A and SEAL_B carry for it as they are sent (R165, R191). -/
  | seal (lane : Nat) (word : Nat) (bytes : List Nat)
  /-- A strobe on a half: its edge at a PT in 2⁻¹⁶ tick, and its high time in ns (R170, R193). -/
  | strobe (half : Nat) (at' : Int) (width : Nat)
  /-- Lane state blocks: a lane sends this step's pattern (R178), 0 for electrical idle, 7 for fill. -/
  | lanes (step : Nat)
  /-- A pair-link message on a lane (R267). -/
  | pair (lane : Nat) (bytes : List Nat)
  /-- A tracking DAC sample: X and Y codes (R224). -/
  | dac (x y : Int)
  /-- A VoltageWrite over AVSBus in mV (R386). -/
  | avs (mv : Nat)
  /-- The PCIe link to L0 (0), to L1.2 (12) or down (15). -/
  | link (level : Nat)
  deriving DecidableEq, Repr

/-! ### The state -/

/-- The blocks. -/
structure Blocks where
  lat : LatBlk := {}
  cask : CaskBlk := {}
  press : PressBlk := {}
  cel : CellarBlk := {}
  dma : DmaBlk := {}
  job : JobBlk := {}
  plk : PlateBlk := {}
  sht : ShotBlk := {}
  pos : PosBlk := {}
  mot : MotBlk := {}
  par : PairBlk := {}
  net : NetBlk := {}
  tim : TimBlk := {}
  idn : IdnBlk := {}
  ram : MemBlk := {}
  thm : ThmBlk := {}
  age : AgeBlk := {}
  bst : BstBlk := {}
  pwr : PwrBlk := {}
  /-- The accounts as the last check sampled them (R416). -/
  snap : Ledgers := {}
  deriving DecidableEq, Repr

/-- The state of the block. -/
structure State where
  /-- Commands waiting, first in, first out. -/
  pending : List Instr
  /-- The model's own counter of free values drawn. -/
  fresh : Nat
  /-- What the last command put out, oldest first. -/
  out : List Out
  dev : DevState
  prevDev : DevState
  role : Role
  led : Ledgers
  evt : EvtBlk
  /-- RNG_PI (key 2·ring) and RNG_CI (key 2·ring + 1); an unlisted index is 0. -/
  rings : List (Nat × Nat)
  /-- Registers that differ from their reset value, by BAR0 address, rising. -/
  regs : List (Nat × Word)
  /-- The cellar: bytes that have been written; an unlisted byte has not. -/
  mem : List Host.Cell
  /-- OTP words that the device has burned, by word index. -/
  otp : List (Nat × Word)
  b : Blocks
  deriving DecidableEq, Repr

/-- The reasons a command could stop: none of this model's commands raises one, so the type has no member; every
effect the spec gives is a next state. -/
inductive Fault where
  deriving DecidableEq, Repr

/-- The reasons a command is turned away. -/
inductive Refusal where
  /-- Raised by the dispatcher for a command that has no meaning yet; safe, since no claim is made of it. -/
  | notModelled (mnemonic : String)
  /-- Raised by the meaning of a command whose data do not have the length its other operands call for, so that it
  describes no occurrence at the interface (Sys2Proof/WellFormed.lean); safe, since no such stimulus exists. -/
  | illFormed (mnemonic : String)
  deriving DecidableEq, Repr

/-- The machine right after a power-on reset (R390, R391): in RESET, every register at its reset value, nothing held. -/
def State.reset : State where
  pending := []
  fresh := 0
  out := []
  dev := .reset
  prevDev := .off
  role := .solo
  led := {}
  evt := {}
  rings := []
  regs := []
  mem := []
  otp := []
  b := {}

end Sys2Proof.Machine
end

