-- ==== Sys2Proof/Machine/Ops.lean ====
section
/-! DEFINITION. The named operations over the state: sparse tables, registers and fields, the cellar, and the small
language of effects in which every command is written. A command changes the device state, the role, the ledgers, the
registers and the cellar only through the primitive effects here. -/

namespace Sys2Proof.Machine

/-! ### Sparse tables: rising keys, no entry equal to its default -/

/-- The value at a key. -/
def spGet {α : Type} (d : Nat → α) (t : List (Nat × α)) (k : Nat) : α :=
  match t.find? (fun e => e.1 == k) with
  | some e => e.2
  | none => d k

/-- Put an entry before the first larger key. -/
def spInsert {α : Type} (k : Nat) (v : α) : List (Nat × α) → List (Nat × α)
  | [] => [(k, v)]
  | e :: es => if k < e.1 then (k, v) :: e :: es else e :: spInsert k v es

/-- Store a value; a default value removes the entry. -/
def spPut {α : Type} [DecidableEq α] (d : Nat → α) (t : List (Nat × α)) (k : Nat) (v : α) : List (Nat × α) :=
  let rest := t.filter fun e => e.1 != k
  if v = d k then rest else spInsert k v rest

/-- The keys rise strictly. -/
def spSorted {α : Type} : List (Nat × α) → Bool
  | [] => true
  | [_] => true
  | a :: b :: es => decide (a.1 < b.1) && spSorted (b :: es)

/-- The canonical form: rising keys, no entry equal to its default. -/
def spWf {α : Type} [DecidableEq α] (d : Nat → α) (t : List (Nat × α)) : Bool :=
  spSorted t && t.all fun e => decide (e.2 ≠ d e.1)

/-! ### The cellar -/

/-- One byte of the cellar; none where nothing has been written since power-up (R345). -/
def cellGet (m : List Host.Cell) (a : Nat) : Option Byte := (m.find? fun e => e.1 == a).map fun e => e.2

/-- Store one byte. -/
def cellPut (m : List Host.Cell) (a : Nat) (v : Byte) : List Host.Cell :=
  spInsert a v (m.filter fun e => e.1 != a)

/-- The canonical form of the cellar's bytes: rising addresses. -/
def Memory.wf (m : List Host.Cell) : Bool := spSorted m

/-! ### Registers and fields -/

/-- A register's word as a number. -/
def State.rd (s : State) (addr : Nat) : Nat := (spGet resetValue s.regs addr).toNat

/-- A field's value in a word. -/
def Fld.get (f : Fld) (w : Nat) : Nat := w / 2 ^ f.lo % 2 ^ f.width

/-- A word with a field replaced. -/
def Fld.put (f : Fld) (w v : Nat) : Nat :=
  w % 2 ^ f.lo + v % 2 ^ f.width * 2 ^ f.lo + w / 2 ^ (f.lo + f.width) * 2 ^ (f.lo + f.width)

/-- A field of the registers. -/
def State.fld (s : State) (f : Fld) : Nat := f.get (s.rd f.addr)

/-- Whether a one-bit field is set. -/
def State.flag (s : State) (f : Fld) : Bool := s.fld f != 0

/-- The producer index of a ring. -/
def State.pi (s : State) (ring : Nat) : Nat := spGet (fun _ => 0) s.rings (2 * ring)

/-- The consumer index of a ring. -/
def State.ci (s : State) (ring : Nat) : Nat := spGet (fun _ => 0) s.rings (2 * ring + 1)

/-- One OTP word: burned by the device, or as manufactured; a word of the certificate or log regions that failed at load
reads 0 (R438). -/
def State.otpWord (s : State) (i : Nat) : Nat :=
  if 0x100 ≤ i ∧ i < 0xD00 ∧ s.b.pwr.otpBad.contains i then 0 else (spGet Config.otpWord s.otp i).toNat

/-- The device's serial number, DEV_ID. -/
def State.devId (s : State) : Nat := s.otpWord 0 + s.otpWord 1 * 2 ^ 32

/-- One account. -/
def Ledgers.get (l : Ledgers) : Ledger → Account
  | .tile => l.tile | .creditDma => l.creditDma | .creditCel => l.creditCel | .frame => l.frame
  | .shot => l.shot | .dose => l.dose | .ring => l.ring

/-- One account replaced. -/
def Ledgers.set (l : Ledgers) (k : Ledger) (a : Account) : Ledgers :=
  match k with
  | .tile => { l with tile := a } | .creditDma => { l with creditDma := a } | .creditCel => { l with creditCel := a }
  | .frame => { l with frame := a } | .shot => { l with shot := a } | .dose => { l with dose := a }
  | .ring => { l with ring := a }

/-- The seven accounts (R405). -/
def Ledger.all : List Ledger := [.tile, .creditDma, .creditCel, .frame, .shot, .dose, .ring]

/-- IN = OUT + HELD (R406). -/
def Account.balanced (a : Account) : Bool := a.inn == a.out + a.held

/-! ### Effects -/

/-- A booking on an account (R405): items come into the device's care, leave it, or the counts are cleared. -/
inductive Booking where
  | come (n : Nat)
  | leave (n : Nat)
  | clear
  deriving DecidableEq, Repr

/-- A booking's effect. -/
def Account.book (a : Account) : Booking → Account
  | .come n => { a with inn := a.inn + BitVec.ofNat 48 n, held := a.held + BitVec.ofNat 48 n }
  | .leave n => { a with out := a.out + BitVec.ofNat 48 n, held := a.held - BitVec.ofNat 48 n }
  | .clear => {}

/-- The effects in which the commands are written. -/
inductive Act where
  | nop
  /-- Store a register word. -/
  | wr (addr : Nat) (w : Word)
  /-- Return to its reset value every register that is not kept. -/
  | clear (keep : Nat → Bool)
  | book (l : Ledger) (k : Booking)
  | cell (addr : Nat) (v : Byte)
  /-- The cellar's contents are lost. -/
  | wipe
  /-- Change the device state, along the edges of R19 only. -/
  | goto (d : DevState)
  /-- Change the role, along the edges of R290 only. -/
  | role (r : Role)
  | draw
  | emit (o : Out)
  | index (k v : Nat)
  | evt (f : EvtBlk → EvtBlk)
  | otp (i : Nat) (w : Word)
  | blk (f : Blocks → Blocks)
  /-- A device reset (R390): everything at its reset value, but AON_RST_CAUSE as given. -/
  | restart (cause : Word)
  | seq (a b : Act)
  | dyn (f : State → Act)

/-- What an effect does to the state. -/
def Act.run : Act → State → State
  | .nop, s => s
  | .wr addr w, s => { s with regs := spPut resetValue s.regs addr w }
  | .clear keep, s => { s with regs := s.regs.filter fun e => keep e.1 }
  | .book l k, s => { s with led := s.led.set l ((s.led.get l).book k) }
  | .cell addr v, s => { s with mem := cellPut s.mem addr v }
  | .wipe, s => { s with mem := [] }
  | .goto d, s => if s.dev.edge d then { s with dev := d, prevDev := s.dev } else s
  | .role r, s => if s.role.edge r then { s with role := r } else s
  | .draw, s => { s with fresh := s.fresh + 1 }
  | .emit o, s => { s with out := s.out ++ [o] }
  | .index k v, s => { s with rings := spPut (fun _ => 0) s.rings k v }
  | .evt f, s => { s with evt := f s.evt }
  | .otp i w, s => { s with otp := spPut Config.otpWord s.otp i w }
  | .blk f, s => { s with b := f s.b }
  | .restart cause, s =>
    { State.reset with
      pending := s.pending, fresh := s.fresh, out := s.out, otp := s.otp
      regs := spPut resetValue [] R.AON_RST_CAUSE cause }
  | .seq a b, s => b.run (a.run s)
  | .dyn f, s => (f s).run s

/-- Effects one after another. -/
def acts : List Act → Act
  | [] => .nop
  | a :: as => .seq a (acts as)

/-- One effect for each element, in order. -/
def each {α : Type} (l : List α) (f : α → Act) : Act := acts (l.map f)

/-- An effect under a condition. -/
def on (c : Bool) (a : Act) : Act := if c then a else .nop

/-- Run a command's effect: what it puts out is its own alone. -/
def perform (a : Act) (s : State) : Host.Outcome State Fault Refusal := .next (a.run { s with out := [] })

/-- Run the effect of a command whose data must have a given length. -/
def performWf (ok : Bool) (mnemonic : String) (a : Act) (s : State) : Host.Outcome State Fault Refusal :=
  if ok then perform a s else .refused (.illFormed mnemonic)

/-! ### Small effects -/

/-- Store a number in a register. -/
def setR (addr v : Nat) : Act := .wr addr (BitVec.ofNat 32 v)

/-- Store a value in a field, leaving the register's other bits. -/
def setF (f : Fld) (v : Nat) : Act := .dyn fun s => setR f.addr (f.put (s.rd f.addr) v)

/-- Store a Bool in a one-bit field. -/
def setB (f : Fld) (v : Bool) : Act := setF f (if v then 1 else 0)

/-- Add to a register, modulo 2³². -/
def addR (addr n : Nat) : Act := .dyn fun s => setR addr (s.rd addr + n)

/-- Add to a register, saturating. -/
def satR (addr n : Nat) : Act := .dyn fun s => setR addr (min (s.rd addr + n) 0xFFFFFFFF)

/-- Items come into an account's care. -/
def bookIn (l : Ledger) (n : Nat) : Act := .book l (.come n)

/-- Items leave it. -/
def bookOut (l : Ledger) (n : Nat) : Act := .book l (.leave n)

def onLat (f : LatBlk → LatBlk) : Act := .blk fun b => { b with lat := f b.lat }
def onCask (f : CaskBlk → CaskBlk) : Act := .blk fun b => { b with cask := f b.cask }
def onPress (f : PressBlk → PressBlk) : Act := .blk fun b => { b with press := f b.press }
def onCel (f : CellarBlk → CellarBlk) : Act := .blk fun b => { b with cel := f b.cel }
def onDma (f : DmaBlk → DmaBlk) : Act := .blk fun b => { b with dma := f b.dma }
def onJob (f : JobBlk → JobBlk) : Act := .blk fun b => { b with job := f b.job }
def onPlk (f : PlateBlk → PlateBlk) : Act := .blk fun b => { b with plk := f b.plk }
def onSht (f : ShotBlk → ShotBlk) : Act := .blk fun b => { b with sht := f b.sht }
def onPos (f : PosBlk → PosBlk) : Act := .blk fun b => { b with pos := f b.pos }
def onMot (f : MotBlk → MotBlk) : Act := .blk fun b => { b with mot := f b.mot }
def onPar (f : PairBlk → PairBlk) : Act := .blk fun b => { b with par := f b.par }
def onNet (f : NetBlk → NetBlk) : Act := .blk fun b => { b with net := f b.net }
def onTim (f : TimBlk → TimBlk) : Act := .blk fun b => { b with tim := f b.tim }
def onIdn (f : IdnBlk → IdnBlk) : Act := .blk fun b => { b with idn := f b.idn }
def onRam (f : MemBlk → MemBlk) : Act := .blk fun b => { b with ram := f b.ram }
def onThm (f : ThmBlk → ThmBlk) : Act := .blk fun b => { b with thm := f b.thm }
def onAge (f : AgeBlk → AgeBlk) : Act := .blk fun b => { b with age := f b.age }
def onBst (f : BstBlk → BstBlk) : Act := .blk fun b => { b with bst := f b.bst }
def onPwr (f : PwrBlk → PwrBlk) : Act := .blk fun b => { b with pwr := f b.pwr }

/-! ### Header registers and errors (R422, R424) -/

/-- The BAR0 address of a page's register. -/
def pageReg (page off : Nat) : Nat := page * 0x1000 + off

/-- ERR_CAUSE codes (R424). -/
def Err.locked : Nat := 1
def Err.range : Nat := 2
def Err.refused : Nat := 3
def Err.conflict : Nat := 4
def Err.inject : Nat := 5
def Err.fit : Nat := 6
def Err.training : Nat := 7
def Err.doorbell : Nat := 8

/-- A page's block works: PAGE_CTRL.EN is set and FREEZE is not (R423). -/
def State.pageWorks (s : State) (page : Nat) : Bool :=
  (s.rd (pageReg page 0x008)).testBit 0 && !(s.rd (pageReg page 0x008)).testBit 2

/-- A unit of work that a block takes on by itself: a stopped block takes none (R423). -/
def ifWorks (page : Nat) (a : Act) : Act := .dyn fun s => on (s.pageWorks page) a

/-- Record an error on the page of `reg` (R424): the first error with its detail and the register's offset, a later
one in MORE and COUNT alone. -/
def errD (reg code detail : Nat) : Act := .dyn fun s =>
  let page := if reg / 0x1000 = 0x00B then 0x00A else reg / 0x1000
  let cause := s.rd (pageReg page 0x020)
  let count := cause / 2 ^ 16 % 2 ^ 15
  if count = 0 then
    acts [setR (pageReg page 0x020) (2 ^ 16 + detail % 256 * 2 ^ 8 + code), setR (pageReg page 0x024) (reg - page * 0x1000)]
  else setR (pageReg page 0x020) (2 ^ 31 + min (count + 1) 0x7FFF * 2 ^ 16 + cause % 2 ^ 16)

/-- Record an error with detail 0. -/
def err (reg code : Nat) : Act := errD reg code 0

end Sys2Proof.Machine
end

