-- ==== Sys2Proof/Machine/Events.lean ====
section
/-! DEFINITION. What many commands share: time, rings that the device writes, Rhadutas messages sent, and events
raised and delivered (R105 to R108, R297, R298, R301, R309, R312, R324, R427 to R434). -/

namespace Sys2Proof.Machine

/-! ### Time (R309, R312) -/

/-- TIM_INC, 32.32 ns. -/
def State.timInc (s : State) : Nat := s.rd R.TIM_INC_HI * 2 ^ 32 + s.rd R.TIM_INC_LO

/-- One second in the nanosecond format. -/
def secondNs : Nat := 1000000000 * 2 ^ 32

/-- Add nanoseconds (32.32) to a time in seconds and nanoseconds, carrying into seconds. -/
def timePlus (sec ns add : Nat) : Nat × Nat := (sec + (ns + add) / secondNs, (ns + add) % secondNs)

/-- TIM after `k` ticks; the first of them loads what SET has left (R326). -/
def State.timAfter (s : State) (k : Nat) : Nat × Nat :=
  match s.b.tim.load with
  | some l => if k = 0 then (s.b.tim.sec, s.b.tim.ns) else timePlus l.1 l.2 ((k - 1) * s.timInc)
  | none => timePlus s.b.tim.sec s.b.tim.ns (k * s.timInc)

/-- TIM in 2⁻³² ns since its origin. -/
def State.timUnits (s : State) : Int := (s.b.tim.sec * secondNs + s.b.tim.ns : Nat)

/-- Keep what converts PT before a change of TIM or TIM_INC that a tick brings (R312): `k` is 0 for one at once, 1 for one at the
next tick. -/
def noteRate (k : Nat) : Act := .dyn fun s => onTim fun m =>
  { m with past := ((s.b.pos.pt.fdiv 65536).toNat + k, s.timUnits + (k * s.timInc : Nat), s.timInc) :: m.past.take 15 }

/-- Let `k` TIME clock ticks pass: TIM and PT advance on the same edges (R312). -/
def advance (k : Nat) : Act := .dyn fun s =>
  let t := s.timAfter k
  acts [onTim fun m =>
      { m with sec := t.1 % 2 ^ 64, ns := t.2, ticks := m.ticks + k, load := if k = 0 then m.load else none },
    on (s.dev == .writing) (onAge fun a => { a with writing := a.writing + k }),
    onPos fun p => { p with pt := p.pt + k * 65536 }]

/-- Time advances to a TIME tick. -/
def advanceToTick (k : Nat) : Act := .dyn fun s => advance (k - s.b.tim.ticks)

/-- Bring PT to a time in 2⁻¹⁶ tick, TIM advancing by the whole ticks between. A time that has passed changes
nothing. -/
def advanceTo (t : Int) : Act := .dyn fun s =>
  if s.b.pos.pt < t then
    .seq (advance (t.fdiv 65536 - s.b.pos.pt.fdiv 65536).toNat) (onPos fun p => { p with pt := t })
  else .nop

/-- The index near `now` whose low 32 bits a message names. -/
def fullIndex (now w : Nat) : Nat := ((now : Int) + toSigned 32 ((w + 2 ^ 32 - now % 2 ^ 32) % 2 ^ 32)).toNat

/-- No command waits: one tick of the TIME clock passes (R309, R312). -/
def idleTick : Act := .dyn fun s => on (s.dev != .off) (advance 1)

/-- TIM in nanoseconds since its origin, whole ns. -/
def State.timNs (s : State) : Nat := s.b.tim.sec * 1000000000 + s.b.tim.ns / 2 ^ 32

/-! ### Rings that the device writes (R105, R107) -/

/-- Entry size of a ring by its kind (R104). -/
def entrySize (ring : Nat) : Nat := if ring < 64 then 32 else if ring < 112 then 16 else 256

/-- Entries of a ring (R105). -/
def State.ringLen (s : State) (ring : Nat) : Nat := 2 ^ s.fld (F.RNG_CFG_SIZE ring) / entrySize ring

/-- Entries produced and not yet consumed (R105). -/
def State.ringUsed (s : State) (ring : Nat) : Nat := (s.pi ring + 2 ^ 32 - s.ci ring) % 2 ^ 32

/-- Room for `n` more entries. -/
def State.ringRoom (s : State) (ring n : Nat) : Bool := decide (s.ringUsed ring + n ≤ s.ringLen ring)

/-- Put PHASE into bit 7 of an entry's last byte: 1 on the first pass, inverted on every later one (R107). -/
def withPhase (bytes : List Nat) (index len : Nat) : List Nat :=
  bytes.dropLast ++ [bytes.getLastD 0 % 128 + (if index / len % 2 = 0 then 128 else 0)]

/-- A 64-bit register pair RNG_BASE (R125). -/
def State.ringBase (s : State) (ring : Nat) : Nat := s.rd (R.RNG_BASE_LO ring) + s.rd (R.RNG_BASE_HI ring) * 2 ^ 32

/-- The bus address of byte `i` of a transfer that starts at `a` in a circular buffer of 2ⁿ bytes (R103). -/
def circAddr (n a i : Nat) : Nat := a / 2 ^ n * 2 ^ n + (a + i) % 2 ^ n

/-- The bus address of entry `k` of a ring: byte offset (k × entry size) mod 2ⁿ (R105). -/
def State.entryAddr (s : State) (ring k : Nat) : Nat :=
  s.ringBase ring + k * entrySize ring % 2 ^ s.fld (F.RNG_CFG_SIZE ring)

/-- Write one entry to a ring that has room, advance PI and book the entry as produced (R107, R122). -/
def ringWrite (ring : Nat) (bytes : List Nat) : Act := .dyn fun s =>
  acts [.emit (.ring ring (s.pi ring) (s.entryAddr ring (s.pi ring)) (withPhase bytes (s.pi ring) (s.ringLen ring))),
    .index (2 * ring) ((s.pi ring + 1) % 2 ^ 32), bookIn .ring 1]

/-- Write a 16-byte record to event ring `e`, or drop it and count the drop in `lost` (R108). -/
def recordTo (e : Nat) (bytes : List Nat) (lost : Act) : Act := .dyn fun s =>
  if s.flag (F.RNG_CFG_EN (96 + e)) && s.ringRoom (96 + e) 1 then ringWrite (96 + e) bytes else lost

/-- The lowest-numbered device-to-host control-message ring in use (R300). -/
def State.replyRing (s : State) : Option Nat :=
  ((List.range 16).map (112 + ·)).find? fun r => s.flag (F.RNG_CFG_EN r) && s.flag (F.RNG_CFG_DIR r)

/-- Entries of a control-ring message after its first (R301). -/
def ctrlTail : Nat → List Nat → List (List Nat)
  | 0, _ => []
  | fuel + 1, p =>
    if p.isEmpty then []
    else (bytesAt p 0 255 ++ [if 255 < p.length then 64 else 0]) :: ctrlTail fuel (p.drop 255)

/-- The 256-byte entries of a message in a control-message ring (R301). -/
def ctrlEntries (header payload : List Nat) : List (List Nat) :=
  (header ++ bytesAt payload 0 223 ++ [if 223 < payload.length then 64 else 0]) ::
    ctrlTail 8 (payload.drop 223)

/-! ### Rhadutas messages sent (R297, R298, R324) -/

/-- The 32-byte header of R298. -/
def netHeader (s : State) (type len flags seq session corr : Nat) : List Nat :=
  leBytes 2 0x4852 ++ [1, type] ++ leBytes 2 len ++ [flags, s.role.code] ++ leBytes 8 s.devId ++
    leBytes 8 seq ++ leBytes 4 session ++ leBytes 4 corr

/-- Flip `n` bits from bit `i` of a byte string; bit i is bit i mod 8 of byte i / 8 (R191). -/
def flipBits (bytes : List Nat) (i n : Nat) : List Nat :=
  (List.range bytes.length).map fun k =>
    (List.range 8).foldl (fun b j =>
      if i ≤ 8 * k + j ∧ 8 * k + j < i + n then Nat.xor b (2 ^ j) else b) (bytes.getD k 0)

/-- Whether injections of a page act (R403): FIJ_ARM set, the page's INJ_EN set, not in DORMANT. -/
def State.injecting (s : State) (page : Nat) : Bool :=
  s.flag F.FIJ_ARM_ARM && (s.rd (pageReg page 0x008)).testBit 3 && s.dev != .dormant

/-- The count of targets left before an armed injection of a key acts. -/
def fijCount (l : List (Nat × Nat)) (k : Nat) : Nat := match l.find? fun e => e.1 == k with | some e => e.2 | none => 1

/-- One target fewer. -/
def fijStep (l : List (Nat × Nat)) (k : Nat) : List (Nat × Nat) :=
  (k, fijCount l k - 1) :: l.filter fun e => e.1 != k

/-- IPv6 runs on a port (R295). -/
def State.v6Runs (s : State) (port : Nat) : Bool := s.flag (F.NET_CFG_V6 port)

/-- IPv4 runs on a port (R295). -/
def State.v4Runs (s : State) (port : Nat) : Bool := s.flag (F.NET_CFG_V4 port) && s.rd (R.NET_IP4 port) != 0

/-- IPv6 or IPv4 runs on a port (R295). -/
def State.ipRuns (s : State) (port : Nat) : Bool := s.v6Runs port || s.v4Runs port

/-- A datagram leaves a port whose link is up, over IPv6 or IPv4, after the injection that counts it, if any (R295, R324). `done`
books an injection made. -/
def netEmit (done : Nat → Act) (port partner type : Nat) (bytes : List Nat) : Act := .dyn fun s =>
  let kind := s.fld (F.NET_FIJ_CFG_KIND port)
  let counted := s.injecting (0xC0 + port) && kind != 0 &&
    (s.flag (F.NET_FIJ_CFG_ALL port) || s.fld (F.NET_FIJ_CFG_TARGET port) == type)
  let acting := counted && decide (fijCount s.b.net.fijLeft port ≤ 1)
  let bit := s.fld (F.NET_FIJ_BITS_BIT port)
  let n := max 1 (s.fld (F.NET_FIJ_BITS_NBITS port))
  let held := s.b.net.swapHeld.filter fun h => h.1 == port
  if !s.flag (F.NET_STAT_LINK port) || !s.pageWorks (0xC0 + port) || !s.ipRuns port then .nop
  else if acting && kind == 4 then
    acts [addR (R.NET_TX_CNT port) 1, onNet fun b => { b with swapHeld := b.swapHeld ++ [(port, partner, bytes)] }, done port]
  else
    acts [on (!(acting && kind == 1)) (addR (R.NET_TX_CNT port) 1),
      on (!acting) (.emit (.net port partner bytes false)),
      on (acting && kind == 2) (.emit (.net port partner (flipBits bytes bit n) false)),
      on (acting && kind == 3) (.emit (.net port partner (flipBits bytes bit n) true)),
      each held fun h => .emit (.net port h.2.1 h.2.2 false),
      onNet fun b => { b with swapHeld := b.swapHeld.filter fun h => h.1 != port },
      on (counted && !acting) (onNet fun b => { b with fijLeft := fijStep b.fijLeft port }),
      on acting (done port)]

/-- The session on which messages to a partner are sent: up and not replaced. -/
def State.session (s : State) (partner : Nat) : Option Session :=
  s.b.net.sessions.find? fun x => x.partner == partner && x.up && !x.old

/-- Count a message on the sender's side: SEQ of its session, or of no session (R298). -/
def bumpSeq (sess : Option Session) : Act :=
  match sess with
  | some x => onNet fun b => { b with sessions := b.sessions.map fun y =>
      if y.slot == x.slot && y.old == x.old then { y with sent := y.sent + 1 } else y }
  | none => onNet fun b => { b with plainSeq := b.plainSeq + 1 }

/-- Send a message on the given ports, authenticated when a session is given. -/
def netSendWith (done : Nat → Act) (ports : List Nat) (partner : Nat) (sess : Option Session)
    (type flags corr : Nat) (payload : List Nat) : Act := .dyn fun s =>
  let auth := sess.isSome
  let seq := (match sess with | some x => x.sent | none => s.b.net.plainSeq) + 1
  let sid := match sess with | some x => x.id | none => 0
  let header := netHeader s type payload.length (flags + (if auth then 1 else 0)) seq sid corr
  let tag := match sess with
    | some x => leBytes 16 (Config.gcmTag (BitVec.ofNat 608 x.keys) x.starter seq (header ++ payload)).toNat
    | none => []
  .seq (bumpSeq sess) (each ports fun p => netEmit done p partner type (header ++ payload ++ tag))

/-- The partners of a role (R305). -/
def State.partners (s : State) (role : Nat) : List Partner := s.b.net.partners.filter fun p => p.role == role

/-- The port on which the device sends to a partner (R297). -/
def Partner.pref (p : Partner) : Nat := if p.heard = 3 then 0 else p.port % 2

/-! ### Events (R427 to R433) -/

/-- EVT_RAW of a page. -/
def State.evtRaw (s : State) (page : Nat) : Nat := (spGet (fun _ => 0) s.evt.raw page).toNat
/-- EVT_EN of a page. -/
def State.evtEn (s : State) (page : Nat) : Nat := (spGet (fun _ => 0) s.evt.en page).toNat
/-- EVT_PEND of a page: RAW AND EN (R427). -/
def State.evtPend (s : State) (page : Nat) : Nat := Nat.land (s.evtRaw page) (s.evtEn page)

/-- The TP pages. -/
def tpPages : List Nat := (List.range 68).map (0x40 + ·)

/-- Whether a source is pending (R427); the TP sources are fed by every TP page. -/
def State.srcPending (s : State) (src : Nat) : Bool :=
  if 113 ≤ src ∧ src ≤ 115 then tpPages.any fun p => (s.evtPend p).testBit (src - 113)
  else (s.evtPend (sourcePage src).1).testBit (sourcePage src).2

/-- The page an EVENT names: for a shared TP source the lowest one pending (R432). -/
def State.eventPage (s : State) (src page : Nat) : Nat :=
  if 113 ≤ src ∧ src ≤ 115 then (tpPages.find? fun p => (s.evtPend p).testBit (src - 113)).getD page else page

/-- The EVENT payload (R432). -/
def State.eventPayload (s : State) (src page bit : Nat) (forced : Bool) : List Nat :=
  let p := s.eventPage src page
  let t := spGet (fun _ => (0, 0)) s.evt.time src
  leBytes 2 src ++ [p % 256, bit + (if forced then 128 else 0)] ++ leBytes 4 (s.evtRaw p) ++ leBytes 8 t.1 ++
    leBytes 4 t.2 ++ leBytes 4 (spGet (fun _ => 0) s.evt.cnt src).toNat

/-- Send the message of an MSI-X vector, or set its PBA bit where it is masked (R431, R435). -/
def msixSend (v : Nat) : Act := .dyn fun s =>
  let e := 0x8400 + 16 * v
  if (s.rd (e + 12)).testBit 0 then .evt fun x => { x with pba := if x.pba.contains v then x.pba else v :: x.pba }
  else .emit (.msix v (s.rd e + s.rd (e + 4) * 2 ^ 32) (s.rd (e + 8)))

/-- What the source's route enables (R431); `lost` drops a message. -/
def routeEvent (done : Nat → Act) (lost : Act) (src page bit : Nat) (forced : Bool) (msix msgs : Bool) : Act := .dyn fun s =>
  let payload := s.eventPayload src page bit forced
  let hosts := s.partners 0
  acts [on (msix && s.flag (F.EVT_ROUTE_MSIX src)) (msixSend (s.fld (F.EVT_ROUTE_VECTOR src))),
    on (msgs && s.flag (F.EVT_ROUTE_MSG src))
      (if hosts.isEmpty then lost
       else each hosts fun p => .dyn fun s' => netSendWith done [p.pref] p.id (s'.session p.id) 0x20 0 0 payload),
    on (msgs && s.flag (F.EVT_ROUTE_RING src)) (.dyn fun s' =>
      match s'.replyRing with
      | some r => if s'.ringRoom r 1 then .seq (bumpSeq none) (ringWrite r (netHeader s' 0x20 24 0 (s'.b.net.plainSeq + 1) 0 0 ++
          bytesAt payload 0 223 ++ [0])) else lost
      | none => lost)]

/-- Deliver a source once (R427, R431); in DORMANT the delivery waits for the wake (R433). -/
def deliverWith (done : Nat → Act) (lost : Act) (src page bit : Nat) (forced : Bool) : Act := .dyn fun s =>
  if s.dev = .dormant then .evt fun x => { x with deferred := x.deferred ++ [(src, page, bit, forced)] }
  else routeEvent done lost src page bit forced true true

/-- Record a raise: RAW, the saturating count and the TIM time (R427). -/
def recordRaise (page bit : Nat) : Act := .dyn fun s =>
  let src := evtSource page bit
  .evt fun x =>
    { x with
      raw := spPut (fun _ => 0) x.raw page (BitVec.ofNat 32 (Nat.lor (s.evtRaw page) (2 ^ bit)))
      cnt := spPut (fun _ => 0) x.cnt src
        (BitVec.ofNat 32 (min ((spGet (fun _ => 0) x.cnt src).toNat + 1) 0xFFFFFFFF))
      time := spPut (fun _ => (0, 0)) x.time src (s.b.tim.sec, s.b.tim.ns / 2 ^ 32) }

/-- Raise an event bit, delivering its source where it becomes pending (R427). -/
def raiseWith (done : Nat → Act) (lost : Act) (page bit : Nat) (forced : Bool) : Act := .dyn fun s =>
  let src := evtSource page bit
  let was := s.srcPending src
  .seq (recordRaise page bit) (.dyn fun s' =>
    on (!was && s'.srcPending src) (deliverWith done lost src page bit forced))

/-- Count a dropped event message (R431). -/
def countLost : Act := .evt fun x => { x with lost := x.lost + 1 }

/-- Drop an event message: count it and raise MSG_LOST, whose own loss raises nothing further (R431). -/
def loseMessage : Act := .seq countLost (raiseWith (fun _ => .nop) countLost 0x001 0 false)

/-- An injection on a port has been made (R324): KIND reads 0, the counters count it, FIJ_DONE is raised. -/
def netFijDone (port : Nat) : Act :=
  acts [setF (F.NET_FIJ_CFG_KIND port) 0, addR (R.NET_FIJ_DONE port) 1, addR R.FIJ_DONE 1,
    raiseWith (fun _ => .nop) loseMessage (0xC0 + port) 3 false]

/-- Send a message on ports. -/
def netSend (ports : List Nat) (partner : Nat) (sess : Option Session) (type flags corr : Nat) (payload : List Nat) : Act :=
  netSendWith netFijDone ports partner sess type flags corr payload

/-- Send a message to a partner, in its session where it has one. -/
def netTo (p : Partner) (type : Nat) (payload : List Nat) : Act := .dyn fun s =>
  netSend [p.pref] p.id (s.session p.id) type 0 0 payload

/-- Raise an event. -/
def raise (e : Evt) : Act := raiseWith netFijDone loseMessage e.page e.bit false

/-- Raise an event bit as forced (R428). -/
def raiseForced (page bit : Nat) : Act := raiseWith netFijDone loseMessage page bit true

/-- Deliver a source. -/
def deliver (src page bit : Nat) (forced : Bool) : Act := deliverWith netFijDone loseMessage src page bit forced

/-! ### Requests refused, and changes of state (R19, R21, R424, R436, R437) -/

/-- TOP_REFUSE records a refusal, and REQ_REFUSED is raised (R436, R437). -/
def refuse (page cmd cond detail : Nat) : Act :=
  acts [setR R.TOP_REFUSE (page % 256 * 2 ^ 24 + cmd % 256 * 2 ^ 16 + cond * 2 ^ 8 + detail % 256), raise E.TOP_REQ_REFUSED]

/-- A command that the state does not allow (R21). -/
def refuseState (page cmd : Nat) : Act := .dyn fun s => refuse page cmd 0x10 s.dev.code

/-- A command that its own page's chapter allows only in some states: ERR_CAUSE REFUSED on the page, and TOP_REFUSE
(R424). -/
def refuseCmd (reg cmd : Nat) : Act := .seq (err reg Err.refused) (refuseState (reg / 0x1000) cmd)

/-- Change the device state: PREV, the count and STATE_CHANGE follow (R19, R436). -/
def enter (d : DevState) : Act := .dyn fun s =>
  on (s.dev.edge d) (acts [.goto d, addR R.TOP_TRANS_CNT 1, raise E.TOP_STATE_CHANGE])

/-- The states in which shots are at stake (R19, R407). -/
def State.inJob (s : State) : Bool :=
  s.dev == .armed || s.dev == .writing || s.dev == .racking || s.dev == .draining

/-- ARMED, WRITING or RACKING: RWL registers are locked (R11). -/
def State.locked (s : State) : Bool := s.dev == .armed || s.dev == .writing || s.dev == .racking

/-- A device reset (R390): everything returns to its reset value but the reset causes, OTP and the command queue. -/
def deviceReset (causeBit : Nat) : Act := .dyn fun s =>
  .seq (.restart (BitVec.ofNat 32 (Nat.lor (s.rd R.AON_RST_CAUSE) causeBit))) (onPwr fun p => { p with resetDone := true })

/-! ### What a host access reaches (R391, R396, R421, R424) -/

/-- Whether BAR0 accesses reach a page: the EARLY pages before READY, the proxy's pages in DORMANT (R391, R396). -/
def State.reaches (s : State) (page : Nat) : Bool :=
  match s.dev with
  | .off => false
  | .reset => match pageRow page with | some r => r.early | none => false
  | .dormant => match pageRow page with | some r => r.dormant | none => false
  | _ => true

/-- What a register read returns to its reader. -/
def answerWord (w : Nat) : Act := .emit (.completion (leBytes 4 w) false)

/-- Store in a register the bits of a mask, keeping the others (R11). -/
def writeBits (addr mask : Nat) (w : Word) : Act := .dyn fun s =>
  setR addr (Nat.lor (Nat.land (s.rd addr) (0xFFFFFFFF - mask)) (Nat.land w.toNat mask))

/-- A write to an RW register, reserved and read-only bits excepted (R11). -/
def writeReg (addr : Nat) (w : Word) : Act :=
  match regDesc addr with
  | some d => writeBits addr d.rw w
  | none => .nop

/-- A write to an RWL register (R11): ignored, with LOCKED, in ARMED, WRITING and RACKING. -/
def writeLocked (addr : Nat) (w : Word) : Act := .dyn fun s =>
  match regDesc addr with
  | some d =>
    .seq (writeBits addr (if s.locked then d.rw else Nat.lor d.rw d.rwl) w)
      (on (s.locked && d.rwl != 0) (err addr Err.locked))
  | none => .nop

end Sys2Proof.Machine
end

