-- ==== Sys2Proof/Machine/Plan.lean ====
section
/-! DEFINITION. Planning of motion (R237, R238): moves, speed transitions and stops as lists of segments of whole
setpoint periods, exact in pixels and seconds; and the advance of a profile by one period. -/

namespace Sys2Proof.Machine

/-- Setpoint periods in a second (Tp = 50 µs). -/
def periodsPerSecond : Nat := 20000

/-- The length of `n` periods in seconds. -/
def periodTime (n : Nat) : Rat := (n : Rat) / 20000

/-- The least natural number that satisfies a monotone test, searched below 2⁴⁰. -/
def leastNat (p : Nat → Bool) : Nat :=
  if p 0 then 0
  else ((List.range 40).reverse.foldl (fun acc k => if p (acc + 2 ^ k) then acc else acc + 2 ^ k) 0) + 1

/-- Round a rational to nearest, a tie to the larger magnitude. -/
def roundAway (q : Rat) : Int := if 0 ≤ q then (q + 1 / 2).floor else -((-q + 1 / 2).floor)

/-- Round at 2⁻¹⁶, a tie to the larger magnitude (R237). -/
def round16 (q : Rat) : Rat := ((roundAway (q * 65536) : Int) : Rat) / 65536

/-- The motion limits: pixels/s, pixels/s², pixels/s³. -/
structure Limits where
  v : Rat
  a : Rat
  j : Rat
  deriving DecidableEq, Repr

/-- Periods of Tj and Ta for a change of speed `dv` (R237). -/
def jerkTimes (l : Limits) (dv : Rat) : Nat × Nat :=
  if l.a * l.a / l.j ≤ dv then
    (leastNat fun n => decide (l.a / l.j ≤ periodTime n), leastNat fun n => decide (dv / l.a - l.a / l.j ≤ periodTime n))
  else (leastNat fun n => decide (dv / l.j ≤ periodTime n * periodTime n), 0)

/-- Twice d(V): whether a rest-to-rest move that reaches speed `v` fits in the distance (R237). -/
def reaches (l : Limits) (v dist : Rat) : Bool :=
  if l.a * l.a / l.j ≤ v then decide (v * (v / l.a + l.a / l.j) ≤ dist)
  else decide (4 * v * v * v / l.j ≤ dist * dist)

/-- The constant speed of a move that reaches speed `v` lasts at most `t`: Tv = (D − 2·d(V)) / V, with d(V) over the times Tj
and Ta before they are rounded (R237). -/
def cruiseWithin (l : Limits) (v dist t : Rat) : Bool :=
  if l.a * l.a / l.j ≤ v then decide (dist / v - (v / l.a + l.a / l.j) ≤ t)
  else
    let y := dist / v - t
    decide (y ≤ 0) || decide (y * y ≤ 4 * v / l.j)

/-- T'j, T'a and T'v of a rest-to-rest move over `dist` > 0 (R237). -/
def moveTimes (l : Limits) (dist : Rat) : Nat × Nat × Nat :=
  if reaches l l.v dist then
    let t := jerkTimes l l.v
    (t.1, t.2, leastNat fun m => cruiseWithin l l.v dist (periodTime m))
  else if 2 * l.a * l.a * l.a / (l.j * l.j) ≤ dist then
    let z := l.a * l.a * l.a * l.a / (l.j * l.j) + 4 * l.a * dist
    (leastNat fun n => decide (l.a / l.j ≤ periodTime n),
      leastNat fun m =>
        let y := 2 * l.a * (periodTime m + 3 * l.a / (2 * l.j))
        decide (z ≤ y * y), 0)
  else (leastNat fun n => decide (dist / (2 * l.j) ≤ periodTime n * periodTime n * periodTime n), 0, 0)

/-- Append a segment of `n` periods at jerk `j` (rounded `jr`) to a plan that stands at `(p, v, a)`; an empty segment
is left out. -/
structure PlanAt where
  p : Rat
  v : Rat
  a : Rat
  segs : List Seg

/-- Add a segment; the planned end state is the exact integral of the unrounded jerk (R237). -/
def PlanAt.add (x : PlanAt) (n : Nat) (j jr : Rat) (acc : Option Rat := none) : PlanAt :=
  if n = 0 then x
  else
    let t := periodTime n
    let p := x.p + x.v * t + x.a * t * t / 2 + j * t * t * t / 6
    let v := x.v + x.a * t + j * t * t / 2
    let a := x.a + j * t
    { p := p, v := v, a := a, segs := x.segs ++ [⟨n, jr, acc, p, v, a⟩] }

/-- The segments of a rest-to-rest move from `p` to `q` (R237). -/
def planMove (l : Limits) (p q : Rat) : List Seg :=
  if p = q then []
  else
    let dist := if p < q then q - p else p - q
    let sg : Rat := if p < q then 1 else -1
    let t := moveTimes l dist
    let tj := periodTime t.1
    let ta := periodTime t.2.1
    let tv := periodTime t.2.2
    let j := sg * (dist / (tj * (tj + ta) * (2 * tj + ta + tv)))
    let jr := round16 j
    ((((((((PlanAt.mk p 0 0 []).add t.1 j jr).add t.2.1 0 0).add t.1 (-j) (-jr)).add t.2.2 0 0).add t.1 (-j) (-jr)).add
      t.2.1 0 0).add t.1 j jr).segs

/-- The segments of a speed transition from `v1` to `v2` (signed), starting and ending with zero acceleration
(R237). -/
def planSpeed (l : Limits) (p v1 v2 : Rat) : List Seg :=
  if v1 = v2 then []
  else
    let dv := if v1 < v2 then v2 - v1 else v1 - v2
    let sg : Rat := if v1 < v2 then 1 else -1
    let t := jerkTimes l dv
    let tj := periodTime t.1
    let ta := periodTime t.2
    let j := sg * (dv / (tj * (tj + ta)))
    let jr := round16 j
    ((((PlanAt.mk p v1 0 []).add t.1 j jr).add t.2 0 0).add t.1 (-j) (-jr)).segs

/-- The distance d_v of a transition between rest and a speed, over its rounded times (R235, R237). -/
def rampDistance (l : Limits) (v : Rat) : Rat :=
  let t := jerkTimes l v
  v * (2 * periodTime t.1 + periodTime t.2) / 2

/-- The segments of a stop from `(p, v, a)` (R238): jerk until the deceleration is reached, hold, and the opposite
jerk that brings v and a to zero together; with the times rounded up, the deceleration and both jerks are scaled, and
what a segment holds is rounded. -/
def planStop (l : Limits) (p v a : Rat) : List Seg :=
  if v = 0 ∧ a = 0 then []
  else
    let sg : Rat := if 0 < v ∨ (v = 0 ∧ 0 < a) then 1 else -1
    let u := sg * v
    let b := sg * a
    let e := u + b * b / (2 * l.j)
    let full := decide (l.a * l.a / l.j ≤ e)
    let n1 := if full then leastNat fun n => decide ((b + l.a) / l.j ≤ periodTime n)
      else leastNat fun n =>
        let y := periodTime n * l.j - b
        decide (0 ≤ y) && decide (l.j * e ≤ y * y)
    let n2 := if full then leastNat fun n => decide ((e - l.a * l.a / l.j) / l.a ≤ periodTime n) else 0
    let n3 := if full then leastNat fun n => decide (l.a / l.j ≤ periodTime n)
      else leastNat fun n => decide (l.j * e ≤ periodTime n * l.j * (periodTime n * l.j))
    let t1 := periodTime n1
    let t2 := periodTime n2
    let t3 := periodTime n3
    let d := (u + b * t1 / 2) / (t1 / 2 + t2 + t3 / 2)
    let j1 := if n1 = 0 then 0 else -sg * ((d + b) / t1)
    let j3 := if n3 = 0 then 0 else sg * (d / t3)
    let x1 := (PlanAt.mk p v a []).add n1 j1 (round16 j1)
    let x2 := ({ x1 with a := -sg * d } : PlanAt).add n2 0 0 (some (round16 (-sg * d)))
    let x3 := x2.add n3 j3 (round16 j3)
    match x3.segs.reverse with
    | [] => []
    | last :: rest => (({ last with endV := 0, endA := 0 } : Seg) :: rest).reverse

/-- A plan's segments seen from a frame that moves at `v`, from `(p, t)` on. -/
def movingSegs (v : Rat) : Nat → List Seg → List Seg
  | _, [] => []
  | n, s :: rest =>
    { s with endP := s.endP + v * periodTime (n + s.periods), endV := s.endV + v } :: movingSegs v (n + s.periods) rest

/-- The segments that bring a state `(p, v, a)` to speed `w` at zero acceleration: the stop of R238 as seen at that speed. -/
def planTo (l : Limits) (p v a w : Rat) : List Seg := movingSegs w 0 (planStop l p (v - w) a)

/-- The end position of a plan that starts at `p`. -/
def planEnd (p : Rat) (segs : List Seg) : Rat := match segs.getLast? with | some s => s.endP | none => p

/-! ### Advancing an axis -/

/-- At rest (R245). -/
def Gen.atRest (g : Gen) : Bool := decide (g.v = 0) && decide (g.a = 0) && g.segs.isEmpty

/-- The jerk over the coming period. -/
def Gen.jerk (g : Gen) : Rat := match g.segs with | s :: _ => s.jerk | [] => 0

/-- Start a plan from the axis's current state. -/
def Gen.start (g : Gen) (segs : List Seg) (aim : Aim := .keep) : Gen :=
  { g with segs := segs, aim := aim, k := 0, p0 := g.p, v0 := g.v, a0 := g.a, j := match segs with | s :: _ => s.jerk | [] => 0 }

/-- One period on (R237): within a segment the integral of its rounded jerk from the segment's start; at its end the
planned values; without a segment, constant speed. -/
def Gen.next (g : Gen) : Gen :=
  match g.segs with
  | [] => { g with p := g.p + g.v / 20000, a := 0, j := 0 }
  | s :: rest =>
    let a := s.acc.getD g.a0
    if s.periods ≤ g.k + 1 then
      { g with
        p := s.endP, v := s.endV, a := s.endA, p0 := s.endP, v0 := s.endV, a0 := s.endA, k := 0, segs := rest
        j := match rest with | r :: _ => r.jerk | [] => 0 }
    else
      let t := periodTime (g.k + 1)
      { g with
        p := g.p0 + g.v0 * t + a * t * t / 2 + s.jerk * t * t * t / 6
        v := g.v0 + a * t + s.jerk * t * t / 2
        a := a + s.jerk * t
        k := g.k + 1 }

/-- An axis at rest takes up the target that waits for it (R248, R251). -/
def Gen.takeTarget (l : Limits) (g : Gen) (t : Option Rat) : Gen × Option Rat := match t with
  | some q => if g.atRest then (g.start (planMove l g.p q), none) else (g, t)
  | none => (g, t)

/-- An axis and its waiting target after a number of periods of its plan (R288). -/
def Gen.follow (l : Limits) : Nat → Gen → Option Rat → Gen × Option Rat
  | 0, g, t => (g, t)
  | n + 1, g, t => Gen.follow l n (g.takeTarget l t).1.next (g.takeTarget l t).2

/-- Periods that an axis's plan still takes. -/
def Gen.left (g : Gen) : Nat := (g.segs.map fun x => x.periods).sum - g.k

end Sys2Proof.Machine
end

