-- ==== Sys2Proof/Machine/Base.lean ====
section
/-! DEFINITION. Operations that several chapters share: stops at stripe end, requests that meet a self-test, on-die
SRAM errors, cellar lines that do not read clean, the retirement of ranks, and the motion figures of a stripe. -/

namespace Sys2Proof.Machine

/-! ### Stops at stripe end (R19) -/

/-- In WRITING the last shot of a stripe has been strobed and no further stripe's run-in has started. -/
def State.between (s : State) : Bool :=
  s.dev == .writing && match s.b.mot.cur with
    | some c => (s.b.press.runs.head?.map fun r => r.stripe.num) != some c.num
    | none => false

/-- A rule issues a stop at stripe end; several before one stripe ends act as one (R19). Between two stripes the last one
written has ended, so it takes effect at once. -/
def stopAtEnd : Act := .dyn fun s =>
  if s.between then .seq (enter .draining) (onJob fun j => { j with turnWait := false, stopEnd := false })
  else on s.locked (onJob fun j => { j with stopEnd := true })

/-- The device is one of a running pair. -/
def State.paired (s : State) : Bool := s.role == .active || s.role == .standby

/-- The mate's status is UP (R281). -/
def State.mateUp (s : State) : Bool := s.b.par.mate == .up

/-- A clock domain runs: powered (R392, R401), and its PLL has not lost lock (R389); numbered as CLK_STAT.LOCKED. -/
def State.powered (s : State) (d : Nat) : Bool :=
  s.dev != .off && (s.fld F.PWR_STAT_ON).testBit d && !s.b.pwr.unlocked.contains d

/-! ### Self-test (R372, R375) -/

/-- The page of a self-test slice (R372). -/
def slicePage (k : Nat) : Nat :=
  if k < 68 then 0x40 + k else if k < 84 then 0x20 + (k - 68)
  else match k with
    | 84 => 0x09 | 85 => 0x0A | 86 => 0xC8 | 87 => 0xC9 | 88 => 0xCA | 89 => 0xCB | 90 => 0x31 | 91 => 0x14
    | 92 => 0xC0 | 93 => 0xC1 | 94 => 0xC2 | 95 => 0xC4 | 96 => 0xC5 | 97 => 0x18 | 98 => 0x07 | 99 => 0xB4
    | 100 => 0xB0 | 101 => 0xB1 | 102 => 0xA8 | _ => 0x90

/-- A field of a page's PAGE_STAT. -/
def pageStat (page lo width : Nat) : Fld := ⟨pageReg page 0x00C, lo, width⟩

/-- The lowest slice that the rotation still has to take, but one (R373, R381). -/
def nextSlice (done : List Nat) (but : Option Nat) : Option Nat :=
  (List.range 104).find? fun i => !done.contains i && some i != but

/-- The slice under test, if any. -/
def State.testing (s : State) : Option Nat := s.b.bst.cur.map fun t => t.slice

/-- A slice has passed, failed or been skipped: it counts for the rotation, and the last one completes it (R373). -/
def sliceCounted (k : Nat) : Act := .dyn fun s =>
  let done := if s.b.bst.done.contains k then s.b.bst.done else k :: s.b.bst.done
  let full := decide (104 ≤ done.length)
  acts [onBst fun b => { b with done := if full then [] else done, yields := if full then [] else b.yields },
    setF F.BST_STAT_NEXT ((nextSlice (if full then [] else done) s.testing).getD 0),
    on full (acts [addR R.BST_ROT_CNT 1, raise E.BST_ROTATION_DONE])]

/-- Groups that a test has completed by now, or with the one under way (R374, R375): after 4 µs of saving a group takes 6 µs, the
greatest times that the spec allows (DESIGN CHOICE). -/
def State.groupsOf (s : State) (t : SliceTest) (under : Nat) : Nat :=
  min (s.fld F.BST_PATTERNS_GROUPS) (t.group + (s.b.tim.ticks - t.since - 1000 + under) / 1500)

/-- A request reaches a single-instance slice, which is busy from now (R372): a test of it stops at the group boundary and the slice
is restored; too many yields skip it for the rotation (R375). -/
def bistRequest (k : Nat) : Act := .dyn fun s =>
  .seq (onBst fun b => { b with used := spPut (fun _ => 0) b.used k s.b.tim.ticks }) (match s.b.bst.cur with
  | some t =>
    if t.slice = k ∧ !t.yielded then
      let n := spGet (fun _ => 0) s.b.bst.yields k + 1
      let many := decide (s.fld ⟨R.BST_YIELD_MAX, 0, 16⟩ < n)
      let g := s.groupsOf t 1499
      acts [addR R.BST_YIELD_CNT 1, setF (pageStat (slicePage k) 10 1) 0, setF F.BST_STAT_STATE 0, setF F.BST_STAT_GROUP g,
        onBst fun b =>
          { b with
            yields := spPut (fun _ => 0) b.yields k n, restoring := some k, restoreAt := s.b.tim.ticks
            cur := if many then none else some { t with yielded := true, group := g } },
        on many (acts [addR R.BST_SKIP_CNT 1, raise E.BST_BIST_SKIP, sliceCounted k])]
    else .nop
  | none => .nop)

/-- The single-instance slices that serve a page: that of the LTQ is TIM's (R372). -/
def slicesOf (page : Nat) : List Nat :=
  ((List.range 20).map (84 + ·)).filter fun k => slicePage k == page || page == 0xC3 && k == 94

/-- A request reaches a page: a self-test of its single-instance slice gives way (R375). -/
def bistPage (page : Nat) : Act := each (slicesOf page) bistRequest

/-- A host access in DORMANT brings the link from L1.2 to L0 (R396). -/
def linkToL0 : Act := .dyn fun s =>
  .seq (on (s.dev == .dormant) (onPwr fun p => { p with linkAt := s.b.tim.ticks }))
    (on (s.flag F.HIF_LINK_L12) (.seq (setB F.HIF_LINK_L12 false) (.emit (.link 0))))

/-- A write to a page has its effect where the page is reached; in DORMANT a write to any other page sets DORM_ACCESS
(R396). -/
def toPage (page : Nat) (a : Act) : Act := .dyn fun s =>
  if s.reaches page then .seq linkToL0 (.seq (bistPage page) a)
  else on (s.dev == .dormant) (.seq linkToL0 (setB F.PWR_STAT_DORM_ACCESS true))

/-- A read of a page; a page that is not reached reads 0 (R391, R396). -/
def fromPage (page : Nat) (read : Act) : Act := .dyn fun s =>
  if s.reaches page then .seq linkToL0 (.seq (bistPage page) read) else .seq linkToL0 (answerWord 0)

/-! ### On-die SRAMs (R347) -/

/-- An error in an SRAM array: counted, located, reported. -/
def sramError (array word : Nat) (ue : Bool) : Act :=
  acts [addR (if ue then R.MEM_SRAM_UE_CNT else R.MEM_SRAM_CE_CNT) 1,
    setR R.MEM_SRAM_LOC (array * 2 ^ 24 + (if ue then 2 ^ 23 else 0) + word % 2 ^ 20),
    raise (if ue then E.MEM_SRAM_UE else E.MEM_SRAM_CE)]

/-- An error in an array whose word the command does not name: MEM_SRAM_LOC.WORD is a free value (R347). -/
def sramErrorAt (array : Nat) (ue : Bool) : Act := .dyn fun s => .seq .draw (sramError array (Config.unstated 12 s.fresh) ue)

/-! ### Cellar lines (R333, R338 to R344, R348) -/

/-- b of R333: 1 for 8 Gb devices, 2 for 16 Gb. -/
def State.densBits (s : State) : Nat := if s.flag (F.MC_GEOM_DENS 0) then 2 else 1

/-- The channel of a cellar address (R333). -/
def lineChannel (a : Nat) : Nat := a / 128 % 4

/-- The subchannel of a cellar address (R333). -/
def lineSub (a : Nat) : Nat := a / 64 % 2

/-- The rank that holds a cellar address (R333), the spare once it has taken rank 0's place (R343). -/
def State.lineRank (s : State) (a : Nat) : Nat :=
  if s.flag F.MEM_CFG_SPARE then (if (s.fld F.MEM_STAT_SPARE_USED).testBit (lineChannel a) then 1 else 0)
  else if s.fld (F.MC_GEOM_RANKS 0) = 2 then a / 512 / 2 ^ (27 + s.densBits - 1) % 2 else 0

/-- l' of a cellar address: its line within the rank, the rank bit cleared (R333). -/
def State.rankLine (s : State) (a : Nat) : Nat :=
  if !s.flag F.MEM_CFG_SPARE && s.fld (F.MC_GEOM_RANKS 0) == 2 then a / 512 % 2 ^ (27 + s.densBits - 1) else a / 512

/-- The column of a cellar address, in lines (R333). -/
def State.lineColumn (s : State) (a : Nat) : Nat := s.rankLine a % 128

/-- The bank of a cellar address (R333). -/
def State.lineBank (s : State) (a : Nat) : Nat := s.rankLine a / 2 ^ 7 % 2 ^ s.densBits

/-- The bank group of a cellar address (R333). -/
def State.lineGroup (s : State) (a : Nat) : Nat := s.rankLine a / 2 ^ (7 + s.densBits) % 8

/-- The row of a cellar address (R333). -/
def State.lineRow (s : State) (a : Nat) : Nat := s.rankLine a / 2 ^ (10 + s.densBits)

/-- Bytes of a bin (R116). -/
def State.binBytes (s : State) : Nat := s.fld F.CEL_BIN_CFG_BIN_MIB * 2 ^ 20

/-- Cellar address of the spill pool (R116). -/
def State.poolBase (s : State) : Nat := s.fld F.CEL_BIN_CFG_NBINS * s.binBytes

/-- The bin whose region or reservation holds a cellar address. -/
def State.binOf (s : State) (a : Nat) : Option Bin :=
  if a < s.poolBase then s.b.cel.bins.find? fun x => x.num == a / s.binBytes
  else s.b.cel.bins.find? fun x => x.units.contains ((a - s.poolBase) / 2 ^ 20)

/-- Write a memory record (R348), or count it as dropped. -/
def memRecord (kind source addr rank dev : Nat) (ch : Nat) : Act := .dyn fun s =>
  let stripe := match s.binOf addr with | some x => if kind ≤ 3 then x.stripe else 0xFFFFFFFF | none => 0xFFFFFFFF
  let bytes := leBytes 8 (if kind ≤ 3 then addr else 0) ++ [kind * 16 + source,
    ch * 16 + (if kind ≤ 4 then lineSub addr else 0) * 8 + rank * 4, dev] ++ leBytes 4 stripe ++ [0]
  let lost := addR R.MEM_REC_LOST 1
  if s.flag F.MEM_REC_RING_EN then recordTo (s.fld F.MEM_REC_RING_RING) bytes lost else lost

/-- The cellar's controllers work: their domain is powered and the device is past its training. -/
def State.memUp (s : State) : Bool := s.powered 2 && s.dev != .reset && s.dev != .dormant

/-- A rank must be retired (R342, R344): its migration to the spare is queued, or it stays in service without one. -/
def retireRank (ch rank : Nat) : Act := .dyn fun s =>
  if s.b.ram.retired.contains (ch, rank) then .nop
  else
    let moving := s.b.ram.mig.any fun w => w.kind == ch
    let spare := s.flag F.MEM_CFG_SPARE && !(s.fld F.MEM_STAT_SPARE_USED).testBit ch && rank == 0 &&
      !s.b.ram.migQueue.contains ch && !moving
    acts [onRam fun m => { m with retired := (ch, rank) :: m.retired },
      if spare then
        acts [onRam fun m => { m with migQueue := m.migQueue ++ [ch] }, raise E.MEM_RETIRED,
          memRecord 5 15 0 rank 15 ch, on s.b.ram.mig.isSome (setB F.MEM_STAT_MIG_QUEUED true)]
      else
        acts [setF F.MEM_STAT_NO_SPARE (Nat.lor (s.fld F.MEM_STAT_NO_SPARE) (2 ^ ch)), raise E.MEM_NO_SPARE,
          memRecord 6 15 0 rank 15 ch, stopAtEnd]]

/-- How a cellar line reads (R338). -/
inductive LineRead where
  | clean
  | poison
  | corrected (dev : Nat)
  | bad
  deriving DecidableEq, Repr

/-- The line address of a byte. -/
def lineAddr (a : Nat) : Nat := a / 64 * 64

/-- The place of a line in the ascending order of its channel's lines within the rank (R333, R343): l' first, then the
subchannel. -/
def lineIndex (la : Nat) : Nat := la / 512 * 2 + lineSub la

/-- A line lies below the copy pointer of a migration under way: the spare serves it (R343). -/
def State.belowPointer (s : State) (la : Nat) : Bool :=
  match s.b.ram.mig with
  | some w => w.kind == lineChannel la && decide (lineIndex la < w.done)
  | none => false

/-- The error that the DRAM gives for a line from now on, if the command names one. -/
def faultAt (faults : List LineFault) (la : Nat) : Option LineFault :=
  faults.find? fun f => !f.parity && lineAddr f.addr.toNat == la

/-- The error pattern with which a line reads; a write-back that waits goes out before the read (R335, R339). -/
def State.lineErr (s : State) (faults : List LineFault) (la : Nat) : List (Fin 80 × Byte) :=
  match faultAt faults la with
  | some f => f.err
  | none => if s.b.ram.wb.contains la then [] else spGet (fun _ => []) s.b.ram.errs la

/-- The 64 bytes of a line; none unless all of them have been written since power-up. -/
def State.lineBytes (s : State) (la : Nat) : Option (List Nat) :=
  if (List.range 64).all fun i => (cellGet s.mem (la + i)).isSome then
    some ((List.range 64).map fun i => ((cellGet s.mem (la + i)).getD 0).toNat)
  else none

/-- The line holds the poison pattern (R340): it was marked, or it held no codeword and a migration has copied it (R343). -/
def State.poisoned (s : State) (la : Nat) : Bool :=
  s.b.cel.poison.contains la ||
    ((s.lineBytes la).isNone && (s.b.ram.poisonFill.contains (lineChannel la) || s.belowPointer la))

/-- The codeword that was stored for a line (R337, R340); none for one that has not been written wholly since power-up, which
holds no codeword (R345). -/
def State.lineWord (s : State) (la : Nat) : Option (List Nat) :=
  if s.poisoned la then some poisonCode else (s.lineBytes la).map lineCode

/-- The decoder's answer for a line (R338). -/
def State.decodeLine (s : State) (faults : List LineFault) (la : Nat) : Decoded :=
  match s.lineWord la with
  | some w => rsDecode (withErrors w ((s.lineErr faults la).map fun e => (e.1.val, e.2.toNat)))
  | none => .bad

/-- The line's bytes that an answer gives. -/
def Decoded.line : Decoded → List Nat
  | .clean l => l
  | .corrected _ l => l
  | _ => []

/-- How the line at `la` reads (R338). Without errors a line reads as it was stored: a codeword has zero syndromes, and the
poison pattern its own. -/
def State.readLine (s : State) (faults : List LineFault) (la : Nat) : LineRead :=
  if (s.lineErr faults la).isEmpty then
    (if s.poisoned la then .poison else if (s.lineBytes la).isSome then .clean else .bad)
  else match s.decodeLine faults la with
    | .clean _ => .clean
    | .poison => .poison
    | .corrected dev _ => .corrected dev
    | .bad => .bad

/-- Whether a line's data reach the requester. -/
def LineRead.ok : LineRead → Bool
  | .clean => true
  | .corrected _ => true
  | _ => false

/-- A byte of the cellar as a requester reads it. -/
def State.readByte (s : State) (faults : List LineFault) (a : Nat) : Option Nat :=
  let la := lineAddr a
  if (s.readLine faults la).ok then
    (if (s.lineErr faults la).isEmpty then (cellGet s.mem a).map BitVec.toNat else (s.decodeLine faults la).line[a - la]?)
  else none

/-- The error address registers of a channel (R352). -/
def mcError (la rank dev : Nat) (ue : Bool) : Act :=
  let ch := lineChannel la
  acts [setR (R.MC_ERR_LO ch) la,
    setR (R.MC_ERR_HI ch) ((if ue then 2 ^ 31 else 0) + dev % 16 * 2 ^ 24 + lineSub la * 2 ^ 23 + rank * 2 ^ 22 + la / 2 ^ 32 % 256)]

/-- Whether the spare serves a line, below the copy pointer of a migration under way; the copy itself (source 7) reads the old
rank (R343). -/
def State.onSpare (s : State) (source la : Nat) : Bool := source != 7 && s.belowPointer la

/-- The rank that serves a line (R333, R343). -/
def State.servingRank (s : State) (source la : Nat) : Nat := if s.onSpare source la then 1 else s.lineRank la

/-- An uncorrectable line on the spare ends its channel's migration, and the old rank is kept without a spare (R344). -/
def spareFails (ch : Nat) : Act := .dyn fun s =>
  acts [onRam fun m => { m with mig := none }, setB F.MEM_STAT_MIG false,
    setF F.MEM_STAT_NO_SPARE (Nat.lor (s.fld F.MEM_STAT_NO_SPARE) (2 ^ ch)), raise E.MEM_NO_SPARE,
    memRecord 6 15 0 0 15 ch, stopAtEnd]

/-- A command for a line fails parity (R342, R348): counted, reported, and its rank is retired; the retry passes. -/
def parityNote (source : Nat) (faults : List LineFault) (la : Nat) : Act := .dyn fun s =>
  let ch := lineChannel la
  let rank := s.servingRank source la
  on (s.flag (F.MC_CFG_CAPAR ch) && faults.any fun f => f.parity && lineAddr f.addr.toNat == la)
    (acts [satR (R.MC_CAPAR_CNT ch) 1, raise (E.MC_CA_PARITY ch), memRecord 4 source la rank 15 ch,
      if s.onSpare source la then spareFails ch else retireRank ch rank])

/-- The line has been written anew: it holds no error any more, and a write-back that waits is cancelled (R339). -/
def lineFresh (las : List Nat) : Act :=
  onRam fun m => { m with errs := m.errs.filter fun e => !las.contains e.1, wb := m.wb.filter fun la => !las.contains la }

/-- Write a line's decoded bytes back to it (R339, R341, R343, R345). -/
def rewriteLine (la : Nat) (line : List Nat) : Act :=
  acts [each ((List.range 64).zip line) fun e => .cell (la + e.1) (BitVec.ofNat 8 e.2),
    onCel fun c => { c with poison := c.poison.filter fun x => x != la }, lineFresh [la]]

/-- Write back a corrected line, as it stands with its errors. -/
def correctLine (faults : List LineFault) (la : Nat) : Act := .dyn fun s =>
  on ((s.readLine faults la).ok && !(s.lineErr faults la).isEmpty) (rewriteLine la (s.decodeLine faults la).line)

/-- The write-backs that wait go out (R339). -/
def writeBack (las : List Nat) : Act := .dyn fun s =>
  each (s.b.ram.wb.filter las.contains) fun la =>
    .seq (onRam fun m => { m with wb := m.wb.filter fun x => x != la }) (correctLine [] la)

/-- A corrected line waits to be written back (R339). -/
def queueWriteBack (la : Nat) : Act := onRam fun m => { m with wb := la :: m.wb.filter fun x => x != la }

/-- The errors that a command names stand in DRAM from now on. -/
def placeError (faults : List LineFault) (la : Nat) : Act :=
  match faultAt faults la with
  | some f => onRam fun m => { m with errs := spPut (fun _ => []) m.errs la f.err }
  | none => .nop

/-- What the data of a line read leave behind (R338, R339, R341, R342, R348). -/
def dataNote (source : Nat) (read : LineRead) (la : Nat) : Act := .dyn fun s =>
  let ch := lineChannel la
  let rank := s.servingRank source la
  let key := 2 * ch + rank
  match read with
  | .clean => .nop
  | .poison => memRecord 2 source la rank 15 ch
  | .corrected dev =>
    acts [satR (if rank = 0 then R.MC_CE_CNT0 ch else R.MC_CE_CNT1 ch) 1, mcError la rank dev false,
      onRam fun m => { m with
        ceSecond := spPut (fun _ => 0) m.ceSecond key (spGet (fun _ => 0) m.ceSecond key + 1)
        ceRaised := if m.ceRaised.contains key then m.ceRaised else key :: m.ceRaised },
      on (!s.b.ram.ceRaised.contains key) (raise (E.MC_CE ch)),
      on (s.flag F.MEM_CFG_ECC_MODE) (queueWriteBack la)]
  | .bad =>
    acts [satR (if rank = 0 then R.MC_UE_CNT0 ch else R.MC_UE_CNT1 ch) 1, mcError la rank 15 true,
      raise (E.MC_UE ch), memRecord 1 source la rank 15 ch, if s.onSpare source la then spareFails ch else retireRank ch rank]

/-- What a line read leaves behind (R335, R338 to R344). -/
def lineNote (source : Nat) (faults : List LineFault) (la : Nat) : Act := .dyn fun s =>
  acts [writeBack [la], placeError faults la, parityNote source faults la, dataNote source (s.readLine faults la) la]

/-- The lines that a run of bytes touches. -/
def linesOf (a n : Nat) : List Nat := if n = 0 then [] else (List.range ((a + n - 1) / 64 - a / 64 + 1)).map fun i => (a / 64 + i) * 64

/-- Read the line that a write covers only in part, for the merge (R341): its corrected data are merged, or the merged line
becomes poison. -/
def mergeRead (source : Nat) (faults : List LineFault) (la : Nat) : Act := .dyn fun s =>
  if (s.readLine faults la).ok then .seq (lineNote source faults la) (correctLine faults la)
  else .seq (lineNote source faults la) (onCel fun c => { c with poison := la :: c.poison.filter fun x => x != la })

/-- Write a run of bytes to the cellar, line by line (R341, R342): a line written whole holds what is written; one written in
part is read and merged. -/
def storeRun (source : Nat) (faults : List LineFault) (a : Nat) (data : List Byte) : Act :=
  let lines := linesOf a data.length
  let whole := lines.filter fun la => decide (a ≤ la) && decide (la + 64 ≤ a + data.length)
  let part := lines.filter fun la => !whole.contains la
  acts [each whole (parityNote source faults), each part (mergeRead source faults),
    each ((List.range data.length).zip data) fun e => .cell (a + e.1) e.2,
    onCel fun c => { c with poison := c.poison.filter fun la => !whole.contains la }, lineFresh lines]

/-! ### Figures of a stripe's motion (R214, R235, R239) -/

/-- The motion limits as the registers hold them. -/
def State.limits (s : State) : Limits :=
  ⟨s.rd R.MOT_VMAX, s.rd R.MOT_AMAX * 1000, s.rd R.MOT_JMAX * 1000000⟩

/-- The depth in force: that of the last passing check, else of the register. -/
def State.depth (s : State) : Nat := match s.b.lat.cap with | some c => c.depth | none => s.fld F.LAT_CFG_DEPTH

/-- The shot step in force. -/
def State.step (s : State) : Nat := match s.b.lat.cap with | some c => c.s | none => s.fld F.LAT_STEP_STEP

/-- T_min in ns (R17, R221). -/
def State.tMin (s : State) : Nat :=
  max (s.rd R.SHT_MIN_PERIOD) (if s.depth = 0 then 800 else if s.depth = 1 then 603 else 500)

/-- v_cap in pixels/s (R239). -/
def State.vCap (s : State) : Rat :=
  min (s.rd R.MOT_VMAX : Rat) (((s.step : Nat) : Rat) * 1000000000 / ((s.tMin + s.fld F.MOT_PMARGIN_NS : Nat) : Rat))

/-- P_k in 2⁻¹⁶ pixel (R214). -/
def shotPos (rev : Bool) (y0 : Int) (step : Nat) (k : Int) : Int :=
  if rev then y0 - k * step * 65536 else y0 + k * step * 65536

/-- A distance in the scan direction, signed. -/
def along (rev : Bool) (d : Rat) : Rat := if rev then -d else d

/-- The start point S of a stripe (R235), in pixels. -/
def State.startPoint (s : State) (rev : Bool) (y0 : Int) : Rat :=
  ((shotPos rev y0 s.step (-2) : Int) : Rat) / 65536 -
    along rev (rampDistance s.limits s.vCap + (s.rd R.MOT_SETTLE : Nat))

/-- MOT_LEAD in periods, taken down to a multiple of 50 µs (R258). -/
def State.leadPeriods (s : State) : Nat := s.fld F.MOT_LEAD_US / 50

/-- The end point E of a stripe of `n` shots (R235), in pixels. -/
def State.endPoint (s : State) (rev : Bool) (y0 : Int) (n : Nat) : Rat :=
  let dl := s.vCap * periodTime s.leadPeriods
  ((shotPos rev y0 s.step ((n : Int) - 1) : Int) : Rat) / 65536 +
    along rev (max (s.rd R.MOT_SETTLE : Rat) dl + rampDistance s.limits s.vCap + s.vCap / 20000)

/-- A register as a signed number of pixels. -/
def State.signedReg (s : State) (a : Nat) : Int := toSigned 32 (s.rd a)

/-- A Y position lies within the travel limits. -/
def State.inTravelY (s : State) (y : Rat) : Bool :=
  decide ((s.signedReg R.MOT_YLIM_LO : Rat) ≤ y) && decide (y ≤ (s.signedReg R.MOT_YLIM_HI : Rat))

/-- An X position lies within the travel limits. -/
def State.inTravelX (s : State) (x : Rat) : Bool :=
  decide ((s.signedReg R.MOT_XLIM_LO : Rat) ≤ x) && decide (x ≤ (s.signedReg R.MOT_XLIM_HI : Rat))

/-- The entry of the job queue that names a bin. -/
def State.entryOf (s : State) (bin : Nat) : Option JobEntry := s.b.job.queue.find? fun e => e.bin == bin

/-- The envelope check of an entry (R235): the start side, and the end side where its header has passed. -/
def State.entryFits (s : State) (e : JobEntry) : Bool :=
  let n := match s.b.cel.bins.find? fun x => x.num == e.bin && x.stripe == e.stripe with
    | some x => match x.hdr with
      | some h => match s.b.lat.cap with
        | some c => some (shotCount h.len c.dymax c.s)
        | none => none
      | none => none
    | none => none
  s.inTravelY (s.startPoint e.rev e.y0) && match n with
    | some n => s.inTravelY (s.endPoint e.rev e.y0 n)
    | none => true

/-- Check an entry's envelope after acceptance: mark it, and raise ENVELOPE (R235). -/
def checkEnvelope (stripe : Nat) : Act := .dyn fun s =>
  match s.b.job.queue.find? fun e => e.stripe == stripe with
  | some e =>
    if s.b.lat.cap.isSome && !e.outOfTravel && !s.entryFits e then
      acts [onJob fun j => { j with queue := j.queue.map fun x => if x.stripe == stripe then { x with outOfTravel := true } else x },
        raise E.JOB_ENVELOPE]
    else .nop
  | none => .nop

end Sys2Proof.Machine
end

