-- ==== Sys2Proof/Machine/AgeWindow.lean ====
section
/-! DEFINITION. The windows of the AGE page (R371, R378, R380). -/

namespace Sys2Proof.Machine

/-- OTP word of a ring oscillator's baseline, after the 28 sensor trims (R438). -/
def ringBaselineWord (i : Nat) : Nat := 0x2C + i

/-- The OTP word at which the ageing log begins (R438). -/
def ageLogWord : Nat := 0x0300

/-- An entry of the log has not been written. -/
def State.logBlank (s : State) (i : Nat) : Bool := (List.range 8).all fun k => s.otpWord (ageLogWord + 8 * i + k) == 0

/-- AGE_STAT.USED (R380). -/
def State.logUsed (s : State) : Nat := ((List.range 320).find? s.logBlank).getD 320

/-- AGE_LAST_LOG (R380): DAY of the last entry, 0 when the log is empty. -/
def State.lastLog (s : State) : Nat := if s.logUsed = 0 then 0 else s.otpWord (ageLogWord + 8 * (s.logUsed - 1))

/-- A word of a window (R380). -/
def State.ageWord (s : State) (win i : Nat) : Nat :=
  let of := fun (t : List (Nat × Nat)) (n : Nat) => if i < n then spGet (fun _ => 0) t i else 0
  match win with
  | 0 => of s.b.age.canaries 48
  | 1 => of s.b.age.rings 16
  | 2 => if i < 16 then s.otpWord (ringBaselineWord i) else 0
  | 3 => of s.b.age.foms 76
  | 4 => of s.b.age.rates 8
  | 5 => if i < 2560 then s.otpWord (ageLogWord + i) else 0
  | _ => 0

/-- The index moves on after each access (R380). -/
def ageStep : Act := .dyn fun s => setF F.AGE_IDX_INDEX (s.fld F.AGE_IDX_INDEX + 1)

/-- Windows 3 and 4 are writable in READY (R378, R380). -/
def State.ageWritable (s : State) : Bool :=
  s.dev == .ready && (s.fld F.AGE_IDX_WIN == 3 || s.fld F.AGE_IDX_WIN == 4)

/-- A write of AGE_DATA (R380). -/
def ageDataWrite (w : Word) : Act := .dyn fun s =>
  let i := s.fld F.AGE_IDX_INDEX
  let put := fun (t : List (Nat × Nat)) => spPut (fun _ => 0) t i w.toNat
  acts [on (s.ageWritable && s.fld F.AGE_IDX_WIN == 3 && decide (i < 76)) (onAge fun a => { a with foms := put a.foms }),
    on (s.ageWritable && s.fld F.AGE_IDX_WIN == 4 && decide (i < 8)) (onAge fun a => { a with rates := put a.rates }),
    on s.ageWritable (onAge fun a => { a with lastData := w }), ageStep]

/-- What AGE_DATA reads (R380). -/
def State.ageData (s : State) : Nat := s.ageWord (s.fld F.AGE_IDX_WIN) (s.fld F.AGE_IDX_INDEX)

/-- A read of AGE_DATA (R380). -/
def ageDataRead : Act := .dyn fun s => .seq (answerWord s.ageData) ageStep

/-- AGE_DATA_ACCESS (R380). -/
def execAgeDataAccess (data : Option Word) (s : State) : Host.Outcome State Fault Refusal :=
  perform (match data with
    | some w => toPage 0xD1 (ageDataWrite w)
    | none => fromPage 0xD1 ageDataRead) s

end Sys2Proof.Machine
end

