-- ==== Sys2Proof/Machine/PairLink.lean ====
section
/-! DEFINITION. Messages sent on the pair link (R266 to R268, R291). -/

namespace Sys2Proof.Machine

/-- The bytes of a pair-link message (R266): the MSG block, the data blocks, the END block with its CRC-32C. -/
def pairMsg (kind group word : Nat) (data : List Nat) : List Nat :=
  let head := [kind] ++ leBytes 2 (data.length / 8 + group * 1024) ++ leBytes 4 word
  [0x4B] ++ head ++ data ++ [0x87] ++ leBytes 4 (crcOf crc32c (head ++ data)) ++ [0, 0, 0]

/-- The device sends on the pair link: in every role but SOLO, and while it is pairing or joining (R287, R404). -/
def State.pairLive (s : State) : Bool := s.role != .solo || s.b.par.joinStep != 0

/-- An injection on the pair link has been made (R291). -/
def parFijDone : Act :=
  acts [setF F.PAR_FIJ_CFG_KIND 0, addR R.PAR_FIJ_DONE 1, addR R.FIJ_DONE 1, raise E.PAR_FIJ_DONE]

/-- Targets left on a lane before the armed injection acts; none where the lane is not counted. -/
def fijLeftOn (l : List (Nat × Nat)) (lane : Nat) : Option Nat := (l.find? fun e => e.1 == lane).map fun e => e.2

/-- Send one copy of a message on a lane, after the injection that counts it, if any (R291). -/
def pairEmit (lane kind group word : Nat) (data : List Nat) : Act := .dyn fun s =>
  let k := s.fld F.PAR_FIJ_CFG_KIND
  let left := fijLeftOn s.b.par.fijLeft lane
  let counted := s.injecting 0xA8 && k != 0 && k != 5 && s.fld F.PAR_FIJ_CFG_TARGET == kind && left.isSome
  let acting := counted && left == some 1
  let rest := s.b.par.fijLeft.filter fun e => e.1 != lane
  let bit := s.fld F.PAR_FIJ_BITS_BIT
  let n := max 1 (s.fld F.PAR_FIJ_BITS_NBITS)
  let msg := pairMsg kind group word data
  let held := s.b.par.swapHeld.filter fun h => h.1 == lane
  acts [
    if acting && k == 1 then .nop
    else if acting && k == 2 then .emit (.pair lane (pairMsg kind group word (flipBits data bit n)))
    else if acting && k == 3 then .emit (.pair lane (msg.take 8 ++ flipBits data bit n ++ msg.drop (8 + data.length)))
    else if acting && k == 4 then onPar fun p => { p with swapHeld := p.swapHeld ++ [(lane, msg)] }
    else acts [.emit (.pair lane msg), each held fun h => .emit (.pair lane h.2),
      onPar fun p => { p with swapHeld := p.swapHeld.filter fun h => h.1 != lane }],
    on (counted && !acting) (onPar fun p => { p with fijLeft := (lane, left.getD 1 - 1) :: rest }),
    on acting (onPar fun p => { p with fijLeft := rest }),
    on (acting && rest.isEmpty) parFijDone]

/-- HB_TIMEOUT in PT units (R281). -/
def State.hbTimeout (s : State) : Int := (s.fld F.PAR_HB_HB_TIMEOUT * 250 * 65536 : Nat)

/-- Receive lanes that are up (R265): block lock, and a valid HB within HB_TIMEOUT. -/
def State.rxLanes (s : State) : List Nat := (List.range 8).filter fun l =>
  s.b.par.rxLock.contains l && s.b.par.rxHb.any fun e => e.1 == l && decide (s.b.pos.pt < e.2 + s.hbTimeout)

/-- The transmit lanes that are up (R265). -/
def State.txLanes (s : State) : List Nat := (List.range 8).filter fun l => s.b.par.txUp.testBit l

/-- The lane that carries a copy meant for lane `l`: the next one up in ascending order, modulo 8 (R268). -/
def State.txLane (s : State) (l : Nat) : Option Nat :=
  ((List.range 8).map fun i => (l + i) % 8).find? fun x => s.b.par.txUp.testBit x

/-- Send a message on every lane (R267); a down lane's copy goes out on the next one up (R268). -/
def pairSend (kind word : Nat) (data : List Nat) : Act := .dyn fun s =>
  on s.pairLive (each ((List.range 8).filterMap s.txLane) fun l => pairEmit l kind 0 word data)

/-- Send a SIG message of group `j` on its two lanes (R267, R268). -/
def pairSendSig (j word : Nat) (data : List Nat) : Act := .dyn fun s =>
  on s.pairLive (each ((s.txLane j).toList ++ (s.txLane ((j + 1) % 8)).toList) fun l => pairEmit l 2 j word data)

end Sys2Proof.Machine
end

