-- ==== Sys2Proof/Machine/PlateOps.lean ====
section
/-! DEFINITION. What the plate link sends: frames taken and queued, seals issued, and the injections that act on them
(R161, R162, R164 to R166, R172, R191, R192). -/

namespace Sys2Proof.Machine

/-- The stripe that the taps compute and the device writes. -/
def State.run (s : State) : Option Run := s.b.press.runs.head?

/-- The record of a shot of the stripe being written. -/
def State.shotRec (s : State) (k : Nat) : ShotRec := (s.b.sht.recs.find? fun x => x.shot == k).getD { shot := k }

/-- Change the record of a shot. -/
def putRec (k : Nat) (f : ShotRec → ShotRec) : Act := .dyn fun s =>
  if s.b.sht.recs.any fun x => x.shot == k then
    onSht fun b => { b with recs := b.recs.map fun x => if x.shot == k then f x else x }
  else onSht fun b => { b with recs := b.recs ++ [f { shot := k }] }

/-- The pending slot of a shot (R138). -/
def State.slot (s : State) (k : Nat) : Option Slot := s.b.cask.slots.find? fun x => x.shot == k

/-! ### Injections (R191) -/

/-- An injection on the plate link has been made (R191). -/
def plkFijDone : Act :=
  acts [setF F.PLK_FIJ_CFG_KIND 0, addR R.PLK_FIJ_DONE 1, addR R.FIJ_DONE 1, raise E.PLK_FIJ_DONE]

/-- Whether the armed injection counts a target of this kind (true: a seal) on a lane, and whether it acts on it. -/
def State.plkFij (s : State) (isSeal : Bool) (lane : Nat) : Bool × Bool :=
  let left := fijLeftOn s.b.plk.fijLeft lane
  let counted := s.injecting 0x90 && s.fld F.PLK_FIJ_CFG_KIND != 0 && s.flag F.PLK_FIJ_CFG_TARGET == isSeal && left.isSome
  (counted, counted && left == some 1)

/-- Count a target on a lane; after the last one the injection is made. -/
def plkFijCount (lane : Nat) (counted acting : Bool) : Act := .dyn fun s =>
  let rest := s.b.plk.fijLeft.filter fun e => e.1 != lane
  let left := (fijLeftOn s.b.plk.fijLeft lane).getD 1
  acts [on (counted && !acting) (onPlk fun p => { p with fijLeft := (lane, left - 1) :: rest }),
    on acting (onPlk fun p => { p with fijLeft := rest }), on (acting && rest.isEmpty) plkFijDone]

/-- Kind, first bit and bits of the configured injection. -/
def State.plkFijBits (s : State) : Nat × Nat × Nat :=
  (s.fld F.PLK_FIJ_CFG_KIND, s.fld F.PLK_FIJ_BITS_BIT, max 1 (s.fld F.PLK_FIJ_BITS_NBITS))

/-! ### Frames (R161, R162, R164, R192) -/

/-- A lane takes a frame: it is sent after those before it, a frame that SWAP holds directly after it (R191). -/
def queueFrame (f : TxFrame) : Act := .dyn fun s =>
  let i := s.plkFij false f.lane
  let kind := s.plkFijBits.1
  let held := s.b.plk.swapHeld.filter fun h => h.lane == f.lane
  let others := s.b.plk.swapHeld.filter fun h => h.lane != f.lane
  .seq (if i.2 && kind == 4 then onPlk fun p => { p with txq := p.txq ++ held, swapHeld := others ++ [f] }
    else onPlk fun p =>
      { p with
        txq := p.txq ++ [if i.2 then { f with inj := s.plkFijBits } else f] ++ held
        swapHeld := others })
    (plkFijCount f.lane i.1 i.2)

/-- The codes of a lane's payload, by beam within the lane. -/
def laneCodes (codes : List (Nat × Nat)) (lane : Nat) : List (Nat × Nat) :=
  (codes.filter fun e => e.1 / 8192 == lane).map fun e => (e.1 % 8192, e.2)

/-- COUNT of the next frame of lane 0. -/
def State.nextCount (s : State) : Nat := s.b.plk.counts.headD 0

/-- Advance every lane's COUNT by one; past its largest value VINTAGE moves on and COUNT restarts (R164). -/
def stepCounts : Act := .dyn fun s =>
  if s.nextCount = 0xFFFFFFFF then
    let v := (s.fld F.PLK_VINTAGE_CURRENT + 1) % 65536
    acts [setF F.PLK_VINTAGE_CURRENT v, setF F.PLK_VINTAGE_NEXT ((v + 1) % 65536),
      onPlk fun p => { p with before := p.counts, counts := p.counts.map fun _ => 0 }]
  else onPlk fun p => { p with before := p.counts, counts := p.counts.map fun c => c + 1 }

/-- The frame of a shot on a lane (R162). -/
def frameOf (s : State) (r : Run) (m : Nat) (hold : Bool) (lane : Nat) : TxFrame where
  lane := lane
  shot := m
  count := s.b.plk.counts.getD lane 0
  vintage := s.fld F.PLK_VINTAGE_CURRENT
  stripe := r.stripe.num
  hold := hold
  rexp := (s.shotRec m).rexp
  first := m == 0
  last := m + 1 == r.stripe.shots
  rev := r.stripe.rev
  depth := s.depth
  codes := if hold then [] else match s.slot m with | some x => laneCodes x.codes lane | none => []
  sig := if hold then 0 else match s.slot m with | some x => x.sigs.getD lane 0 | none => 0

/-- The plate link takes the frames of a shot, data or HOLD, on every lane (R137, R172); HOLD frames are built as they
are taken (R192). -/
def takeFrames (m : Nat) (hold : Bool) : Act := .dyn fun s =>
  match s.run with
  | some r =>
    acts [putRec m fun x =>
        { x with taken := true, hold := hold, count := s.nextCount, unsent := List.range 64 },
      on hold (bookIn .frame 64), each (List.range 64) fun n => queueFrame (frameOf s r m hold n), stepCounts,
      onSht fun b => { b with takeNext := m + 1 }]
  | none => .nop

/-- The job-start frames: HOLD frames with COUNT 0 and SHOT 0xFFFF_FFFF on every lane (R164). -/
def jobStartFrames (stripe : Nat) (rev : Bool) : Act := .dyn fun s =>
  let f := fun n : Nat => TxFrame.mk n 0xFFFFFFFF 0 (s.fld F.PLK_VINTAGE_CURRENT) stripe true false false false rev
    s.depth [] 0 (0, 0, 0)
  acts [bookIn .frame 64, each (List.range 64) fun n => queueFrame (f n), stepCounts]

/-- The 16 header bytes of a frame (R162). -/
def TxFrame.header (f : TxFrame) : List Nat :=
  let b := fun (x : Bool) (w : Nat) => if x then w else 0
  [0xA5, f.lane, f.depth * 64, b f.hold 128 + b f.rexp 64 + b f.first 32 + b f.last 16 + b f.rev 8] ++
    leBytes 2 f.stripe ++ leBytes 4 f.count ++ leBytes 2 f.vintage ++ leBytes 4 f.shot

/-- The payload bytes of a lane (R142). -/
def payloadBytes (depth : Nat) (codes : List (Nat × Nat)) : List Nat :=
  leBytes (1024 * codeBits depth) ((codes.map fun e => e.2 * 2 ^ (codeBits depth * e.1)).sum)

/-- Header and payload of a frame (R161). -/
def TxFrame.built (f : TxFrame) : List Nat := f.header ++ if f.hold then [] else payloadBytes f.depth f.codes

/-- Header and payload as they pass to the CRC-32 generator: a CORRUPT_PRE has flipped its bits (R191). -/
def TxFrame.body (f : TxFrame) : List Nat := if f.inj.1 = 2 then flipBits f.built f.inj.2.1 f.inj.2.2 else f.built

/-- A CORRUPT_PRE flips some bit of the frame's header or payload (R191). -/
def TxFrame.corrupted (f : TxFrame) : Bool := f.inj.1 == 2 && decide (f.inj.2.1 < 8 * f.built.length)

/-- The bytes of a frame on the wire: header, payload, the CRC-32 over both, little-endian, and four pad bytes (R161, R163); a
CORRUPT_POST flips its bits of them (R191). -/
def TxFrame.wire (f : TxFrame) : List Nat :=
  let b := f.body ++ leBytes 4 (crcOf crc32 f.body) ++ [0, 0, 0, 0]
  if f.inj.1 = 3 then flipBits b f.inj.2.1 f.inj.2.2 else b

/-! ### Seals (R165, R166, R172) -/

/-- The seal word (R165). -/
def sealWord (shot verdict count sig : Nat) : Nat :=
  shot % 2 ^ 32 * 2 ^ 32 + verdict * 2 ^ 28 + count % 4096 * 2 ^ 16 + sig % 65536

/-- The 14 bytes that SEAL_A and SEAL_B carry of a seal on a lane (R165, R191): the seal's eight bytes, the CRC-32 over them and the
lane byte, the lane byte, and a zero byte. -/
def sealBytes (lane word : Nat) : List Nat :=
  leBytes 8 word ++ leBytes 4 (crcOf crc32 (leBytes 8 word ++ [lane])) ++ [lane, 0]

/-- Send a seal on one lane, after the injection that counts it, if any (R191). -/
def emitSeal (lane word : Nat) : Act := .dyn fun s =>
  let i := s.plkFij true lane
  let k := s.plkFijBits
  .seq (on (!(i.2 && k.1 == 1)) (.emit (.seal lane word
      (if i.2 && k.1 == 3 then flipBits (sealBytes lane word) k.2.1 k.2.2 else sealBytes lane word))))
    (plkFijCount lane i.1 i.2)

/-- COUNT of a shot's frames: as taken, or the one that they will take (R165). -/
def State.shotCountOf (s : State) (k : Nat) : Nat :=
  let x := s.shotRec k
  if x.taken then x.count else s.nextCount + (k - s.b.sht.takeNext)

/-- Issue the seal of a shot on all lanes (R166), and count SOLE, WITHDRAW and DEFER seals (R276, R277, R292). -/
def issueSeal (k verdict : Nat) : Act := .dyn fun s =>
  let w := sealWord k verdict (s.shotCountOf k) (s.shotRec k).sig
  acts [setR R.PLK_SEAL_LO (w % 2 ^ 32), setR R.PLK_SEAL_HI (w / 2 ^ 32), each (List.range 64) fun n => emitSeal n w,
    putRec k fun x => { x with sealed := some (verdict, s.b.pos.pt) },
    on (verdict == 2) (addR R.PAR_SOLE_CNT 1), on (verdict == 8) (addR R.PAR_WD_CNT 1),
    on (verdict == 9) (acts [addR R.PAR_DEFER_CNT 1, onPar fun p => { p with defer := some k }, raise E.PAR_DEFER])]

/-- A withheld shot still lacks its HOLD seal. -/
def ShotRec.needsHold (x : ShotRec) : Bool := x.withheld.isSome && (x.sealed.map fun e => e.1) != some 10

/-- Issue HOLD seals from shot `m` on, each once its shot is withheld and the seal before it is issued (R172). -/
def holdSeals : Nat → Nat → Act
  | 0, _ => .nop
  | fuel + 1, m => .dyn fun s =>
    if (s.shotRec m).needsHold && (decide (m ≤ s.b.sht.first) || (s.shotRec (m - 1)).sealed.isSome) then
      .seq (issueSeal m 10) (holdSeals fuel (m + 1))
    else .nop

/-- Issue a shot's seal, and the HOLD seals that waited for it. -/
def sealShot (k verdict : Nat) : Act := .dyn fun s =>
  .seq (issueSeal k verdict) (holdSeals s.b.sht.recs.length (k + 1))

end Sys2Proof.Machine
end

