-- ==== Sys2Proof/Machine/ShotPath.lean ====
section
/-! DEFINITION. The shot path's shared rules: withholding (R52, R141, R172), racking triggers (R252, R255, R256, R279),
stops at a safe point (R19, R280), entry to FAULT (R23, R283), and the end of a job. -/

namespace Sys2Proof.Machine

/-- This device handles its errors as a SOLO device does: it is in no pair, or its mate is LOST (R274). -/
def State.solo (s : State) : Bool := !s.paired || s.b.par.mate == .lost

/-- A shot lies beyond a stop (R19). -/
def State.stoppedAt (s : State) (k : Nat) : Bool :=
  match s.b.sht.stopFrom with | some n => decide (n ≤ k) | none => false

/-- A shot is withheld in the pass under way. -/
def State.heldFrom (s : State) (k : Nat) : Bool := match s.b.sht.floor with | some n => decide (n ≤ k) | none => false

/-! ### Changes of role (R286, R290, R297, R299) -/

/-- The DEV_ID of the mate, from the partner table. -/
def State.mateId (s : State) : Nat := match s.partners 1 with | p :: _ => p.id | [] => 0

/-- The ROLE message that a device sends in a role (R286, R299): the ACTIVE device and the first SEQ that it launches,
the sender's role, and the cause, whose codes the manual does not give. -/
def rolePayload (s : State) : List Nat :=
  let who := match s.role with
    | .active => (s.devId, s.rd R.MOT_SP_SEQ + 1)
    | .solo => (s.devId, s.rd R.MOT_SP_SEQ + 1)
    | .standby => (s.mateId, s.b.par.mateSeq + 1)
    | _ => (0, 0)
  leBytes 8 who.1 ++ leBytes 4 who.2 ++ leBytes 2 s.role.code ++ leBytes 2 (Config.unstated 2 s.fresh)

/-- Tell the HOST and STAGE partners of a change of role, on both ports (R286, R297). -/
def sendRole : Act := .dyn fun s =>
  .seq (each (s.partners 0 ++ s.partners 2) fun p => .dyn fun t =>
    netSend [0, 1] p.id (t.session p.id) 0x21 0 0 (rolePayload s)) .draw

/-- Change the pair role, with ROLE_CHANGE and the ROLE message (R260, R286, R290). -/
def changeRole (r : Role) : Act := .dyn fun s =>
  on (s.role.edge r) (acts [.role r, raise E.PAR_ROLE_CHANGE, sendRole])

/-! ### Motion stops (R238) -/

/-- Start the stop of R238 on both axes from the first period not yet generated. -/
def stopMotion (phase : Phase) : Act := .dyn fun s =>
  let m := s.b.mot
  onMot fun b =>
    { b with
      y := m.y.start (planStop s.limits m.y.p m.y.v m.y.a) .stop
      x := m.x.start (planStop s.limits m.x.p m.x.v m.x.a) .stop
      phase := phase, thenY := none, thenX := none, rackPart := 0, replan := true }

/-! ### Dropping what the taps hold (R52, R141, R172) -/

/-- A slot's data frames have been built and not taken. -/
def State.builtNotTaken (s : State) (x : Slot) : Bool :=
  x.complete && !((s.shotRec x.shot).taken && !(s.shotRec x.shot).hold)

/-- The taps abort shot `k` and every later one: their slots are freed, and frames built and not taken are booked as
withheld. -/
def dropTaps (k : Nat) : Act := .dyn fun s =>
  let gone := s.b.cask.slots.filter fun x => decide (k ≤ x.shot)
  acts [each (gone.filter s.builtNotTaken) fun _ => bookOut .frame 64,
    onCask fun c =>
      { c with slots := c.slots.filter fun x => decide (x.shot < k), nextShot := min c.nextShot k }]

/-! ### The SHOT ledger (R227) -/

/-- A triggered shot is withheld: it stays held until it is resolved. -/
def noteUnresolved (k : Nat) : Act := onSht fun b => { b with unresolved := b.unresolved ++ [k] }

/-- Every withheld and unresolved trigger is booked abandoned-and-reported (R19, R23); the last DEFER shot's record
goes with it (R277). -/
def abandonShots : Act := .dyn fun s =>
  let n := s.b.sht.unresolved.length
  let gone := match s.b.par.defer with | some k => s.b.sht.unresolved.contains k | none => false
  acts [bookOut .shot n,
    onSht fun b => { b with resolved := b.resolved + n, abandoned := b.abandoned + n, unresolved := [] },
    on gone (onPar fun p => { p with defer := none })]

/-! ### Racking triggers (R252 to R256, R279) -/

/-- The device withdraws frames and racks: state, registers, and the first part of the racking profile (R253). -/
def startRacking (k cause : Nat) : Act := .dyn fun s =>
  let again := s.b.sht.rackN == some k
  let times := if again then s.b.sht.rackTimes + 1 else 1
  let stripe := match s.run with | some r => r.stripe.num | none => 0
  acts [enter .racking,
    onSht fun b => { b with rackN := some k, rackTimes := times, rackWait := none, reentered := none },
    setR R.MOT_RACK_INFO (cause * 2 ^ 28 + min times 15 * 2 ^ 24 + stripe % 65536), setR R.MOT_RACK_SHOT k,
    addR R.MOT_RACK_CNT 1, stopMotion .rack,
    onMot fun m =>
      { m with
        rackPart := 1, dwell := 0, stripe := stripe, reverseAt := none, arriveAt := none
        reentryOwn := none, reentryMate := none },
    raise E.MOT_RACK_START]

/-! ### Stops at a safe point (R19) -/

/-- The first shot that a stop of this device withholds: the first whose seal has not been issued, in a pair the first
whose SIG messages have not been sent, and never a later one than a racking withholds (R19, R280). -/
def State.firstUnsigned (s : State) : Nat :=
  let ns := s.b.sht.first
  let n := if s.solo then
      ((List.range (s.b.sht.recs.length + 1)).find? fun i =>
        match (s.shotRec (ns + i)).sealed with | some v => v.1 == 10 | none => true).getD 0 + ns
    else max ns s.b.par.sigNext
  match s.b.sht.floor with | some f => min n f | none => n

/-- The safe point of a stop: every shot below it has been strobed, so the device enters DRAINING (R18, R19). Until then it
stays in WRITING, since DRAINING drives no strobe (DEDUCED). -/
def safePoint : Act := .dyn fun s =>
  match s.b.sht.stopFrom with
  | some n => on (decide (n ≤ s.b.sht.first)) (.seq (onSht fun b => { b with active := false, armed := false }) (enter .draining))
  | none => .nop

/-- Withhold every shot from `from'` for good: their frames and lees are dropped, HOLD seals follow for those whose
frames were taken, and the triggered ones are abandoned (R19, R172). A stop in force is not put off by a later one. -/
def cutShots (from' : Nat) : Act := .dyn fun s =>
  let n := max (match s.b.sht.stopFrom with | some x => min x from' | none => from') s.b.sht.first
  let cut := s.b.sht.recs.filter fun x => decide (n ≤ x.shot) && (x.taken || x.triggered)
  acts [onSht fun b => { b with stopFrom := some n, floor := none, rackWait := none, reentered := none },
    dropTaps n,
    each cut fun x => acts [putRec x.shot fun y => { y with withheld := some 0, rexp := true },
      on (x.triggered && x.withheld.isNone) (noteUnresolved x.shot)],
    holdSeals (s.b.sht.recs.length + 1) n, abandonShots, safePoint]

/-- The STOP message's data: reason (0 a stop, 1 FAULT, 2 LATE_COMMAND) and the last SEQ launched (R267). -/
def stopData (s : State) (reason : Nat) : List Nat := [reason, 0, 0, 0] ++ leBytes 4 (s.rd R.MOT_SP_SEQ)

/-- Stop at a safe point from a shot (R19): WRITING and RACKING pass to DRAINING at the safe point, and the stage stops from
the first setpoint not yet launched (R248). A stop in ARMED, for which R19 gives no transition, waits for WRITING (DESIGN
CHOICE). -/
def stopSafeFrom (from' : Nat) : Act := .dyn fun s =>
  if s.dev = .armed then onJob fun j => { j with pendSafe := true }
  else if s.dev = .writing ∨ s.dev = .racking then
    acts [on s.b.sht.stopFrom.isNone (stopMotion .stop),
      onJob fun j => { j with stopEnd := false, pendSafe := false, turnWait := false }, cutShots from']
  else .nop

/-- A stop at a safe point that the device makes itself: in a pair a STOP message names the first shot (R280). -/
def stopSafe : Act := .dyn fun s =>
  if s.dev = .armed ∨ s.dev = .writing ∨ s.dev = .racking then
    .seq (on (!s.solo) (pairSend 7 s.firstUnsigned (stopData s 0))) (stopSafeFrom s.firstUnsigned)
  else .nop

/-- Every edge of a shot below `k` has come, so that no strobe is still to follow. -/
def State.edgesPast (s : State) (k : Nat) : Bool :=
  s.b.sht.frozen.all fun e => decide (e.1 < (s.b.sht.runStart : Int)) || decide ((k : Int) ≤ e.1)

/-- The racking of shot `k` begins, or is given up where it would be one too many (R255). -/
def rackGo (k cause : Nat) : Act := .dyn fun s =>
  if s.b.sht.rackN == some k && decide (max 1 (s.fld F.MOT_RACK_REPEAT) ≤ s.b.sht.rackTimes) then
    .seq stopSafe (raise E.MOT_RACK_ABANDON)
  else startRacking k cause

/-- A racking trigger that waits takes effect at the trigger of its shot (R279), once no earlier strobe is to come (R18). For a
SOLO device, whose moment the spec does not state, the model takes the pair's (DESIGN CHOICE). -/
def rackDue : Act := .dyn fun s =>
  match s.b.sht.rackWait with
  | some (k, cause) =>
    on ((s.dev == .writing || s.dev == .racking && s.b.mot.rackPart == 4) && (s.shotRec k).triggered && s.edgesPast k)
      (rackGo k cause)
  | none => .nop

/-- A racking trigger on shot `k` (R252, R255, R256, R279): in parts 1 to 3 of a racking it starts nothing; in part 4 up to the
re-entry it starts a new racking of the same shot N; otherwise the lowest shot named waits for its trigger. -/
def rackTrigger (k cause : Nat) : Act := .dyn fun s =>
  if s.dev = .racking ∧ s.b.sht.reentered.isNone = true then
    on (s.b.mot.rackPart == 4) (rackGo (s.b.sht.rackN.getD k) cause)
  else if s.dev = .armed ∨ s.dev = .writing ∨ s.dev = .racking then
    .seq (onSht fun b => { b with rackWait := match b.rackWait with
      | some w => if w.1 ≤ k then some w else some (k, cause)
      | none => some (k, cause) }) rackDue
  else .nop

/-! ### Withholding (R52, R141, R168, R172) -/

/-- Withhold shot `k`: its lees and those of every later shot are discarded, its HOLD seal follows, and with `rack` a
racking. Under a stop at a safe point the shot joins those that the stop withholds (R22); a shot that a racking withholds
already brings a trigger only (R256). -/
def withhold (k cause : Nat) (rack : Bool) : Act := .dyn fun s =>
  let late := on (cause == 1 || cause == 3) (.seq (addR R.PLK_LATE_CNT 1) (raise E.PLK_LATE))
  if s.run.isNone || decide (k < s.b.sht.first) || s.stoppedAt k then .nop
  else if s.heldFrom k then on rack (rackTrigger k cause)
  else if s.b.sht.stopFrom.isSome then .seq late (cutShots k)
  else
    let r := s.shotRec k
    acts [onSht fun b => { b with
        floor := some k
        rackN := if s.dev = .racking ∧ b.reentered.isNone = true then some k else b.rackN
        recs := b.recs.map fun x => if x.shot < k then x else
          { x with
            ownVote := none, mateVote := none, verdict := none, mateSigs := [], mateAlt := [], sigBad := []
            det := if s.solo then none else x.det } },
      putRec k fun x => { x with withheld := some cause, rexp := true },
      on (r.triggered && r.withheld.isNone) (noteUnresolved k), dropTaps k, late,
      holdSeals (s.b.sht.recs.length + 1) k, on rack (rackTrigger k cause)]

/-! ### FAULT (R23, R283) -/

/-- The causes of TOP_FAULT are numbered in R436; `page` and `detail` name the fault. Entry to FAULT from a state in
which shots are at stake: every unstrobed shot is withheld and abandoned, HOLD frames follow for the shots that the taps hold
and whose frames were not taken, HOLD seals for those taken or triggered, and a SOLO or ACTIVE device makes the stop of R238 (in a pair the mate is told, and the ACTIVE role passes to it). -/
def faultEntry (cause page detail : Nat) : Act := .dyn fun s =>
  let k := s.b.sht.first
  let held := (s.b.cask.slots.filter fun x => !((s.shotRec x.shot).taken && !(s.shotRec x.shot).hold)).map fun x => x.shot
  if s.inJob then
    acts [setR R.TOP_FAULT (cause * 2 ^ 24 + page % 256 * 2 ^ 16 + detail % 65536), enter .fault,
      on (!s.solo) (pairSend 7 k (stopData s 1)),
      each held fun m => takeFrames m true,
      cutShots k, onSht fun b => { b with frozen := [], active := false, armed := false },
      onJob fun j => { j with pendSafe := false, turnWait := false },
      if s.role == .active && !s.solo then changeRole .standby else stopMotion .stop]
  else .nop

/-! ### Errors in SRAMs (R347) -/

/-- The address of a cask word in its array: cask row, residue, word. -/
def caskWord (row k j : Nat) : Nat := row * 128 + k * 32 + j

/-- A corrected cask error (R147). -/
def caskCorrected (row k j : Nat) : Act :=
  acts [addR R.CSK_CE_CNT 1, setR R.CSK_ECC_LOC (row * 2 ^ 16 + k * 2 ^ 5 + j), raise E.CSK_CASK_CE,
    sramError 1 (caskWord row k j) false]

/-- An uncorrectable cask error is counted, located and reported (R148, R347). -/
def caskBad (row k j : Nat) : Act :=
  acts [addR R.CSK_UE_CNT 1, setR R.CSK_ECC_LOC (2 ^ 31 + row * 2 ^ 16 + k * 2 ^ 5 + j), raise E.CSK_CASK_UE,
    sramError 1 (caskWord row k j) true]

/-- An error in an SRAM whose failure is not another command's effect: any corrected one, an uncorrectable one in the
lattice, derived and class tables (array 8), and one of the cask (array 1) that a read of the lees window meets. -/
def sramNote (e : SramErr) : Act := .dyn fun s =>
  if e.ue then
    if e.array.val = 1 then caskBad (e.word.toNat / 128 % 8192) (e.word.toNat / 32 % 4) (e.word.toNat % 32)
    else on (e.array.val == 8) (acts [sramError 8 e.word.toNat true, setF F.LAT_STAT_CHK_STATE 0,
      on s.locked (faultEntry 7 0x14 0)])
  else if e.array.val = 1 then caskCorrected (e.word.toNat / 128 % 8192) (e.word.toNat / 32 % 4) (e.word.toNat % 32)
  else on (decide (2 ≤ e.array.val)) (sramError e.array.val e.word.toNat false)

end Sys2Proof.Machine
end

