-- ==== Sys2Proof/Machine/LatCmds.lean ====
section
/-! DEFINITION. Meanings of the LAT page's commands: windows, table access, parameters and the check (R29, R36 to R39,
R55 to R57, R130, R262). -/

namespace Sys2Proof.Machine

/-- CHK_STATE is RUNNING. -/
def State.checking (s : State) : Bool := s.fld F.LAT_STAT_CHK_STATE == 1

/-- A command of LAT_CMD (R56): refused while a check runs, and outside READY unless it is CLOSE. -/
def latCmd (cmd : Nat) (a : Act) : Act := toPage 0x31 (.dyn fun s =>
  if s.checking then errD R.LAT_CMD Err.refused cmd
  else if s.dev != .ready && cmd != 6 then .seq (errD R.LAT_CMD Err.refused cmd) (refuseState 0x31 cmd)
  else a)

/-- Open a window at index 0 (R56). -/
def openLat (window : Nat) : Act :=
  latCmd window (.seq (setF F.LAT_STAT_WINDOW window) (setF F.LAT_IDX_INDEX 0))

/-- OPEN_LATTICE (R56). -/
def execOpenLattice (s : State) : Host.Outcome State Fault Refusal := perform (openLat 1) s
/-- OPEN_GAIN (R56). -/
def execOpenGain (s : State) : Host.Outcome State Fault Refusal := perform (openLat 2) s
/-- OPEN_DERIVED (R56). -/
def execOpenDerived (s : State) : Host.Outcome State Fault Refusal := perform (openLat 3) s
/-- OPEN_CLASS (R56). -/
def execOpenClass (s : State) : Host.Outcome State Fault Refusal := perform (openLat 4) s
/-- OPEN_LEES (R56). -/
def execOpenLees (s : State) : Host.Outcome State Fault Refusal := perform (openLat 5) s

/-- CLOSE of LAT_CMD (R56). -/
def closeLat : Act := latCmd 6 (setF F.LAT_STAT_WINDOW 0)

/-- CLOSE (R56). -/
def execLatClose (s : State) : Host.Outcome State Fault Refusal := perform closeLat s

/-- CHECK of LAT_CMD (R36, R56): any open window closes, and the check runs; its outcome comes with CHECK_DONE. -/
def checkCmd : Act := latCmd 7 (.seq (setF F.LAT_STAT_WINDOW 0) (setF F.LAT_STAT_CHK_STATE 1))

/-- CHECK (R36, R56). -/
def execCheck (s : State) : Host.Outcome State Fault Refusal := perform checkCmd s

/-! ### The check (R36, R37, R57, R130, R461) -/

/-- What the check reads: nothing it reads can change while it runs (R38). -/
def State.latIn (s : State) : LatIn where
  lattice := s.b.lat.lattice
  gain := s.b.lat.gain
  s := s.fld F.LAT_STEP_STEP
  w := s.fld F.LAT_DSCALE_W
  depth := s.fld F.LAT_CFG_DEPTH

/-- Start computing the configuration digest (R262), for an arm request or for none (0). -/
def requestDigest (req : Nat) : Act := onPar fun p => { p with digestReq := some req }

/-- Re-check the envelopes of the whole queue (R235). -/
def checkEnvelopes : Act := .dyn fun s => each s.b.job.queue fun e => checkEnvelope e.stripe

/-- A check that refuses (R36, R57): CHK_STATE, RESULT and LAT_BAD alone. -/
def latRefused (x : LatBad) : Act :=
  acts [setF F.LAT_STAT_CHK_STATE 3, setF F.LAT_STAT_RESULT x.result,
    setR R.LAT_BAD (x.cls % 256 * 2 ^ 20 + x.index), raise E.LAT_CHECK_REFUSED]

/-- The window fit written to CSK_FIT and CSK_LEAD (R130, R154). -/
def latFit (t : LatIn) : Act :=
  let f := t.fit
  acts [setR R.CSK_FIT (2 ^ 31 + f.2.2 * 2 ^ 18 + f.2.1 * 2 ^ 8 + f.1),
    setR R.CSK_LEAD (t.hb % 256 * 2 ^ 16 + t.leadRows), on (f.1 != 0) (raise E.CSK_FIT_FAIL)]

/-- A check that passes (R37, R38, R57): the inputs are captured, the flags and counts written, the fit evaluated, the
envelopes checked again, and the digest computed. -/
def latPassed (t : LatIn) : Act :=
  let uneven := t.nvisMin != t.nvisMax
  let hotf := t.hot false
  let hotr := t.hot true
  acts [onLat fun l => { l with cap := some t },
    setF F.LAT_STAT_CHK_STATE 2, setF F.LAT_STAT_RESULT 0, setB F.LAT_STAT_UNEVEN uneven,
    setB F.LAT_STAT_QMISM (t.qmism != 0), setB F.LAT_STAT_CLOSE_HOT (hotf != 0 || hotr != 0),
    setR R.LAT_DYMAX t.dymax, setR R.LAT_NVIS (t.nvisMax * 2 ^ 8 + t.nvisMin), setR R.LAT_QMISM_CNT t.qmism,
    setR R.LAT_HOTF hotf, setR R.LAT_HOTR hotr, setR R.LAT_DEAD_CNT t.dead,
    raise E.LAT_CHECK_DONE, latFit t, checkEnvelopes, requestDigest 0]

/-- CHECK_DONE: the running check finishes (R57). -/
def execCheckDone (s : State) : Host.Outcome State Fault Refusal :=
  perform (.dyn fun s => on (s.checking && s.powered 1) (match s.latIn.check with | some x => latRefused x | none => latPassed s.latIn)) s

/-! ### LAT_DATA and the parameters (R29, R38, R55) -/

/-- The cask word of the lees window (R55): target in [11:4], lees in [3:0]. -/
def State.caskPixel (s : State) (i : Nat) : Nat := spGet (fun _ => 0) s.b.cask.cask i

/-- The word that a read of LAT_DATA gives (R55). -/
def State.latWord (s : State) (window i : Nat) : Nat :=
  let derived := fun (f : LatIn → Nat) => match s.b.lat.cap with | some t => f t | none => 0
  match window with
  | 1 => if i < 1024 then tableWord s.b.lat.lattice i else 0
  | 2 => if i < 524288 then tableWord s.b.lat.gain i else 0
  | 3 => if i < 524288 then derived fun t => t.derivedWord i else 0
  | 4 => if i < 256 then derived fun t => t.classWord i else 0
  | 5 => s.caskPixel i
  | _ => 0

/-- A table write sets CHK_STATE to UNCHECKED (R38). -/
def uncheck : Act := setF F.LAT_STAT_CHK_STATE 0

/-- LAT_IDX moves on after each access, whether or not its data take effect (R55; with no window open DEDUCED from "each"). -/
def latReadStep : Act := .dyn fun s => setF F.LAT_IDX_INDEX (s.fld F.LAT_IDX_INDEX + 1)

/-- A write of LAT_DATA (R29, R55, R56): to the lattice or gain window, within its entries; a closed window ignores it
with LOCKED (R424). -/
def latDataWrite (w : Word) : Act := .dyn fun s =>
  let i := s.fld F.LAT_IDX_INDEX
  let step := acts [latReadStep, onLat fun l => { l with lastData := w }]
  match s.fld F.LAT_STAT_WINDOW with
  | 0 => .seq (err R.LAT_DATA Err.locked) latReadStep
  | 1 => .seq (on (decide (i < 1024)) (.seq uncheck
      (onLat fun l => { l with lattice := spPut (fun _ => 0) l.lattice i (w &&& 0x03031FFF#32) }))) step
  | 2 => .seq (on (decide (i < 524288)) (.seq uncheck
      (onLat fun l => { l with gain := spPut (fun _ => 0) l.gain i (w &&& 0x0FFF0FFF#32), gainWritten := true }))) step
  | _ => step

/-- What LAT_DATA reads (R55). -/
def State.latData (s : State) : Nat := s.latWord (s.fld F.LAT_STAT_WINDOW) (s.fld F.LAT_IDX_INDEX)

/-- A read of the lees window meets an uncorrectable cask word (R347). -/
def State.leesBad (s : State) (sram : List SramErr) : Bool :=
  s.fld F.LAT_STAT_WINDOW == 5 && sram.any fun e => e.array.val == 1 && e.ue

/-- A read of LAT_DATA (R55): what it gives for an uncorrectable cask word the spec does not state, so it is a free value. -/
def latDataRead (sram : List SramErr) : Act := .dyn fun s =>
  .seq (if s.leesBad sram then .seq .draw (answerWord (Config.unstated 13 s.fresh % 2 ^ 32)) else answerWord s.latData) latReadStep

/-- LAT_DATA_ACCESS (R55): a write of the word, or a read. -/
def execLatDataAccess (data : Option Word) (sram : List SramErr) (s : State) : Host.Outcome State Fault Refusal :=
  perform (match data with
    | some w => toPage 0x31 (.seq (latDataWrite w) (each sram sramNote))
    | none => fromPage 0x31 (.seq (latDataRead sram) (each sram sramNote))) s

/-- The register of a lattice parameter. -/
def latParamReg : LatParam → Nat
  | .step => R.LAT_STEP
  | .dscale => R.LAT_DSCALE
  | .cfg => R.LAT_CFG

/-- A write to a lattice parameter (R11, R38): ignored with LOCKED while a check runs or while the register is locked;
otherwise CHK_STATE becomes UNCHECKED. -/
def latParamWrite (p : LatParam) (w : Word) : Act := .dyn fun s =>
  if s.checking || s.locked then err (latParamReg p) Err.locked else .seq (writeLocked (latParamReg p) w) uncheck

/-- LAT_PARAM_WRITE (R38). -/
def execLatParamWrite (p : LatParam) (w : Word) (s : State) : Host.Outcome State Fault Refusal :=
  perform (toPage 0x31 (latParamWrite p w)) s

end Sys2Proof.Machine
end

