-- ==== Sys2Proof/Machine/Rings.lean ====
section
/-! DEFINITION. Descriptors that have ended leave their ring in order, with their completion entries (R107, R108, R110 to
R112, R122). -/

namespace Sys2Proof.Machine

/-- A completion ring in use is full (R105, R108). -/
def State.cqFull (s : State) (cq : Nat) : Bool := s.flag (F.RNG_CFG_EN cq) && !s.ringRoom cq 1

/-- A submission ring waits for room in its completion ring (R108): one of its completions found none, or it holds descriptors and
the ring is full. -/
def State.ringStalled (s : State) (ring : Nat) : Bool :=
  s.b.dma.stalled.contains ring ||
    (decide (ring < 64) && s.flag (F.RNG_CFG_EN ring) && s.cqFull (s.fld (F.RNG_CFG_LINK ring)) && s.ringUsed ring != 0)

/-- A completion ring can take an entry: it is in use, has room, and owes none. -/
def State.cqRoom (s : State) (cq : Nat) : Bool :=
  s.flag (F.RNG_CFG_EN cq) && s.ringRoom cq 1 && !(s.b.dma.owed.any fun o => o.1 == cq)

/-- A completion entry (R111). -/
def completionEntry (tag status sring done dindex : Nat) : List Nat :=
  leBytes 2 tag ++ [status, sring % 64] ++ leBytes 4 done ++ leBytes 4 dindex ++ [0, 0, 0, 0]

/-- Write a completion entry (R107, R127). -/
def writeCompletion (cq : Nat) (bytes : List Nat) (irq : Bool) : Act :=
  .seq (ringWrite cq bytes) (on irq (raise (E.RNG_CQ (cq - 64))))

/-- The entry at the consumer index of a submission ring has been consumed (R106, R122). -/
def consumeEntry (r : Nat) : Act := .dyn fun s =>
  .seq (.index (2 * r + 1) ((s.ci r + 1) % 2 ^ 32)) (bookOut .ring 1)

/-- Descriptors of a ring that have ended complete in ring order, until one has not ended, or finds its completion ring
full (R108, R110). COMP asks for an entry; an error always has one (R109). -/
def flushRing (r : Nat) : Nat → Act
  | 0 => .nop
  | fuel + 1 => .dyn fun s =>
    match s.b.dma.inflight.find? fun f => f.ring == r with
    | some f => match f.ended with
      | some st =>
        let cq := s.fld (F.RNG_CFG_LINK r)
        let wants := f.desc.flags.toNat.testBit 0 || st != 0
        if s.b.dma.stalled.contains r then .nop
        else if wants && !s.cqRoom cq then
          .seq (onDma fun d => { d with stalled := d.stalled ++ [r] }) (raise E.DMA_CQ_STALL)
        else
          acts [on wants (writeCompletion cq (completionEntry f.desc.tag.toNat st r f.confirmed f.dindex)
              (f.desc.flags.toNat.testBit 2)),
            onDma fun d => { d with inflight := d.inflight.erase f }, consumeEntry r, flushRing r fuel]
      | none => .nop
    | none => .nop

/-- The rings that hold descriptors. -/
def State.busyRings (s : State) : List Nat := (s.b.dma.inflight.map fun f => f.ring).dedup

/-- Descriptors that have ended complete on every ring. -/
def flushRings : Act := .dyn fun s => each s.busyRings fun r => flushRing r (s.b.dma.inflight.length)

/-- End the descriptor that stands at an index of a ring: its unconfirmed bytes leave the CREDIT ledger, and a status other
than OK is reported (R112, R121, R127). A descriptor that waited for the audit has booked its bytes. -/
def endDesc (ring dindex status : Nat) : Act := .dyn fun s =>
  match s.b.dma.inflight.find? fun f => f.ring == ring && f.dindex == dindex with
  | some f =>
    if f.ended.isSome then .nop
    else
      acts [bookOut .creditDma (f.desc.len.toNat - f.confirmed), on (status != 0) (raise E.DMA_DESC_ERR),
        onDma fun d => { d with
          inflight := d.inflight.map fun g =>
            if g.ring == ring && g.dindex == dindex then { g with ended := some status, awaits := false } else g
          chans := d.chans.filter fun c => !(c.ring == ring && c.dindex == dindex) }]
  | none => .nop

end Sys2Proof.Machine
end

