-- ==== Sys2Proof/Machine/Cellar.lean ====
section
/-! DEFINITION. The cellar's bins, spill reservations and the ingest audit (R77 to R81, R116 to R121, R264). -/

namespace Sys2Proof.Machine

/-- A bin that is not FREE. -/
def State.bin (s : State) (n : Nat) : Option Bin := s.b.cel.bins.find? fun x => x.num == n

/-- Replace a bin's record. -/
def setBin (n : Nat) (f : Bin → Bin) : Act :=
  onCel fun c => { c with bins := c.bins.map fun x => if x.num == n then f x else x }

/-- Buffers of the pool (R116). -/
def State.poolUnits (s : State) : Nat := s.fld F.CEL_POOL_UNITS_UNITS

/-- Buffers reserved and not returned. -/
def State.unitsHeld (s : State) : List Nat := s.b.cel.bins.flatMap fun x => x.units

/-- CEL_POOL_FREE (R126). -/
def State.poolFree (s : State) : Nat := s.poolUnits - s.unitsHeld.length

/-- Take `n` buffers from the free ones; which one comes next is open. -/
def pickUnits (draw : Nat) : Nat → List Nat → List Nat
  | 0, _ => []
  | n + 1, free =>
    let u := free.getD (Config.pickUnit draw n % free.length) 0
    u :: pickUnits draw n (free.erase u)

/-- A spill link header (R77). -/
def linkHeader (stripe seq used next : Nat) : List Nat :=
  let b := leBytes 4 0x4B4E4C53 ++ leBytes 4 stripe ++ leBytes 4 seq ++ leBytes 4 used ++ leBytes 8 next ++ List.replicate 36 0
  b ++ leBytes 4 (crcOf crc32c b)

/-- Bytes as the cellar holds them. -/
def toBytes (l : List Nat) : List Byte := l.map fun x => BitVec.ofNat 8 x

/-- Grant a bin its reservation (R78): book it, and write the link headers (R77). When they are written the spec does not say: here
at the grant, with USED at its final value, and with every reserved buffer in the chain, one that no spill byte reaches too
(DESIGN CHOICE). -/
def grantUnits (n : Nat) : Act := .dyn fun s =>
  match s.bin n with
  | some x => match x.hdr with
    | some h =>
      let held := s.unitsHeld
      let units := pickUnits s.fresh h.units ((List.range s.poolUnits).filter fun u => !held.contains u)
      acts [.draw, setBin n fun y => { y with units := units },
        onCel fun c => { c with waits := c.waits.filter fun w => w != n },
        bookIn .creditCel units.length,
        each (List.range units.length) fun k =>
          storeRun 15 [] (s.poolBase + units.getD k 0 * 2 ^ 20) (toBytes (linkHeader x.stripe k
            (min spillUnitBytes (h.spillLen - k * spillUnitBytes))
            (if k + 1 < units.length then s.poolBase + units.getD (k + 1) 0 * 2 ^ 20 else 0)))]
    | none => .nop
  | none => .nop

/-- The cellar address of an image byte (R116). -/
def State.imageAddr (s : State) (x : Bin) (o : Nat) : Nat :=
  match x.hdr with
  | some h =>
    if o < h.spillOff then x.num * s.binBytes + o
    else
      let j := o - h.spillOff
      s.poolBase + x.units.getD (j / spillUnitBytes) 0 * 2 ^ 20 + 64 + j % spillUnitBytes
  | none => x.num * s.binBytes + o

/-- Image bytes from `o` that lie in one run of cellar addresses. -/
def runLength (x : Bin) (o : Nat) : Nat :=
  match x.hdr with
  | some h => if o < h.spillOff then h.spillOff - o else spillUnitBytes - (o - h.spillOff) % spillUnitBytes
  | none => 2 ^ 32

/-- Store image bytes at an offset, run by run. -/
def storeImage (source : Nat) (faults : List LineFault) (x : Bin) : Nat → Nat → List Byte → Act
  | 0, _, _ => .nop
  | fuel + 1, o, data =>
    if data.isEmpty then .nop
    else .dyn fun s =>
      .seq (storeRun source faults (s.imageAddr x o) (data.take (runLength x o)))
        (storeImage source faults x fuel (o + runLength x o) (data.drop (runLength x o)))

/-- A byte of a bin's image. -/
def State.imageByte (s : State) (faults : List LineFault) (x : Bin) (o : Nat) : Option Nat :=
  s.readByte faults (s.imageAddr x o)

/-- The contiguous confirmed prefix of an image (R118). -/
def confirmedPrefix (ps : List Piece) : Nat → Nat → Nat
  | 0, c => c
  | fuel + 1, c =>
    match ps.find? fun p => decide (p.off ≤ c) && decide (c < p.off + p.confirmed) with
    | some p => confirmedPrefix ps fuel (p.off + p.confirmed)
    | none => c

/-- Bytes of a bin's image that are confirmed. -/
def Bin.confirmed (x : Bin) : Nat := (x.pieces.map fun p => p.confirmed).sum

/-- Whether every byte below `n` lies in some piece. -/
def piecesCover (ps : List Piece) : Nat → Nat → Nat → Bool
  | 0, c, n => decide (n ≤ c)
  | fuel + 1, c, n =>
    if n ≤ c then true
    else match ps.find? fun p => decide (p.off ≤ c) && decide (c < p.off + p.len) with
      | some p => piecesCover ps fuel (p.off + p.len) n
      | none => false

/-- A piece reaches beyond the image, or carries LAST and does not end where the image does (R118). -/
def Piece.overruns (p : Piece) (imageLen : Nat) : Bool :=
  decide (imageLen < p.off + p.len) || (p.last && decide (p.off + p.len ≠ imageLen))

/-- The check that the LAST piece brings is due (R118): its bytes within the image are confirmed, and every piece taken before it
has ended. -/
def lastDue (x : Bin) (imageLen : Nat) : Bool :=
  let i := x.pieces.findIdx fun p => p.last
  match x.pieces[i]? with
  | some l => decide (min l.len (imageLen - l.off) ≤ l.confirmed) && (x.pieces.take i).all fun p => p.ended
  | none => false

/-- No piece up to the LAST one was to carry some byte of the image (R118). -/
def gapFound (x : Bin) (imageLen : Nat) : Bool :=
  let i := x.pieces.findIdx fun p => p.last
  !piecesCover (x.pieces.take (i + 1)) (x.pieces.length + 1) 0 imageLen

/-- DELIVERY at the end of the image (R79, R118): once the confirmed bytes cover it, or the LAST piece's check is due. That an overlap
is detected there, and not as the piece is taken, is read from R79's table (DEDUCED). -/
def deliveryBad (x : Bin) (imageLen confirmed : Nat) : Bool :=
  (decide (imageLen ≤ confirmed) && x.overrun) || (lastDue x imageLen && (x.overrun || gapFound x imageLen))

/-- End the descriptors of a filling that have not ended, with a status (R112, R118, R119): held, moving, or waiting for the
audit. -/
def endHeld (gen status : Nat) : Act := .dyn fun s =>
  let mine := s.b.dma.inflight.filter fun f => f.gen == gen && f.desc.op.toNat % 16 == 1 && f.ended.isNone
  .seq (each mine fun f => endDesc f.ring f.dindex status) flushRings

/-- Free a bin: its buffers return to the pool (R78, R117). -/
def freeBin (n : Nat) : Act := .dyn fun s =>
  match s.bin n with
  | some x => acts [bookOut .creditCel x.units.length,
      onCel fun c => { c with bins := c.bins.filter fun y => y.num != n, waits := c.waits.filter fun w => w != n }]
  | none => .nop

/-- Book the blocks of a stripe as discarded with a refused stripe (R81); nothing before its header has passed. -/
def discardBlocks (x : Bin) : Act :=
  match x.hdr with | some h => bookOut .tile (h.nb - 8 * x.booked.length) | none => .nop

/-- Mark the queue's entry of a bin as MISSING (R80). -/
def markMissing (stripe : Nat) : Act :=
  onJob fun j => { j with queue := j.queue.map fun e => if e.stripe == stripe then { e with missing := true } else e }

/-- Refuse the stripe of a bin with a code of R79 (R80, R81). -/
def refuseStripe (n code : Nat) : Act := .dyn fun s =>
  match s.bin n with
  | some x => acts [discardBlocks x, freeBin n, markMissing x.stripe, setF F.PRS_REFUSE_CODE code,
      setR R.PRS_REFUSE_STRIPE x.stripe, addR R.PRS_CNT_REFUSED 1, raise E.PRS_REFUSED, endHeld x.gen 5]
  | none => .nop

/-- Refuse a stripe for unequal digests (R264). -/
def refuseDigest (n : Nat) : Act := .dyn fun s =>
  match s.bin n with
  | some x => acts [discardBlocks x, freeBin n, markMissing x.stripe, setR R.PAR_SDIG_STRIPE x.stripe, raise E.PAR_STRIPE_DIGEST]
  | none => .nop

/-- Once both digests of a stripe are held in a pair, unequal ones refuse it (R264). -/
def compareSdig (n : Nat) : Act := .dyn fun s =>
  match s.bin n with
  | some x => match x.sdig, x.mateSdig with
    | some a, some b => on (a != b) (refuseDigest n)
    | _, _ => .nop
  | none => .nop

/-- A stripe is ready: BIN_READY, and in a pair its digest is sent (R117, R264). -/
def binReady (n : Nat) : Act := .dyn fun s =>
  match s.bin n with
  | some x =>
    let hdr := (List.range 256).map fun i => (s.imageByte [] x i).getD 0
    let desc := match s.entryOf n with | some e => e.bytes | none => []
    let dig := crcOf crc64 (desc ++ hdr)
    let early := (s.b.cel.earlySdig.find? fun e => e.1 == x.stripe).map fun e => e.2
    acts [setBin n fun y => { y with state := .ready, sdig := some dig, mateSdig := early },
      onCel fun c => { c with earlySdig := c.earlySdig.filter fun e => e.1 != x.stripe },
      onJob fun j => { j with queue := j.queue.map fun e => if e.stripe == x.stripe then { e with missing := false } else e },
      raise E.CEL_BIN_READY, endHeld x.gen 0,
      on s.pairLive (pairSend 9 x.stripe (leBytes 8 dig ++ List.replicate 8 0)),
      on s.paired (compareSdig n)]
  | none => .nop

/-- The audit on the header (R79, R80, R81, R120, R235): codes 0x1 to 0x4 book nothing; a passing header books its
blocks and reserves its buffers, or waits for them. -/
def auditHeader (n : Nat) (faults : List LineFault) : Act := .dyn fun s =>
  match s.bin n with
  | some x =>
    .seq (each ((List.range 4).map fun i => lineAddr (s.imageAddr x (64 * i))) (lineNote 3 faults))
    (match (List.range 256).mapM fun i => s.imageByte faults x i with
    | none => refuseStripe n 8
    | some bytes =>
      let h := parseHdr bytes
      let code := headerCode bytes x.stripe s.binBytes s.poolUnits
      let long := x.pieces.any fun p => p.overruns h.imageLen
      if 1 ≤ code ∧ code ≤ 4 then refuseStripe n code
      else
        acts [setBin n fun y => { y with hdr := some h, audited := 256, overrun := y.overrun || long }, bookIn .tile h.nb,
          checkEnvelope x.stripe,
          if code = 6 then refuseStripe n 6
          else if s.b.cel.waits.isEmpty ∧ h.units ≤ s.poolFree then grantUnits n
          else acts [onCel fun c => { c with waits := c.waits ++ [n] }, raise E.CEL_POOL_WAIT]])
  | none => .nop

/-- The audit on the bytes past the header (R79, R118): an unreadable line or a gap is DELIVERY; a complete image with no
condition found is ready. -/
def auditBody (n : Nat) (faults : List LineFault) : Act := .dyn fun s =>
  match s.bin n with
  | some x => match x.hdr with
    | some h =>
      let c := confirmedPrefix x.pieces (x.pieces.length + 1) 0
      let lines := ((List.range (min c h.imageLen - x.audited)).map fun i => lineAddr (s.imageAddr x (x.audited + i))).dedup
      let code := bodyCode (s.imageByte faults x) h c
      let bad := lines.any fun la => !(s.readLine faults la).ok
      if s.b.cel.waits.contains n then .nop
      else
        acts [each lines (lineNote 3 faults), setBin n fun y => { y with audited := max y.audited (min c h.imageLen) },
          if code ≠ 0 then refuseStripe n code
          else if bad ∨ deliveryBad x h.imageLen c then refuseStripe n 8
          else if h.imageLen ≤ c then binReady n
          else .nop]
    | none => .nop
  | none => .nop

/-- The audit after bytes of a FILLING bin have been confirmed (R79, R118). -/
def audit (n : Nat) (faults : List LineFault) : Act := .dyn fun s =>
  match s.bin n with
  | some x =>
    if x.state = .filling then
      .seq (on (x.hdr.isNone && decide (256 ≤ confirmedPrefix x.pieces (x.pieces.length + 1) 0)) (auditHeader n faults))
        (auditBody n faults)
    else .nop
  | none => .nop

/-! ### The layout (R116) -/

/-- A write to CEL_BIN_CFG or CEL_POOL_UNITS (R116). -/
def celLayoutWrite (pool : Bool) (w : Word) : Act := .dyn fun s =>
  let reg := if pool then R.CEL_POOL_UNITS else R.CEL_BIN_CFG
  let bins := if pool then s.fld F.CEL_BIN_CFG_NBINS * s.fld F.CEL_BIN_CFG_BIN_MIB
    else F.CEL_BIN_CFG_NBINS.get w.toNat * F.CEL_BIN_CFG_BIN_MIB.get w.toNat
  let units := if pool then F.CEL_POOL_UNITS_UNITS.get w.toNat else s.poolUnits
  if s.dev != .ready || !s.b.cel.bins.isEmpty then err reg Err.locked
  else if s.fld F.CEL_CAPACITY_MIB < bins + units then err reg Err.range
  else writeLocked reg w

/-- CEL_LAYOUT_WRITE (R116). -/
def execCelLayoutWrite (pool : Bool) (w : Word) (s : State) : Host.Outcome State Fault Refusal :=
  perform (toPage 0x15 (celLayoutWrite pool w)) s

end Sys2Proof.Machine
end

