-- ==== Sys2Proof/Machine/Press.lean ====
section
/-! DEFINITION. The window of the cask as it moves (R129, R132, R133), and the meanings of the press's commands (R84 to
R93, R96, R117). -/

namespace Sys2Proof.Machine

/-! ### Rows that a shot reads (R34, R132, R136) -/

/-- The furthest row, in scan order, that shot `m` of a stripe reads; negative where it reads none. -/
def farRow (t : LatIn) (r : Run) (m : Nat) : Int :=
  min (if r.stripe.rev then (m * t.s : Nat) else ((m * t.s : Nat) : Int) - t.dymin) ((r.stripe.len : Int) - 1)

/-- The earliest row, in scan order, that shot `m` of a stripe reads. -/
def earlyRow (t : LatIn) (r : Run) (m : Nat) : Int :=
  max 0 (((m * t.s : Nat) : Int) - t.dymax + (if r.stripe.rev then (t.dymin : Int) else 0))

/-- Rows of a stripe that have been released. -/
def Run.rows (r : Run) : Nat := 16 * r.released

/-- Block rows of a stripe. -/
def Run.blockRows (r : Run) : Nat := r.stripe.len / 16

/-- Every row that shot `m` reads has been released (R136). -/
def rowsReady (t : LatIn) (r : Run) (m : Nat) : Bool := decide (farRow t r m < r.rows)

/-- PRS_FILL (R87): released rows ahead of the furthest row that the next shot to be computed reads; rows of later
stripes lie ahead of it too. -/
def State.fill (s : State) : Nat :=
  match s.b.press.runs with
  | r :: later =>
    let far := match s.b.lat.cap with | some t => farRow t r s.b.cask.nextShot | none => -1
    min (((r.rows : Int) - (far + 1)).toNat + (later.map Run.rows).sum) 0x3FFF
  | [] => 0

/-- FILL_LOW (R87): once below the low mark, re-armed above the high mark. -/
def checkFill : Act := .dyn fun s =>
  if s.fill < 16 * s.fld F.PRS_MARKS_LOW then
    on (s.b.press.fillArmed && !s.b.press.runs.isEmpty)
      (.seq (onPress fun p => { p with fillArmed := false }) (raise E.PRS_FILL_LOW))
  else on (decide (16 * s.fld F.PRS_MARKS_HIGH < s.fill)) (onPress fun p => { p with fillArmed := true })

/-- m_o of R132 within its stripe: the shot of the oldest draining slot, else the oldest shot that no slot drains. -/
def State.oldestOpen (s : State) : Nat := match s.b.cask.draining with | x :: _ => x.shot | [] => s.b.cask.oldest

/-- The window row of the earliest row that the oldest open shot reads (R132). -/
def State.oldestRow (s : State) : Nat :=
  match s.b.cask.draining, s.run, s.b.lat.cap with
  | x :: _, _, _ => x.row
  | [], some r, some t => r.stripe.base + (earlyRow t r s.b.cask.oldest).toNat
  | [], _, _ => s.b.press.nextBase

/-- Move the discard pointer to the band of the earliest row that the oldest open shot reads (R132). -/
def moveDiscard : Act := .dyn fun s => onCask fun c => { c with discard := s.oldestRow }

/-- A window row lies in a band that the press may write (R133). -/
def State.bandFree (s : State) (row : Nat) : Bool := decide (row / 64 < s.b.cask.discard / 64 + 128)

/-- The last released row of a stripe, as the cask keeps it. -/
def noteHead (num : Nat) : Act := .dyn fun s =>
  match s.b.press.runs.find? fun r => r.stripe.num == num with
  | some r => on (r.released != 0) (onCask fun c => { c with head := some (max (c.head.getD 0) (r.stripe.base + r.rows - 1)) })
  | none => .nop

/-- Held bands (R132). -/
def State.heldBands (s : State) : Nat :=
  match s.b.cask.head with | some h => h / 64 + 1 - s.b.cask.discard / 64 | none => 0

/-! ### Starting a stripe (R88, R117, R129) -/

/-- The press works: a job is on and no disarm stops it (R20), and its page is neither disabled nor frozen (R423). -/
def State.pressing (s : State) : Bool :=
  s.locked && !s.b.job.disarming && s.pageWorks 0x18

/-- The next stripe that the press may start: ready, not marked, and in a pair with equal digests (R80, R235, R264). -/
def State.nextStripe (s : State) : Option (JobEntry × Bin × StripeHdr) :=
  match s.b.job.queue.find? fun e => !s.b.press.runs.any fun r => r.stripe.num == e.stripe with
  | some e =>
    match s.b.cel.bins.find? fun x => x.num == e.bin && x.stripe == e.stripe && x.state == .ready with
    | some x => match x.hdr with
      | some h => if e.outOfTravel || e.missing || (!s.solo && (x.mateSdig.isNone || x.mateSdig != x.sdig)) then none
        else some (e, x, h)
      | none => none
    | none => none
  | none => none

/-- Whether the press starts a further stripe: no stop at stripe end waits, and the last stripe is wholly dispatched. -/
def State.mayStart (s : State) : Bool :=
  match s.b.press.runs.getLast? with
  | some r => decide (r.dispatched = 16 * r.blockRows) && !s.b.job.stopEnd && !r.stripe.last
  | none => true

/-- Block row `i` in scan order (R84). -/
def Run.blockRow (r : Run) (i : Nat) : Nat := if r.stripe.rev then r.blockRows - 1 - i else i

/-- PRESS_STRIPE_START (R88, R117, R129). -/
def execPressStripeStart (s : State) : Host.Outcome State Fault Refusal :=
  perform (.dyn fun s =>
    match s.nextStripe, s.b.lat.cap with
    | some (e, _, h), some t =>
      let base := s.b.press.nextBase
      if s.pressing && s.mayStart && (s.b.press.runs.isEmpty || s.bandFree base) then
        let st : Stripe := ⟨e.stripe, e.bin, e.rev, e.last, h.len, e.y0, e.x, base, shotCount h.len t.dymax t.s⟩
        let r : Run := { stripe := st, hdr := h }
        acts [setBin e.bin fun x => { x with state := .current },
          onPress fun p => { p with runs := p.runs ++ [r], nextBase := ((base + h.len - 1) / 64 + 1) * 64 }, moveDiscard,
          each (List.range 16) fun i => setF (F.PE_STAT_STRIPE_FAILS i) 0,
          setR R.PRS_CUR_STRIPE e.stripe, setR R.PRS_CUR_ROW (r.blockRow 0), setR R.CSK_BASE (base % 8192)]
      else .nop
    | _, _ => .nop) s

/-! ### Dispatch (R84, R87, R90) -/

/-- An engine can take a cluster: enabled, not frozen, not retired, not under test, idle (R84). -/
def State.engineIdle (s : State) (e : Nat) : Bool :=
  let c := s.rd (pageReg (0x20 + e) 0x008)
  c.testBit 0 && !c.testBit 2 && !s.flag (F.PE_STAT_RETIRED e) && !s.flag (F.PE_STAT_BIST e) &&
    !s.b.press.runs.any fun r => r.busy.any fun c => c.engine == e

/-- The cluster in place `i` of the scan order (R84). -/
def Run.cluster (r : Run) (i : Nat) : Nat := 16 * r.blockRow (i / 16) + i % 16

/-- The retry that goes next, with its engine: another one than before where one is idle (R90). -/
def State.nextRetry (s : State) : Option (Nat × Cluster × Nat) :=
  let idle := (List.range 16).filter s.engineIdle
  (s.b.press.runs.flatMap fun r => r.retry.map fun c => (r.stripe.num, c)).findSome? fun p =>
    match idle.find? fun e => e != p.2.engine with
    | some e => some (p.1, p.2, e)
    | none => if idle.contains p.2.engine then some (p.1, p.2, p.2.engine) else none

/-- The next cluster in scan order whose band is free, with its stripe. -/
def State.nextCluster (s : State) : Option (Nat × Nat) :=
  match s.b.press.runs.find? fun r => decide (r.dispatched < 16 * r.blockRows) with
  | some r => if s.bandFree (r.stripe.base + 16 * (r.dispatched / 16)) then some (r.stripe.num, r.cluster r.dispatched) else none
  | none => none

/-- Change one stripe of the press. -/
def setRun (num : Nat) (f : Run → Run) : Act :=
  onPress fun p => { p with runs := p.runs.map fun r => if r.stripe.num == num then f r else r }

/-- The cellar lines that a cluster's decoding reads: its slots, its escaped records, its saffron word, and the dynamic table
where a block calls for it. -/
def State.clusterLines (s : State) (x : Bin) (h : StripeHdr) (q : Nat) : List Nat :=
  let rd := s.imageByte [] x
  let slots := (clusterBlocks q).flatMap fun m => (List.range (slotBytes h.ratio)).map fun i => h.p0 + m * slotBytes h.ratio + i
  let recs := (clusterBlocks q).flatMap fun m =>
    match slotOf rd h m with
    | some sl => if isEscape sl && escapeOk h (escapeOffset sl) then
        match recordBytes rd h (escapeOffset sl) with
        | some b => (List.range b.length).map fun i => h.spillOff + escapeOffset sl + i
        | none => (List.range 4).map fun i => h.spillOff + escapeOffset sl + i
      else []
    | none => []
  let word := (List.range 4).map fun i => h.saffronOff + 4 * q + i
  let read := (clusterBlocks q).filterMap fun m => (slotOf rd h m).map fun sl => (m, sl)
  let table := if usesTable rd h read then (List.range 256).map (256 + ·) else []
  ((slots ++ recs ++ word ++ table).map fun o => lineAddr (s.imageAddr x o)).dedup

/-- Put a cluster on an engine: its cellar lines are read, and a line that does not read poisons it (R89, R338). -/
def dispatchCluster (num q engine attempt : Nat) (faults : List LineFault) : Act := .dyn fun s =>
  match s.b.press.runs.find? fun r => r.stripe.num == num with
  | some r =>
    match s.bin r.stripe.bin with
    | some x =>
      let lines := s.clusterLines x r.hdr q
      let bad := lines.any fun la => !(s.readLine faults la).ok
      acts [each lines (lineNote 4 faults), setRun num fun r => { r with busy := r.busy ++ [⟨q, engine, attempt, bad⟩] },
        setB (F.PE_STAT_BUSY engine) true, setR (R.PE_LAST engine) q]
    | none => .nop
  | none => .nop

/-- PRESS_DISPATCH (R84, R90): a waiting retry first, else the next cluster in scan order. PRS_CUR_ROW is the block row to dispatch
next (R94); once the last one of a stripe is dispatched it stays there until the next stripe starts (DESIGN CHOICE). -/
def execPressDispatch (faults : List LineFault) (s : State) : Host.Outcome State Fault Refusal :=
  perform (.dyn fun s =>
    if !s.pressing then .nop
    else match s.nextRetry with
    | some (num, c, e) =>
      .seq (setRun num fun r => { r with retry := r.retry.filter fun d => d.q != c.q })
        (dispatchCluster num c.q e c.attempt faults)
    | none =>
      match s.nextCluster, (List.range 16).find? s.engineIdle with
      | some (num, q), some e =>
        acts [setRun num fun r => { r with dispatched := r.dispatched + 1 }, dispatchCluster num q e 0 faults,
          .dyn fun s' => match s'.b.press.runs.find? fun r => r.stripe.num == num with
            | some r => setR R.PRS_CUR_ROW (r.blockRow (min (r.dispatched / 16) (r.blockRows - 1)))
            | none => .nop]
      | _, _ => .nop) s

/-! ### The end of a cluster (R86, R89 to R93) -/

/-- The stripe and cluster on an engine. -/
def State.onEngine (s : State) (e : Nat) : Option (Run × Cluster) :=
  s.b.press.runs.findSome? fun r => (r.busy.find? fun c => c.engine == e).map fun c => (r, c)

/-- How decoding the cluster on an engine ends (R89). -/
def State.decodeOn (s : State) (r : Run) (c : Cluster) : ClusterResult :=
  if c.poisoned then .poison
  else match s.bin r.stripe.bin with
    | some x => decodeCluster (s.imageByte [] x) r.hdr c.q
    | none => .poison

/-- The place in scan order of the block row of a cluster. -/
def Run.place (r : Run) (q : Nat) : Nat := if r.stripe.rev then r.blockRows - 1 - q / 16 else q / 16

/-- Release block rows in scan order while all 16 clusters of the next have passed (R86). -/
def releaseRows : Nat → Run → Run
  | 0, r => r
  | fuel + 1, r =>
    let row := r.blockRow r.released
    if decide (r.released < r.blockRows) && (List.range 16).all fun cx => r.passed.contains (16 * row + cx) then
      releaseRows fuel { r with released := r.released + 1, passed := r.passed.filter fun q => q / 16 != row }
    else r

/-- Cask pixel index of pixel (x, y) of a stripe (R129). -/
def Run.pixel (r : Run) (x y : Nat) : Nat := 2048 * ((r.stripe.base + scanRow r.stripe.rev r.stripe.len y) % 8192) + x

/-- Write a cluster's targets to the cask with zero lees (R44), or with a given lees code where `lees` names one. -/
def storeCluster (r : Run) (q : Nat) (px : List Nat) : Act :=
  onCask fun c =>
    { c with
      cask := (List.range 2048).foldl (fun t i =>
        let x := 128 * (q % 16) + 16 * (i / 256) + i % 16
        let y := 16 * (q / 16) + i % 256 / 16
        spPut (fun _ => 0) t (r.pixel x y) (16 * px.getD i 0)) c.cask }

/-- Take a cluster off its engine. -/
def freeEngine (num e : Nat) : Act :=
  .seq (setRun num fun r => { r with busy := r.busy.filter fun c => c.engine != e }) (setB (F.PE_STAT_BUSY e) false)

/-- Book a cluster's 8 blocks out of the TILE ledger, once (R81). -/
def bookCluster (bin q : Nat) : Act := .dyn fun s =>
  match s.bin bin with
  | some x =>
    on (!x.booked.contains q) (.seq (bookOut .tile 8) (setBin bin fun y => { y with booked := q :: y.booked }))
  | none => .nop

/-- CLUSTER_PASS (R86): the cluster's pixels enter the cask, its blocks are booked pressed, and rows are released in
order; a cluster whose image does not decode does not pass. -/
def execClusterPass (engine : Fin 16) (s : State) : Host.Outcome State Fault Refusal :=
  perform (.dyn fun s =>
    match s.onEngine engine with
    | some (r, c) =>
      match s.decodeOn r c with
      | .pass px =>
        acts [storeCluster r c.q px, freeEngine r.stripe.num engine, addR (R.PE_CLUSTERS engine) 1,
          on (c.attempt != 0) (addR R.PRS_CNT_RETRY_OK 1), bookCluster r.stripe.bin c.q,
          setRun r.stripe.num fun r => releaseRows (r.blockRows + 1) { r with passed := c.q :: r.passed },
          noteHead r.stripe.num, checkFill]
      | _ => .nop
    | none => .nop) s

/-- An error record (R93): written to its ring, or dropped and counted. -/
def pressRecord (stripe q kind detail attempt engine computed : Nat) : Act := .dyn fun s =>
  let bytes := leBytes 4 stripe ++ leBytes 4 q ++ [kind * 16 + detail, min attempt 15 * 16 + engine] ++ leBytes 4 computed ++ [0, 0]
  let lost := addR R.PRS_ERR_LOST 1
  if s.flag F.PRS_ERR_RING_EN then recordTo (s.fld F.PRS_ERR_RING_RING) bytes lost else lost

/-- An engine is retired (R92): every retirement writes a record of KIND 5 (R93). Its DETAIL is 0 and its CLUSTER and ATTEMPT are
those of the failure that brought it, which R93 does not say (DESIGN CHOICE). -/
def engineRetired (e stripe q attempt : Nat) : Act :=
  acts [setB (F.PE_STAT_RETIRED e) true, raise E.PRS_RETIRED, pressRecord stripe q 5 0 attempt e 0]

/-- Count a failure against its engine within the cluster's stripe, and retire the engine at RETIRE_N (R92). PE_STAT shows the
count of the stripe that the press started last. -/
def engineFailed (r : Run) (c : Cluster) : Act := .dyn fun s =>
  let n := spGet (fun _ => 0) r.fails c.engine + 1
  let limit := s.fld F.PRS_CFG_RETIRE_N
  let newest := match s.b.press.runs.getLast? with | some x => x.stripe.num == r.stripe.num | none => false
  acts [addR (R.PE_FAILS c.engine) 1, setRun r.stripe.num fun x => { x with fails := spPut (fun _ => 0) x.fails c.engine n },
    on newest (setF (F.PE_STAT_STRIPE_FAILS c.engine) (min n 15)),
    on (decide (1 ≤ limit ∧ limit ≤ n) && !s.flag (F.PE_STAT_RETIRED c.engine))
      (engineRetired c.engine r.stripe.num c.q c.attempt)]

/-- A cluster fails (R89 to R93). The LOST record's DETAIL is 0: R93 takes DETAIL from R89, which gives LOST no code (DESIGN
CHOICE). -/
def clusterFailed (r : Run) (c : Cluster) (kind detail computed : Nat) : Act := .dyn fun s =>
  acts [freeEngine r.stripe.num c.engine,
    addR (if kind = 1 then R.PRS_CNT_SAFFRON else if kind = 2 then R.PRS_CNT_POISON else R.PRS_CNT_DECODE) 1,
    raise (if kind = 1 then E.PRS_SAFFRON else if kind = 2 then E.PRS_POISON else E.PRS_DECODE),
    pressRecord r.stripe.num c.q kind detail c.attempt c.engine computed, engineFailed r c,
    if c.attempt < s.fld F.PRS_CFG_RETRY then
      setRun r.stripe.num fun r => { r with retry := r.retry ++ [{ c with attempt := c.attempt + 1, poisoned := false }] }
    else
      acts [bookCluster r.stripe.bin c.q, setRun r.stripe.num fun r => { r with lost := c.q :: r.lost },
        addR R.PRS_CNT_LOST 1, pressRecord r.stripe.num c.q 4 0 c.attempt c.engine 0, raise E.PRS_LOST,
        on s.solo stopSafe]]

/-- The fault with which the cluster on an engine fails: kind, detail and computed word of R93; none where it passes. A line or
an engine SRAM (R347) that reads as poison is met first, whatever else is wrong with the cluster (R89). -/
def ClusterResult.failure (res : ClusterResult) (fault : EngineFault) : Option (Nat × Nat × Nat) :=
  match res, fault with
  | .poison, _ => some (2, 0, 0)
  | _, .poison => some (2, 0, 0)
  | _, .sram _ => some (2, 0, 0)
  | .decode d, _ => some (3, d, 0)
  | _, .decode d => some (3, d.val, 0)
  | .saffron w, _ => some (1, 0, w)
  | .pass _, .saffron w => some (1, 0, w.toNat)
  | .pass _, .none => none

/-- CLUSTER_FAIL (R89): the fault that the image itself gives, or the engine's transient fault, whichever R89 meets first. -/
def execClusterFail (engine : Fin 16) (fault : EngineFault) (s : State) : Host.Outcome State Fault Refusal :=
  perform (.dyn fun s =>
    match s.onEngine engine with
    | some (r, c) =>
      match (s.decodeOn r c).failure fault with
      | some (kind, detail, computed) => .seq (match fault with | .sram w => sramError 3 w.toNat true | _ => .nop)
          (clusterFailed r c kind detail computed)
      | none => .nop
    | none => .nop) s

end Sys2Proof.Machine
end

