-- ==== Sys2Proof/Machine/Verdict.lean ====
section
/-! DEFINITION. Votes and verdicts of a shot (R271 to R278, R280): detected errors, VOTE messages, settlement, withdrawal
and SPLIT. -/

namespace Sys2Proof.Machine

/-- The data word of a VOTE (R272). -/
def voteWord (sig : Nat) (rexp : Bool) (detail : Nat) (eq cmp wd det : Bool) : Nat :=
  let b := fun (x : Bool) (w : Nat) => if x then w else 0
  sig % 2 ^ 32 * 2 ^ 32 + b rexp 256 + detail * 16 + b eq 8 + b cmp 4 + b wd 2 + b det 1

/-- CMP_EQ of a VOTE. -/
def voteEq (v : Nat) : Bool := v.testBit 3
/-- DET or WD of a VOTE: its sender is detected in the sense of R274. -/
def voteBad (v : Nat) : Bool := v.testBit 0 || v.testBit 1

/-- The shot's frames have been sent on every lane (R167). -/
def ShotRec.allSent (x : ShotRec) : Bool := x.taken && x.unsent.isEmpty

/-- The signatures of group `j` (R268): the copy from lane j where it is valid, else the one from lane j + 1. A copy from lane j is
given up once it has come damaged, while its lane is down, and once the shot's own send check has ended (DESIGN CHOICE: the
spec does not say when a missing copy counts as not valid). -/
def State.mateGroup (s : State) (x : ShotRec) (j : Nat) : Option (List Nat) :=
  let held := fun l : List (Nat × List Nat) => (l.find? fun e => e.1 == j).map fun e => e.2
  match held x.mateSigs with
  | some g => some g
  | none => if x.sigBad.contains j || !s.rxLanes.contains j || x.allSent then held x.mateAlt else none

/-- The mate's 64 signatures of a shot, once all eight groups have arrived (R271). -/
def State.allMateSigs (s : State) (x : ShotRec) : Option (List Nat) :=
  let gs := (List.range 8).map (s.mateGroup x)
  if gs.all fun g => g.isSome then some (gs.flatMap fun g => g.getD []) else none

/-- The verdict that both votes give (R274), or the one of R273 where the mate is LOST or withdrawn: 1 AGREE, 2 SOLE,
3 SOLO, 8 WITHDRAW, 9 DEFER, 10 HOLD; none while it is not settled. A withdrawn device whose mate is LOST can leave the shot to
nobody: HOLD; one whose mate is LINK_DOWN goes on as withdrawn (R284). -/
def State.verdictOf (s : State) (x : ShotRec) : Option Nat :=
  let bad := x.det.isSome || s.b.par.wdSelf
  if !s.paired then (if x.allSent && x.det.isNone then some 3 else none)
  else if s.b.par.mate = .lost then
    (if s.b.par.wdSelf then some 10 else if x.allSent && x.det.isNone then some 2 else none)
  else if s.b.par.wdSelf ∧ s.b.par.mate = .linkDown then some 8
  else if s.b.par.wdMate then (if bad then some 10 else if x.allSent then some 2 else none)
  else match x.ownVote, x.mateVote with
    | some a, some b =>
      if voteBad a && voteBad b then some 10
      else if voteBad a then some 8
      else if voteBad b then some 2
      else if voteEq a && voteEq b then some 1
      else if s.b.par.defer = some x.shot then some 10 else some 9
    | _, _ => none

/-- A withdrawal begins (R275): HOLD frames from now on, no codes and no lees. -/
def withdrawFrom (k : Nat) : Act := .dyn fun s =>
  on (!s.b.par.wdSelf) (acts [onPar fun p => { p with wdSelf := true, dirty := true }, setR R.PAR_WD_SHOT k, raise E.PAR_WITHDRAW,
    dropTaps k])

/-- SPLIT on shot `k` (R278): HOLD, a stop at a safe point from it, and the role SPLIT once the device is READY. -/
def splitOn (k cause : Nat) : Act := .dyn fun s =>
  let stripe := match s.run with | some r => r.stripe.num | none => 0
  acts [setR R.PAR_SPLIT_INFO (cause * 2 ^ 28 + stripe % 65536), setR R.PAR_SPLIT_SHOT k,
    onPar fun p => { p with splitEnd := cause, dirty := true }, raise E.PAR_SPLIT]

/-- An error that a device detected before its mate was LOST is handled as the SOLO role handles it (R274): a lost cluster stops
the job at a safe point (R91), any other error withholds the shot and racks (R145). -/
def ownError (k detail : Nat) : Act := if detail = 3 then stopSafe else withhold k 6 true

/-- Settle the verdict of a shot (R273, R274, R277, R278): DEFER is sealed at once and withheld; HOLD is followed by a
stop at a safe point from the shot. -/
def settle (k : Nat) : Act := .dyn fun s =>
  let x := s.shotRec k
  if x.verdict.isSome || x.sealed.isSome || s.heldFrom k || s.stoppedAt k then .nop
  else match s.verdictOf x with
    | none => on (s.paired && s.b.par.mate == .lost) (match x.det with | some d => ownError k d | none => .nop)
    | some v =>
      let both := match x.ownVote, x.mateVote with | some a, some b => !voteBad a && !voteBad b | _, _ => false
      acts [putRec k fun y => { y with verdict := some v },
        on (v == 8) (withdrawFrom k),
        on (v == 9) (acts [onPar fun p => { p with dirty := true }, sealShot k 9, withhold k 2 true]),
        on (v == 10) (acts [on both (splitOn k 1), withhold k 0 false, stopSafeFrom k])]

/-- Send this device's VOTE of a shot when it is due (R271, R275), and settle. A mate that has voted DET or WD may have built
no signatures: its vote stands in their place (DEDUCED). -/
def tryVote (k : Nat) : Act := .dyn fun s =>
  let x := s.shotRec k
  let wd := s.b.par.wdSelf
  let mine := match s.slot k with | some sl => if sl.complete then some sl.sigs else none | none => none
  let cmp := match mine, s.allMateSigs x with | some a, some b => some (decide (a = b)) | _, _ => none
  let told := match x.mateVote with | some v => voteBad v | none => false
  let due := x.det.isSome || (x.allSent && (wd || cmp.isSome || told))
  if s.paired && x.ownVote.isNone && due && !s.heldFrom k then
    let w := voteWord (if wd then 0 else x.sig) x.rexp (x.det.getD 0) (cmp == some true) cmp.isSome wd x.det.isSome
    acts [putRec k fun y => { y with ownVote := some w }, pairSend 3 k (leBytes 8 w), settle k]
  else settle k

/-- A detected error on shot `k` in a pair whose mate can expose it (R271): the device votes DET at once. -/
def detectError (k detail : Nat) : Act :=
  .seq (putRec k fun x => { x with det := some (x.det.getD detail) }) (tryVote k)

end Sys2Proof.Machine
end

