-- ==== Sys2Proof/Machine/Motion.lean ====
section
/-! DEFINITION. The trajectory generator's shared rules: TIM time of a PT, writing speed, setpoint frames, moves, run-ins and
the parts of a racking (R237 to R258, R312, R313), and the meanings of MOVE, STOP, LIMIT_WRITE, LIMIT_LATCH_APPLY, RUN_IN_START,
RACK_DWELL_END and RACK_ABANDON. -/

namespace Sys2Proof.Machine

/-! ### TIM time and pair time (R199, R312, R313) -/

/-- n · POS_TS, rounded to nearest at 2⁻¹⁶ tick (R199). -/
def State.sampleBase (s : State) (n : Nat) : Int := ((n * s.rd R.POS_TS + 128) / 256 : Nat)

/-- t_n of R199. -/
def State.sampleTime (s : State) (n : Nat) : Int := s.sampleBase n - (s.fld F.POS_ADC_LAT_LAT * 1024 : Nat)

/-- a_n of R199: 88 ns are 22 ticks. -/
def State.sampleArrival (s : State) (n : Nat) : Int := s.sampleBase n + 22 * 65536

/-- A PT value in TIM time, in 2⁻³² ns (R312): by the time and rate that held at its tick. -/
def State.timAt (s : State) (p : Int) : Int :=
  match (s.b.tim.past.filter fun e => decide (p < e.1 * 65536)).getLast? with
  | some e => e.2.1 + ((p - e.1 * 65536) * e.2.2).fdiv 65536
  | none => s.timUnits + ((p - s.b.pos.pt.fdiv 65536 * 65536) * s.timInc).fdiv 65536

/-- The tick from which a pair time map holds (R313). -/
def State.mapTick (s : State) (m : TimeMap) : Int := (s.sampleArrival m.sample).fdiv 65536

/-- A PT value in the time that the generator uses: pair time in a pair, TIM otherwise (R313). -/
def State.trajAt (s : State) (p : Int) : Int :=
  match if s.paired then s.b.tim.maps.find? fun m => decide (s.mapTick m * 65536 ≤ p) else none with
  | some m => (m.sec * secondNs + m.ns : Nat) + ((p - s.mapTick m * 65536) * m.inc).fdiv 65536
  | none => s.timAt p

/-- 2⁻³² ns in a setpoint period. -/
def periodUnits : Int := 50000 * 2 ^ 32

/-- The setpoint period that is applied now. -/
def State.periodNow (s : State) : Nat := ((s.trajAt s.b.pos.pt).fdiv periodUnits).toNat

/-- The first setpoint period applied at least 1 ms from now (R263, R280). -/
def State.periodAhead (s : State) : Nat :=
  (-((-(s.trajAt s.b.pos.pt + 1000000 * 2 ^ 32)).fdiv periodUnits)).toNat

/-- The first sample whose arrival lies at least 1 ms, 250,000 ticks, from now (R212, R263). -/
def State.sampleAhead (s : State) : Nat :=
  let need := (s.b.pos.pt + 250000 * 65536 - 22 * 65536).toNat
  let ts := max 1 (s.rd R.POS_TS)
  leastNat fun n => decide (need ≤ (n * ts + 128) / 256)

/-! ### Setpoints by time (R245, R249) -/

/-- The setpoint in force at a time of the generator: positions in pixels and the Y acceleration in pixels/s². Where no
period was generated for it, the newest position holds. -/
def State.setpointAt (s : State) (t : Int) : Rat × Rat × Rat :=
  let q := (t.fdiv periodUnits).toNat
  match s.b.mot.sps.find? fun x => x.period == q with
  | some x =>
    let d : Rat := ((t - q * periodUnits : Int) : Rat) / ((secondNs : Nat) : Rat)
    (x.y + x.vy * d + x.ay * d * d / 2 + x.jy * d * d * d / 6,
      x.x + x.vx * d + x.axx * d * d / 2 + x.jx * d * d * d / 6, x.ay + x.jy * d)
  | none => match s.b.mot.sps with
    | x :: _ => (x.y, x.x, 0)
    | [] => (s.b.mot.y.p, s.b.mot.x.p, 0)

/-! ### Writing speed (R239 to R243) -/

/-- The queue's entry after the stripe being written. -/
def State.entryAfter (s : State) (num : Nat) : Option JobEntry :=
  s.b.job.queue.find? fun e => e.stripe == (num + 1) % 2 ^ 32

/-- v_press (R240). -/
def State.vPress (s : State) : Rat :=
  let f := s.fill
  let lo := 16 * s.fld F.PRS_MARKS_LOW
  let hi := 16 * s.fld F.PRS_MARKS_HIGH
  let vmin : Rat := (s.rd R.MOT_VMIN : Nat)
  let done := match s.run with | some r => decide (r.blockRows ≤ r.released) | none => true
  if hi ≤ f ∨ done = true then s.vCap
  else if f ≤ lo then vmin
  else ((vmin + (s.vCap - vmin) * ((f : Rat) - lo) / ((hi : Rat) - lo)).floor : Int)

/-- Bytes of a filling bin's image that are not yet confirmed; unknown until its length is. -/
def Bin.bytesLeft (x : Bin) : Option Nat :=
  match x.hdr with
  | some h => some (h.imageLen - x.confirmed)
  | none => (x.pieces.find? fun p => p.last).map fun p => p.off + p.len - x.confirmed

/-- v_cel (R241) at the start of a period, whose own bytes are still to come, with the rows left to write as the planned scan
distance to the last shot. -/
def State.vCel (s : State) : Rat :=
  match s.b.mot.cur with
  | none => s.vCap
  | some c => match s.entryAfter c.num with
    | none => s.vCap
    | some e => match s.b.cel.bins.find? fun x => x.num == e.bin && x.stripe == e.stripe && x.state == .filling with
      | none => s.vCap
      | some x =>
        let r := (((x.rate.drop 1).take 200).sum : Nat)
        let rows := max 0 (along c.rev (c.lastPos - s.b.mot.y.p))
        match x.bytesLeft with
        | none => (s.rd R.MOT_VMIN : Nat)
        | some b => if r = 0 then (s.rd R.MOT_VMIN : Nat) else if b = 0 then s.vCap else rows * (r * 100 : Nat) / (b : Nat)

/-- min(v_press, v_cel), at most v_cap. -/
def State.supply (s : State) : Rat := min s.vCap (min s.vPress s.vCel)

/-- A speed as a SPEED message carries it: 48.16 pixels/s, rounded up. -/
def speedCode (v : Rat) : Nat := (-((-(v * 65536)).floor)).toNat

/-- The lesser of the two devices' speeds for period `k` − 2, in 48.16 (R243); none before the ARM. -/
def State.pairSpeed (s : State) (k : Nat) : Option Nat :=
  match s.b.mot.ownSpeed.find? fun e => e.1 + 2 == k with
  | none => none
  | some own =>
    let want := (k + 2 ^ 32 - 2) % 2 ^ 32
    match s.b.mot.mateSpeed.find? fun e => decide ((want + 2 ^ 32 - e.1) % 2 ^ 32 < 2 ^ 31) with
    | some mate => some (min own.2 mate.2)
    | none => some own.2

/-- v_tgt for the period being generated (R239, R243). -/
def State.vTgt (s : State) : Rat :=
  if !s.flag F.MOT_CFG_SUPPLY then s.vCap
  else
    let w := if s.solo then s.supply else match s.pairSpeed s.b.mot.period with
      | some c => min s.vCap ((c : Rat) / 65536)
      | none => s.vCap
    let vmin : Rat := (s.rd R.MOT_VMIN : Nat)
    if w < vmin then (if s.vCap < vmin then s.vCap else vmin) else w

/-- SUPPLY_SLOW, once per stripe (R242). -/
def noteSlow : Act := .dyn fun s =>
  on (decide (s.vTgt < s.vCap) && !s.b.mot.slowRaised)
    (.seq (onMot fun m => { m with slowRaised := true }) (raise E.MOT_SUPPLY_SLOW))

/-! ### Moves (R237, R238, R251, R258) -/

/-- Every motion limit is above 0 (R258). -/
def State.canMove (s : State) : Bool := s.rd R.MOT_VMAX != 0 && s.rd R.MOT_AMAX != 0 && s.rd R.MOT_JMAX != 0

/-- Take an axis to a position: from rest at once, otherwise through a stop (R251). -/
def Gen.goTo (g : Gen) (l : Limits) (q : Rat) : Gen × Option Rat :=
  if g.atRest then (g.start (planMove l g.p q), none) else (g.start (planStop l g.p g.v g.a) .stop, some q)

/-- Take both axes to a position. -/
def moveTo (y x : Rat) (phase : Phase) (stripe : Nat) : Act := .dyn fun s =>
  let m := s.b.mot
  let gy := m.y.goTo s.limits y
  let gx := m.x.goTo s.limits x
  onMot fun b =>
    { b with
      y := gy.1, thenY := gy.2, x := gx.1, thenX := gx.2, phase := phase, stripe := stripe, rackPart := 0, replan := true }

/-- Both axes are at rest with nothing to follow. -/
def State.atRest (s : State) : Bool :=
  s.b.mot.y.atRest && s.b.mot.x.atRest && s.b.mot.thenY.isNone && s.b.mot.thenX.isNone

/-- A setpoint holds its axes still. -/
def Setpoint.still (x : Setpoint) : Bool :=
  decide (x.vy = 0 ∧ x.ay = 0 ∧ x.jy = 0 ∧ x.vx = 0 ∧ x.axx = 0 ∧ x.jx = 0)

/-- The stage itself is at rest (R19, R20, R248, R251): the generator is, and so is every setpoint from the one applied
now on. -/
def State.stageStill (s : State) : Bool :=
  s.atRest && (s.b.mot.sps.takeWhile fun x => decide (s.periodNow ≤ x.period)).all Setpoint.still

/-- A MOVE is done once the stage is at rest (R251). -/
def moveDone : Act := .dyn fun s =>
  on (s.b.mot.moving && s.stageStill) (.seq (onMot fun m => { m with moving := false }) (raise E.MOT_MOVE_DONE))

/-- A MOVE is refused (R251, R258). -/
def moveRefused : Act := .seq (setB F.MOT_STAT_REFUSED true) (raise E.MOT_MOVE_REFUSED)

/-- Carry out MOVE in READY (R251). -/
def moveNow : Act := .dyn fun s =>
  let y : Rat := (s.signedReg R.MOT_TGT_Y : Int)
  let x : Rat := (s.signedReg R.MOT_TGT_X : Int)
  if s.dev != .ready then refuseCmd R.MOT_CMD 1
  else if !s.canMove || !s.inTravelY y || !s.inTravelX x then moveRefused
  else
    let still := s.stageStill && decide (s.b.mot.y.p = y) && decide (s.b.mot.x.p = x)
    .seq (setB F.MOT_STAT_REFUSED false)
      (if still then raise E.MOT_MOVE_DONE
      else .seq (moveTo y x .move s.b.mot.stripe) (onMot fun m => { m with moving := true }))

/-- Carry out STOP in READY (R251). -/
def stopNow : Act := .dyn fun s =>
  if s.dev != .ready then refuseCmd R.MOT_CMD 2
  else if s.atRest then .nop
  else .seq (stopMotion .stop) (onMot fun m => { m with moving := false })

/-! ### Commands and writes that both devices of a pair take (R250, R263, R280) -/

/-- The data of a REGWR message: page, offset, value. -/
def regwrData (addr v : Nat) : List Nat :=
  leBytes 4 (addr / 0x1000) ++ leBytes 4 (addr % 0x1000) ++ leBytes 4 v ++ [0, 0, 0, 0]

/-- Pass a write to the mate, and keep it for the setpoint period at which both act. -/
def pairAtPeriod (addr v : Nat) : Act := .dyn fun s =>
  let k := s.periodAhead
  .seq (pairSend 6 (k % 2 ^ 32) (regwrData addr v))
    (onMot fun m => { m with writes := m.writes ++ [(k, addr, BitVec.ofNat 32 v)] })

/-- MOVE of MOT_CMD (R251, R280): in a pair both devices act at a named period, on the same target. -/
def moveCmd : Act := .dyn fun s =>
  if s.paired && s.dev == .ready && s.b.par.mate != .lost then
    acts [pairAtPeriod R.MOT_TGT_Y (s.rd R.MOT_TGT_Y), pairAtPeriod R.MOT_TGT_X (s.rd R.MOT_TGT_X), pairAtPeriod R.MOT_CMD 1]
  else moveNow

/-- MOVE (R251). -/
def execMove (s : State) : Host.Outcome State Fault Refusal := perform (toPage 0xB4 moveCmd) s

/-- STOP of MOT_CMD (R251, R280). -/
def stopCmd : Act := .dyn fun s =>
  if s.paired && s.dev == .ready && s.b.par.mate != .lost then pairAtPeriod R.MOT_CMD 2 else stopNow

/-- STOP (R251). -/
def execStop (s : State) : Host.Outcome State Fault Refusal := perform (toPage 0xB4 stopCmd) s

/-! ### Limit writes (R250, R258) -/

/-- The register of a limit. -/
def limitReg : Limit → Nat
  | .vmax => R.MOT_VMAX
  | .amax => R.MOT_AMAX
  | .jmax => R.MOT_JMAX

/-- The state with a limit register replaced, to test what the write would bring. -/
def State.withLimit (s : State) (addr : Nat) (w : Word) : State := { s with regs := spPut resetValue s.regs addr w }

/-- The envelopes that fit now still fit with the new limit (R250). -/
def State.limitFits (s : State) (addr : Nat) (w : Word) : Bool :=
  s.b.lat.cap.isNone || s.b.job.queue.all fun e => e.outOfTravel || !s.entryFits e || (s.withLimit addr w).entryFits e

/-- The magnitude of a rational. -/
def magnitude (q : Rat) : Rat := if 0 ≤ q then q else -q

/-- The segments from a state on stay within limits: speed at both ends and where the acceleration passes 0,
acceleration at both ends, and jerk. -/
def segsWithin (l : Limits) : List Seg → Rat → Rat → Bool
  | [], _, _ => true
  | g :: rest, v, a =>
    let ok := fun x y : Rat => decide (magnitude x ≤ y)
    let turn := decide (a * g.endA < 0) && g.jerk != 0
    ok v l.v && ok g.endV l.v && ok a l.a && ok g.endA l.a && ok g.jerk l.j &&
      (!turn || ok (v - a * a / (2 * g.jerk)) l.v) && segsWithin l rest g.endV g.endA

/-- An axis's motion replanned from its current state under new limits (R250); none where it does not reach its planned end
within them. A stop or a change of speed takes the profile of R238 again and may not end farther on; any other motion,
and one whose new profile does not fit, keeps its plan where that stays within the limits (DESIGN CHOICE: the spec gives no
profile for a move from a state of motion). -/
def Gen.replan (g : Gen) (l : Limits) : Option Gen :=
  let kept := if segsWithin l g.segs g.v g.a then some g else none
  let again := fun (segs : List Seg) =>
    if segsWithin l segs g.v g.a && decide (magnitude (planEnd g.p segs - g.p) ≤ magnitude (planEnd g.p g.segs - g.p)) then
      some (g.start segs g.aim)
    else kept
  if g.segs.isEmpty then some g
  else match g.aim with
    | .keep => kept
    | .stop => again (planStop l g.p g.v g.a)
    | .speed w => again (planTo l g.p g.v g.a w)

/-- Both axes replanned for a limit register's new value (R250). -/
def State.limitPlan (s : State) (addr : Nat) (w : Word) : Option (Gen × Gen) :=
  match s.b.mot.y.replan (s.withLimit addr w).limits, s.b.mot.x.replan (s.withLimit addr w).limits with
  | some y, some x => some (y, x)
  | _, _ => none

/-- Apply or latch an accepted limit write (R250). -/
def limitApply (addr : Nat) (w : Word) : Act := .dyn fun s =>
  let keep := onMot fun m => { m with latched := m.latched.filter fun e => e.1 != addr }
  match s.limitPlan addr w with
  | some g =>
    acts [.wr addr w, keep, onMot fun m => { m with y := g.1, x := g.2, replan := m.replan || g.1 != m.y || g.2 != m.x },
      .dyn fun t => setB F.MOT_STAT_LATCHED (!t.b.mot.latched.isEmpty)]
  | none =>
    acts [keep, onMot fun m => { m with latched := m.latched ++ [(addr, w)] }, setB F.MOT_STAT_LATCHED true,
      raise E.MOT_LIMIT_LATCHED]

/-- A write to a limit register (R250, R258, R263). -/
def limitWrite (addr : Nat) (w : Word) : Act := .dyn fun s =>
  if w = 0 ∧ (s.dev ≠ .ready ∨ s.atRest = false) then err addr Err.range
  else if s.paired ∧ s.locked ∧ s.role = .standby ∧ s.b.par.mate ≠ .lost then err addr Err.conflict
  else if w ≠ 0 ∧ s.limitFits addr w = false then err addr Err.conflict
  else if s.paired ∧ s.locked ∧ s.b.par.mate ≠ .lost then pairAtPeriod addr w.toNat
  else limitApply addr w

/-- LIMIT_WRITE (R250). -/
def execLimitWrite (l : Limit) (w : Word) (s : State) : Host.Outcome State Fault Refusal :=
  perform (toPage 0xB4 (limitWrite (limitReg l) w)) s

/-- LIMIT_LATCH_APPLY (R250): at a segment boundary of both axes, each latched write that the rest of the motion allows. -/
def execLimitLatchApply (s : State) : Host.Outcome State Fault Refusal :=
  perform (.dyn fun s =>
    on (s.b.mot.y.k == 0 && s.b.mot.x.k == 0) (each s.b.mot.latched fun e => .dyn fun t =>
      on (t.limitPlan e.1 e.2).isSome (limitApply e.1 e.2))) s

/-! ### Setpoint frames (R244 to R246, R314, R315) -/

/-- A value as a frame carries it: 2⁻¹⁶, rounded to nearest, sign-extended (R237, R245). -/
def fixed16 (q : Rat) : List Nat := leBytes 8 (ofSigned 64 (roundAway (q * 65536)))

/-- The setpoint of a period (R245). -/
def State.setpoint (s : State) (period seq : Nat) : Setpoint :=
  let m := s.b.mot
  let y := m.y
  let x := m.x
  let rest := decide (y.v = 0) && decide (y.a = 0) && decide (x.v = 0) && decide (x.a = 0)
  let ns := period * 50000
  let body := leBytes 8 (ns / 1000000000) ++ leBytes 4 (ns % 1000000000) ++ leBytes 4 seq ++
    fixed16 y.p ++ fixed16 y.v ++ fixed16 y.a ++ fixed16 y.jerk ++
    fixed16 x.p ++ fixed16 x.v ++ fixed16 x.a ++ fixed16 x.jerk ++
    leBytes 4 (s.rd R.POS_PIXEL) ++ leBytes 2 m.stripe ++
    [m.phase.code, (if m.replan then 2 else 0) + (if rest then 1 else 0)] ++ [0, 0, 0, 0]
  ⟨period, seq, body ++ leBytes 4 (crcOf crc32c body), y.p, y.v, y.a, y.jerk, x.p, x.v, x.a, x.jerk⟩

/-- A setpoint is dropped: it is counted, and SP_LATE is raised once per stripe (R246). -/
def setpointLate : Act := .dyn fun s =>
  .seq (addR R.MOT_SP_LATE 1) (on (!s.b.mot.lateRaised)
    (.seq (onMot fun m => { m with lateRaised := true }) (raise E.MOT_SP_LATE)))

/-- The device launches setpoints (R16, R244). -/
def State.launches (s : State) : Bool := (s.role == .solo || s.role == .active) && s.flag F.MOT_CFG_EN

/-- MOT_LEAD in ns, a multiple of 50 µs (R258). -/
def State.leadNs (s : State) : Nat := s.leadPeriods * 50000

/-- Frames of the setpoint queue that stand for the coming periods (R315): one a period of the lead. Until its launch such a frame
follows the plan, so the model computes it when it is due (DESIGN CHOICE); its place in the queue is taken all along. -/
def State.ltqAhead (s : State) : Nat := if s.launches then s.leadPeriods else 0

/-- Frames that a launch-time queue holds (R314, R315). -/
def State.ltqDepth (s : State) (q : Nat) : Nat :=
  (s.b.tim.ltq.filter fun g => g.queue == q).length + if q = s.fld F.MOT_CFG_LTQ then s.ltqAhead else 0

/-- Pool entries in use (R314). -/
def State.ltqUsed (s : State) : Nat := s.b.tim.ltq.length + s.ltqAhead

/-- Offer a frame to a launch-time queue; a full queue or an empty pool drops it (R314, R315). -/
def ltqOffer (f : LtqFrame) : Act := .seq (bistPage 0xC3) (.dyn fun s =>
  if 256 ≤ s.ltqDepth f.queue ∨ 1024 ≤ s.ltqUsed then
    .seq (addR (R.LTQ_Q_LATE f.queue) 1) (on (f.type == 0x30) setpointLate)
  else onTim fun t => { t with ltq := t.ltq ++ [f] })

/-- Queue a setpoint for launch at a time in ns (R244). -/
def queueSetpoint (p : Setpoint) (launch : Nat) : Act := .dyn fun s =>
  ltqOffer ⟨s.fld F.MOT_CFG_LTQ, launch / 1000000000, launch % 1000000000, none, 0x30, p.bytes⟩

/-- Build the setpoint of the period at hand, and queue it where this device launches (R244). -/
def putSetpoint : Act := .dyn fun s =>
  let k := s.b.mot.period
  let last := match s.b.mot.sps with | x :: _ => x.seq | [] => 0
  let p := s.setpoint k ((if s.flag F.MOT_CFG_EN then last + 1 else last) % 2 ^ 32)
  .seq (onMot fun m => { m with sps := p :: m.sps.take 511, replan := false })
    (on s.launches (queueSetpoint p (k * 50000 - s.leadNs)))

/-! ### Run-in (R247) -/

/-- Start the shot unit on the stripe (R214): its two take points come first. -/
def activateShots : Act := onSht fun b =>
  { b with
    active := true, runStart := 0, next := -2, armed := true, needBack := false, backOf := none, reached := false, beyond := false
    pred := none, lastEdge := none, prevEdge := none, frozen := [], crossWait := [], freezeWait := false, takeNext := 0 }

/-- The run-in of the stripe at the head of the press may start (R247, R248). -/
def State.mayRunIn (s : State) (r : Run) : Bool :=
  (s.dev == .armed || s.dev == .writing) && !s.b.job.disarming && s.atRest && s.b.mot.rackPart == 0 &&
    s.b.mot.stripe == r.stripe.num && (s.b.mot.cur.map fun c => c.num) != some r.stripe.num &&
    decide (min (16 * s.fld F.PRS_MARKS_HIGH) r.stripe.len ≤ r.rows)

/-- RUN_IN_START (R242, R247). -/
def execRunInStart (s : State) : Host.Outcome State Fault Refusal :=
  perform (.dyn fun s =>
    match s.run with
    | some r =>
      let st := r.stripe
      let c : MotStripe :=
        ⟨st.num, st.rev, ((shotPos st.rev st.y0 s.step ((st.shots : Int) - 1) : Int) : Rat) / 65536, st.last⟩
      on (s.mayRunIn r) (acts [
        onMot fun m => { m with cur := some c, phase := .runIn, xFrom := none, slowRaised := false, lateRaised := false, replan := true },
        onPos fun p => { p with trkClipped := false }, onNet fun n => { n with noStage := false },
        onJob fun j =>
          { j with
            turnWait := false, stopEnd := j.stopEnd || j.stopAfter == some st.num
            stopAfter := if j.stopAfter = some st.num then none else j.stopAfter },
        setR R.MOT_FE_MAX 0, setF F.SHT_PRED_ERR_MAX 0, setR R.JOB_CUR st.num, raise E.JOB_STRIPE_START, activateShots, noteSlow,
        .dyn fun t => onMot fun m => { m with y := m.y.start (planSpeed t.limits m.y.p 0 (along st.rev t.vTgt)) (.speed (along st.rev t.vTgt)) }])
    | none => .nop) s

/-! ### The end of a racking's dwell (R254, R255, R279) -/

/-- Shots `n` to `n` + 2 that the stripe has. -/
def nextThree (r : Run) (n : Nat) : List Nat := (List.range 3).filterMap fun i =>
  if n + i < r.stripe.shots then some (n + i) else none

/-- The conditions of R254 hold for shot `n`. A withdrawn device computes no shots, so its taps hold none (R275). -/
def State.rackReady (s : State) (n : Nat) : Bool :=
  match s.run, s.b.lat.cap with
  | some r, some t =>
    (nextThree r n).all (fun k => rowsReady t r k &&
      (s.b.par.wdSelf || match s.slot k with | some x => x.complete | none => false)) &&
      (!s.paired || s.b.par.mate != .linkDown || s.b.par.wdMate || s.b.par.wdSelf)
  | _, _ => false

/-- The stage dwells at the re-entry point of shot N. -/
def State.dwelling (s : State) : Option Nat :=
  if s.dev = .racking ∧ s.b.mot.rackPart = 3 then s.b.sht.rackN else none

/-- Part 4 of the racking (R253): the forward transition from rest. -/
def startReentry : Act := .dyn fun s =>
  let rev := match s.run with | some r => r.stripe.rev | none => false
  acts [noteSlow, onMot fun m =>
    { m with
      y := m.y.start (planSpeed s.limits m.y.p 0 (along rev s.vTgt)) (.speed (along rev s.vTgt)), rackPart := 4, replan := true }]

/-- RACK_DWELL_END (R253, R254, R279): in a pair whose link is up, at the later of the periods that both name. -/
def execRackDwellEnd (s : State) : Host.Outcome State Fault Refusal :=
  perform (.dyn fun s =>
    match s.dwelling with
    | some n =>
      let m := s.b.mot
      if m.dwell * 50 < s.fld F.MOT_RACK_DWELL * 1000 ∨ s.rackReady n = false then .nop
      else if !(s.paired && s.b.par.mate == .up) then startReentry
      else
        let own := m.reentryOwn.getD m.period
        acts [on m.reentryOwn.isNone (.seq (onMot fun b => { b with reentryOwn := some own }) (pairSend 11 n (leBytes 8 own))),
          match m.reentryMate with
          | some mate => on (decide (max own mate ≤ m.period)) startReentry
          | none => .nop]
    | none => .nop) s

/-- RACK_ABANDON (R255): the conditions of R254 are not met within MOT_RACK_WAIT of arrival. -/
def execRackAbandon (s : State) : Host.Outcome State Fault Refusal :=
  perform (.dyn fun s =>
    match s.dwelling with
    | some n =>
      on (decide (s.fld F.MOT_RACK_WAIT_MS * 1000 ≤ s.b.mot.dwell * 50) && !s.rackReady n)
        (.seq stopSafe (raise E.MOT_RACK_ABANDON))
    | none => .nop) s

end Sys2Proof.Machine
end

