-- ==== Sys2Proof/Machine/Taps.lean ====
section
/-! DEFINITION. The taps: computing a shot, its signatures, faults and spare taps, and the commit (R34, R47, R53, R132 to
R151, R154). -/

namespace Sys2Proof.Machine

/-! ### Spare taps (R149 to R151) -/

/-- A tap is retired. -/
def State.tapRetired (s : State) (t : Nat) : Bool := s.fld (F.TP_STAT_STATE t) == 3
/-- A tap is under self-test. -/
def State.tapTested (s : State) (t : Nat) : Bool := s.fld (F.TP_STAT_STATE t) == 2

/-- The spare that serves a lane, if one does. -/
def State.spareOf (s : State) (lane : Nat) : Option Nat :=
  (s.b.cask.serve.find? fun e => e.2 == lane).map fun e => e.1

/-- A spare serves no lane any more. -/
def unserve (i : Nat) : Act := onCask fun c => { c with serve := c.serve.filter fun e => e.1 != i }

/-- The tap that serves a lane by its steering: a spare steered to it, or its own (R149). -/
def State.steeredTap (s : State) (lane : Nat) : Nat := match s.spareOf lane with | some j => 64 + j | none => lane

/-- The tap that serves a lane: the spare that covers it for a self-test, else the steered one (R149, R150). -/
def State.tapOf (s : State) (lane : Nat) : Nat :=
  match s.b.bst.cover with
  | some (n, i) => if n = lane then 64 + i else s.steeredTap lane
  | none => s.steeredTap lane

/-- The spare that covers a tap under self-test is needed no more: the test has ended. -/
def State.coverStale (s : State) : Bool :=
  match s.b.bst.cover with | some (n, _) => !s.tapTested (s.steeredTap n) | none => false

/-- Every lane has a working tap. -/
def State.tapsServe (s : State) : Bool :=
  (List.range 64).all fun n => !s.tapRetired (s.tapOf n) && !s.tapTested (s.tapOf n)

/-- A spare is free: neither steered nor asked for, nor retired, nor under test. -/
def State.spareFree (s : State) (i : Nat) : Bool :=
  !s.flag (F.CSK_STEER_EN i) && !(s.b.cask.serve.any fun e => e.1 == i) && !s.tapRetired (64 + i) && !s.tapTested (64 + i) &&
    match s.b.bst.cover with | some c => c.2 != i | none => true

/-- A tap of a lane is retired and no spare is asked for it: the lane is left with no working tap (R150). -/
def State.deadLane (s : State) : Option Nat := (List.range 64).find? fun n =>
  s.tapRetired (s.tapOf n) && !(List.range 4).any fun i =>
    s.flag (F.CSK_STEER_EN i) && s.fld (F.CSK_STEER_LANE i) == n && !s.tapRetired (64 + i)

/-- A lane's tap is retired: a free spare is steered to it, else the spare that covers a tap under self-test, whose test
ends (R150); without either the lane has no working tap, which is a fault without a recovery path. Where the retired tap is the
covering spare itself, the tested tap that is restored serves its lane again. -/
def steerAuto (lane : Nat) : Act := .dyn fun s =>
  let take := fun i : Nat => acts [setB (F.CSK_STEER_EN i) true, setB (F.CSK_STEER_AUTO i) true,
    setB (F.CSK_STEER_ACTIVE i) false, setF (F.CSK_STEER_LANE i) lane, unserve i,
    onCask fun c => { c with steerPending := (c.steerPending.filter fun x => x != i) ++ [i] }]
  match (List.range 4).find? s.spareFree with
  | some i => take i
  | none =>
    match s.b.bst.cover with
    | some (n, i) =>
      let t := s.steeredTap n
      acts [on (s.tapTested t) (acts [setF (F.TP_STAT_STATE t) 0, setF (pageStat (slicePage t) 10 1) 0,
          setF F.BST_STAT_STATE 0, onBst fun b => { b with cur := none }]),
        onBst fun b => { b with cover := none }, if s.tapRetired (64 + i) then .nop else take i]
    | none => .seq (raise E.CSK_NO_SPARE) (faultEntry 9 0x30 lane)

/-- The lane that a tap serves now, if any. -/
def State.laneOf (s : State) (t : Nat) : Option Nat := (List.range 64).find? fun n => s.tapOf n == t

/-- Retire a tap, and steer a spare to the lane that it serves (R150, R151). -/
def retireTap (t : Nat) : Act := .dyn fun s =>
  if s.tapRetired t then .nop
  else
    acts [setF (F.TP_STAT_STATE t) 3, raise (E.TP_RETIRED t),
      on (decide (64 ≤ t)) (.seq (setR (R.CSK_STEER (t - 64)) 0) (unserve (t - 64))),
      match s.laneOf t with | some n => steerAuto n | none => .nop]

/-- A lane may change its tap: no pending slot is in use (R149). -/
def State.steerBoundary (s : State) : Bool := !s.locked || (s.b.cask.slots.isEmpty && s.b.cask.draining.isEmpty)

/-- Apply one steering request (R149): the spare serves its lane, or is released. -/
def applySteer (i : Nat) : Act := .dyn fun s =>
  let go := s.flag (F.CSK_STEER_EN i) && !s.tapRetired (64 + i) && !s.tapTested (64 + i)
  acts [setB (F.CSK_STEER_ACTIVE i) go, unserve i,
    on go (.seq (onCask fun c => { c with serve := (i, s.fld (F.CSK_STEER_LANE i)) :: c.serve }) (raise E.CSK_STEERED))]

/-- STEER_APPLY (R149): requests take effect, and a tap whose self-test has ended serves its lane again. -/
def execSteerApply (s : State) : Host.Outcome State Fault Refusal :=
  perform (.dyn fun s =>
    on s.steerBoundary (acts [on s.coverStale (onBst fun b => { b with cover := none }),
      each s.b.cask.steerPending applySteer, onCask fun c => { c with steerPending := [] }])) s

/-- A write to CSK_STEER (R149, R152): two registers may not name one lane, and an automatic steering is not released. The spare
serves the lane that it serves until the boundary; ACTIVE says whether that is LANE. -/
def steerWrite (i : Nat) (w : Word) : Act := .dyn fun s =>
  let en := w.toNat.testBit 31
  let lane := w.toNat % 64
  let taken := (List.range 4).any fun j => j != i && s.flag (F.CSK_STEER_EN j) && s.fld (F.CSK_STEER_LANE j) == lane
  if (s.flag (F.CSK_STEER_AUTO i) && !en) || (en && taken) then err (R.CSK_STEER i) Err.conflict
  else acts [setB (F.CSK_STEER_EN i) en, setF (F.CSK_STEER_LANE i) lane,
    setB (F.CSK_STEER_ACTIVE i) (s.b.cask.serve.contains (i, lane)),
    onCask fun c => { c with steerPending := (c.steerPending.filter fun x => x != i) ++ [i] }]

/-- CSK_STEER_WRITE (R149). -/
def execCskSteerWrite (spare : Fin 4) (w : Word) (s : State) : Host.Outcome State Fault Refusal :=
  perform (toPage 0x30 (steerWrite spare w)) s

/-! ### Computing a shot (R34, R47, R139, R142) -/

/-- What the visits of one shot give. -/
structure ShotOut where
  codes : List (Nat × Nat) := []
  lees : List (Nat × Nat) := []
  closes : List Close := []
  deriving DecidableEq, Repr

/-- The lees code that a visit reads: the newest pending one of its pixel, else the cask's (R139). -/
def State.leesOf (s : State) (m p : Nat) : Nat :=
  let pend := (s.b.cask.draining ++ s.b.cask.slots).reverse.findSome? fun x =>
    if x.shot < m ∨ x ∈ s.b.cask.draining then (x.lees.find? fun e => e.1 == p).map fun e => e.2 else none
  pend.getD (spGet (fun _ => 0) s.b.cask.cask p % 16)

/-- One beam's visit in a shot (R47), added to what the shot gives so far. -/
def visitBeam (s : State) (t : LatIn) (r : Run) (m y : Nat) (out : ShotOut) (b : Nat) : ShotOut :=
  let row := b / 512
  let x := 4 * (b % 512) + t.dx row
  let p := r.pixel x y
  let target := spGet (fun _ => 0) s.b.cask.cask p / 16
  let lees := s.leesOf m p
  let v := visit (share target (t.factor (t.cls row))) lees (t.g b) (t.q b) (t.weight r.stripe.rev b)
    (t.closing r.stripe.rev b) (cmaxOf t.depth)
  { codes := if v.code = 0 then out.codes else (b, v.code) :: out.codes
    lees := if v.write then (p, v.lees4) :: out.lees else out.lees
    closes := if v.closed then out.closes ++ [⟨x, y, b, v.exact, lees == leesSat, v.lees8⟩] else out.closes }

/-- All visits of shot `m`: beams whose pixel row lies in the stripe (R34, R35). They are listed, and the pixels that close in one
shot are reported (R50), in ascending beam index: R50 says only "in closing order" (DESIGN CHOICE). -/
def computeShot (s : State) (t : LatIn) (r : Run) (m : Nat) : ShotOut :=
  beamRows.foldl (fun out row =>
    let y := pixelRow r.stripe.rev r.stripe.len t.dymax t.s m (t.dy row)
    if 0 ≤ y ∧ y < r.stripe.len then
      ((List.range 512).map fun c => 512 * row + c).foldl (visitBeam s t r m y.toNat) out
    else out) {}

/-- The lane signature (R143). -/
def laneSig (lane shot : Nat) (payload : List Nat) : Nat := crcOf crc64 (leBytes 4 lane ++ leBytes 4 shot ++ payload)

/-! ### Faults of a shot (R144 to R148) -/

/-- Groups that passed on retry (R144, R154). -/
def noteRetries (t n : Nat) : Act := .dyn fun s =>
  acts [addR (R.TP_RETRY_OK t) n, setF (F.TP_STAT_RETRIES t) (min (s.fld (F.TP_STAT_RETRIES t) + n) 31),
    each (List.range n) fun _ => raise (E.TP_RETRY t)]

/-- The press decodes a lost word's cluster again and rewrites its 16 targets with lees SAT (R148). The lees of those pixels that a
slot still holds would hide it, so they are dropped: the pixels close short. -/
def rePress (row k j : Nat) : Act := .dyn fun s =>
  match s.run with
  | some r =>
    let d := s.b.cask.discard
    let line := d + (row + 8192 - d % 8192) % 8192
    let ys := line - r.stripe.base
    let y := scanRow r.stripe.rev r.stripe.len ys
    if r.stripe.base ≤ line ∧ ys < r.stripe.len then
      let pixel := fun p : Nat => 64 * j + 4 * p + k
      let q := 16 * (y / 16) + 64 * j / 128
      let px := match s.bin r.stripe.bin with
        | some x => match decodeCluster (s.imageByte [] x) r.hdr q with | .pass l => l | _ => []
        | none => []
      let lost := (List.range 16).map fun p => r.pixel (pixel p) y
      let keep := fun x : Slot => { x with lees := x.lees.filter fun e => !lost.contains e.1 }
      onCask fun c =>
        { c with
          slots := c.slots.map keep
          draining := c.draining.map keep
          cask := (List.range 16).foldl (fun t p =>
            let x := pixel p
            let i := 256 * (x % 128 / 16) + 16 * (y % 16) + x % 16
            let old := spGet (fun _ => 0) t (r.pixel x y) / 16
            spPut (fun _ => 0) t (r.pixel x y) (16 * px.getD i old + leesSat)) c.cask }
    else .nop
  | none => .nop

/-- A tap hard failure of shot `m` is counted, located and reported (R148, R153, R154). -/
def noteHardFail (m : Nat) (f : TapFail) : Act :=
  let t : Nat := f.tap
  acts [addR (R.TP_FAILS t) 1,
    setR (R.TP_FAIL_INFO t) (f.kind.val * 2 ^ 28 + (if f.kind.val = 1 then f.step.val else 0) * 2 ^ 24 + f.row.val * 2 ^ 8 + f.word.val),
    setR (R.TP_FAIL_SHOT t) m, raise (E.TP_HARD_FAIL t),
    on (f.kind.val == 4) (caskBad f.caskRow f.residue f.word), on (f.kind.val == 3) (sramErrorAt 2 true)]

/-- What a tap hard failure does to shot `m` and to the tap (R145, R146, R148, R151). -/
def poisonShot (m : Nat) (f : TapFail) : Act := .dyn fun s =>
  let t : Nat := f.tap
  let cask := f.kind.val == 4
  if s.solo then
    acts [withhold m 6 true, dropTaps m, on cask (rePress f.caskRow f.residue f.word), retireTap t]
  else
    acts [onCask fun c => { c with retireAtEnd := if c.retireAtEnd.contains t then c.retireAtEnd else t :: c.retireAtEnd },
      dropTaps m, onCask fun c => { c with nextShot := m + 1 }, detectError m (if cask then 4 else 1)]

/-- A tap hard failure of shot `m` (R145, R146, R148, R151). -/
def hardFail (m : Nat) (f : TapFail) : Act := .seq (noteHardFail m f) (poisonShot m f)

/-! ### The shot in the taps (R134 to R136, R142, R143, R271) -/

/-- Whether the taps may start their next shot (R136). -/
def State.tapsMayStart (s : State) (r : Run) : Bool :=
  let m := s.b.cask.nextShot
  s.locked && !s.b.job.disarming && decide (m < r.stripe.shots) && decide (m ≤ s.b.sht.first + 2) && !s.stoppedAt m &&
    s.tapsServe && !s.b.par.wdSelf && s.b.cask.slots.all (fun x => x.complete) &&
    decide (s.b.cask.slots.length + s.b.cask.draining.length < 4) &&
    (m != 0 || s.b.cask.draining.isEmpty)

/-- A block row that shot `m` needs is lost (R91, R271). -/
def lostRow (t : LatIn) (r : Run) (m : Nat) : Bool :=
  r.lost.any fun q => decide ((16 * r.place q : Nat) ≤ farRow t r m)

/-- TAP_SHOT_START (R136, R144 to R148). -/
def execTapShotStart (f : TapFaults) (s : State) : Host.Outcome State Fault Refusal :=
  perform (.dyn fun s =>
    match s.run, s.b.lat.cap with
    | some r, some t =>
      let m := s.b.cask.nextShot
      if !s.tapsMayStart r then .nop
      else if !rowsReady t r m then
        on (lostRow t r m) (if s.solo then stopSafe
          else .seq (onCask fun c => { c with nextShot := m + 1 }) (detectError m 3))
      else
        let o := computeShot s t r m
        let row := r.stripe.base + (earlyRow t r m).toNat
        let slot : Slot :=
          { shot := m, codes := o.codes, lees := o.lees, closes := o.closes, last := m + 1 == r.stripe.shots, row := row }
        acts [onCask fun c => { c with slots := c.slots ++ [slot], nextShot := m + 1 }, checkFill,
          each f.retries fun e => noteRetries e.1 e.2, each (f.sram.filter fun e => !(e.ue && e.array.val == 1)) sramNote,
          each f.ce fun e => caskCorrected e.1 e.2.1 e.2.2,
          match f.fail with | some x => if x.kind.val = 0 then .nop else hardFail m x | none => .nop]
    | _, _ => .nop) s

/-- The signatures that SIG messages carry: FORCE_SIG flips bit 0 of one lane's (R291). -/
def forceSig (sigs : List Nat) (lane : Nat) : List Nat :=
  (List.range 64).map fun n => if n = lane then Nat.xor (sigs.getD n 0) 1 else sigs.getD n 0

/-- Send the SIG messages of a shot (R267, R271), after a FORCE_SIG that counts the shot (R291). -/
def sendSigs (k : Nat) (sigs : List Nat) : Act := .dyn fun s =>
  let left := (fijLeftOn s.b.par.fijLeft 8).getD 0
  let counted := s.injecting 0xA8 && s.fld F.PAR_FIJ_CFG_KIND == 5 && left != 0
  let acting := counted && left == 1
  let out := if acting then forceSig sigs (s.fld F.PAR_FIJ_CFG_PLANE) else sigs
  acts [each (List.range 8) fun j => pairSendSig j k ((List.range 8).flatMap fun i => leBytes 8 (out.getD (8 * j + i) 0)),
    on (counted && !acting) (onPar fun p => { p with fijLeft := [(8, left - 1)] }),
    on acting (.seq (onPar fun p => { p with fijLeft := [] }) parFijDone),
    onPar fun p => { p with sigNext := max p.sigNext (k + 1) }]

/-- TAP_SHOT_DONE (R134, R142, R143): payloads and signatures are complete, and the frames are booked as built
(R192). -/
def execTapShotDone (s : State) : Host.Outcome State Fault Refusal :=
  perform (.dyn fun s =>
    match s.b.cask.slots.find? fun x => !x.complete with
    | some x =>
      let sigs := (List.range 64).map fun n => laneSig n x.shot (payloadBytes s.depth (laneCodes x.codes n))
      acts [onCask fun c =>
          { c with slots := c.slots.map fun y => if y.shot == x.shot then { y with complete := true, sigs := sigs } else y },
        putRec x.shot fun y => { y with sig := sigs.foldl Nat.xor 0 }, bookIn .frame 64,
        on s.paired (.seq (sendSigs x.shot sigs) (tryVote x.shot))]
    | none => .nop) s

/-! ### The commit (R132, R140, R147) -/

/-- An uncorrectable error in the cask or in a pending slot entry on a read of a shot's commit (R144, R148). That shot has been strobed, so the first one that has
not takes its place (DEDUCED); after a stripe's last shot only the tap retires. -/
def commitFault (x : Slot) (f : TapFail) : Act := .dyn fun s =>
  let live := match s.run with | some r => decide (s.b.sht.first < r.stripe.shots) | none => false
  on (decide (3 ≤ f.kind.val)) (.seq (noteHardFail x.shot f)
    (if !x.last && live then poisonShot s.b.sht.first f else retireTap f.tap))

/-- COMMIT_WRITES_DONE (R132, R140, R147, R148): the oldest draining slot's lees are in the cask, its slot is free, and the
discard pointer advances; `ce` and `ue` are errors that its reads of the cask met: corrected words, and an uncorrectable one. -/
def execCommitWritesDone (ce : List (Fin 8192 × Fin 4 × Fin 32)) (ue : Option TapFail) (s : State) :
    Host.Outcome State Fault Refusal :=
  perform (.dyn fun s =>
    match s.b.cask.draining with
    | x :: rest =>
      acts [onCask fun c =>
          { c with
            draining := rest
            cask := x.lees.foldl (fun t e =>
              spPut (fun _ => 0) t e.1 (spGet (fun _ => 0) t e.1 / 16 * 16 + e.2)) c.cask
            oldest := if x.last then c.oldest else max c.oldest (x.shot + 1) },
        moveDiscard, each ce fun e => caskCorrected e.1 e.2.1 e.2.2,
        match ue with | some f => commitFault x f | none => .nop]
    | [] => .nop) s

end Sys2Proof.Machine
end

