-- ==== Sys2Proof/Machine/Shots.lean ====
section
/-! DEFINITION. Triggers, take points, strobes, seals and the end of a stripe (R19, R48 to R52, R137, R140, R167 to R172, R214
to R221, R227, R236), and the meanings of EDGE_FREEZE, STROBE_EDGE, TAKE_POINT, SEAL_ISSUE and SEAL_DEADLINE. -/

namespace Sys2Proof.Machine

/-- One TIME tick in PT units. -/
def tick : Int := 65536

/-- The first tick boundary at or after a PT. -/
def ceilTick (p : Int) : Int := -((-p).fdiv tick) * tick

/-- 40 ns in PT units (R219). -/
def freezeLead : Int := 10 * tick

/-- Nanoseconds in PT units. -/
def nsUnits (n : Nat) : Int := (n * 16384 : Nat)

/-- SHT_SEAL_LEAD in PT units. -/
def State.sealLead (s : State) : Int := nsUnits (s.fld F.SHT_SEAL_LEAD_NS)

/-- A verdict under which the edge is driven (R170): AGREE, SOLE, SOLO or WITHDRAW. -/
def drives (v : Nat) : Bool := v == 1 || v == 2 || v == 3 || v == 8

/-! ### Deadlines and seals (R167, R168) -/

/-- A shot has no seal, is not withheld and lies below a stop. -/
def State.unsealed (s : State) (k : Nat) : Bool :=
  (s.shotRec k).sealed.isNone && !s.heldFrom k && !s.stoppedAt k && s.run.isSome

/-- The deadline of a shot passes without its seal (R168): a late frame where some lane has not sent, else a late seal. -/
def missDeadline (k : Nat) : Act := .dyn fun s =>
  on (s.unsealed k) (withhold k (if (s.shotRec k).allSent then 1 else 3) true)

/-- SEAL_DEADLINE (R168, R219): the deadline of the armed index moves with its prediction. -/
def execSealDeadline (s : State) : Host.Outcome State Fault Refusal :=
  perform (.dyn fun s =>
    match s.b.sht.pred with
    | some e =>
      let k := s.b.sht.next
      on (s.b.sht.armed && decide ((s.b.sht.runStart : Int) ≤ k) && s.unsealed k.toNat)
        (.seq (advanceTo (e - s.sealLead)) (missDeadline k.toNat))
    | none => .nop) s

/-- SEAL_ISSUE (R166, R167): the seal of the lowest shot not strobed, once its frames are sent and its verdict settled. -/
def execSealIssue (s : State) : Host.Outcome State Fault Refusal :=
  perform (.dyn fun s =>
    let k := s.b.sht.first
    let x := s.shotRec k
    match x.verdict with
    | some v => on (drives v && x.allSent && s.unsealed k) (sealShot k v)
    | none => .nop) s

/-! ### Triggers (R219, R221, R227) -/

/-- A trigger of a shot that is withheld: it is held in the SHOT ledger until it is resolved, its HOLD seal follows
(R172, R217). -/
def heldTrigger (k : Nat) : Act := .dyn fun s =>
  let cause := match s.b.sht.floor with | some f => ((s.shotRec f).withheld).getD 0 | none => 0
  on (s.heldFrom k && (s.shotRec k).withheld.isNone)
    (acts [putRec k fun x => { x with withheld := some cause, rexp := true }, noteUnresolved k,
      holdSeals (s.b.sht.recs.length + 1) k])

/-- The edge of a triggered shot came earlier than its seal allows (R170). -/
def lateMove (k : Nat) (edge : Int) : Act := .dyn fun s =>
  match (s.shotRec k).sealed with
  | some v => on (drives v.1 && decide (edge - v.2 < s.sealLead) && !s.heldFrom k)
      (acts [addR R.SHT_LATE_MOVE 1, raise E.SHT_LATE_MOVE, withhold k 1 true])
  | none => .nop

/-- Shot `k` is triggered with the edge at `edge` (R219, R221, R227): every trigger is booked once. -/
def trigger (k : Nat) (edge : Int) (fast : Bool) : Act := .dyn fun s =>
  acts [bookIn .shot 1, putRec k fun x => { x with triggered := true },
    if s.stoppedAt k then
      acts [putRec k fun x => { x with withheld := some 0 }, noteUnresolved k, abandonShots, holdSeals (s.b.sht.recs.length + 1) k]
    else
      acts [on fast (acts [addR R.SHT_OVERSPEED_CNT 1, raise E.SHT_OVERSPEED, withhold k 4 true]), missDeadline k,
        lateMove k edge, heldTrigger k, rackDue]]

/-- T_min in PT units (R17, R221). -/
def State.tMinUnits (s : State) : Int := nsUnits s.tMin

/-- A quantity in the scan direction. -/
def scan (rev : Bool) (x : Int) : Int := if rev then -x else x

/-- The index at hand is frozen at an edge time: it is recorded, and a shot is triggered (R214, R219, R221). -/
def freezeIndex (k : Int) (edge : Int) (late : Bool) : Act := .dyn fun s =>
  let b := s.b.sht
  let shot := decide ((b.runStart : Int) ≤ k)
  let fast := late || (decide ((b.runStart : Int) < k) && match b.lastEdge with
    | some e => decide (edge - e < s.tMinUnits)
    | none => false)
  let cross := match s.run with
    | some r => if shot && !late then [(edge, scan r.stripe.rev (shotPos r.stripe.rev r.stripe.y0 s.step k), r.stripe.rev)] else []
    | none => []
  acts [onSht fun x => { x with
      frozen := x.frozen ++ [(k, edge)], armed := false, pred := none, next := k + 1, prevEdge := x.lastEdge, lastEdge := some edge
      crossWait := x.crossWait ++ cross, freezeWait := false, reached := false, beyond := false },
    on (shot && !late) (acts [setR R.SHT_EDGE_LO (ofSigned 64 edge % 2 ^ 32), setR R.SHT_EDGE_HI (ofSigned 64 edge / 2 ^ 32)]),
    on shot (trigger k.toNat edge fast)]

/-- The tick at which an edge is frozen: the first that begins at or after E − 40 ns (R219). -/
def freezeTick (e : Int) : Int := ceilTick (e - freezeLead)

/-- The next sample's arrival falls in the tick that begins at a PT (R219). -/
def State.sampleIn (s : State) (t : Int) : Bool :=
  s.flag F.POS_STAT_JRX_UP && s.powered 5 && decide (t ≤ s.sampleArrival s.b.pos.n) && decide (s.sampleArrival s.b.pos.n < t + tick)

/-- EDGE_FREEZE (R219): in the first tick that begins at or after E − 40 ns, and after a sample that arrives in it. -/
def execEdgeFreeze (s : State) : Host.Outcome State Fault Refusal :=
  perform (.dyn fun s =>
    match s.b.sht.pred with
    | some e => on (s.b.sht.active && s.b.sht.armed)
        (.seq (advanceTo (freezeTick e))
          (if s.sampleIn (freezeTick e) && !s.b.sht.freezeWait then onSht fun b => { b with freezeWait := true }
          else freezeIndex s.b.sht.next e false))
    | none => .nop) s

/-- The freeze that waits for the sample of its tick (R219): made unless the sample has moved it to a later tick. -/
def freezeAfter (arrival : Int) : Act := .dyn fun s =>
  on s.b.sht.freezeWait
    (.seq (onSht fun b => { b with freezeWait := false })
      (match s.b.sht.pred with
        | some e => on (s.b.sht.active && s.b.sht.armed && decide (freezeTick e ≤ arrival)) (freezeIndex s.b.sht.next e false)
        | none => .nop))

/-! ### Taking frames (R137, R172, R275) -/

/-- The plate link takes the frames of shot `m`: its data where they are complete, HOLD frames where it is withheld or the
device is withdrawn; frames that are not complete withhold the shot (R137). A shot that a stop withholds has HOLD frames too
(R172), until the lanes carry fill in DRAINING (R18). -/
def takeShot (m : Nat) : Act := .dyn fun s =>
  match s.run, s.b.lat.cap with
  | some r, some t =>
    let ready := match s.slot m with | some x => x.complete | none => false
    if r.stripe.shots ≤ m then .nop
    else if s.stoppedAt m then on (s.dev == .writing) (acts [takeFrames m true,
      putRec m fun x => { x with withheld := some 0 }, holdSeals (s.b.sht.recs.length + 1) m])
    else if s.heldFrom m ∨ s.b.par.wdSelf ∨ (s.shotRec m).det.isSome then takeFrames m true
    else if ready then takeFrames m false
    else .seq (takeFrames m true)
      (withhold m (if (s.slot m).isNone && !rowsReady t r m then 5 else 3) true)
  | _, _ => .nop

/-! ### The strobe (R48 to R51, R140, R170, R171, R227) -/

/-- Drive the strobe of one half, where its output is enabled, with its own trim (R171); its ACK is awaited (R176). -/
def driveHalf (half : Nat) (en trim : Fld) (k stripe : Nat) (edge : Int) (exposing : Bool) : Act := .dyn fun s =>
  let e := edge + (s.fld trim * 2048 : Nat)
  on (s.flag en) (.seq (.emit (.strobe half e (max 8 (s.fld F.PLK_STB_WIDTH))))
    (onPlk fun p => { p with acks := p.acks ++ [⟨half, k, stripe, exposing, e⟩] }))

/-- REASON of a short pixel (R50): 0 bound exceeded, 1 SAT read, 2 both. -/
def Close.reason (c : Close) : Nat :=
  let out := decide (c.lees8 < -8) || decide (8 < c.lees8)
  if c.satRead then (if out then 2 else 1) else 0

/-- A short pixel's record and events (R50, R51, R57). -/
def shortRecord (r : Run) (c : Close) : Act := .dyn fun s =>
  let bytes := leBytes 4 r.stripe.num ++ leBytes 4 c.y ++ leBytes 2 (c.reason * 2 ^ 14 + c.x) ++
    [ofSigned 8 c.lees8, 0] ++ leBytes 2 ((if r.stripe.rev then 2 ^ 15 else 0) + c.beam / 512) ++ leBytes 2 (c.beam % 512)
  let lost := .seq (addR R.LAT_SHORT_LOST 1) (raise E.LAT_SHORT_LOST)
  acts [addR R.LAT_SHORT_CNT 1, if s.flag F.LAT_SHORT_RING_EN then recordTo (s.fld F.LAT_SHORT_RING_RING) bytes lost else lost,
    raise E.LAT_SHORT_PIXEL]

/-- Close the pixels of a shot at its strobe, in closing order (R48 to R51). -/
def closePixels (r : Run) (cs : List Close) : Act :=
  acts [bookIn .dose cs.length, bookOut .dose (cs.filter fun c => c.exact).length,
    each (cs.filter fun c => !c.exact) (shortRecord r)]

/-- The taps commit the slot of shot `k` (R140); a withdrawn shot, or one without a slot, commits nothing, and the discard
pointer advances all the same (R275, R276). -/
def commitShot (r : Run) (k verdict : Nat) : Act := .dyn fun s =>
  match s.slot k with
  | some x =>
    .seq (onCask fun c =>
        { c with
          slots := c.slots.filter fun y => y.shot != k, oldest := max c.oldest (k + 1)
          draining := if verdict = 8 then c.draining else c.draining ++ [x] })
      (if verdict = 8 then moveDiscard else closePixels r x.closes)
  | none => .seq (onCask fun c => { c with oldest := max c.oldest (k + 1), nextShot := max c.nextShot (k + 1) }) moveDiscard

/-- Shot `k` is strobed: both halves fire, the shot and its earlier triggers are resolved, and its lees are committed
(R140, R170, R171, R227, R277). -/
def strobeShot (r : Run) (k verdict : Nat) (edge : Int) : Act := .dyn fun s =>
  let n := (s.b.sht.unresolved.filter fun x => x == k).length
  acts [driveHalf 0 F.PLK_STB_EN_A F.PLK_STB_TRIM_A k r.stripe.num edge (verdict != 8),
    driveHalf 1 F.PLK_STB_EN_B F.PLK_STB_TRIM_B k r.stripe.num edge (verdict != 8),
    bookOut .shot (1 + n), commitShot r k verdict,
    onSht fun b =>
      { b with
        unresolved := b.unresolved.filter fun x => x != k
        resolved := b.resolved + n
        reexposed := b.reexposed + n
        first := k + 1
        recs := b.recs.filter fun x => x.shot != k
        rackN := if b.rackN == some k then none else b.rackN },
    onPar fun p => { p with defer := if p.defer == some k then none else p.defer },
    safePoint]

/-! ### The end of a stripe (R19, R80, R146, R151, R236, R248, R275, R289) -/

/-- The shot unit between stripes. -/
def resetShots : Act := onSht fun b =>
  { b with
    active := false, armed := false, pred := none, frozen := [], recs := [], first := 0, takeNext := 0, floor := none
    reentered := none, stopFrom := none, rackN := none, rackTimes := 0, rackWait := none, freezeWait := false }

/-- The stripe at hand ends for the taps: those that failed in a pair retire, and where the stripe has ended those with more than 16 passed
retries; the count of retries starts anew (R146, R151, R153). -/
def retireTaps (ended : Bool) : Act := .dyn fun s =>
  let worn := (List.range 68).filter fun t => ended && decide (16 < s.fld (F.TP_STAT_RETRIES t))
  acts [onCask fun c => { c with retireAtEnd := [] }, each (List.range 68) fun t => setF (F.TP_STAT_RETRIES t) 0,
    each ((s.b.cask.retireAtEnd ++ worn).dedup) retireTap]

/-- Remove a stripe's entry from the job queue (R236). -/
def dropEntry (stripe : Nat) : Act := onJob fun j => { j with queue := j.queue.filter fun e => e.stripe != stripe }

/-- The pair's account of a stripe: withdrawal and DEFER end with it, and a STANDBY counts clean stripes (R275, R277,
R289). -/
def pairStripeEnd : Act := onPar fun p =>
  { p with
    wdSelf := false, wdMate := false, defer := none, sigNext := 0
    cleanStripes := if p.dirty then 0 else p.cleanStripes + 1
    dirty := false }

/-- The job goes on after a stripe: neither its last one nor a stop, and the next entry can be written (R19, R80, R235). -/
def State.goesOn (s : State) (r : Run) : Bool :=
  !r.stripe.last && !s.b.job.stopEnd && match s.entryAfter r.stripe.num with
    | some e => !e.missing && !e.outOfTravel
    | none => true

/-- The last shot of a stripe has been strobed (R19, R117, R236): its bin is freed, and the job goes on or ends. -/
def stripeDone (r : Run) : Act := .dyn fun s =>
  let goes := s.goesOn r
  acts [freeBin r.stripe.bin, dropEntry r.stripe.num, onPress fun p => { p with runs := p.runs.tail },
    onCask fun c => { c with nextShot := 0, oldest := 0 }, moveDiscard,
    resetShots, pairStripeEnd, retireTaps true, addR R.JOB_DONE_CNT 1, raise E.JOB_STRIPE_DONE,
    on r.stripe.last (raise E.JOB_JOB_DONE),
    on (s.dev == .writing && !goes) (.seq (enter .draining) (onJob fun j => { j with stopEnd := false }))]

/-- Crossing a shot's position (R19): the first shot of a job takes the device to WRITING, the first withheld shot takes it from
RACKING back to WRITING. -/
def crossShot (k : Nat) : Act := .dyn fun s =>
  if s.dev = .armed ∧ s.b.job.disarming = false then enter .writing
  else if s.dev = .racking ∧ s.b.sht.reentered = some k then
    acts [enter .writing, onSht fun b => { b with reentered := none },
      onMot fun m => { m with rackPart := 0, phase := if m.phase = .rack then .write else m.phase }]
  else .nop

/-- What waited for WRITING, or for an edge to pass (R19, R22, R252): a racking trigger first, then a stop at a safe point. -/
def afterEdge : Act := .seq rackDue (.dyn fun s =>
  on (s.b.job.pendSafe && s.dev != .armed) (.seq (onJob fun j => { j with pendSafe := false }) stopSafe))

/-- STROBE_EDGE (R18, R170): at a frozen edge time in WRITING the strobe is driven if the shot is not withheld, and the frames
of the shot two on are taken. -/
def execStrobeEdge (s : State) : Host.Outcome State Fault Refusal :=
  perform (.dyn fun s =>
    match s.b.sht.frozen, s.run with
    | (k, edge) :: rest, some r =>
      let n := k.toNat
      if k < s.b.sht.runStart then .nop
      else
        acts [advanceTo edge, onSht fun b => { b with frozen := rest }, crossShot n,
          .dyn fun t =>
            match (t.shotRec n).sealed with
            | some v =>
              let go := drives v.1 && !t.heldFrom n && !t.stoppedAt n && t.dev == .writing
              acts [on go (strobeShot r n v.1 edge), takeShot (n + 2), on (go && n + 1 == r.stripe.shots) (stripeDone r)]
            | none => takeShot (n + 2), afterEdge]
    | _, _ => .nop) s

/-- Re-entry (R217, R253): at the take point P_{N-2} the frames of N are taken again, and the shots from N stand as not
yet sent. -/
def reenter (n : Nat) : Act :=
  acts [onSht fun b =>
      { b with
        floor := none, reentered := some n, takeNext := n
        recs := b.recs.map fun x => if x.shot < n then x else
          { x with
            taken := false, hold := false, count := 0, unsent := [], sealed := none, withheld := none, triggered := false
            verdict := none } },
    raise E.MOT_RACK_REENTRY]

/-- TAKE_POINT (R137, R214): at the edge time of a take point, the frames of the shot two on. -/
def execTakePoint (s : State) : Host.Outcome State Fault Refusal :=
  perform (.dyn fun s =>
    match s.b.sht.frozen with
    | (k, edge) :: rest =>
      if (s.b.sht.runStart : Int) ≤ k then .nop
      else
        acts [advanceTo edge, onSht fun b => { b with frozen := rest },
          on (s.dev == .racking && k + 2 == s.b.sht.runStart) (reenter s.b.sht.runStart), takeShot (k + 2).toNat]
    | [] => .nop) s

end Sys2Proof.Machine
end

