-- ==== Sys2Proof/Machine/Position.lean ====
section
/-! DEFINITION. Position measurement, prediction, following error and the Heydemann correction (R197 to R222, R228, R249,
R263), and the meanings of the POS and CAL pages' commands and of POS_SAMPLE. -/

namespace Sys2Proof.Machine

/-! ### Axes -/

/-- One axis. -/
def PosBlk.axis (p : PosBlk) (i : Nat) : Axis := if i = 0 then p.ax0 else if i = 1 then p.ax1 else if i = 2 then p.ax2 else p.ax3

/-- Change one axis. -/
def PosBlk.setAxis (p : PosBlk) (i : Nat) (f : Axis → Axis) : PosBlk :=
  if i = 0 then { p with ax0 := f p.ax0 } else if i = 1 then { p with ax1 := f p.ax1 }
  else if i = 2 then { p with ax2 := f p.ax2 } else { p with ax3 := f p.ax3 }

/-- Change one axis of the state. -/
def onAxis (i : Nat) (f : Axis → Axis) : Act := onPos fun p => p.setAxis i f

/-- The four axes. -/
def axisList : List Nat := [0, 1, 2, 3]

/-- An axis is valid (R203). -/
def State.axisValid (s : State) (i : Nat) : Bool :=
  s.flag F.POS_STAT_JRX_UP && s.flag F.POS_STAT_SYSREF_OK && !(s.b.pos.axis i).lost

/-- A mask of axes with a property. -/
def axisMask (f : Nat → Bool) : Nat := (axisList.map fun i => if f i then 2 ^ i else 0).sum

/-- A loss of position where shots are at stake is a fault without a recovery path (R19, R203). -/
def axisFault (i : Nat) : Act := .dyn fun s => on s.inJob (faultEntry 4 0xB0 i)

/-! ### The correction (R201, R211) -/

/-- A parameter on its way, `k` of `n` steps done. -/
def between (a b : Int) (k n : Nat) : Int := a + ((b - a) * k).fdiv (max 1 n : Nat)

/-- The parameters in force (R201, R211). -/
def Axis.params (x : Axis) : Hey :=
  match x.ramp with
  | some r =>
    if r.total ≤ r.done then r.dst
    else ⟨between r.src.p r.dst.p r.done r.total, between r.src.qo r.dst.qo r.done r.total,
      (between r.src.r r.dst.r r.done r.total).toNat, between r.src.s r.dst.s r.done r.total⟩
  | none => x.cur

/-- C = 1/√(1 − S²) as unsigned 2.14, to nearest (R201). -/
def heyC (sv : Int) : Nat :=
  let d := (2 ^ 30 - sv * sv).toNat
  if d = 0 then Config.cAtMinusOne % 65536 else min ((Nat.sqrt (2 ^ 60 / d) + 1) / 2) 0xFFFF

/-- (I', Q') of a sample, both times 2²⁹, exact (R201). -/
def heyApply (h : Hey) (i q : Int) : Int × Int :=
  let di := i - h.p
  (di * 2 ^ 29, (heyC h.s : Int) * (2 * (h.r : Int) * (q - h.qo) - h.s * di))

/-- The first `n` bits of the binary fraction that an angle is of a full turn: squaring a complex number doubles its
angle. -/
def angleBits : Nat → Int × Int → Nat → Nat
  | 0, _, acc => acc
  | n + 1, (x, y), acc =>
    angleBits n (x * x - y * y, 2 * x * y) (2 * acc + (if y < 0 ∨ (y = 0 ∧ x < 0) then 1 else 0))

/-- φ in counts of 1/4096 fringe, to nearest (R201). -/
def phase (z : Int × Int) : Nat := (angleBits 13 z 0 + 1) / 2 % 4096

/-- A phase step reduced to −2048 … 2047 (R202). -/
def unwrap (d : Int) : Int := (d + 2048) % 4096 - 2048

/-! ### Estimation (R207 to R209) -/

/-- A good sample in its sector. -/
def Sector.add (x : Sector) (i q : Int) : Sector :=
  ⟨x.n + 1, x.i + i, x.q + q, x.ii + i * i, x.qq + q * q, x.iq + i * q⟩

/-- One sector of a window. -/
def sectorOf (w : List (Nat × Sector)) (k : Nat) : Sector := spGet (fun _ => {}) w k

/-- Every sector and the total hold enough samples (R207). -/
def State.windowFull (s : State) (w : List (Nat × Sector)) : Bool :=
  let min := s.fld F.POS_EST_CFG_MIN
  ((List.range 64).all fun k => decide (min ≤ (sectorOf w k).n)) &&
    decide (256 * s.fld F.POS_EST_CFG_N ≤ (w.map fun e => e.2.n).sum)

/-- Count in a 16-bit field, saturating. -/
def satF (f : Fld) : Act := .dyn fun s => setF f (min (s.fld f + 1) (2 ^ f.width - 1))

/-- The mean over the 64 sectors of each sector's mean (R208). -/
def sectorMean (w : List (Nat × Sector)) (f : Sector → Int) : Rat :=
  ((List.range 64).map fun k => (f (sectorOf w k) : Rat) / ((sectorOf w k).n : Rat)).sum / 64

/-- S of R208 in units of 2⁻¹⁵, rounded down: cIQ / √(vI · vQ). -/
def quadUnits (vI vQ cIQ : Rat) : Int :=
  let t := cIQ * cIQ * 2 ^ 30 / (vI * vQ)
  let r := Nat.sqrt t.floor.toNat
  if 0 ≤ cIQ then r else if (r * r : Rat) = t then -r else -(r : Int) - 1

/-- P, Qo, R and S that a closed window gives (R208), in the units of the registers and rounded down; none where a sector is
empty or a root has no value. -/
def windowFit (w : List (Nat × Sector)) : List (Option Int) :=
  if (List.range 64).any fun k => (sectorOf w k).n == 0 then [none, none, none, none]
  else
    let p := sectorMean w Sector.i
    let qo := sectorMean w Sector.q
    let vI := sectorMean w Sector.ii - p * p
    let vQ := sectorMean w Sector.qq - qo * qo
    let cIQ := sectorMean w Sector.iq - p * qo
    [some p.floor, some qo.floor, if vQ = 0 then none else some (Nat.sqrt (vI / vQ * 2 ^ 28).floor.toNat),
      if vI * vQ = 0 then none else some (quadUnits vI vQ cIQ)]

/-- A candidate's parameter after a window (R209): it moves by 2^−K of the difference. The unit that rounding may add, and a
value that the field does not hold, are free values. The answer is the field's 16 bits. -/
def candidateStep (draw k par : Nat) (signed : Bool) (old : Int) (win : Option Int) : Nat :=
  match win with
  | some v =>
    let x := old + (v - old) / 2 ^ k + (if Config.candidateUp par draw then 1 else 0)
    let lo : Int := if signed then -32768 else 0
    let hi : Int := if signed then 32767 else 65535
    if lo ≤ x ∧ x ≤ hi then ofSigned 16 x else (Config.candidateOpen par draw).toNat
  | none => (Config.candidateOpen par draw).toNat

/-- Close an axis's window where it is full (R207 to R209). -/
def closeWindow (i : Nat) : Act := .dyn fun s =>
  let w := (s.b.pos.axis i).win
  let fit := windowFit w
  let pq := s.rd (R.AX_CAND_PQ i)
  let rs := s.rd (R.AX_CAND_RS i)
  let next := fun par (signed : Bool) (old : Int) =>
    candidateStep s.fresh (s.fld F.POS_EST_CFG_K) par signed old (fit.getD par none)
  on (s.windowFull w)
    (acts [setR (R.AX_CAND_PQ i) (next 0 true (toSigned 16 (pq / 2 ^ 16)) * 2 ^ 16 + next 1 true (toSigned 16 (pq % 2 ^ 16))),
      setR (R.AX_CAND_RS i) (next 2 false (rs / 2 ^ 16 : Nat) * 2 ^ 16 + next 3 true (toSigned 16 (rs % 2 ^ 16))), .draw,
      setB (F.AX_STAT_CAND_VALID i) true, satF (F.AX_WIN_CLOSED i), onAxis i fun x => { x with win := [] }])

/-- EST_DISCARD (R207): a window that has not closed within 100 ms. -/
def execEstDiscard (ax : Fin 4) (s : State) : Host.Outcome State Fault Refusal :=
  perform (acts [onAxis ax fun x => { x with win := [] }, satF (F.AX_WIN_DISCARDED ax), raise E.POS_EST_DISCARD]) s

/-! ### One axis's part of a sample (R201 to R203) -/

/-- Raw I and Q of an axis, exchanged by SWAPIQ (R198). -/
def State.rawIQ (s : State) (x : Sample) (i : Nat) : Int × Int :=
  let p : BitVec 16 × BitVec 16 :=
    if i = 0 then (x.i0, x.q0) else if i = 1 then (x.i1, x.q1) else if i = 2 then (x.i2, x.q2) else (x.i3, x.q3)
  if s.flag (F.AX_CTRL_SWAPIQ i) then (p.2.toInt, p.1.toInt) else (p.1.toInt, p.2.toInt)

/-- Whether a sample is good on an axis, its phase and whether it slipped (R202). -/
def State.judge (s : State) (i : Nat) (iq : Int × Int) (crcBad : Bool) : Bool × Nat × Bool :=
  let a := s.b.pos.axis i
  let z := heyApply a.params iq.1 iq.2
  let rho := (z.1 * z.1 + z.2 * z.2).toNat
  let lim := fun r : Nat => (r * 2 ^ 29) * (r * 2 ^ 29)
  let inside := decide (lim (s.fld F.POS_RLIM_RMIN) ≤ rho) && decide (rho ≤ lim (s.fld F.POS_RLIM_RMAX))
  let phi := phase z
  let slip := match a.phi with | some p => decide (1024 < (unwrap ((phi : Int) - p)).natAbs) | none => false
  (inside && !slip && !crcBad, phi, slip)

/-- ρ in raw units, truncated, saturating. -/
def radius (z : Int × Int) : Nat := min (Nat.sqrt ((z.1 * z.1 + z.2 * z.2).toNat) / 2 ^ 29) 0xFFFF

/-- One step of a running ramp (R211). -/
def rampStep (x : Axis) : Axis :=
  match x.ramp with
  | some r => { x with ramp := some { r with done := min (r.done + 1) r.total } }
  | none => x

/-- An axis takes its part of a sample: a good one moves the count and joins the window, the fourth bad one in a row
loses the axis (R202, R203, R207). -/
def axisSample (i : Nat) (x : Sample) (crcBad : Bool) : Act := .dyn fun s =>
  let iq := s.rawIQ x i
  let j := s.judge i iq crcBad
  let a := s.b.pos.axis i
  let valid := s.axisValid i
  let step := match a.phi with | some p => unwrap ((j.2.1 : Int) - p) | none => 0
  acts [setF (F.AX_STAT_RADIUS i) (radius (heyApply a.params iq.1 iq.2)),
    on j.2.2 (.seq (setB (F.AX_STAT_SLIP i) true) (raise E.POS_SLIP)),
    if a.lost then .nop
    else if j.1 then
      .seq (onAxis i fun y =>
        { y with
          cnt := toSigned 48 (ofSigned 48 (y.cnt + step)), phi := some j.2.1, badRun := 0
          win := spPut (fun _ => {}) y.win (j.2.1 / 64) ((sectorOf y.win (j.2.1 / 64)).add iq.1 iq.2) })
        (closeWindow i)
    else if a.badRun + 1 < 4 then onAxis i fun y => { y with badRun := y.badRun + 1 }
    else acts [onAxis i fun y => { y with badRun := y.badRun + 1, lost := true }, raise E.POS_AXIS_LOST, on valid (axisFault i)],
    onAxis i rampStep]

/-! ### Position (R204 to R206) -/

/-- K of an axis (R204). -/
def State.axisK (s : State) (i : Nat) : Nat :=
  let fold := s.fld (F.AX_CTRL_FOLD i)
  let den := (if 1 ≤ fold ∧ fold ≤ 8 then fold else 4) * 4096 * s.rd R.POS_PIXEL
  if den = 0 then 0 else (2 * s.rd (R.AX_LAMBDA i) * 2 ^ 48 + den) / (2 * den) % 2 ^ 48

/-- An axis's origin (R204). -/
def State.origin (s : State) (i : Nat) : Int := toSigned 48 (s.fld (F.AX_ORG_HI_VALUE i) * 2 ^ 32 + s.rd (R.AX_ORG_LO i))

/-- An axis's position in 2⁻¹⁶ pixel (R204). -/
def State.axisPos (s : State) (i : Nat) : Int :=
  let c := (s.b.pos.axis i).cnt
  (((if s.flag (F.AX_CTRL_NEG i) then -c else c) - s.origin i) * s.axisK i).fdiv (2 ^ 32)

/-- Set an axis's origin, a 48-bit count (R204). -/
def setOrigin (i : Nat) (org : Int) : Act :=
  .seq (setR (R.AX_ORG_LO i) (ofSigned 48 org % 2 ^ 32)) (setF (F.AX_ORG_HI_VALUE i) (ofSigned 48 org / 2 ^ 32))

/-- A quotient rounded to nearest, a tie towards plus infinity. -/
def divNear (n d : Int) : Int := if d = 0 then 0 else (2 * n + d).fdiv (2 * d)

/-- Yc (R205). -/
def State.yc (s : State) : Int :=
  (s.axisPos 0 + s.axisPos 1).fdiv 2 + divNear ((s.axisPos 0 - s.axisPos 1) * s.signedReg R.POS_ARM) (s.rd R.POS_BASE)

/-- Xc (R205). -/
def State.xc (s : State) : Int := (s.axisPos 2 + s.axisPos 3).fdiv 2

/-- The yaw level (R206): |yaw| in µrad compared with a number, as |Y1 − Y2| · 10⁶ against n · BASE. -/
def State.yawOver (s : State) (num den : Nat) : Bool :=
  s.rd R.POS_BASE != 0 &&
    decide (s.rd R.POS_YAW_LIM * s.rd R.POS_BASE * 65536 * num < (s.axisPos 0 - s.axisPos 1).natAbs * 1000000 * den)

/-- Yaw: POS_YAW, and YAW once above the limit until it falls below 90 % of it (R205, R206). -/
def yawCheck : Act := .dyn fun s =>
  let nrad := divNear ((s.axisPos 0 - s.axisPos 1) * 1000000000) (s.rd R.POS_BASE * 65536 : Nat)
  let low := !s.yawOver 9 10 && !(s.rd R.POS_BASE != 0 &&
    decide (s.rd R.POS_YAW_LIM * s.rd R.POS_BASE * 65536 * 9 = (s.axisPos 0 - s.axisPos 1).natAbs * 1000000 * 10))
  acts [setR R.POS_YAW (ofSigned 32 nrad),
    if s.yawOver 1 1 && s.b.pos.yawArmed then
      acts [onPos fun p => { p with yawArmed := false }, raise E.POS_YAW, on (s.flag F.POS_CFG_YAW_STOP) stopSafe]
    else on low (onPos fun p => { p with yawArmed := true })]

/-! ### Prediction (R215 to R219, R222) -/

/-- The index band B in 2⁻¹⁶ pixel (R215). -/
def State.band (s : State) : Int := (s.fld F.SHT_BACKLASH_COUNTS * (s.axisK 0 + s.axisK 1) : Nat) / 2 ^ 33

/-- Picoseconds in PT units, rounded to nearest, ties upward (R218). -/
def psUnits (ps : Int) : Int := (2 * ps * 16384 + 1000).fdiv 2000

/-- The delay of the scan direction (R218). -/
def State.delay (s : State) (rev : Bool) : Int :=
  psUnits (toSigned 16 (if rev then s.fld F.SHT_DELAY_DLY_R else s.fld F.SHT_DELAY_DLY_F))

/-- predict() of R218: the velocity in pixels per tick · 2³² and the edge; none where it returns false. -/
def predictEdge (pk yn yw tn : Int) (wts : Nat) (a dly : Int) : Option (Int × Int) :=
  let v := ((yn - yw) * 2 ^ 40).tdiv wts + (a * wts).fdiv (2 ^ 41)
  if v ≤ 0 then none
  else
    let tau := ((pk - yn) * 2 ^ 32).tdiv v
    if 1024 * 65536 < tau then none
    else
      let sq := (tau * tau).fdiv 65536
      some (v, (tn + (tau - ((a * sq).tdiv v).fdiv (2 ^ 17)) + dly + 1024).fdiv 2048 * 2048)

/-- Setpoint acceleration in pixels per tick² · 2⁴⁸, to nearest (R218). -/
def accelUnits (a : Rat) : Int := (a * 16 / 1000000000000000000 * (2 ^ 48 : Nat) + 1 / 2).floor

/-- The prediction of index `k` from sample `n` (R218): both samples good, the newest at the head of the history. -/
def State.prediction (s : State) (r : Run) (k : Int) : Option (Int × Int) :=
  let w := 2 ^ s.fld F.SHT_CFG_VWIN
  match s.b.pos.hist.head?, s.b.pos.hist[w]? with
  | some now, some old =>
    if now.2.2 && old.2.2 && old.1 + w == now.1 then
      let rev := r.stripe.rev
      let tn := s.sampleTime now.1
      predictEdge (scan rev (shotPos rev r.stripe.y0 s.step k)) (scan rev now.2.1) (scan rev old.2.1) tn
        (s.rd R.POS_TS * w) (scan rev (accelUnits (s.setpointAt (s.trajAt tn)).2.2)) (s.delay rev)
    else none
  | _, _ => none

/-- A new prediction of the armed index (R219, R222): it replaces the one before where an edge can still be placed; a crossing sooner
than that is triggered at once. A sample that arrives at or after E − 40 ns and moves the edge to no later time leaves the standing
edge, which is frozen: R219 names R222 for such a sample, but the worked example of R222 calls one "too late to move the edge" and
strobes the shot (DEDUCED from it). A sample that arrives after the tick of the freeze does nothing. -/
def takePrediction (r : Run) (arrival : Int) : Act := .dyn fun s =>
  let b := s.b.sht
  match s.prediction r b.next with
  | some (v, e) =>
    let due := match b.pred with | some old => decide (old - freezeLead ≤ arrival) | none => false
    let past := match b.pred with | some old => decide (freezeTick old + tick ≤ arrival) | none => false
    if past then .nop
    else if arrival + freezeLead ≤ e then
      .seq (onSht fun x => { x with pred := some e, lastVel := v.fdiv 256 }) (setR R.POS_VEL (ofSigned 32 (v.fdiv 256)))
    else on (!due) (freezeIndex b.next e true)
  | none => .nop

/-- The distance of Yc past the position of an index, in the scan direction. -/
def State.past (s : State) (r : Run) (k : Int) : Int :=
  scan r.stripe.rev (s.b.pos.yc - shotPos r.stripe.rev r.stripe.y0 s.step k)

/-- The stage has gone back past the last index (R216). -/
def reverseSeen : Act := .seq (addR R.SHT_REVERSE_CNT 1) (raise E.SHT_REVERSE)

/-- A racking's reversal takes Yc back beyond the last index triggered before it (R216). -/
def reverseWatch (r : Run) : Act := .dyn fun s =>
  match s.b.sht.backOf with
  | some k => on (decide (s.past r k < -s.band)) (.seq (onSht fun x => { x with backOf := none }) reverseSeen)
  | none => .nop

/-- Arm the index at hand where it may be armed (R215 to R217). -/
def armIndex (r : Run) : Act := .dyn fun s =>
  let b := s.b.sht
  let d := s.past r (b.next - 1)
  let band := s.band
  if b.needBack then
    on (decide (s.past r b.next < -band)) (onSht fun x => { x with needBack := false, armed := true })
  else if b.armed then
    on (decide ((b.runStart : Int) - 2 < b.next) && decide (d < -band))
      (.seq (onSht fun x => { x with armed := false, pred := none, reached := false, beyond := false }) reverseSeen)
  else if band < d then onSht fun x => { x with armed := true, reached := false, beyond := false }
  else if d < -band then .seq (on b.reached reverseSeen) (onSht fun x => { x with reached := false, beyond := false })
  else if 0 ≤ d then onSht fun x => { x with reached := true, beyond := true }
  else .seq (on b.beyond (addR R.SHT_BACKLASH_CNT 1)) (onSht fun x => { x with reached := true, beyond := false })

/-- The two samples, the newest and the good one before it, span a crossing of `pk` in the scan direction. -/
def spans (old now : Nat × Int × Bool) (pk : Int) (rev : Bool) : Bool :=
  now.2.2 && decide (scan rev old.2.1 < pk) && decide (pk ≤ scan rev now.2.1)

/-- The crossing that two samples span, interpolated linearly and with dly added, less the frozen edge, in ps to nearest
(R229; the rounding is not stated: DESIGN CHOICE). -/
def State.predError (s : State) (old now : Nat × Int × Bool) (edge pk : Int) (rev : Bool) : Int :=
  let u1 := scan rev old.2.1
  let u2 := scan rev now.2.1
  let t1 : Rat := (s.sampleTime old.1 : Int)
  let t2 : Rat := (s.sampleTime now.1 : Int)
  let tc := t1 + (t2 - t1) * ((pk - u1 : Int) : Rat) / ((u2 - u1 : Int) : Rat) + (s.delay rev : Int)
  ((tc - (edge : Int)) * 4000 / 65536 + 1 / 2).floor

/-- SHT_PRED_ERR once the samples span the crossing of a triggered shot, the last of a stripe too (R229). -/
def crossError : Act := .dyn fun s =>
  match s.b.pos.hist.head?, (s.b.pos.hist.drop 1).find? fun h => h.2.2 with
  | some now, some old =>
    let hit := fun e : Int × Int × Bool => spans old now e.2.1 e.2.2
    .seq (onSht fun b => { b with crossWait := b.crossWait.filter fun e => !hit e })
      (each (s.b.sht.crossWait.filter hit) fun e => .dyn fun t =>
        let ps := s.predError old now e.1 e.2.1 e.2.2
        .seq (setF F.SHT_PRED_ERR_LAST (ofSigned 16 (satI ps (-32768) 32767)))
          (setF F.SHT_PRED_ERR_MAX (max (t.fld F.SHT_PRED_ERR_MAX) (min ps.natAbs 0xFFFF))))
  | _, _ => .nop

/-- The shot unit takes a good sample (R215 to R219, R222). -/
def shotSample (arrival : Int) : Act := .seq crossError (.dyn fun s =>
  match s.run with
  | some r =>
    on (s.b.sht.active && !s.b.job.disarming && decide (s.b.sht.next < r.stripe.shots))
      (acts [reverseWatch r, armIndex r, .dyn fun t => on t.b.sht.armed (takePrediction r arrival)])
  | none => .nop)

/-! ### Following error (R249) -/

/-- One axis's levels: warn once until below half, trip once until below; a trip is a FOLLOWING fault where shots are at
stake and stops a MOVE in READY. `e`, `warn` and `trip` are in 2⁻¹⁶ pixel. -/
def feAxis (axis : Nat) (e warn trip : Rat) : Act := .dyn fun s =>
  let armed := if axis = 0 then s.b.mot.feYArmed else s.b.mot.feXArmed
  let setArmed := fun v : Bool => onMot fun m => if axis = 0 then { m with feYArmed := v } else { m with feXArmed := v }
  let was := s.b.mot.feTrip.contains axis
  acts [if decide (warn < e) && armed then .seq (setArmed false) (raise E.MOT_FE_WARN)
      else on (decide (2 * e < warn)) (setArmed true),
    if trip < e then
      on (!was) (acts [onMot fun m => { m with feTrip := axis :: m.feTrip }, raise E.MOT_FE_TRIP,
        if s.inJob then faultEntry 3 0xB4 axis
        else on (s.dev == .ready && !s.atRest) (.seq (stopMotion .stop) (onMot fun m => { m with moving := false }))])
    else onMot fun m => { m with feTrip := m.feTrip.filter fun x => x != axis }]

/-- The X levels apply: from the end of the run-in to the last shot of the stripe, by the setpoint period compared (R249). -/
def State.xLevels (s : State) (t : Int) : Bool :=
  s.b.sht.active && match s.b.mot.xFrom with
    | some k => decide ((k : Int) ≤ t.fdiv periodUnits)
    | none => false

/-- The following error of a good sample (R249). -/
def followingError (n : Nat) : Act := .dyn fun s =>
  let sp := s.setpointAt (s.trajAt (s.sampleTime n))
  let ey := magnitude ((s.b.pos.yc : Int) - sp.1 * 65536)
  let ex := magnitude ((s.b.pos.xc : Int) - sp.2.1 * 65536)
  let lvl := fun (f : Fld) (k : Nat) => ((s.fld f * 2 ^ k : Nat) : Rat)
  acts [setF F.MOT_FE_MAX_Y (max (s.fld F.MOT_FE_MAX_Y) (min (ey / 65536).floor.toNat 0xFFFF)),
    setF F.MOT_FE_MAX_X (max (s.fld F.MOT_FE_MAX_X) (min (ex / 256).floor.toNat 0xFFFF)),
    feAxis 0 ey (lvl F.MOT_FE_Y_WARN 16) (lvl F.MOT_FE_Y_TRIP 16),
    if s.xLevels (s.trajAt (s.sampleTime n)) then feAxis 1 ex (lvl F.MOT_FE_X_WARN 8) (lvl F.MOT_FE_X_TRIP 8)
    else feAxis 1 ex (lvl F.MOT_FE_Y_WARN 16) (lvl F.MOT_FE_Y_TRIP 16)]

/-! ### Commits (R210 to R213) -/

/-- A parameter set from its two words. -/
def heyOf (pq rs : Nat) : Hey :=
  ⟨toSigned 16 (pq / 65536), toSigned 16 (pq % 65536), rs / 65536, toSigned 16 (rs % 65536)⟩

/-- The temperature that CAL_CFG.TSEL chooses (R231); THM_MAX in place of an excluded sensor (R365). -/
def State.calTemp (s : State) : Nat :=
  let t := s.fld F.CAL_CFG_TSEL
  if 1 ≤ t ∧ t ≤ 28 ∧ !(s.fld F.THM_STAT_EXCL).testBit (t - 1) then s.fld (F.THM_T_TEMP (t - 1)) else if t = 31 then s.fld F.CAL_TEXT_TEMP else s.fld F.THM_MAX_TEMP

/-- Samples in a calibration ramp (R211, R231). -/
def State.rampSamples (s : State) : Nat :=
  max 1 (s.fld F.CAL_RAMP_MS) * 250000 * 2 ^ 24 / max 1 (s.rd R.POS_TS)

/-- CAL_STAT.RAMPING shows whether a ramp runs (R231). -/
def noteRamps : Act := .dyn fun s => setB F.CAL_STAT_RAMPING (axisList.any fun i => (s.b.pos.axis i).ramp.isSome)

/-- Bring an axis to new parameters, by ramp or by step (R211). -/
def commitAxis (i : Nat) (h : Hey) : Act := .dyn fun s =>
  let a := s.b.pos.axis i
  if (s.fld F.CAL_CFG_RAMP).testBit i then
    onAxis i fun x => { x with cur := a.params, ramp := some ⟨a.params, h, 0, s.rampSamples⟩, win := [] }
  else if s.locked then
    acts [onPos fun p => { p with stepWait := (p.stepWait.filter fun e => e.1 != i) ++ [(i, h)] },
      setB F.CAL_STAT_PENDING true]
  else onAxis i fun x => { x with cur := h, ramp := none, win := [] }

/-- A commit of the axes of a mask (R210, R211): their candidates become the working parameters. -/
def commitNow (mask cause : Nat) : Act := .dyn fun s =>
  let axes := axisList.filter fun i => mask.testBit i && s.flag (F.AX_STAT_CAND_VALID i)
  let waits := axes.any fun i => !(s.fld F.CAL_CFG_RAMP).testBit i && s.locked
  acts [each axes fun i => acts [commitAxis i (heyOf (s.rd (R.AX_CAND_PQ i)) (s.rd (R.AX_CAND_RS i))),
      setR (R.AX_HEY_PQ i) (s.rd (R.AX_CAND_PQ i)), setR (R.AX_HEY_RS i) (s.rd (R.AX_CAND_RS i)),
      setB (F.AX_STAT_CAND_VALID i) false], noteRamps,
    setF F.CAL_TREF_TEMP s.calTemp, setF F.CAL_STAT_CAUSE cause, setF F.CAL_STAT_AXES (axisMask fun i => axes.contains i),
    addR R.CAL_CNT 1, raise E.CAL_COMMIT, on waits (raise E.CAL_COMMIT_DEFERRED)]

/-- The axes with a candidate. -/
def State.candMask (s : State) : Nat := axisMask fun i => s.flag (F.AX_STAT_CAND_VALID i)

/-- The other trigger of a commit has fallen in this tick: the two give one commit, whose cause is the host (R210). -/
def State.commitMet (s : State) (cause : Nat) : Bool := match s.b.pos.calAt with
  | some (t, c) => t == s.b.tim.ticks && c != cause
  | none => false

/-- A trigger of a commit (R210, R212): in a pair, both devices apply it at a named sample. -/
def commitTrigger (cause : Nat) : Act := .dyn fun s =>
  if s.commitMet cause then
    if s.solo then .seq (setF F.CAL_TREF_TEMP s.calTemp) (setF F.CAL_STAT_CAUSE 2)
    else onPos fun p => { p with commits := p.commits.dropLast ++ (p.commits.getLast?.map fun e => (e.1, e.2.1, 2)).toList }
  else
    let j := s.sampleAhead
    .seq (onPos fun p => { p with calAt := some (s.b.tim.ticks, cause) })
      (if s.solo then commitNow 15 cause
      else .seq (pairSend 5 (j % 2 ^ 32) [s.candMask, cause, 0, 0, 0, 0, 0, 0])
        (onPos fun p => { p with commits := p.commits ++ [(j, s.candMask, cause)] }))

/-- COMMIT (R210). -/
def execCommit (s : State) : Host.Outcome State Fault Refusal := perform (toPage 0xD3 (commitTrigger 2)) s

/-- LOAD of CAL_CMD (R213): READY only. -/
def loadCmd : Act := .dyn fun s =>
  if s.dev != .ready then refuseCmd R.CAL_CMD 2
  else .seq (each axisList fun i => .dyn fun t =>
      acts [onAxis i fun x => { x with cur := heyOf (t.rd (R.AX_HEY_PQ i)) (t.rd (R.AX_HEY_RS i)), ramp := none, win := [] },
        setR (R.AX_CAND_PQ i) (t.rd (R.AX_HEY_PQ i)), setR (R.AX_CAND_RS i) (t.rd (R.AX_HEY_RS i)),
        setB (F.AX_STAT_CAND_VALID i) false])
    (setB F.CAL_STAT_RAMPING false)

/-- LOAD (R213). -/
def execLoad (s : State) : Host.Outcome State Fault Refusal := perform (toPage 0xD3 loadCmd) s

/-- No shot of either stripe is pending (R211). -/
def State.stripeBoundary (s : State) : Bool :=
  !s.locked || (s.b.cask.slots.isEmpty && s.b.cask.draining.isEmpty && !s.b.sht.active)

/-- CAL_STEP_APPLY (R211): the steps that wait are applied at a stripe boundary. -/
def execCalStepApply (s : State) : Host.Outcome State Fault Refusal :=
  perform (.dyn fun s =>
    on (s.stripeBoundary && !s.b.pos.stepWait.isEmpty)
      (acts [each s.b.pos.stepWait fun e => onAxis e.1 fun x => { x with cur := e.2, ramp := none, win := [] },
        onPos fun p => { p with stepWait := [] }, setB F.CAL_STAT_PENDING false, noteRamps])) s

/-- CAL_RAMP_END (R211): the ramp of an axis has reached its new values. -/
def execCalRampEnd (ax : Fin 4) (s : State) : Host.Outcome State Fault Refusal :=
  perform (.dyn fun s =>
    match (s.b.pos.axis ax).ramp with
    | some r => on (decide (r.total ≤ r.done)) (.seq (onAxis ax fun x => { x with cur := r.dst, ramp := none }) noteRamps)
    | none => .nop) s

/-! ### Samples (R197 to R206, R263) -/

/-- A covered register takes a value that both devices of a pair apply together (R263). -/
def coveredWrite (addr : Nat) (w : Word) : Act :=
  if addr = R.MOT_VMAX ∨ addr = R.MOT_AMAX ∨ addr = R.MOT_JMAX then limitApply addr w else writeReg addr w

/-- What was decided for a sample takes place before it (R212, R263). -/
def sampleDue (n : Nat) : Act := .dyn fun s =>
  let w := s.b.pos.writes.filter fun e => decide (e.1 ≤ n)
  let c := s.b.pos.commits.filter fun e => decide (e.1 ≤ n)
  acts [onPos fun p =>
      { p with
        writes := p.writes.filter fun e => decide (n < e.1)
        commits := p.commits.filter fun e => decide (n < e.1) },
    each w fun e => coveredWrite e.2.1 e.2.2, each c fun e => commitNow e.2.1 e.2.2]

/-- The position that a sample gives, and what follows from it. -/
def positionSample (n : Nat) (good : Bool) : Act := .dyn fun s =>
  let y := s.yc
  acts [onPos fun p => { p with yc := y, xc := s.xc, hist := (n, y, good) :: p.hist.take 129 },
    on good (acts [followingError n, shotSample (s.sampleArrival n), yawCheck]), freezeAfter (s.sampleArrival n)]

/-- The samples of a multiblock: 32 blocks of 8 octets on each lane, with 16 octets a frame over all lanes (R197; the length
of a JESD204C multiblock is PRESUMED, the standard's). -/
def State.blockSamples (s : State) : Nat :=
  match s.fld F.POS_CFG_LANES with | 1 => 32 | 2 => 16 | _ => 64

/-- The multiblock of a sample has failed CRC-12, by this sample's account or an earlier one's (R228). -/
def State.crcFailed (s : State) (n : Nat) (crcOk : Bool) : Bool := !crcOk || s.b.pos.crcBlock == some (n / s.blockSamples)

/-- A CRC-12 failure counts once for its multiblock (R228). -/
def noteCrc (n : Nat) (crcOk : Bool) : Act := .dyn fun s =>
  let blk := some (n / s.blockSamples)
  on (!crcOk && s.b.pos.crcBlock != blk) (.seq (onPos fun p => { p with crcBlock := blk }) (addR R.POS_JRX_ERR 1))

/-- POS_SAMPLE (R198 to R203): nothing arrives while the receiver is out of sync. Of the causes that one sample brings, a
fault comes before a racking trigger, and that before a stop (R22). -/
def execPosSample (x : Sample) (crcOk : Bool) (s : State) : Host.Outcome State Fault Refusal :=
  perform (.dyn fun s =>
    if s.flag F.POS_STAT_JRX_UP && s.powered 5 then
      let n := s.b.pos.n
      let bad := s.crcFailed n crcOk && s.flag F.POS_CFG_CRC_CHK
      let good := axisList.all fun i => s.axisValid i && (s.judge i (s.rawIQ x i) bad).1
      acts [bistPage 0xB0, advanceTo (s.sampleArrival n), sampleDue n, noteCrc n crcOk,
        each axisList fun i => axisSample i x bad, onPos fun p => { p with n := n + 1 }, positionSample n good]
    else .nop) s

/-- The receiver gains or loses sync (R197, R203): without it no axis is valid. -/
def jrxSync (up : Bool) : Act := .dyn fun s =>
  let lost := axisList.any fun i => s.axisValid i
  on (s.flag F.POS_STAT_JRX_UP != up)
    (acts [setB F.POS_STAT_JRX_UP up, on (!up) (raise E.POS_JRX_DOWN), on (!up && lost) (axisFault 0)])

/-- JRX_SYNC_CHANGE (R197, R203): sync comes only while the POS domain runs. -/
def execJrxSyncChange (up : Bool) (s : State) : Host.Outcome State Fault Refusal :=
  perform (.dyn fun s => on (!up || s.powered 5) (jrxSync up)) s

/-- SYSREF_EDGE (R198, R200): the first edge after REALIGN zeroes PT; an edge off the boundary is reported once. -/
def execSysrefEdge (onBoundary : Bool) (s : State) : Host.Outcome State Fault Refusal :=
  perform (.dyn fun s =>
    if s.b.pos.realign then
      .seq (onPos fun p => { p with realign := false, pt := 0, n := 0, hist := [], trkN := 0, crcBlock := none }) (setB F.POS_STAT_SYSREF_OK true)
    else on (!onBoundary && !s.flag F.POS_STAT_SYSREF_MOVED)
      (.seq (setB F.POS_STAT_SYSREF_MOVED true) (raise E.POS_SYSREF_MOVED))) s

/-- REALIGN of POS_CMD (R200). -/
def realignCmd : Act := .dyn fun s =>
  if s.dev != .ready then refuseCmd R.POS_CMD 1
  else acts [setB F.POS_STAT_SYSREF_OK false, setB F.POS_STAT_SYSREF_MOVED false, onPos fun p => { p with realign := true }]

/-- REALIGN (R200). -/
def execRealign (s : State) : Host.Outcome State Fault Refusal := perform (toPage 0xB0 realignCmd) s

/-- CLEAR_LOST of POS_CMD (R203). -/
def clearLostCmd (axes : Nat) : Act := .dyn fun s =>
  if s.dev != .ready then refuseCmd R.POS_CMD 2
  else each (axisList.filter fun i => axes.testBit i) fun i =>
    .seq (onAxis i fun x => { x with lost := false, badRun := 0, phi := none }) (setB (F.AX_STAT_SLIP i) false)

/-- CLEAR_LOST (R203). -/
def execClearLost (axes : BitVec 4) (s : State) : Host.Outcome State Fault Refusal :=
  perform (toPage 0xB0 (clearLostCmd axes.toNat)) s

/-! ### Wide reads (R228) -/

/-- The low word of a wide register and the high words that its read latches. -/
def State.wide (s : State) (addr : Nat) : Option (Nat × List (Nat × Nat)) :=
  let split := fun (v : Nat) (hi : Nat) => some (v % 2 ^ 32, [(hi, v / 2 ^ 32 % 65536)])
  if addr = R.POS_Y_LO then split (ofSigned 48 s.b.pos.yc) R.POS_Y_HI
  else if addr = R.POS_X_LO then split (ofSigned 48 s.b.pos.xc) R.POS_X_HI
  else if addr = R.TIM_NS then
    some (s.b.tim.ns / 2 ^ 32, [(R.TIM_SEC_LO, s.b.tim.sec % 2 ^ 32), (R.TIM_SEC_HI, s.b.tim.sec / 2 ^ 32 % 2 ^ 32)])
  else match axisList.find? fun i => addr == R.AX_CNT_LO i with
    | some i => split (ofSigned 48 (s.b.pos.axis i).cnt) (R.AX_CNT_HI i)
    | none => none

/-- Latch the high words of a wide register. -/
def latchHigh (his : List (Nat × Nat)) : Act :=
  onPos fun p => { p with latched := (his.map fun h => (h.1, BitVec.ofNat 32 h.2)) ++
    (p.latched.filter fun e => !(his.any fun h => h.1 == e.1)) }

/-- Read the low word of a wide register, latching the high words. -/
def readWide (addr : Nat) : Act := .dyn fun s =>
  match s.wide addr with
  | some w => .seq (latchHigh w.2) (answerWord w.1)
  | none => .nop

/-- LATCHED_READ (R228). -/
def execLatchedRead (addr : BitVec 20) (s : State) : Host.Outcome State Fault Refusal :=
  perform (fromPage (addr.toNat / 0x1000) (readWide addr.toNat)) s

end Sys2Proof.Machine
end

