-- ==== Sys2Proof/Machine/Job.lean ====
section
/-! DEFINITION. The job: arming and its conditions (R19, R131, R164, R262, R437), disarming (R20), stops (R19, R280), the
descriptor queue (R233 to R236), the end of DRAINING (R19, R236, R278, R285, R311), and the configuration digest (R261,
R262). -/

namespace Sys2Proof.Machine

/-- The bits set among the low `w` bits of a number. -/
def bitCount (w n : Nat) : Nat := ((List.range w).filter fun i => n.testBit i).length

/-! ### The configuration digest (R261, R262) -/

/-- `n` registers from an address on, as 32-bit little-endian words. -/
def State.regBytes (s : State) (addr n : Nat) : List Nat := (List.range n).flatMap fun i => leBytes 4 (s.rd (addr + 4 * i))

/-- The image that the configuration digest covers (R261), its nine parts in order. -/
def State.digestImage (s : State) : List Nat :=
  let words := fun t n => (List.range n).flatMap fun i => leBytes 4 (tableWord t i)
  let captured := match s.b.lat.cap with
    | some c => leBytes 4 c.s ++ leBytes 4 c.w ++ leBytes 4 c.depth
    | none => List.replicate 12 0
  let motCfg := F.MOT_CFG_LTQ.put (F.MOT_CFG_EN.put (s.rd R.MOT_CFG) 0) 0
  let parCfg := F.PAR_CFG_ACCEPT.put (F.PAR_CFG_PREFER.put (s.rd R.PAR_CFG) 0) 0
  words s.b.lat.lattice 1024 ++ words s.b.lat.gain 524288 ++ captured ++
    s.regBytes R.POS_CFG 1 ++ s.regBytes R.POS_TS 6 ++ s.regBytes R.POS_EST_CFG 2 ++
    (axisList.flatMap fun i => s.regBytes (R.AX_CTRL i) 1 ++ s.regBytes (R.AX_LAMBDA i) 1) ++
    s.regBytes R.SHT_CFG 5 ++ s.regBytes R.TRK_CFG 7 ++
    ((List.range 4096).flatMap fun i => leBytes 4 (spGet (fun _ => 0) s.b.pos.ramp i).toNat) ++
    s.regBytes R.CAL_CFG 3 ++ leBytes 4 motCfg ++ s.regBytes R.MOT_LEAD 13 ++ leBytes 4 parCfg

/-- Unequal digests of one request (R262): DIGEST_MISMATCH. -/
def compareDigests : Act := .dyn fun s =>
  match s.b.par.ownDigest, s.b.par.mateDigest with
  | some a, some b => on (s.b.par.digestReq.isNone && a.2 == b.2 && a.1 != b.1) (raise E.PAR_DIGEST_MISMATCH)
  | _, _ => .nop

/-- The requested digest is computed, reported, and sent to the mate (R261, R262). -/
def digestDone : Act := .dyn fun s =>
  match s.b.par.digestReq with
  | some req =>
    let d := crcOf crc64 s.digestImage
    acts [onPar fun p => { p with digestReq := none, ownDigest := some (d, req) },
      setR R.PAR_DIGEST_LO (d % 2 ^ 32), setR R.PAR_DIGEST_HI (d / 2 ^ 32),
      pairSend 8 0 (leBytes 8 d ++ leBytes 8 req), compareDigests]
  | none => .nop

/-- Both devices' digests for the pending arm request are held and equal (R262). -/
def State.digestsEqual (s : State) : Bool :=
  s.b.par.digestReq.isNone && match s.b.par.ownDigest, s.b.par.mateDigest with
    | some d, some m => decide (d = m ∧ d.2 = s.b.job.armReq.getD 0)
    | _, _ => false

/-! ### Arming (R19, R437) -/

/-- The domains that are powered down, as bits (R392). -/
def State.domainsDown (s : State) : Nat := 255 - s.fld F.PWR_STAT_ON

/-- The first arm condition that fails: COND and DETAIL of R437. -/
def State.armRefusal (s : State) : Option (Nat × Nat) :=
  let low := fun n => (List.range 8).find? fun i => n.testBit i
  if s.fld F.LAT_STAT_CHK_STATE ≠ 2 then some (1, s.fld F.LAT_STAT_CHK_STATE)
  else if !s.b.lat.gainWritten then some (2, 0)
  else if s.role = .split then some (3, 1)
  else if !s.solo && !s.digestsEqual then some (3, 0)
  else if s.b.plk.locked.length < 64 then some (4, s.b.plk.locked.length)
  else if axisMask s.axisValid ≠ 15 then some (5, 15 - axisMask s.axisValid)
  else if s.b.job.queue.isEmpty then some (6, 0)
  else if s.b.thm.warn.above || s.b.thm.trip.above || s.b.thm.riseTrip.above then some (7, 0)
  else if 8 ≤ bitCount 28 (s.fld F.THM_STAT_EXCL) then some (7, 1)
  else if s.domainsDown ≠ 0 then some (8, match low s.domainsDown with | some i => 2 ^ i | none => 0)
  else if s.fld F.LDG_STAT_VIOL ≠ 0 then some (9, (low (s.fld F.LDG_STAT_VIOL)).getD 0)
  else if s.rd R.MOT_VMAX = 0 then some (10, 1)
  else if s.rd R.MOT_AMAX = 0 then some (10, 2)
  else if s.rd R.MOT_JMAX = 0 then some (10, 3)
  else none

/-- The counts that start anew with a job (R49, R57, R94). -/
def clearJobCounts : Act :=
  acts [setR R.LAT_SHORT_CNT 0, setR R.LAT_SHORT_LOST 0, setR R.PRS_CNT_SAFFRON 0, setR R.PRS_CNT_POISON 0,
    setR R.PRS_CNT_DECODE 0, setR R.PRS_CNT_RETRY_OK 0, setR R.PRS_CNT_LOST 0, setR R.PRS_ERR_LOST 0, setR R.JOB_DONE_CNT 0,
    .book .dose .clear]

/-- The vintage of a new job (R164). -/
def newVintage : Act := .dyn fun s =>
  let v := s.fld F.PLK_VINTAGE_NEXT
  acts [setF F.PLK_VINTAGE_CURRENT v, setF F.PLK_VINTAGE_NEXT ((v + 1) % 65536),
    onPlk fun p => { p with counts := p.counts.map fun _ => 0, before := [] }]

/-- The press and the taps as a job starts (R84, R129, R136). -/
def freshPath : Act :=
  acts [onPress fun p => { fillArmed := p.fillArmed },
    onCask fun c => { c with slots := [], draining := [], nextShot := 0, oldest := 0, discard := 0, head := none },
    resetShots]

/-- Entry to ARMED (R19, R164, R247): the job starts with the queue's first entry. A lattice that does not fit and a lane without
a working tap end in FAULT (R131, R150). -/
def enterArmed (e : JobEntry) : Act :=
  acts [each [92, 93, 94, 97, 98, 99, 100, 101, 102, 103] bistRequest, enter .armed, clearJobCounts, freshPath, newVintage, jobStartFrames e.stripe e.rev,
    onJob fun j => { j with
      stopEnd := false, stopAfter := none, pendSafe := false, turnWait := false, disarming := false, armReq := none },
    onMot fun m => { m with cur := none, ownSpeed := [], mateSpeed := [] },
    .dyn fun s => moveTo (s.startPoint e.rev e.y0) ((e.x : Rat) / 65536) .move e.stripe,
    .dyn fun s => on (s.fld F.CSK_FIT_CODE != 0) (.seq (err R.CSK_FIT Err.fit) (faultEntry 8 0x30 0)),
    .dyn fun s => match s.deadLane with | some n => faultEntry 9 0x30 n | none => .nop]

/-- Act on an arm request (R19, R131, R437). -/
def armNow : Act := .dyn fun s =>
  if s.dev != .ready then .seq (refuseState 7 1) (onJob fun j => { j with armReq := none })
  else match s.armRefusal, s.b.job.queue with
    | some r, _ => .seq (refuse 7 1 r.1 r.2) (onJob fun j => { j with armReq := none })
    | none, e :: _ => enterArmed e
    | none, [] => refuse 7 1 6 0

/-- An arm request reaches this device of a pair: both compute the digest for it (R262). -/
def noteArmRequest : Act := .dyn fun s =>
  let n := s.b.job.armCount + 1
  .seq (onJob fun j => { j with armCount := n, armReq := some n }) (requestDigest n)

/-- A command that the pair passes on (R280): the mate may act on it. -/
def State.passes (s : State) : Bool := s.paired && s.b.par.mate != .lost

/-- Commands wait for a plan or a log entry that is at work (R369, R370). -/
def State.ageBusy (s : State) : Bool := s.b.age.plan.isSome || s.b.age.burn.isSome

/-- An arm request of a device that arms alone is acted on once its digest has been computed (R19, R262). -/
def soloArm : Act := .dyn fun s => on (!s.passes && s.b.job.armReq == some 0 && s.b.par.digestReq.isNone) armNow

/-- DIGEST_DONE (R261, R262): the requested digest is computed, reported and sent to the mate; a device that arms alone then acts
on its arm request. -/
def execDigestDone (s : State) : Host.Outcome State Fault Refusal :=
  perform (.dyn fun s => on s.b.par.digestReq.isSome (.seq digestDone soloArm)) s

/-- An arm request of a device that arms alone: refused where a condition fails, else the digest is computed for it (R19, R262). -/
def soloRequest : Act := .dyn fun s =>
  if s.armRefusal.isSome then .seq (requestDigest 0) armNow
  else .seq (onJob fun j => { j with armReq := some 0 }) (requestDigest 0)

/-- ARM as written to JOB_CMD (R262, R280, R369). -/
def armCmd : Act := .dyn fun s =>
  if s.dev != .ready then refuseState 7 1
  else if s.ageBusy then onAge fun a => { a with waiting := if a.waiting.contains .arm then a.waiting else a.waiting ++ [.arm] }
  else if s.passes then .seq noteArmRequest (pairAtPeriod R.JOB_CMD 1)
  else soloRequest

/-- ARM (R437). -/
def execArm (s : State) : Host.Outcome State Fault Refusal := perform (toPage 7 armCmd) s

/-! ### Disarming (R20, R311) -/

/-- Step the TIM counter by an offset in ns (R311): the generator gives its next frame the first period that lies
MOT_LEAD after the new time. -/
def stepTim (offset : Int) : Act := .dyn fun s =>
  let t := (s.timUnits - offset * 2 ^ 32).toNat
  acts [noteRate 0, onTim fun m => { m with sec := t / secondNs % 2 ^ 64, ns := t % secondNs, step := none },
    onNet fun n => { n with announced := none }, setB F.TIM_STAT_DEFERRED false, onMot fun m => { m with replan := true }, raise E.TIM_STEP]

/-- A deferred step is applied on reaching READY (R311). -/
def deferredStep : Act := .dyn fun s => match s.b.tim.step with | some d => stepTim d | none => .nop

/-- The press stops: its engines are free, and the stripes that it had started are READY in their bins. -/
def stopPress : Act := .dyn fun s =>
  acts [each s.b.press.runs fun r => .seq (each r.busy fun c => setB (F.PE_STAT_BUSY c.engine) false)
      (setBin r.stripe.bin fun x => { x with state := .ready }),
    onPress fun p => { p with runs := [] }]

/-- ARMED passes to READY once a disarm has been accepted and the stage is at rest (R20). -/
def disarmDone : Act := .dyn fun s =>
  on (s.dev == .armed && s.b.job.disarming && s.stageStill)
    (acts [enter .ready, onJob fun j => { j with disarming := false }, onMot fun m => { m with phase := .idle, cur := none },
      deferredStep])

/-- Triggers that no strobe resolves: a disarm may meet shot 0 triggered and not yet crossed, which R20 takes for untriggered; it is
booked abandoned, so that the SHOT account holds nothing (DESIGN CHOICE). -/
def noteTriggered : Act := .dyn fun s =>
  each (s.b.sht.recs.filter fun x => x.triggered && x.withheld.isNone) fun x => noteUnresolved x.shot

/-- Act on a disarm request (R20). -/
def disarmNow : Act := .dyn fun s =>
  if s.dev != .armed then refuseState 7 2
  else
    acts [dropTaps 0, stopPress, noteTriggered, abandonShots, resetShots, retireTaps false,
      onCask fun c => { c with nextShot := 0, oldest := 0, head := none },
      onJob fun j => { j with disarming := true, stopEnd := false, pendSafe := false },
      on (!s.atRest) (stopMotion .stop), disarmDone]

/-- DISARM (R20, R280). -/
def disarmCmd : Act := .dyn fun s =>
  if s.dev != .armed then refuseState 7 2 else if s.passes then pairAtPeriod R.JOB_CMD 2 else disarmNow

/-- DISARM (R20). -/
def execDisarm (s : State) : Host.Outcome State Fault Refusal := perform (toPage 7 disarmCmd) s

/-! ### Stops (R19, R248, R280) -/

/-- A stop at stripe end is requested (R19); one requested while the stage waits for a stripe takes effect at once
(R248). -/
def stopEndNow : Act := .dyn fun s =>
  if s.dev = .writing ∧ s.b.job.turnWait = true then
    .seq (enter .draining) (onJob fun j => { j with turnWait := false, stopEnd := false })
  else stopAtEnd

/-- The stripe at whose end a stop takes effect (R19): the one being written; between two, the one written last; before the first,
the queue's first. -/
def State.stopStripe (s : State) : Nat := match s.b.mot.cur with
  | some c => c.num
  | none => (s.b.job.queue.head?.map fun e => e.stripe).getD 0

/-- A stop at stripe end that a pair makes: it is passed with the stripe's number (R280). -/
def passStopEnd : Act := .dyn fun s => on (s.passes && s.locked) (pairSend 6 s.stopStripe (regwrData R.JOB_CMD 3))

/-- A stop at stripe end that the mate has passed on (R280): both devices stop at the end of the stripe it names. -/
def stopEndAt (stripe : Nat) : Act := .dyn fun s =>
  let ahead := s.stopStripe != stripe && s.b.job.queue.any fun e => e.stripe == stripe
  if ahead then onJob fun j => { j with stopAfter := some stripe } else stopEndNow

/-- STOP_END (R19, R280). -/
def stopEndCmd : Act := .dyn fun s =>
  if !s.locked then refuseState 7 3 else .seq passStopEnd stopEndNow

/-- STOP_END (R19). -/
def execStopEnd (s : State) : Host.Outcome State Fault Refusal := perform (toPage 7 stopEndCmd) s

/-- STOP_SAFE (R19, R280). -/
def stopSafeCmd : Act := .dyn fun s => if !s.locked then refuseState 7 4 else stopSafe

/-- STOP_SAFE (R19). -/
def execStopSafe (s : State) : Host.Outcome State Fault Refusal := perform (toPage 7 stopSafeCmd) s

/-! ### The job queue (R233 to R236) -/

/-- Free every bin that is FILLING or READY: the blocks of those stripes are discarded, and transfers into them end BIN
(R81, R236). -/
def flushBins : Act := .dyn fun s =>
  each (s.b.cel.bins.filter fun x => x.state != .current) fun x => acts [discardBlocks x, freeBin x.num, endHeld x.gen 4]

/-- FLUSH (R236). -/
def flushCmd : Act := .dyn fun s =>
  if s.dev != .ready then refuseState 7 5
  else acts [flushBins, onJob fun j => { j with queue := [], head := none }]

/-- FLUSH (R236). -/
def execFlush (s : State) : Host.Outcome State Fault Refusal := perform (toPage 7 flushCmd) s

/-- Bits [63:48] of a coordinate all equal bit 47 (R233). -/
def extended (w : Nat) : Bool := decide (toSigned 64 w = toSigned 48 w)

/-- The entry that a descriptor's 32 bytes describe (R233). -/
def parseEntry (b : List Nat) : JobEntry where
  stripe := leAt b 0 4
  bin := leAt b 4 2 % 1024
  rev := (b.getD 6 0).testBit 0
  last := (b.getD 6 0).testBit 1
  y0 := toSigned 64 (leAt b 8 8)
  x := toSigned 64 (leAt b 16 8)
  tag := leAt b 24 4
  bytes := b

/-- The first failure of a descriptor, as a code of R234; 0 where it passes. -/
def State.descCode (s : State) (b : List Nat) : Nat :=
  let e := parseEntry b
  if crcOf crc32c (b.take 28) ≠ leAt b 28 4 ∨ 1024 ≤ leAt b 4 2 ∨ 4 ≤ b.getD 6 0 ∨ b.getD 7 0 ≠ 0 ∨
      extended (leAt b 8 8) = false ∨ extended (leAt b 16 8) = false then 1
  else if (match s.b.job.head with | some h => e.stripe != (h + 1) % 2 ^ 32 | none => false) = true then 2
  else if s.fld F.CEL_BIN_CFG_NBINS ≤ e.bin ∨ (s.entryOf e.bin).isSome = true then 3
  else if 1024 ≤ s.b.job.queue.length then 4
  else if (s.b.job.queue.any fun q => q.last) = true ∨ s.dev = .dormant ∨ s.dev = .fault then 5
  else if s.inTravelX ((e.x : Rat) / 65536) = false ∨
      (s.b.lat.cap.isSome = true ∧ s.inTravelY (s.startPoint e.rev e.y0) = false) then 6
  else 0

/-- The stage waits for a further stripe: an accepted entry is taken from rest (R248). -/
def leaveTurnWait (e : JobEntry) : Act := .dyn fun s =>
  on (s.b.job.turnWait && s.dev == .writing)
    (acts [onJob fun j => { j with turnWait := false },
      moveTo (s.startPoint e.rev e.y0) ((e.x : Rat) / 65536) .turn e.stripe])

/-- A completed descriptor: accepted into the queue, or refused (R234, R235). -/
def takeDescriptor (b : List Nat) : Act := .dyn fun s =>
  let e := parseEntry b
  match s.descCode b with
  | 0 => acts [onJob fun j => { j with queue := j.queue ++ [e], head := some e.stripe }, setR R.JOB_HEAD e.stripe,
      leaveTurnWait e, .dyn fun s' => each (s'.b.cel.bins.filter fun x => x.num == e.bin && x.hdr.isSome) fun x => checkEnvelope x.stripe]
  | code => acts [setF F.JOB_REFUSE_CODE code, raise E.JOB_DESC_REFUSED]

/-- A word written to JOB_DATA (R233). -/
def jobDataWrite (w : Word) : Act := .dyn fun s =>
  let words := s.b.job.words ++ [w]
  if words.length < 8 then onJob fun j => { j with words := words, lastWord := w }
  else .seq (onJob fun j => { j with words := [], lastWord := w })
    (takeDescriptor (words.flatMap fun x => leBytes 4 x.toNat))

/-- JOB_DATA_WRITE (R233). -/
def execJobDataWrite (w : Word) (s : State) : Host.Outcome State Fault Refusal := perform (toPage 7 (jobDataWrite w)) s

/-! ### The end of DRAINING (R19, R236, R278, R285, R311) -/

/-- The pair leaves its mate: the mate's status is none (R278, R284, R287). -/
def leavePair (r : Role) : Act :=
  .seq (changeRole r) (onPar fun p =>
    { p with
      mate := if r = .solo then .none else p.mate
      splitEnd := 0, soloAtEnd := false, wdSelf := false, wdMate := false, joinStep := 0 })

/-- The stripe that a stop at a safe point cut: every shot is strobed or abandoned, so its bin is freed and its entry
leaves the queue (R236). -/
def endCutStripe : Act := .dyn fun s =>
  match s.run, s.b.sht.stopFrom with
  | some r, some _ => acts [freeBin r.stripe.bin, dropEntry r.stripe.num, onPress fun p => { p with runs := p.runs.tail },
      retireTaps true]
  | _, _ => .nop

/-- DRAINING is over (R19): every frame is sent, every lees committed or discarded, the stage is at rest, and FRAME and
SHOT hold 0. -/
def State.drained (s : State) : Bool :=
  s.dev == .draining && s.b.plk.txq.isEmpty && s.b.plk.swapHeld.isEmpty && s.b.cask.draining.isEmpty && s.stageStill &&
    s.led.frame.held == 0 && s.led.shot.held == 0

/-- DRAIN_COMPLETE (R19, R278, R284, R285, R311). -/
def execDrainComplete (s : State) : Host.Outcome State Fault Refusal :=
  perform (.dyn fun s => on s.drained
    (acts [endCutStripe, stopPress, freshPath, pairStripeEnd, onMot fun m => { m with phase := .idle, cur := none },
      enter .ready,
      if s.b.par.splitEnd != 0 then leavePair .split else if s.b.par.soloAtEnd then leavePair .solo else .nop,
      deferredStep])) s

end Sys2Proof.Machine
end

