-- ==== Sys2Proof/Machine/Path.lean ====
section
/-! DEFINITION. The setpoint period by period: due writes, the phases of a job's path, turnarounds and rackings (R217, R242
to R248, R253, R254, R263, R280, R284), the launch of queued frames (R244, R246, R314 to R316), and the meanings of
SETPOINT_PERIOD and LTQ_LAUNCH. -/

namespace Sys2Proof.Machine

/-! ### Writes and commands due at a period (R263, R280) -/

/-- A write that both devices of a pair apply at a period: a command, a limit, or a MOT register. -/
def dueWrite (addr : Nat) (w : Word) : Act :=
  if addr = R.JOB_CMD then (if w = 1 then armNow else if w = 2 then disarmNow else .nop)
  else if addr = R.MOT_CMD then (if w = 1 then moveNow else if w = 2 then stopNow else .nop)
  else if addr = R.MOT_VMAX ∨ addr = R.MOT_AMAX ∨ addr = R.MOT_JMAX then limitApply addr w
  else writeReg addr w

/-- The writes whose period has come. -/
def dueWrites : Act := .dyn fun s =>
  let due := s.b.mot.writes.filter fun e => decide (e.1 ≤ s.periodNow)
  .seq (onMot fun m => { m with writes := m.writes.filter fun e => !due.contains e }) (each due fun e => dueWrite e.2.1 e.2.2)

/-- A role change whose period has come (R282, R289): a swap is made once. -/
def dueRole : Act := .dyn fun s =>
  match s.b.par.roleAt with
  | some (k, active) => on (decide (k ≤ s.b.mot.period))
      (.seq (onPar fun p => { p with roleAt := none, joined := false }) (changeRole (if active then .active else .standby)))
  | none => .nop

/-! ### Turnarounds (R236, R248) -/

/-- The entry that the job goes on with after the stripe being written: queued, neither marked nor cut off by a stop or
LAST (R19, R80, R235). -/
def State.nextEntry (s : State) : Option JobEntry :=
  match s.b.mot.cur with
  | some c => if c.last || s.b.job.stopEnd || !s.locked then none
    else match s.entryAfter c.num with
      | some e => if e.missing || e.outOfTravel then none else some e
      | none => none
  | none => none

/-- The entry that would come next stands marked: the job ends before it (R80, R235). -/
def State.nextMarked (s : State) : Bool :=
  match s.b.mot.cur with
  | some c => match s.entryAfter c.num with | some e => e.missing || e.outOfTravel | none => false
  | none => false

/-- The stop that a turnaround, or the end of the job, starts in this period (R248). -/
def turnStop : Act := .dyn fun s =>
  match s.b.mot.cur with
  | some c =>
    let y := s.b.mot.y
    let segs := planStop s.limits y.p y.v y.a
    let gone := along c.rev (y.p - c.lastPos)
    match s.nextEntry with
    | some e =>
      let target := s.startPoint e.rev e.y0
      let beyond := along c.rev (planEnd y.p segs - target)
      on (decide (0 ≤ gone) && decide (0 ≤ beyond))
        (onMot fun m =>
          let gx := m.x.goTo s.limits ((e.x : Rat) / 65536)
          { m with
            y := m.y.start segs (if beyond ≤ magnitude y.v / 20000 then .keep else .stop)
            thenY := if beyond ≤ magnitude y.v / 20000 then none else some target
            x := gx.1, thenX := gx.2, phase := .turn, stripe := e.stripe, replan := true })
    | none => on (decide ((s.rd R.MOT_SETTLE : Rat) ≤ gone))
        (onMot fun m => { m with y := m.y.start segs .stop, thenY := none, phase := .turn, replan := true })
  | none => .nop

/-- Sample v_tgt in a period without acceleration, and start a transition where R242 calls for one. -/
def sampleSpeed : Act := .dyn fun s =>
  match s.b.mot.cur with
  | some c =>
    let vt := s.vTgt
    let v := along c.rev s.b.mot.y.v
    let far := decide (s.vCap / 64 ≤ magnitude (vt - v)) || (decide (vt = s.vCap) && decide (v ≠ s.vCap))
    .seq noteSlow (on far (onMot fun m =>
      { m with y := m.y.start (planSpeed s.limits m.y.p m.y.v (along c.rev vt)) (.speed (along c.rev vt)), replan := true }))
  | none => .nop

/-- Cruising on the stripe (R242, R248): the turnaround first, else the speed. -/
def cruise : Act :=
  .seq turnStop (.dyn fun s => on (s.b.mot.phase != .turn && s.b.mot.y.segs.isEmpty) sampleSpeed)

/-- At rest after a stripe (R248): at the next start point the stage waits; otherwise it goes there, waits for a further
stripe, or has reached the end of the job. -/
def turnRest : Act := .dyn fun s =>
  match s.nextEntry with
  | some e => on (s.b.mot.stripe != e.stripe) (moveTo (s.startPoint e.rev e.y0) ((e.x : Rat) / 65536) .turn e.stripe)
  | none =>
    if s.dev = .writing ∧ s.run.isNone = true then
      if s.nextMarked || s.b.job.stopEnd then .seq (enter .draining) (onJob fun j => { j with turnWait := false, stopEnd := false })
      else on (!s.b.job.turnWait && s.stageStill)
        (.seq (onJob fun j => { j with turnWait := true }) (raise E.JOB_TURN_WAIT))
    else on (s.dev != .writing) (onMot fun m => { m with phase := .idle })

/-! ### Racking (R217, R253, R254, R284) -/

/-- N of the racking under way. -/
def State.rackShot (s : State) : Nat := s.b.sht.rackN.getD s.b.sht.first

/-- Parts 2 and 3 of the racking profile: the move back, limited to v_cap, and the arrival, whose period is the first of the
dwell (R253, R254). -/
def rackPeriod : Act := .dyn fun s =>
  let m := s.b.mot
  match m.rackPart with
  | 1 => on s.atRest (match s.run with
    | some r =>
      let p : Rat := ((shotPos r.stripe.rev r.stripe.y0 s.step ((s.rackShot : Int) - 2) : Int) : Rat) / 65536
      let back := p - along r.stripe.rev (rampDistance s.limits s.vCap + (s.rd R.MOT_SETTLE : Nat))
      onMot fun b =>
        { b with
          y := b.y.start (planMove { s.limits with v := s.vCap } b.y.p back)
          x := b.x.start (planMove s.limits b.x.p ((r.stripe.x : Rat) / 65536))
          rackPart := 2, reverseAt := some b.period, replan := true }
    | none => .nop)
  | 2 => on s.atRest (onMot fun b => { b with rackPart := 3, dwell := 1, arriveAt := some b.period })
  | 3 => onMot fun b => { b with dwell := b.dwell + 1 }
  | _ => on m.y.segs.isEmpty cruise

/-- The last index triggered in a run, while Yc has not gone back beyond it: a reversal will bring that about (R216). -/
def State.lastAhead (s : State) : Option Int :=
  match s.run with
  | some r => if (s.b.sht.runStart : Int) - 2 < s.b.sht.next ∧ -s.band ≤ s.past r (s.b.sht.next - 1) then some (s.b.sht.next - 1) else none
  | none => none

/-- The reversal applies (R217): the next index is N with its two take points, armed once the stage has gone back beyond
them. -/
def rackReverse : Act := .dyn fun s =>
  match s.b.mot.reverseAt with
  | some k => on (decide (k ≤ s.periodNow)) (.seq (onMot fun m => { m with reverseAt := none })
      (on (s.dev == .racking) (onSht fun b =>
        { b with
          runStart := s.rackShot, next := (s.rackShot : Int) - 2, needBack := true, armed := false, active := true
          pred := none, reached := false, beyond := false, backOf := s.lastAhead })))
  | none => .nop

/-- A STANDBY whose mate is LINK_DOWN withdraws for the rest of the stripe, says so on the control network, and leaves the
pair at the stripe's end (R284). -/
def standbyWithdraws : Act := .dyn fun s =>
  on (s.role == .standby && s.b.par.mate == .linkDown)
    (acts [withdrawFrom s.rackShot, onPar fun p => { p with soloAtEnd := true }, stopAtEnd,
      let stripe := match s.run with | some r => r.stripe.num | none => 0
      each (s.partners 1) fun p => netTo p 0x23 (leBytes 4 stripe ++ leBytes 4 s.rackShot)])

/-- The arrival at the re-entry point applies (R284). -/
def rackArrive : Act := .dyn fun s =>
  match s.b.mot.arriveAt with
  | some k => on (decide (k ≤ s.periodNow)) (.seq (onMot fun m => { m with arriveAt := none })
      (on (s.dev == .racking) standbyWithdraws))
  | none => .nop

/-- A stop at a safe point whose stage has come to rest before the last shots below it were strobed withholds them too, so
that the device reaches the safe point (DESIGN CHOICE: the spec has them strobed on the way). -/
def stopAtRest : Act := .dyn fun s =>
  on (s.dev == .writing && s.b.sht.stopFrom.isSome && s.stageStill) (cutShots s.b.sht.first)

/-! ### One period -/

/-- Axes at rest take up the targets that wait for them (R248, R251). -/
def nextTargets : Act := .dyn fun s =>
  onMot fun m =>
    let gy := m.y.takeTarget s.limits m.thenY
    let gx := m.x.takeTarget s.limits m.thenX
    { m with
      y := gy.1, thenY := gy.2, x := gx.1, thenX := gx.2
      replan := m.replan || gy.2 != m.thenY || gx.2 != m.thenX }

/-- What the generator does at the start of a period, by phase (R242, R247, R248, R251, R253). -/
def phasePeriod : Act := .dyn fun s =>
  match s.b.mot.phase with
  | .idle => .nop
  | .move => on s.atRest (onMot fun m => { m with phase := .idle })
  | .runIn => on s.b.mot.y.segs.isEmpty (.seq (onMot fun m => { m with phase := .write, xFrom := some m.period }) cruise)
  | .write => if s.b.mot.y.segs.isEmpty then cruise else turnStop
  | .turn => on s.atRest turnRest
  | .rack => rackPeriod
  | .stop => on s.atRest (onMot fun m => { m with phase := .idle })

/-- The device's own supply speed for a period, sent to its mate (R243). -/
def sendSpeed : Act := .dyn fun s =>
  let k := s.b.mot.period
  let c := speedCode s.supply
  on (s.paired && s.locked) (.seq (pairSend 4 (k % 2 ^ 32) (leBytes 8 c))
    (onMot fun m => { m with ownSpeed := (k, c) :: m.ownSpeed.take 63 }))

/-- A new period begins for the byte counts of v_cel (R241). -/
def stepRates : Act := onCel fun c => { c with bins := c.bins.map fun x => { x with rate := 0 :: x.rate.take 200 } }

/-- Both axes move on by one period. -/
def advanceAxes : Act := onMot fun m => { m with y := m.y.next, x := m.x.next, period := m.period + 1 }

/-- Time advances to the first tick whose generator time is not before `t`, in 2⁻³² ns. -/
def advanceToTraj (t : Int) : Act := .dyn fun s =>
  let now := s.trajAt s.b.pos.pt
  on (decide (now < t) && s.timInc != 0) (advance (-(-(t - now)).fdiv s.timInc).toNat)

/-- The period whose setpoint is due next (R244, R311): the one at hand, unless time has stepped. -/
def State.nextPeriod (s : State) : Nat :=
  let base := (-((-(s.trajAt s.b.pos.pt + s.leadNs * 2 ^ 32)).fdiv periodUnits)).toNat
  if s.b.mot.period = base ∨ s.b.mot.period = base + 1 then s.b.mot.period else base

/-- SETPOINT_PERIOD (R16, R242 to R245): at the launch instant of the next setpoint. -/
def execSetpointPeriod (s : State) : Host.Outcome State Fault Refusal :=
  perform (.dyn fun s =>
    if s.dev = .off ∨ s.dev = .reset ∨ s.dev = .dormant then .nop
    else
      let k := s.nextPeriod
      acts [on (!s.atRest) (bistPage 0xB4), onMot fun m => { m with period := k }, advanceToTraj (k * periodUnits - s.leadNs * 2 ^ 32),
        dueRole, dueWrites, rackReverse, rackArrive, disarmDone, moveDone, stopAtRest, stepRates, sendSpeed, nextTargets, phasePeriod, putSetpoint, advanceAxes]) s

/-! ### Launch-time queues (R244, R246, R314 to R316, R347) -/

/-- Launch time of a queued frame in whole ns. -/
def LtqFrame.at' (f : LtqFrame) : Nat := f.sec * 1000000000 + f.ns

/-- The frame that the transmit path takes next (R314): the earliest of the enabled queues, the lower queue on a tie. -/
def State.nextFrame (s : State) : Option LtqFrame :=
  (s.b.tim.ltq.filter fun f => s.flag (F.LTQ_Q_CFG_EN f.queue)).foldl (fun best f =>
    match best with
    | none => some f
    | some g => if f.at' < g.at' ∨ (f.at' = g.at' ∧ f.queue < g.queue) then some f else some g) none

/-- Remove the first such frame of its queue. -/
def dropFrame (f : LtqFrame) : Act := onTim fun t => { t with ltq := t.ltq.erase f }

/-- The ports of a queue (R314). -/
def State.ltqPorts (s : State) (q : Nat) : List Nat :=
  match s.fld (F.LTQ_Q_CFG_PORT q) with | 0 => [0] | 1 => [1] | _ => [0, 1]

/-- The partners to which a frame goes (R316, R317). -/
def State.frameTo (s : State) (f : LtqFrame) : List Partner :=
  match f.entry with
  | some e => s.b.net.partners.filter fun p => p.slot == e
  | none => (s.partners 2).filter fun p => !s.flag F.IDN_POLICY_SP_AUTH || (s.session p.id).isSome

/-- SEQ of a setpoint payload (R245). -/
def setpointSeq (payload : List Nat) : Nat := leAt payload 12 4

/-- Send a frame to its partners (R298, R314, R316). -/
def sendFrame (f : LtqFrame) (late : Bool) : Act := .dyn fun s =>
  let dest := s.frameTo f
  let diff := s.timNs - f.at'
  if dest.isEmpty then
    acts [addR R.LTQ_NODEST 1, on (f.entry.isNone && !s.b.net.noStage)
      (.seq (onNet fun n => { n with noStage := true }) (raise E.LTQ_NO_STAGE))]
  else
    acts [each dest fun p => .dyn fun t =>
        netSend (t.ltqPorts f.queue) p.id (t.session p.id) f.type (if late then 4 else 0) 0 f.payload,
      addR (R.LTQ_Q_SENT f.queue) 1, setR R.LTQ_ERR_MAX (max (s.rd R.LTQ_ERR_MAX) (min diff 0xFFFFFFFF)),
      on (f.entry.isNone) (setR R.MOT_SP_SEQ (setpointSeq f.payload))]

/-- A late frame (R246, R315): counted, LATE once a run, dropped or sent flagged. -/
def lateFrame (f : LtqFrame) : Act := .dyn fun s =>
  acts [addR (R.LTQ_Q_LATE f.queue) 1,
    on (!s.b.net.lateRun.contains f.queue)
      (.seq (onNet fun n => { n with lateRun := f.queue :: n.lateRun }) (raise E.LTQ_LATE)),
    if s.flag (F.LTQ_Q_CFG_SEND_LATE f.queue) then sendFrame f true else on (f.entry.isNone) setpointLate]

/-- Time advances to the first tick at which TIM is not before a time in ns. -/
def advanceToTim (ns : Nat) : Act := .dyn fun s =>
  let now := s.b.tim.sec * secondNs + s.b.tim.ns
  let t := ns * 2 ^ 32
  on (decide (now < t) && s.timInc != 0) (advance ((t - now + s.timInc - 1) / s.timInc))

/-- LTQ_LAUNCH (R244, R246, R314 to R316, R347): the frame at the head of the transmit path, if it is of this queue. -/
def execLtqLaunch (q : Fin 16) (sramUe : Bool) (s : State) : Host.Outcome State Fault Refusal :=
  perform (.dyn fun s =>
    match s.nextFrame with
    | some f => on (f.queue == q.val && s.pageWorks 0xC3) (acts [advanceToTim f.at', dropFrame f, .dyn fun t =>
        if sramUe then acts [sramError 6 f.queue true, addR (R.LTQ_Q_LATE f.queue) 1, on (f.entry.isNone) setpointLate]
        else if ((f.at' + t.fld (F.LTQ_Q_CFG_TOL f.queue)) * 2 ^ 32 : Nat) < t.timUnits then lateFrame f
        else .seq (onNet fun n => { n with lateRun := n.lateRun.filter fun x => x != f.queue }) (sendFrame f false)])
    | none => .nop) s

end Sys2Proof.Machine
end

