-- ==== Sys2Proof/Machine/Net.lean ====
section
/-! DEFINITION. The control network (chapter 10): links, messages received and answered (R294 to R302), discovery (R303 to
R307), launches (R317), the mate's heartbeat and maps (R281, R284, R313), and injections on the ports (R324). -/

namespace Sys2Proof.Machine

/-! ### Links and small answers (R294, R295, R323) -/

/-- The port that stays up in DORMANT (R323). -/
def State.dormantPort (s : State) : Nat :=
  if s.flag (F.NET_CFG_DORMANT 1) && !s.flag (F.NET_CFG_DORMANT 0) then 1 else 0

/-- Rate of a port (R294, R323): the one that NET_CFG.SPEED selects, else the one negotiated. -/
def State.portSpeed (s : State) (port negotiated : Nat) : Nat :=
  let cfg := s.fld (F.NET_CFG_SPEED port)
  if s.dev = .dormant then 3 else if 1 ≤ cfg ∧ cfg ≤ 3 then cfg else negotiated

/-- FEC in use at a rate (R294), coded as NET_CFG.FEC: at 25G what NET_CFG.FEC names, or what is negotiated; at 10G BASE-R where it
is negotiated, else none; at 1000BASE-KX none. -/
def State.portFec (s : State) (port rate negotiated : Nat) : Nat :=
  let cfg := s.fld (F.NET_CFG_FEC port)
  match rate with
  | 1 => if s.fld (F.NET_CFG_SPEED port) = 1 ∧ cfg ≠ 0 then cfg else negotiated
  | 2 => if negotiated = 2 then 2 else 3
  | _ => 3

/-- NET_STAT of a port that is up, from the rate and the FEC that negotiation would give. -/
def State.linkWord (s : State) (port speed fec : Nat) : Nat :=
  let rate := s.portSpeed port speed
  2 ^ 31 + rate * 2 ^ 28 + s.portFec port rate fec * 2 ^ 26

/-- The MAC address of a port (R295, R438). -/
def State.mac (s : State) (port : Nat) : Nat := (s.otpWord 2 + s.otpWord 3 % 2 ^ 16 * 2 ^ 32 + port) % 2 ^ 48

/-- The IPv6 link-local address, a modified EUI-64 (R295), in network order. -/
def State.linkLocal (s : State) (port : Nat) : List Nat :=
  let mac := (leBytes 6 (s.mac port)).reverse
  [0xFE, 0x80, 0, 0, 0, 0, 0, 0, Nat.xor (mac.getD 0 0) 2, mac.getD 1 0, mac.getD 2 0, 0xFF, 0xFE, mac.getD 3 0, mac.getD 4 0,
    mac.getD 5 0]

/-- The ANNOUNCE groups (R296): ff05::5248:a and 239.255.52.48, in network order. -/
def groupV6 : List Nat := [0xFF, 5, 0, 0, 0, 0, 0, 0, 0, 0, 0, 0, 0x52, 0x48, 0, 0x0A]
def groupV4 : List Nat := [239, 255, 52, 48]

/-- Membership reports for the groups that the device listens to, as a port comes up (R295). -/
def reportGroups (p : Nat) : Act := .dyn fun s =>
  .seq (on (s.v6Runs p) (.emit (.report p (s.linkLocal p) groupV6)))
    (on (s.v4Runs p) (.emit (.report p (leBytes 4 (s.rd (R.NET_IP4 p))).reverse groupV4)))

/-- NET_LINK_CHANGE (R294, R323, R325, R330): a port comes up, goes down, or changes its rate; `speed` and `fec` are what negotiation
gives: 0 25GBASE-KR, 1 10GBASE-KR, 2 1000BASE-KX; 0 RS-FEC, 1 BASE-R FEC, 2 none. -/
def execNetLinkChange (port : Fin 2) (up : Bool) (speed fec : Fin 3) (s : State) : Host.Outcome State Fault Refusal :=
  perform (.dyn fun s =>
    let p := port.val
    let up' := up && (s.dev != .dormant || p == s.dormantPort)
    if s.dev = .off then .nop
    else .seq (setR (R.NET_STAT p) (if up' then s.linkWord p (speed + 1) (fec + 1) else 0))
      (on (s.flag (F.NET_STAT_LINK p) != up')
        (.seq (raise (if up' then E.NET_LINK_UP p else E.NET_LINK_DOWN p)) (on up' (reportGroups p))))) s

/-- A port's link is up, its page works, and the device serves it. -/
def State.portServes (s : State) (port : Nat) : Bool :=
  s.dev != .off && s.dev != .reset && s.flag (F.NET_STAT_LINK port) && s.pageWorks (0xC0 + port)

/-- A port takes Rhadutas messages: they run over IPv6 or IPv4 (R295, R296). -/
def State.hears (s : State) (port : Nat) : Bool := s.portServes port && s.ipRuns port

/-- ND_ARP_ECHO_REQUEST (R295): one of the protocol that runs is answered: Neighbour Discovery or echo over IPv6, ARP or echo over
IPv4. -/
def execNdArpEchoRequest (port : Fin 2) (q : IpRequest) (s : State) : Host.Outcome State Fault Refusal :=
  perform (.dyn fun s => on (s.portServes port && (if q.v6 then s.v6Runs port else s.v4Runs port))
    (.emit (.answer port (q.data.map BitVec.toNat)))) s

/-! ### Messages received (R298, R302, R321) -/

/-- Where a request came from: a port, or a control-message ring (R300); its sender, session and CORR. -/
structure Origin where
  ring : Bool
  port : Nat
  partner : Nat
  sess : Option Nat
  corr : Nat
  deriving DecidableEq, Repr

/-- Discard a message (R298). -/
def netDrop (port : Nat) : Act := addR (R.NET_DROP_CNT port) 1

/-- The TYPEs of R299. -/
def knownTypes : List Nat := [1, 2, 3, 4, 5, 6, 0x10, 0x11, 0x12, 0x20, 0x21, 0x22, 0x23, 0x24, 0x25, 0x30, 0x31]

/-- MAGIC, VER and LEN are right, and TYPE is none that is reserved (R298, R299). -/
def framedMsg (m : NetMsg) : Bool :=
  m.magic == 0x4852 && m.ver == 1 && m.len.toNat == m.payload.length && decide (m.payload.length ≤ 1404) &&
    match m.type with | some t => knownTypes.contains t.toNat | none => true

/-- A tag fails (R298, R321, R330). -/
def tagFailed (port : Nat) : Act :=
  acts [netDrop port, addR (R.NET_AUTH_FAIL port) 1, raise (E.NET_AUTH_FAIL port)]

/-- SEQ has been accepted on a session, or lies below its window (R302). -/
def Session.replayed (x : Session) (seq : Nat) : Bool :=
  decide (seq + 64 < x.high) || seq == x.high || x.seen.contains seq

/-- Accept SEQ on a session (R302). -/
def Session.accept (x : Session) (seq : Nat) : Session :=
  let high := max x.high seq
  { x with high := high, seen := (seq :: x.high :: x.seen).filter fun n => decide (n < high) && decide (high ≤ n + 64) }

/-- A session by its identifier and partner, replaced ones included (R321). -/
def State.sessionBy (s : State) (id partner : Nat) : Option Session :=
  s.b.net.sessions.find? fun x => x.id == id && x.partner == partner && x.up

/-- Act on a message that a port receives; one sent with AUTH must pass its session's tag and replay window. -/
def receive (m : NetMsg) (f : Origin → Act) : Act := .dyn fun s =>
  let p := m.port.val
  let o : Origin := ⟨false, p, m.devId.toNat, none, m.corr.toNat⟩
  if !s.hears p then .nop
  else if !framedMsg m then netDrop p
  else .seq (bistPage (0xC0 + p)) <| if m.auth then
    match s.sessionBy m.session.toNat o.partner with
    | some x =>
      if !m.tagOk then tagFailed p
      else if x.replayed m.seq.toNat then addR (R.NET_DUP_CNT p) 1
      else acts [onNet fun n => { n with sessions := n.sessions.map fun y =>
            if y.id == x.id && y.partner == x.partner then y.accept m.seq.toNat else y },
          addR (R.NET_RX_CNT p) 1, f { o with sess := some x.id }]
    | none => tagFailed p
  else .seq (addR (R.NET_RX_CNT p) 1) (f o)

/-- A message that must come in a session (R299). -/
def receiveAuth (m : NetMsg) (f : Origin → Act) : Act := .dyn fun s =>
  if m.auth then receive m f else on (s.hears m.port) (if framedMsg m then tagFailed m.port else netDrop m.port)

/-- The payload as numbers. -/
def msgBytes (m : NetMsg) : List Nat := m.payload.map BitVec.toNat

/-! ### Answers (R298 to R301) -/

/-- Entries of the reply ring that a message takes, written as they stand (R301). -/
def writeEntries (ring : Nat) (es : List (List Nat)) : Act := each es fun e => ringWrite ring e

/-- Answers that wait for room in the reply ring go out, oldest first (R301). -/
def flushReplies : Nat → Act
  | 0 => .nop
  | fuel + 1 => .dyn fun s =>
    match s.replyRing, s.b.dma.replies with
    | some r, (h, p) :: rest =>
      let es := ctrlEntries h p
      on (s.ringRoom r es.length) (acts [writeEntries r es, onDma fun d => { d with replies := rest }, flushReplies fuel])
    | _, _ => .nop

/-- A partner table entry by DEV_ID. -/
def State.partnerBy (s : State) (id : Nat) : Option Partner := s.b.net.partners.find? fun p => p.id == id && p.role != 4

/-- Answer a request in the way it came (R297, R298, R300). -/
def answerTo (o : Origin) (type flags : Nat) (payload : List Nat) : Act := .dyn fun s =>
  if o.ring then
    acts [bumpSeq none, onDma fun d => { d with replies := d.replies ++
        [(netHeader s type payload.length (2 + flags) (s.b.net.plainSeq + 1) 0 o.corr, payload)] },
      flushReplies (s.b.dma.replies.length + 1)]
  else
    netSend [match s.partnerBy o.partner with | some p => p.pref | none => o.port] o.partner
      (o.sess.bind fun id => s.sessionBy id o.partner) type (2 + flags) o.corr payload

/-- RESP (R299): the status, then the values read. -/
def respond (o : Origin) (status : Nat) (values : List Nat) : Act :=
  answerTo o 0x12 (if status = 0 then 0 else 8) (leBytes 4 status ++ values)

/-- The sender is a HOST partner (R299, R300). -/
def State.fromHost (s : State) (o : Origin) : Bool :=
  o.ring || match s.partnerBy o.partner with | some p => p.role == 0 | none => false

/-- Serve a HOST request (R299, R323): AUTH, ROLE and STATE are tested before the request itself. -/
def hostRequest (o : Origin) (needsAuth : Bool) (f : Act) : Act := .dyn fun s =>
  if needsAuth && !o.ring && o.sess.isNone then respond o 1 []
  else if !s.fromHost o then respond o 2 []
  else if s.dev = .dormant then respond o 3 []
  else f

/-! ### Sessions in general (R307, R321, R323, R330) -/

/-- Close sessions, with SESSION_DOWN for each that is in use. -/
def closeSessions (which : Session → Bool) : Act := .dyn fun s =>
  acts [onNet fun n => { n with sessions := n.sessions.filter fun x => !which x },
    each (s.b.net.sessions.filter fun x => which x && x.up && !x.old) fun _ => raise E.IDN_SESSION_DOWN]

/-- SESSION_EXPIRE (R321): the replaced session of a slot is no longer accepted. -/
def execSessionExpire (slot : Fin 8) (s : State) : Host.Outcome State Fault Refusal :=
  perform (onNet fun n => { n with sessions := n.sessions.filter fun x => !(x.slot == slot.val && x.old) }) s

/-! ### Discovery (R303 to R307) -/

/-- Bytes of a certificate in OTP (R438): 0 the device's, 1 the owner's. -/
def State.certBytes (s : State) (sel : Nat) : List Nat :=
  let n := min 1024 (s.otpWord (0x00E + sel % 2))
  ((List.range 256).flatMap fun i => leBytes 4 (s.otpWord (0x100 + sel % 2 * 0x100 + i))).take n

/-- The owner certificate is present (R328). -/
def State.hasOwner (s : State) : Bool := s.otpWord 0x00F != 0

/-- The certificate that the device uses in HELLO. -/
def State.certSel (s : State) : Nat := if s.hasOwner then 1 else 0

/-- A number as big-endian bytes. -/
def beBytes (n v : Nat) : List Nat := (leBytes n v).reverse

/-- The ANNOUNCE payload on a port (R304). -/
def announcePayload (s : State) (port : Nat) : List Nat :=
  let cert := s.certBytes s.certSel
  leBytes 8 s.devId ++ [1, s.role.code] ++ leBytes 2 (s.fld F.DSC_CFG_COLUMN) ++ [s.dev.code, 0] ++
    leBytes 2 (s.fld F.DSC_CFG_INTERVAL) ++ leBytes 4 (s.rd (R.NET_IP6_0 port)) ++ leBytes 4 (s.rd (R.NET_IP6_1 port)) ++
    leBytes 4 (s.rd (R.NET_IP6_2 port)) ++ leBytes 4 (s.rd (R.NET_IP6_3 port)) ++ leBytes 4 (s.rd (R.NET_IP4 port)) ++
    leBytes 2 (s.fld (F.NET_PORTS_MSG port)) ++ [0, 0] ++
    (if cert.isEmpty then List.replicate 48 0 else beBytes 48 (Config.sha384 cert).toNat)

/-- TIM time in ns at which the next ANNOUNCE is due (R303): the first one (DEV_ID mod 997) ms after the start of a TIM second, later
ones an INTERVAL apart. -/
def State.announceDue (s : State) : Nat :=
  match s.b.net.announced with
  | some t => t + s.fld F.DSC_CFG_INTERVAL * 1000000
  | none =>
    let t := s.b.tim.sec * 1000000000 + s.devId % 997 * 1000000
    if s.timNs ≤ t then t else t + 1000000000

/-- ANNOUNCE_SEND (R296, R297, R303): on both ports, at its moment. -/
def execAnnounceSend (s : State) : Host.Outcome State Fault Refusal :=
  perform (.dyn fun s => on (s.dev != .off && s.dev != .reset && s.pageWorks 0xC5)
    (acts [bistPage 0xC5, advanceToTim s.announceDue, onNet fun n => { n with announced := some s.announceDue },
      each [0, 1] fun p => .dyn fun t => netSend [p] 0 none 1 0 0 (announcePayload t p)])) s

/-- Entries that a role may hold (R305). -/
def roleLimit (role : Nat) : Nat := match role with | 0 => 4 | 2 => 2 | 3 => 64 | _ => 1

/-- The lowest free slot of the partner table. -/
def freeSlot (ps : List Partner) : Option Nat := (List.range 64).find? fun k => !(ps.any fun p => p.slot == k)

/-- The PEER least recently heard. -/
def oldestPeer (ps : List Partner) : Option Partner :=
  (ps.filter fun p => p.role == 3).foldl (fun best p =>
    match best with | none => some p | some b => if p.order < b.order then some p else some b) none

/-- Remove entries: the table has room again (R306). -/
def removePartners (which : Partner → Bool) : Act := .dyn fun s =>
  onNet fun n =>
    { n with
      partners := n.partners.filter fun p => !which p
      fullRaised := n.fullRaised && !(s.b.net.partners.any which) }

/-- Enter a partner in the table, or count it as dropped (R306). -/
def enterPartner (x : Partner) : Act := .dyn fun s =>
  let ps := s.b.net.partners
  let room := decide ((ps.filter fun p => p.role == x.role).length < roleLimit x.role)
  let put := fun (slot : Nat) => Act.seq (onNet fun n =>
    { n with partners := (n.partners.filter fun p => p.slot != slot) ++ [{ x with slot := slot }] }) (raise E.DSC_PARTNER_NEW)
  let lose := Act.seq (addR R.DSC_DROP 1) (on (!s.b.net.fullRaised)
    (.seq (onNet fun n => { n with fullRaised := true }) (raise E.DSC_TABLE_FULL)))
  if !room then lose
  else match freeSlot ps, oldestPeer ps with
    | some k, _ => put k
    | none, some p => if x.role == 3 then lose else put p.slot
    | none, none => lose

/-- Note the time of a hearing. -/
def heardNow (s : State) (port : Nat) (p : Partner) : Partner :=
  { p with heard := Nat.lor p.heard (2 ^ port), port := port, at' := s.b.tim.ticks, order := s.b.net.hearings }

/-- A partner is heard in a role (R305, R306): its entry is refreshed, or it enters; a change of role enters it anew. `conflict`: it
claims this device's column while another device is its mate. -/
def partnerHeard (x : Partner) (port : Nat) (conflict : Bool) : Act := .dyn fun s =>
  let hit := fun p : Partner => p.id == x.id && (p.role == 4) == (x.role == 4)
  let bump := onNet fun n => { n with hearings := n.hearings + 1 }
  match s.b.net.partners.find? hit with
  | some p =>
    if p.role = x.role then
      let upd := fun q : Partner => if hit q then heardNow s port
        { q with column := x.column, state := x.state, interval := x.interval } else q
      acts [bump, on (conflict && p.column != x.column) (raise E.DSC_COLUMN_CONFLICT),
        onNet fun n => { n with partners := n.partners.map upd }]
    else acts [bump, removePartners hit, on conflict (raise E.DSC_COLUMN_CONFLICT), enterPartner (heardNow s port x)]
  | none => acts [bump, on conflict (raise E.DSC_COLUMN_CONFLICT), enterPartner (heardNow s port x)]

/-- DSC_MATE: the DEV_ID that the mate must have; 0 for any (R329). -/
def State.wantedMate (s : State) : Nat := s.rd R.DSC_MATE_LO + s.rd R.DSC_MATE_HI * 2 ^ 32

/-- Another device holds the MATE entry. -/
def State.mateTaken (s : State) (id : Nat) : Bool := (s.partners 1).any fun p => p.id != id

/-- The role of an announced partner (R305, R306); none where it has no role for this device. -/
def State.announcedRole (s : State) (id cls column : Nat) : Option Nat :=
  let mine := column == s.fld F.DSC_CFG_COLUMN
  match cls with
  | 1 => some (if mine && (s.wantedMate == 0 || s.wantedMate == id) && !s.mateTaken id then 1 else 3)
  | 2 => if mine || column == 0x1FF then some 0 else none
  | 3 => if mine then some 2 else none
  | _ => none

/-- ANNOUNCE (R303 to R306). -/
def execAnnounce (m : NetMsg) (s : State) : Host.Outcome State Fault Refusal :=
  perform (.dyn fun s =>
    if s.hears m.port && m.payload.length != 88 then netDrop m.port
    else receive m fun _ => .dyn fun s =>
      let b := (msgBytes m)
      let id := leAt b 0 8
      let column := leAt b 10 2 % 512
      if id = s.devId then raise E.DSC_ID_CONFLICT
      else match s.announcedRole id (b.getD 8 0) column with
        | some role =>
          partnerHeard ⟨0, role, id, column, 0, m.port, b.getD 12 0 % 16, leAt b 14 2, 0, 0⟩ m.port
            (role == 3 && column == s.fld F.DSC_CFG_COLUMN && s.mateTaken id)
        | none => .nop) s

/-- TIM leaves or enters a state, with its event (R310, R330). -/
def timState (st : Nat) : Act := .dyn fun s =>
  let old := s.fld F.TIM_STAT_STATE
  if old = st then .nop
  else acts [setF F.TIM_STAT_STATE st, onTim fun t => { t with inRun := 0, outRun := 0 },
    match st with
    | 2 => raise E.TIM_LOCKED
    | 3 => raise E.TIM_HOLDOVER
    | _ => on (old != 0) (raise E.TIM_UNLOCKED)]

/-- PARTNER_LOST (R307): three of the partner's intervals have passed; the TIMEKEEPER's entry ages out on its own
timeout. -/
def execPartnerLost (slot : Fin 64) (s : State) : Host.Outcome State Fault Refusal :=
  perform (.dyn fun s =>
    match s.b.net.partners.find? fun p => p.slot == slot.val with
    | some p =>
      if p.role = 4 then acts [removePartners fun q => q.slot == p.slot, timState 0,
        onTim fun t => { t with masters := t.masters.filter fun x => x.gm != p.id, parent := none, reqAt := none }]
      else acts [advanceToTick (p.at' + 3 * p.interval * 250000), removePartners fun q => q.slot == p.slot,
        on (p.role != 3) (.seq (closeSessions fun x => x.partner == p.id) (raise E.DSC_PARTNER_LOST))]
    | none => .nop) s

/-! ### Launches (R317) -/

/-- Queue a host's message for launch (R317). -/
def launchRequest (o : Origin) (b : List Nat) : Act := .dyn fun s =>
  let q := b.getD 12 0
  let e := b.getD 13 0
  if b.length < 16 ∨ 1040 < b.length ∨ 16 ≤ q ∨ q = s.fld F.MOT_CFG_LTQ ∨ s.flag (F.LTQ_Q_CFG_EN q) = false ∨
      (s.b.net.partners.any fun p => p.slot == e) = false then respond o 4 []
  else .seq (ltqOffer ⟨q, leAt b 0 8, leAt b 8 4, some e, b.getD 14 0, b.drop 16⟩) (respond o 0 [])

/-- LAUNCH (R299, R317). -/
def execLaunch (m : NetMsg) (s : State) : Host.Outcome State Fault Refusal :=
  perform (receive m fun o => hostRequest o true (launchRequest o (msgBytes m))) s

/-! ### The mate's heartbeat, withdrawal and maps (R270, R281, R284, R299, R313) -/

/-- HB bytes 0 and 1 (R270). -/
def hbHead (s : State) : List Nat :=
  let n := (s.dwelling.getD s.b.sht.first)
  [s.dev.code * 16 + s.role.code,
    (if s.rackReady n then 4 else 0) + (if s.dev = .fault then 2 else 0) + (if s.b.par.wdSelf then 1 else 0)]

/-- The stripe being written, or 0. -/
def State.curStripe (s : State) : Nat := match s.run with | some r => r.stripe.num | none => 0

/-- The MATE_HB payload (R299). -/
def mateHbPayload (s : State) : List Nat :=
  hbHead s ++ [0, 0] ++ leBytes 4 (s.rd R.MOT_SP_SEQ) ++ leBytes 4 (ofSigned 32 ((s.b.sht.first : Int) - 1)) ++
    leBytes 4 s.curStripe

/-- The device and its mate are in a pair, or becoming one. -/
def State.mated (s : State) : Bool := s.paired || s.b.par.joinStep != 0

/-- MATE_HB_SEND (R281, R297, R299): on both ports, to a mate that holds a session. -/
def execMateHbSend (s : State) : Host.Outcome State Fault Refusal :=
  perform (.dyn fun s =>
    on (s.mated && s.dev != .off && s.dev != .reset && s.dev != .dormant) (each (s.partners 1) fun p => .dyn fun t =>
      match t.session p.id with
      | some x => netSend [0, 1] p.id (some x) 0x22 0 0 (mateHbPayload t)
      | none => .nop)) s

/-- A message in the mate's session. -/
def fromMate (m : NetMsg) (len : Nat) (f : Act) : Act := .dyn fun s =>
  if s.hears m.port && m.payload.length != len then netDrop m.port
  else receiveAuth m fun o => .dyn fun s =>
    on ((s.partners 1).any fun p => p.id == o.partner) f

/-- What HB bytes 0 and 1 say of the mate (R270). -/
def noteMate (b0 b1 : Nat) : Act := onPar fun p =>
  { p with
    mateState := b0 / 16, mateRole := b0 % 8, mateRackOk := b1.testBit 2, mateFault := b1.testBit 1 }

/-- A stripe number comes after another, modulo 2³². -/
def stripeAfter (a b : Nat) : Bool := decide (0 < (a + 2 ^ 32 - b) % 2 ^ 32) && decide ((a + 2 ^ 32 - b) % 2 ^ 32 < 2 ^ 31)

/-- The joiner frees the stripes that its mate has written: those before the last one that the mate reported, and that one too once
the mate has left it (R287). -/
def freeWritten (all : Bool) : Act := .dyn fun s =>
  match s.b.par.mateStripe with
  | some m =>
    .seq (each (s.b.job.queue.filter fun e => stripeAfter m e.stripe || all && e.stripe == m) fun e =>
        .seq (each (s.b.cel.bins.filter fun x => x.num == e.bin && x.stripe == e.stripe) fun x => freeBin x.num)
          (dropEntry e.stripe))
      (on all (onPar fun p => { p with mateStripe := none }))
  | none => .nop

/-- A MATE heartbeat tells the joiner which stripe its mate writes (R287); a mate in READY has left it. -/
def followMate (b0 stripe : Nat) : Act := .dyn fun s =>
  let newer := match s.b.par.mateStripe with | some m => stripeAfter stripe m | none => true
  on (s.role == .joining)
    (if 5 ≤ b0 / 16 ∧ b0 / 16 ≤ 6 then
      .seq (on newer (onPar fun p => { p with mateStripe := some stripe })) (freeWritten false)
    else on (b0 / 16 == 3) (freeWritten true))

/-- MATE_HB (R281, R287, R299). -/
def execMateHb (m : NetMsg) (s : State) : Host.Outcome State Fault Refusal :=
  perform (fromMate m 16 (acts [.dyn fun s => onPar fun p => { p with netAt := some s.b.pos.pt },
    noteMate ((msgBytes m).getD 0 0) ((msgBytes m).getD 1 0),
    followMate ((msgBytes m).getD 0 0) (leAt (msgBytes m) 12 4)])) s

/-- Settle the verdicts of every shot at hand. -/
def settleAll : Act := .dyn fun s => each s.b.sht.recs fun x => tryVote x.shot

/-- WITHDRAWN (R273, R284): the ACTIVE counts its mate as withdrawn and goes on sealing SOLE. -/
def execWithdrawn (m : NetMsg) (s : State) : Host.Outcome State Fault Refusal :=
  perform (fromMate m 8 (.dyn fun s => on (s.role == .active)
    (.seq (onPar fun p => { p with wdMate := true }) settleAll))) s

/-- TMAP_SEND (R313): the ACTIVE names the first sample whose arrival tick lies at least 1 ms ahead, and keeps the map. -/
def execTmapSend (s : State) : Host.Outcome State Fault Refusal :=
  perform (.dyn fun s =>
    let now := s.b.pos.pt.fdiv 65536
    let j := leastNat fun n => decide (now + 250000 ≤ (s.sampleArrival n).fdiv 65536)
    let t := s.timAfter ((s.sampleArrival j).fdiv 65536 - now).toNat
    let m : TimeMap := ⟨j, t.1, t.2, s.timInc⟩
    on (s.role == .active && s.dev != .reset && s.dev != .off && s.pageWorks 0xC2) (acts [onTim fun x => { x with maps := m :: x.maps.take 15 },
      each (s.partners 1) fun p => .dyn fun u => match u.session p.id with
        | some x => netSend [0, 1] p.id (some x) 0x24 0 0
            (leBytes 4 j ++ [0, 0, 0, 0] ++ leBytes 8 m.sec ++ leBytes 8 m.ns ++ leBytes 8 m.inc)
        | none => .nop])) s

/-- TMAP (R313): a map that comes after its tick is discarded. -/
def execTmap (m : NetMsg) (s : State) : Host.Outcome State Fault Refusal :=
  perform (fromMate m 32 (.dyn fun s =>
    let b := (msgBytes m)
    let x : TimeMap := ⟨fullIndex s.b.pos.n (leAt b 0 4), leAt b 8 8, leAt b 16 8, leAt b 24 8⟩
    on (s.role == .standby && decide (s.b.pos.pt ≤ s.mapTick x * 65536))
      (onTim fun t => { t with maps := x :: t.maps.take 15 }))) s

/-! ### Injections on the ports (R324) -/

/-- A write to NET_FIJ_CFG (R324): it arms an injection, or is ignored with INJECT. -/
def netFijWrite (port : Nat) (w : Word) : Act := .dyn fun s =>
  let kind := (F.NET_FIJ_CFG_KIND port).get w.toNat
  let keep := fun l : List (Nat × Nat) => l.filter fun e => e.1 != port
  if kind = 0 then .seq (writeReg (R.NET_FIJ_CFG port) w) (onNet fun n => { n with fijLeft := keep n.fijLeft })
  else if s.injecting (0xC0 + port) = false ∨ 4 < kind then err (R.NET_FIJ_CFG port) Err.inject
  else .seq (writeReg (R.NET_FIJ_CFG port) w) (onNet fun n =>
    { n with fijLeft := (port, max 1 (s.rd (R.NET_FIJ_N port))) :: keep n.fijLeft })

/-- NET_FIJ_CFG_WRITE (R324). -/
def execNetFijCfgWrite (port : Fin 2) (w : Word) (s : State) : Host.Outcome State Fault Refusal :=
  perform (toPage (0xC0 + port) (netFijWrite port w)) s

end Sys2Proof.Machine
end

