-- ==== Sys2Proof/Machine/Clock.lean ====
section
/-! DEFINITION. Time (R308 to R312, R326): the PTP messages as the port measures them, the servo, the states of TIM, steps
and the TIM commands. -/

namespace Sys2Proof.Machine

/-- The port on which PTP runs (R308, R326). -/
def State.ptpPort (s : State) : Nat :=
  match s.fld F.TIM_CFG_PORT with
  | 0 => 0
  | 1 => 1
  | _ => s.fld F.TIM_STAT_PORT

/-- AUTO chooses the port (R308, R326). -/
def State.ptpAuto (s : State) : Bool := decide (2 ≤ s.fld F.TIM_CFG_PORT)

/-- The grandmaster in the partner table (R305). -/
def State.timekeeper (s : State) : Option Partner := (s.partners 4).head?

/-- 4.0 ns in 2⁻³² ns. -/
def nominalInc : Int := 4 * 2 ^ 32

/-- TIM_SLEW as 2⁻³² ns of TIM_INC (R309). -/
def State.slew (s : State) : Int := (s.fld F.TIM_SLEW_PPM * 4 * 2 ^ 32 / 1000000 : Nat)

/-- Set TIM_INC, at most TIM_SLEW from 4.0 ns (R309). -/
def setInc (v : Int) : Act := .dyn fun s =>
  let x := (max (nominalInc - s.slew) (min (nominalInc + s.slew) v)).toNat
  acts [noteRate 0, setR R.TIM_INC_LO (x % 2 ^ 32), setR R.TIM_INC_HI (x / 2 ^ 32)]

/-- Evaluate the lock after a usable Sync (R310). -/
def lockState (offset : Int) : Act := .dyn fun s =>
  let thr : Nat := s.fld F.TIM_LOCK_THR_NS
  let size := offset.natAbs
  let near := if size ≤ thr then s.b.tim.inRun + 1 else 0
  let far := if 4 * thr < size then s.b.tim.outRun + 1 else 0
  acts [onTim fun t => { t with inRun := near, outRun := far },
    match s.fld F.TIM_STAT_STATE with
    | 1 => on (decide (16 ≤ near)) (timState 2)
    | 2 => on (decide (4 ≤ far)) (timState 1)
    | _ => .nop]

/-- How much the servo takes TIM_INC from 4.0 ns, in 2⁻³² ns (R309): 2⁻³ of the offset and 2⁻⁶ of the sum of the offsets, spread
over a time that is free. -/
def servoAmount (offset sum : Int) : Int := (8 * offset + sum) * 2 ^ 42 / (Config.servoSpan offset sum + 1 : Nat)

/-- The servo's answer to an offset (R309, R311): while a step waits for READY, each later Sync of the job renews what it will be. -/
def servoSync (offset : Int) : Act := .dyn fun s =>
  if decide (s.rd R.TIM_STEP_LIM < offset.natAbs) then
    if s.inJob then
      acts [on (!s.flag F.TIM_STAT_DEFERRED) (raise E.TIM_STEP_DEFERRED), setB F.TIM_STAT_DEFERRED true,
        onTim fun t => { t with step := some offset }, setInc (nominalInc - offset.sign * s.slew)]
    else stepTim offset
  else
    let sum := s.b.tim.integral + offset
    .seq (onTim fun t => { t with integral := sum, step := if s.inJob then t.step.map fun _ => offset else t.step })
      (setInc (nominalInc - servoAmount offset sum))

/-- PTP's transport runs on a port (R308, R326): UDP over IPv6 or IPv4, or Ethernet. -/
def State.ptpRuns (s : State) (port : Nat) : Bool :=
  s.portServes port && s.pageWorks 0xC2 && match s.fld F.TIM_CFG_XPORT with
    | 1 => s.v4Runs port
    | 2 => true
    | _ => s.v6Runs port

/-- A time of the master in 2⁻³² ns: a timestamp in seconds and ns, and a correction in 2⁻¹⁶ ns. -/
def masterTime (sec : BitVec 48) (ns : Word) (corr : Int) : Int := (sec.toNat * secondNs + ns.toNat * 2 ^ 32 : Nat) + corr * 2 ^ 16

/-- A board latency of NET_TS_LAT in 2⁻³² ns (R308, R325): 1/16 ns a unit. -/
def State.boardLatency (s : State) (port half : Nat) : Int := (s.rd (R.NET_TS_LAT port) / 2 ^ (16 * half) % 2 ^ 16 * 2 ^ 28 : Nat)

/-- The mean path delay from a Sync and a Delay_Req (R308, R326): the master's receive time of the request is `t4`. -/
def pathDelay (t4 : Int) : Act := .dyn fun s =>
  match s.b.tim.reqAt with
  | some t3 =>
    let d := (s.b.tim.syncDiff + (t4 - t3)).fdiv 2
    .seq (onTim fun t => { t with path := d, reqAt := none }) (setR R.TIM_PATH (satI (d.fdiv (2 ^ 32)) 0 (2 ^ 32 - 1)).toNat)
  | none => .nop

/-- A usable Sync (R308 to R311): from the port and the master that the clock follows. The offset is TIM at its arrival, NET_TS_LAT
added, less the master's time and the mean path delay, to whole ns (the rounding is not stated: DESIGN CHOICE). A Delay_Req follows
each (DESIGN CHOICE: the spec gives no interval). -/
def usableSync (y : PtpSync) : Act := .dyn fun s =>
  let t2 := s.timUnits + s.boardLatency y.port 1
  let diff := t2 - masterTime y.sec y.ns y.corr.toInt
  let offset := (diff - s.b.tim.path).fdiv (2 ^ 32)
  acts [onTim fun t => { t with syncAt := t.ticks, syncDiff := diff },
    setR R.TIM_OFFSET (ofSigned 32 (satI offset (-(2 ^ 31)) (2 ^ 31 - 1))), on (s.fld F.TIM_STAT_STATE == 3) (timState 1),
    on (s.flag F.TIM_CFG_SERVO) (servoSync offset), lockState offset,
    .emit (.delayReq y.port), .dyn fun s => onTim fun t => { t with reqAt := some (s.timUnits + s.boardLatency y.port 0) }]

/-- PTP_SYNC (R308 to R311). -/
def execPtpSync (y : PtpSync) (s : State) : Host.Outcome State Fault Refusal :=
  perform (.dyn fun s =>
    on (s.ptpRuns y.port && s.ptpPort == y.port.val && y.domain.toNat == s.fld F.TIM_CFG_DOMAIN && s.timekeeper.isSome &&
        s.b.tim.parent == some y.source.toNat)
      (acts [bistPage (0xC0 + y.port), bistPage 0xC2, usableSync y])) s

/-- The numbers by which two masters compare, the first that differs deciding (R308). The default algorithm of IEEE 1588-2019, which
the spec names and does not give, is taken as: priority1, clock quality, priority2, grandmaster identity, steps removed, sender
(PRESUMED); between two ports the one in use. -/
def Master.key (inUse : Nat) (m : Master) : List Nat :=
  [m.prio1, m.quality, m.prio2, m.gm, m.steps, m.source, if m.port = inUse then 0 else 1]

/-- The first of two lists of numbers comes before the second. -/
def before : List Nat → List Nat → Bool
  | [], _ => false
  | _, [] => false
  | a :: x, b :: y => decide (a < b) || (a == b && before x y)

/-- The best of the masters heard (R308). -/
def State.bestMaster (s : State) : Option Master :=
  s.b.tim.masters.foldl (fun best m => match best with
    | none => some m
    | some b => if before (m.key s.ptpPort) (b.key s.ptpPort) then some m else some b) none

/-- A master as its Announce describes it. -/
def masterOf (a : PtpAnnounce) : Master :=
  ⟨a.port, a.source.toNat, a.prio1.toNat, a.quality.toNat, a.prio2.toNat, a.gm.toNat, a.steps.toNat⟩

/-- The best master's Announce (R305, R308, R310): its grandmaster becomes the TIMEKEEPER. -/
def followMaster (a : PtpAnnounce) : Act := .dyn fun s =>
  let change := (s.timekeeper.map fun p => p.id) != some a.gm.toNat
  acts [on s.ptpAuto (setF F.TIM_STAT_PORT a.port), setR R.TIM_UTC_OFF a.utcOff.toNat,
    onTim fun t => { t with parent := some a.source.toNat, reqAt := if t.parent = some a.source.toNat then t.reqAt else none },
    on change (acts [removePartners fun p => p.role == 4, setR R.TIM_GM_LO (a.gm.toNat % 2 ^ 32),
      setR R.TIM_GM_HI (a.gm.toNat / 2 ^ 32), raise E.TIM_GM_CHANGE, timState 1]),
    partnerHeard ⟨0, 4, a.gm.toNat, 0, 0, a.port, 0, 0, 0, 0⟩ a.port false]

/-- PTP_ANNOUNCE (R305, R308, R310): the master is noted, and followed where it is the best. -/
def execPtpAnnounce (port : Fin 2) (gm : BitVec 64) (src : PtpSource) (utcOff : BitVec 16) (s : State) :
    Host.Outcome State Fault Refusal :=
  perform (.dyn fun s =>
    let a : PtpAnnounce := { src with port, gm, utcOff }
    let m := masterOf a
    on (s.ptpRuns a.port && a.domain.toNat == s.fld F.TIM_CFG_DOMAIN && (s.ptpAuto || s.ptpPort == a.port.val))
      (.seq (onTim fun t => { t with masters := m :: t.masters.filter fun x => x.source != m.source || x.port != m.port })
        (.dyn fun t => on (t.bestMaster == some m) (followMaster a)))) s

/-- PTP_DELAY_RESP (R308, R326): the master's receive time of the Delay_Req, its correction taken off. -/
def execPtpDelayResp (d : PtpDelay) (s : State) : Host.Outcome State Fault Refusal :=
  perform (.dyn fun s => on (s.ptpRuns s.ptpPort && s.timekeeper.isSome) (pathDelay (masterTime d.sec d.ns (-d.corr.toInt)))) s

/-- PTP_PORT_MOVE (R308): AUTO goes on to the other port, and to the best master heard there. -/
def execPtpPortMove (s : State) : Host.Outcome State Fault Refusal :=
  perform (.dyn fun s => on (s.ptpAuto && s.timekeeper.isSome) (.seq (setF F.TIM_STAT_PORT (1 - s.fld F.TIM_STAT_PORT))
    (onTim fun t => { t with masters := t.masters.filter fun x => x.port != s.fld F.TIM_STAT_PORT, reqAt := none }))) s

/-- HOLDOVER (R310): 3 s after the last usable Sync while LOCKED; TIM_INC is held. -/
def execHoldover (s : State) : Host.Outcome State Fault Refusal :=
  perform (.dyn fun s => on (s.fld F.TIM_STAT_STATE == 2) (.seq (advanceToTick (s.b.tim.syncAt + 750000000)) (timState 3))) s

/-- SET of TIM_CMD (R326): the SET registers are loaded at the next tick, with SERVO = 0 and outside a job. -/
def setCmd : Act := .dyn fun s =>
  if s.flag F.TIM_CFG_SERVO || s.inJob then refuseCmd R.TIM_CMD 1
  else
    let t := timePlus (s.rd R.TIM_SET_SEC_LO + s.rd R.TIM_SET_SEC_HI * 2 ^ 32) 0 (s.rd R.TIM_SET_NS * 2 ^ 32)
    acts [noteRate 1, onTim fun m => { m with load := some (t.1 % 2 ^ 64, t.2) }, onNet fun n => { n with announced := none }]

/-- SET (R326). -/
def execSet (s : State) : Host.Outcome State Fault Refusal := perform (toPage 0xC2 setCmd) s

/-- STEP of TIM_CMD (R311, R326): in READY, the deferred step is made. -/
def stepCmd : Act := .dyn fun s => if s.dev != .ready then refuseCmd R.TIM_CMD 2 else deferredStep

/-- TIM_STEP (R311). -/
def execTimStep (s : State) : Host.Outcome State Fault Refusal := perform (toPage 0xC2 stepCmd) s

end Sys2Proof.Machine
end

