-- ==== Sys2Proof/Machine/Ident.lean ====
section
/-! DEFINITION. Identity (R318 to R322, R328): certificates, session exchanges, attestation, and the IDN windows. -/

namespace Sys2Proof.Machine

/-! ### Certificates (R321) -/

/-- TIM is good enough to check a validity (R321). -/
def State.timeKnown (s : State) : Bool := decide (2 ≤ s.fld F.TIM_STAT_STATE)

/-- A certificate is accepted (R321); `device` says that its partner is a device. -/
def State.certOk (s : State) (c : Cert) (id : Nat) (device : Bool) : Bool :=
  (c.signedBy.any fun a => (s.fld F.IDN_STAT_ANCHORS).testBit a) && c.usage && (!device || c.serial.toNat == id) &&
    (!s.timeKnown || (decide (c.notBefore.toNat ≤ s.b.tim.sec) && decide (s.b.tim.sec ≤ c.notAfter.toNat)))

/-- Checking a certificate without a good time is noted (R321). -/
def noteTime : Act := .dyn fun s => on (!s.timeKnown) (setB F.IDN_STAT_NOTIME true)

/-- A certificate is rejected (R321, R330). -/
def certRejected : Act := .seq (addR R.IDN_AUTH_FAIL 1) (raise E.IDN_CERT_REJECT)

/-! ### Session exchanges (R321) -/

/-- The HELLO family payload (R321). -/
def helloBytes (sel purpose nonce eph sig : Nat) (cert : List Nat) : List Nat :=
  leBytes 2 cert.length ++ [sel, purpose, 0, 0, 0, 0] ++ leBytes 32 nonce ++ beBytes 96 eph ++ beBytes 96 sig ++ cert

/-- The certificate's length in a payload agrees with the payload's (R321). -/
def helloForm (b : List Nat) : Bool := decide (232 ≤ b.length) && b.length == 232 + leAt b 0 2 && decide (leAt b 0 2 ≤ 1024)

/-- A payload with SIG zeroed. -/
def sigZeroed (b : List Nat) : List Nat := b.take 0x88 ++ List.replicate 96 0 ++ b.drop 0xE8

/-- H of an exchange (R321). -/
def helloHash (hello reply : List Nat) : BitVec 384 := Config.sha384 (hello ++ sigZeroed reply)

/-- SESSION among the keys (R321). -/
def sessionId (keys : Nat) : Nat := keys / 2 ^ 576 % 2 ^ 32

/-- The role of a partner that a PURPOSE is for (R321), as DSC_E_INFO. -/
def purposeRole (purpose : Nat) : Option Nat :=
  match purpose with | 1 => some 1 | 2 => some 0 | 3 => some 2 | _ => none

/-- The slot that a session with a partner takes: its own, or the lowest free one (R321). -/
def State.sessionSlot (s : State) (partner : Nat) : Option Nat :=
  match s.b.net.sessions.find? fun x => x.partner == partner && !x.old with
  | some x => some x.slot
  | none => (List.range 8).find? fun k => !(s.b.net.sessions.any fun x => x.slot == k && !x.old)

/-- Replace the exchange with a partner. -/
def setExchange (x : Exchange) : Act :=
  onNet fun n => { n with exchanges := (n.exchanges.filter fun y => y.partner != x.partner) ++ [x] }

/-- An exchange is over. -/
def endExchange (partner : Nat) : Act :=
  onNet fun n => { n with exchanges := n.exchanges.filter fun y => y.partner != partner }

/-- Start an exchange with a partner (R321): HELLO. -/
def startHello (p : Partner) (purpose : Nat) : Act := .dyn fun s =>
  let b := helloBytes s.certSel purpose (Config.random s.fresh).toNat (Config.ephemeral s.fresh).toNat 0 (s.certBytes s.certSel)
  acts [.draw, setExchange { partner := p.id, role := p.role, port := p.pref, purpose := purpose, starter := true, hello := b },
    netSend [p.pref] p.id none 2 0 0 b]

/-- A session comes up; the one it replaces is accepted for a second more (R321, R330). -/
def sessionUp (x : Exchange) : Act := .dyn fun s =>
  match s.sessionSlot x.partner with
  | some k =>
    let keep := fun y : Session => if y.partner == x.partner then { y with old := true } else y
    let new : Session :=
      { slot := k, partner := x.partner, role := x.role, id := sessionId x.keys, keys := x.keys, up := true, starter := x.starter }
    acts [onNet fun n => { n with
        sessions := ((n.sessions.filter fun y => !(y.partner == x.partner && y.old)).map keep) ++ [new] },
      endExchange x.partner, raise E.IDN_SESSION_UP]
  | none => endExchange x.partner

/-- A HELLO that may be answered: HELLO_REPLY (R321). -/
def helloReply (o : Origin) (p : Partner) (purpose : Nat) (hello : List Nat) : Act := .dyn fun s =>
  let cert := s.certBytes s.certSel
  let bare := helloBytes s.certSel purpose (Config.random s.fresh).toNat (Config.ephemeral s.fresh).toNat 0 cert
  let sig := (Config.ecdsaSign s.fresh (helloHash hello bare)).toNat
  let reply := helloBytes s.certSel purpose (Config.random s.fresh).toNat (Config.ephemeral s.fresh).toNat sig cert
  let keys := (Config.hkdf s.fresh hello reply).toNat
  acts [.draw, setExchange ⟨p.id, p.role, o.port, purpose, false, reply, keys⟩, answerTo o 3 0 reply]

/-- HELLO (R321): STATE in DORMANT, FORMAT for a payload that is none, ROLE for a partner of another role or no free slot,
and otherwise HELLO_REPLY where the certificate is accepted. -/
def execHello (m : NetMsg) (cert : Cert) (s : State) : Host.Outcome State Fault Refusal :=
  perform (receive m fun o => .dyn fun s =>
    let b := msgBytes m
    if s.dev = .dormant then respond o 3 []
    else if helloForm b = false then respond o 4 []
    else match s.partnerBy o.partner with
      | some p =>
        if purposeRole (b.getD 3 0) != some p.role || (s.sessionSlot p.id).isNone then respond o 2 []
        else .seq noteTime (if s.certOk cert p.id (p.role == 1) then helloReply o p (b.getD 3 0) b else certRejected)
      | none => respond o 2 []) s

/-- A HELLO_REPLY to this device's HELLO (R321): verified, answered with KEY_CONFIRM; `up` follows once the session is. -/
def helloReplied (m : NetMsg) (cert : Cert) (sigOk : Bool) (up : Exchange → Act) : Act :=
  receive m fun o => .dyn fun s =>
    let b := msgBytes m
    match s.b.net.exchanges.find? fun x => x.partner == o.partner && x.starter with
    | some x =>
      if s.dev = .dormant ∨ helloForm b = false then endExchange x.partner
      else if s.certOk cert x.partner (x.role == 1) = false then acts [noteTime, certRejected, endExchange x.partner]
      else if !sigOk then acts [noteTime, addR R.IDN_AUTH_FAIL 1, endExchange x.partner]
      else
        let x' := { x with keys := (Config.hkdf s.fresh x.hello b).toNat }
        let h := helloHash x.hello b
        let sig := (Config.ecdsaSign s.fresh (Config.sha384 (beBytes 48 h.toNat ++ [1]))).toNat
        acts [noteTime, .draw, sessionUp x', .dyn fun t =>
            netSend [x.port] x.partner (t.session x.partner) 4 0 0 (helloBytes t.certSel x.purpose (Config.random s.fresh).toNat 0 sig []),
          up x']
    | none => .nop

/-- A KEY_CONFIRM (R299, R321): authenticated with the new key. -/
def keyConfirmed (m : NetMsg) (sigOk : Bool) (up : Exchange → Act) : Act := .dyn fun s =>
  let p := m.port.val
  if !s.hears p then .nop
  else if !framedMsg m || m.payload.length != 232 then netDrop p
  else match s.b.net.exchanges.find? fun x => x.partner == m.devId.toNat && !x.starter with
    | some x =>
      if !(m.auth && m.tagOk && m.session.toNat == sessionId x.keys) then tagFailed p
      else .seq (addR (R.NET_RX_CNT p) 1) (if sigOk then acts [sessionUp x, onNet fun n => { n with
            sessions := n.sessions.map fun y =>
              if y.partner == x.partner && !y.old then y.accept m.seq.toNat else y }, up x]
          else .seq (addR R.IDN_AUTH_FAIL 1) (endExchange x.partner))
    | none => on (!m.tagOk || !m.auth) (tagFailed p)

/-! ### Attestation (R322) -/

/-- Every OTP word but the private key, as bytes (R322). -/
def State.otpImage (s : State) : List Nat :=
  ((List.range 0x4000).filter fun i => decide (i < 0xD00) || decide (0xD20 ≤ i)).flatMap fun i => leBytes 4 (s.otpWord i)

/-- The ATTEST_RESP payload (R322). -/
def attestPayload (s : State) (nonce : List Nat) (sel flags : Nat) : List Nat :=
  let cert := if flags % 2 = 1 then s.certBytes sel else []
  let head := nonce ++ leBytes 8 s.devId ++ leBytes 4 (s.rd R.IDN_REV) ++ [s.dev.code, s.role.code] ++ leBytes 2 s.logUsed ++
    leBytes 4 (s.rd R.PAR_DIGEST_LO) ++ leBytes 4 (s.rd R.PAR_DIGEST_HI) ++ beBytes 48 (Config.sha384 s.otpImage).toNat ++ leBytes 8 s.b.tim.sec ++
    leBytes 4 (s.b.tim.ns / 2 ^ 32) ++ leBytes 4 (s.b.tim.ticks / 250000000) ++ [sel, 0] ++ leBytes 2 cert.length
  head ++ beBytes 96 (Config.ecdsaSign s.fresh (Config.sha384 head)).toNat ++ cert

/-- An ATTEST_REQ that a HOST partner may make (R322). -/
def attestRequest (o : Origin) (b : List Nat) : Act := .dyn fun s =>
  let sel := b.getD 32 0
  if b.length ≠ 40 ∨ leAt b 34 6 ≠ 0 ∨ 2 ≤ sel ∨ (sel = 1 ∧ s.hasOwner = false) then respond o 4 []
  else acts [.draw, answerTo o 6 0 (attestPayload s (b.take 32) sel (b.getD 33 0)), raise E.IDN_ATTESTED]

/-- ATTEST_REQ (R299, R322). -/
def execAttestReq (m : NetMsg) (s : State) : Host.Outcome State Fault Refusal :=
  perform (receive m fun o => .dyn fun s => hostRequest o (s.flag F.IDN_POLICY_ATT_AUTH) (attestRequest o (msgBytes m))) s

/-! ### The IDN windows (R320, R321, R328) -/

/-- Open a window (R328). -/
def openIdn (cmd : Nat) : Act := .dyn fun s =>
  if s.dev != .ready && cmd != 1 then refuseCmd R.IDN_CMD cmd else setF F.IDN_STAT_WINDOW cmd

/-- OPEN_DEV (R328): read-only, in any state. -/
def execOpenDev (s : State) : Host.Outcome State Fault Refusal := perform (toPage 0xC4 (openIdn 1)) s
/-- OPEN_OWNER (R328). -/
def execOpenOwner (s : State) : Host.Outcome State Fault Refusal := perform (toPage 0xC4 (openIdn 2)) s
/-- OPEN_ANCHOR (R328). -/
def execOpenAnchor (s : State) : Host.Outcome State Fault Refusal := perform (toPage 0xC4 (openIdn 3)) s

/-- CLOSE (R328). -/
def execIdnClose (s : State) : Host.Outcome State Fault Refusal := perform (toPage 0xC4 (setF F.IDN_STAT_WINDOW 0)) s

/-- A word of the owner window: as written, or the certificate that OTP holds. -/
def State.ownerWord (s : State) (i : Nat) : Nat :=
  if s.hasOwner then (if i = 0 then s.otpWord 0x00F else s.otpWord (0x200 + (i - 1)))
  else (spGet (fun _ => 0) s.b.idn.ownerWin i).toNat

/-- A word of a window (R328). -/
def State.idnWord (s : State) (window i : Nat) : Nat :=
  match window with
  | 1 => if i = 0 then s.otpWord 0x00E else if i < 257 then s.otpWord (0x100 + (i - 1)) else 0
  | 2 => if i < 257 then s.ownerWord i else 0
  | 3 => if i < 96 then (spGet (fun _ => 0) s.b.idn.anchors i).toNat else 0
  | _ => 0

/-- IDN_IDX moves on after each access, whether or not its data take effect (R328). -/
def idnReadStep : Act := .dyn fun s => setF F.IDN_IDX_INDEX (s.fld F.IDN_IDX_INDEX + 1)

/-- The index moves on after a write of an open window (R328). -/
def idnStep (w : Word) : Act := .seq idnReadStep (onIdn fun d => { d with lastData := w })

/-- A write of IDN_DATA (R320, R321, R328): an anchor counts while it is a curve point and not all zeros. -/
def idnWrite (w : Word) (onCurve : Bool) : Act := .dyn fun s =>
  let i := s.fld F.IDN_IDX_INDEX
  match s.fld F.IDN_STAT_WINDOW with
  | 0 => .seq (err R.IDN_DATA Err.locked) idnReadStep
  | 2 => .seq (on (decide (i < 257)) (onIdn fun d => { d with ownerWin := spPut (fun _ => 0) d.ownerWin i w })) (idnStep w)
  | 3 => .seq (on (decide (i < 96)) (.seq (onIdn fun d => { d with anchors := spPut (fun _ => 0) d.anchors i w })
      (.dyn fun t =>
        let a := i / 24
        let zero := (List.range 24).all fun k => spGet (fun _ => 0) t.b.idn.anchors (24 * a + k) == 0
        setB ⟨R.IDN_STAT, 24 + a, 1⟩ (onCurve && !zero)))) (idnStep w)
  | _ => idnStep w

/-- What IDN_DATA reads (R328). -/
def State.idnData (s : State) : Nat := s.idnWord (s.fld F.IDN_STAT_WINDOW) (s.fld F.IDN_IDX_INDEX)

/-- A read of IDN_DATA (R328). -/
def idnRead : Act := .dyn fun s => .seq (answerWord s.idnData) idnReadStep

/-- IDN_DATA_ACCESS (R328). -/
def execIdnDataAccess (data : Option Word) (onCurve : Bool) (s : State) : Host.Outcome State Fault Refusal :=
  perform (match data with
    | some w => toPage 0xC4 (idnWrite w onCurve)
    | none => fromPage 0xC4 idnRead) s

/-- ERR of IDN_STAT for a WRITE_OWNER (R320, R328); 0 where it is taken. -/
def State.ownerErr (s : State) (c : Cert) : Nat :=
  if !c.ownKey then 1
  else if c.serial.toNat ≠ s.devId then 2
  else if 1024 < (spGet (fun _ => 0) s.b.idn.ownerWin 0).toNat then 3
  else if !(c.signedBy.any fun a => (s.fld F.IDN_STAT_ANCHORS).testBit a) then 4
  else if s.hasOwner || s.b.idn.burning.isSome then 5
  else 0

/-- WRITE_OWNER of IDN_CMD (R320). -/
def writeOwnerCmd (c : Cert) : Act := .dyn fun s =>
  if s.dev != .ready then refuseCmd R.IDN_CMD 4
  else match s.ownerErr c with
    | 0 => onIdn fun d => { d with burning := some ((List.range 257).map fun i => spGet (fun _ => 0) d.ownerWin i) }
    | e => .seq (setF F.IDN_STAT_ERR e) (err R.IDN_CMD Err.refused)

/-- WRITE_OWNER (R320). -/
def execWriteOwner (cert : Cert) (s : State) : Host.Outcome State Fault Refusal :=
  perform (toPage 0xC4 (writeOwnerCmd cert)) s

/-- OWNER_WRITTEN (R320, R330, R438): the certificate stands in OTP. -/
def execOwnerWritten (s : State) : Host.Outcome State Fault Refusal :=
  perform (.dyn fun s =>
    match s.b.idn.burning with
    | some ws => acts [each (List.range 256) fun i => .otp (0x200 + i) (ws.getD (i + 1) 0), .otp 0x00F (ws.getD 0 0),
        onIdn fun d => { d with burning := none }, raise E.IDN_OWNER_WRITTEN]
    | none => .nop) s

end Sys2Proof.Machine
end

