-- ==== Sys2Proof/Machine/Plate.lean ====
section
/-! DEFINITION. The plate link's frames sent, return records, lane states, bring-up and injections (R155 to R196, R347), and
the meanings of its commands. -/

namespace Sys2Proof.Machine

/-! ### Frames sent (R161, R169, R191, R192, R347) -/

/-- The signature that the link computes from the bytes it passes to the CRC-32 generator (R169). -/
def TxFrame.linkSig (f : TxFrame) : Nat := laneSig (f.body.getD 1 0 % 64) (leAt f.body 12 4) (f.body.drop 16)

/-- The send check of a frame fails (R169, R191): an error in its buffer or a signature that differs, for a data frame; for any frame
a CORRUPT_PRE that has flipped a bit, whichever bit it is. -/
def TxFrame.failsCheck (f : TxFrame) (internalError : Bool) : Bool :=
  (!f.hold && (internalError || f.linkSig != f.sig)) || f.corrupted

/-- The send check of a frame fails (R169): poisoned data, or a detected error in a pair. A shot that is withheld already, or has no
index, is not exposed from this device anyhow. -/
def sendCheckFailed (k : Nat) (mine : Bool) : Act := .dyn fun s =>
  acts [addR R.PLK_SENDCHK_CNT 1, raise E.PLK_SEND_CHECK,
    on (mine && decide (s.b.sht.first ≤ k) && s.run.isSome) (if s.solo then withhold k 6 true else detectError k 2)]

/-- A frame reaches the wire, as the injection that acts on it leaves it (R191). -/
def emitFrame (f : TxFrame) : Act := on (f.inj.1 != 1) (.emit (.frame f.lane f.wire))

/-- FRAME_SENT (R169, R192): the oldest frame of a lane has been sent, and its send check is complete. -/
def execFrameSent (lane : Fin 64) (internalError : Bool) (s : State) : Host.Outcome State Fault Refusal :=
  perform (.dyn fun s =>
    match s.b.plk.txq.find? fun f => f.lane == lane.val with
    | some f =>
      let mine := (s.shotRec f.shot).taken && (s.shotRec f.shot).count == f.count && f.shot != 0xFFFFFFFF
      acts [onPlk fun p => { p with txq := p.txq.erase f }, emitFrame f, setR R.PLK_COUNT f.count, bookOut .frame 1,
        on mine (putRec f.shot fun x => { x with unsent := x.unsent.filter fun n => n != lane.val }),
        on (internalError && !f.hold) (sramErrorAt 5 true),
        on ((mine || f.corrupted) && f.failsCheck internalError) (sendCheckFailed f.shot (mine && !f.hold)),
        on mine (tryVote f.shot)]
    | none => .nop) s

/-- SWAP_HOLD_EXPIRY (R191): the lane sends the frame that it holds alone. -/
def execSwapHoldExpiry (lane : Fin 64) (s : State) : Host.Outcome State Fault Refusal :=
  perform (onPlk fun p =>
    { p with
      txq := p.txq ++ (p.swapHeld.filter fun f => f.lane == lane.val)
      swapHeld := p.swapHeld.filter fun f => f.lane != lane.val }) s

/-! ### Return records (R173, R175, R176) -/

/-- The CRC-8 of the return records (R173). -/
def crc8 : CrcAlg := ⟨8, 0x07, 0, false, 0⟩

/-- A record passes its CRC-8. -/
def recordOk (rec : Nat) : Bool := crcOf crc8 ((leBytes 8 rec).drop 1) == rec % 256

/-- Bits of a record. -/
def recBits (rec lo w : Nat) : Nat := rec / 2 ^ lo % 2 ^ w

/-- KIND of a record. -/
def recKind (rec : Nat) : Nat := recBits rec 60 4

/-- A record whose CRC-8 fails is discarded and counted; one of KIND 0 or of a reserved kind is discarded (R173). -/
def discardRecord (rec : Nat) : Act := on (!recordOk rec) (.seq (addR R.PRT_REC_ERR 1) (raise E.PRT_REC_ERR))

/-- A record comes while the LANE domain runs (R387). -/
def returnRecord (a : Act) : Act := .dyn fun s => on (s.powered 4) a

/-- RETURN_RECORD_DISCARD (R173). -/
def execReturnRecordDiscard (rec : BitVec 64) (s : State) : Host.Outcome State Fault Refusal :=
  perform (returnRecord (discardRecord rec.toNat)) s

/-- A blank (R176): recorded, and with BLANK_STOP a stop at a safe point. -/
def plateBlank (w : AckWait) (result : Nat) : Act := .dyn fun s =>
  acts [addR R.PLK_BLANK_CNT 1, setR R.PLK_BLANK_SHOT w.shot,
    setR R.PLK_BLANK_INFO (w.stripe % 65536 * 65536 + w.half * 256 + result), raise E.PLK_PLATE_BLANK,
    on (s.flag F.PLK_CFG_BLANK_STOP) stopSafe]

/-- The edge that an ACK answers (R176). -/
def State.ackFor (s : State) (half shot : Nat) : Option AckWait :=
  s.b.plk.acks.find? fun w => w.half == half && (shot == 0xFFFFFFFF || w.shot == shot)

/-- An edge stops waiting. -/
def endWait (w : AckWait) : Act := onPlk fun p => { p with acks := p.acks.erase w }

/-- ACK (R175, R176). -/
def execAck (rec : BitVec 64) (s : State) : Host.Outcome State Fault Refusal :=
  perform (returnRecord <| .dyn fun s =>
    let x := rec.toNat
    let result := recBits x 56 3
    if recordOk x && recKind x == 1 then
      acts [setR R.PRT_ACK_LO (x % 2 ^ 32), setR R.PRT_ACK_HI (x / 2 ^ 32),
        match s.ackFor (recBits x 59 1) (recBits x 8 32) with
        | some w => .seq (endWait w) (on (result != 0 && w.exposing) (plateBlank w result))
        | none => .nop]
    else discardRecord x) s

/-- ACK_TIMEOUT (R176): PRT_CFG.TIMEOUT after the oldest edge of the half that waits, in 10 ns. -/
def execAckTimeout (halfB : Bool) (s : State) : Host.Outcome State Fault Refusal :=
  perform (.dyn fun s =>
    match s.b.plk.acks.find? fun w => w.half == if halfB then 1 else 0 with
    | some w => acts [advanceTo (w.edge + (s.fld F.PRT_CFG_TIMEOUT * 163840 : Nat)), endWait w, addR R.PRT_ACK_MISS 1, raise E.PRT_ACK_MISS,
        on (s.flag F.PRT_CFG_ACK_REQ) (plateBlank w 7)]
    | none => .nop) s

/-! ### The lane map (R179) -/

/-- The ball lane on which logical lane `n` is sent. -/
def ballLane (portRev : Bool) (qrev n : Nat) : Nat :=
  let q := if portRev then 15 - n / 4 else n / 4
  4 * q + (if portRev != qrev.testBit q then 3 - n % 4 else n % 4)

/-- The ball lane of a logical lane under PLK_MAP. -/
def State.ball (s : State) (n : Nat) : Nat := ballLane (s.flag F.PLK_MAP_PORT_REV) (s.fld F.PLK_MAP_QREV) n

/-- The logical lane that a ball lane sends. -/
def State.logical (s : State) (b : Nat) : Nat := ((List.range 64).find? fun n => s.ball n == b).getD 0

/-- The ball lane that feeds a plate input: as step 3 decoded it, else as PLK_MAP has it. -/
def State.feeds (s : State) (p : Nat) : Nat :=
  match s.b.plk.ballOf.find? fun e => e.1 == p with | some e => e.2 | none => s.ball p

/-- The QREV bits that PORT_REV needs for the wiring that step 3 decoded. -/
def qrevFor (portRev : Bool) (ball : Nat → Nat) : Nat :=
  ((List.range 16).map fun q =>
    let n := if portRev then 4 * (15 - q) else 4 * q
    if (ball n % 4 == 0) == portRev then 2 ^ q else 0).sum

/-- The map that step 4 accepts for a wiring, if there is one: PORT_REV and QREV (R179). -/
def mapFor (ball : Nat → Nat) : Option (Bool × Nat) :=
  ([false, true].map fun r => (r, qrevFor r ball)).find? fun m => (List.range 64).all fun n => ball n == ballLane m.1 m.2 n

/-! ### Bring-up (R178 to R181) -/

/-- PLK_STAT.BRINGUP. -/
def State.bringup (s : State) : Nat := s.fld F.PLK_STAT_BRINGUP

/-- A bring-up runs. -/
def State.bringing (s : State) : Bool := !s.b.plk.steps.isEmpty

/-- ERR_INFO of the PLK page. -/
def plkErrInfo (p : Nat) : Act := setR (pageReg 0x90 0x024) p

/-- Bring-up stops FAILED with a step's code and the plate input concerned (R178). -/
def bringupFail (code p : Nat) : Act :=
  acts [onPlk fun x => { x with steps := [], adapt := [] }, setF F.PLK_STAT_BRINGUP 8, setF F.PLK_STAT_ERR code,
    plkErrInfo p, raise E.PLK_BRINGUP_FAIL]

/-- The transmit coefficients CM3, CM2, CM1, C0, C1 of a ball lane (R194). -/
def State.fir (s : State) (b : Nat) : List Int :=
  [toSigned 6 (s.fld (F.LQ_FIR_CM3 b)), toSigned 6 (s.fld (F.LQ_FIR_CM2 b)), toSigned 6 (s.fld (F.LQ_FIR_CM1 b)),
    (s.fld (F.LQ_FIR_C0 b) : Nat), toSigned 6 (s.fld (F.LQ_FIR_C1 b))]

/-- Store coefficients in LQ_FIR. -/
def setFir (b : Nat) (c : List Int) : Act :=
  let g := fun i => ofSigned 6 (c.getD i 0)
  setR (R.LQ_FIR b) (g 0 * 2 ^ 24 + g 1 * 2 ^ 18 + g 2 * 2 ^ 12 + g 3 * 2 ^ 6 + g 4)

/-- Start the adaptation of some inputs' lanes from their current coefficients (R180). -/
def startAdapt (inputs : List Nat) : Act := .dyn fun s =>
  onPlk fun x => { x with reports := [], adapt := inputs.map fun p => (p, (0, 0, s.fir (s.feeds p), false)) }

/-- What a step needs when it starts: step 3 notes the polarities, step 5 starts the adaptation, step 6 its hold. -/
def stepSetup (step : Nat) : Act := .dyn fun s =>
  acts [setF F.PLK_STAT_BRINGUP step,
    onPlk fun x => { x with stepOk := [], reports := [], rounds := [], round := 0, holdStart := s.b.tim.ticks, holdInput := 0 },
    on (step == 3) (onPlk fun x =>
      { x with ballOf := [], inv0 := (List.range 64).map fun b => s.flag (F.LQ_CTRL_INV b) }),
    on (step == 5) (startAdapt (List.range 64)), .emit (.lanes step)]

/-- The link is UP (R178). -/
def bringupDone : Act :=
  acts [onPlk fun x => { x with steps := [] }, setF F.PLK_STAT_BRINGUP 7, .emit (.lanes 7), raise E.PLK_BRINGUP_DONE]

/-- The running step has passed: the next one starts; step 1 passes at once while all return lanes are locked. -/
def stepPassed : Nat → Act
  | 0 => .nop
  | fuel + 1 => .dyn fun s =>
    match s.b.plk.steps.tail with
    | [] => bringupDone
    | next :: more => .seq (onPlk fun x => { x with steps := next :: more })
        (.seq (stepSetup next) (on (next == 1 && decide (4 ≤ s.b.plk.retLock.length)) (stepPassed fuel)))

/-- Start a bring-up of the given steps. -/
def startBringup (steps : List Nat) : Act :=
  .seq (onPlk fun x => { x with steps := 0 :: steps, adapt := [] }) (stepPassed 2)

/-- A command of PLK_CMD (R178, R181): refused outside READY, and while a bring-up runs unless it is ABORT. -/
def plkCmd (cmd : Nat) (a : Act) : Act := toPage 0x90 (.dyn fun s =>
  if s.dev != .ready then refuseCmd R.PLK_CMD cmd
  else if s.bringing && cmd != 4 then err R.PLK_CMD Err.refused
  else a)

/-- TRAIN of PLK_CMD (R178). -/
def trainCmd : Act := plkCmd 1 (startBringup [1, 2, 3, 4, 5, 6])

/-- TRAIN (R178). -/
def execTrain (s : State) : Host.Outcome State Fault Refusal := perform trainCmd s

/-- RELOCK of PLK_CMD (R181): the polarity, the coefficients and the map stay as they are. -/
def relockCmd : Act := plkCmd 2 (.seq (onPlk fun x => { x with ballOf := [] }) (startBringup [1, 2, 4, 6]))

/-- RELOCK (R181). -/
def execRelock (s : State) : Host.Outcome State Fault Refusal := perform relockCmd s

/-- The link returns to IDLE, in electrical idle. -/
def linkIdle : Act :=
  acts [onPlk fun x => { x with steps := [], adapt := [] }, setF F.PLK_STAT_BRINGUP 0, .emit (.lanes 0)]

/-- IDLE (R193). -/
def execIdle (s : State) : Host.Outcome State Fault Refusal := perform (plkCmd 3 linkIdle) s

/-- ABORT of PLK_CMD (R181): with no bring-up running it does nothing. -/
def bringupAbortCmd : Act := plkCmd 4 (.dyn fun s => on s.bringing linkIdle)

/-- BRINGUP_ABORT (R181). -/
def execBringupAbort (s : State) : Host.Outcome State Fault Refusal := perform bringupAbortCmd s

/-- Fresh reports of an input. -/
def State.freshReports (s : State) (p : Nat) : Nat := spGet (fun _ => 0) s.b.plk.reports p

/-- The input concerned when a step runs out of time (R178): the lowest one that has not met its condition. In step 1 it is the
lowest of the group that no locked return lane carries, in a round of step 3 one without its two reports, and in step 6, once
all inputs are good, the one whose bad report began the hold anew. -/
def State.stepInput (s : State) (step : Nat) : Nat :=
  let groups := s.b.plk.retLock.map fun r => (Fld.mk R.PRT_STAT (8 * r + 4) 2).get (s.rd R.PRT_STAT)
  let lowest := fun (bad : Nat → Bool) => ((List.range 64).find? bad).getD s.b.plk.holdInput
  if step = 1 then lowest fun p => !groups.contains (p / 16)
  else if step = 3 ∧ s.b.plk.round < 7 then lowest fun p => decide (s.freshReports p < 2)
  else lowest fun p => !s.b.plk.stepOk.contains p

/-- BRINGUP_STEP_TIMEOUT (R178). -/
def execBringupStepTimeout (s : State) : Host.Outcome State Fault Refusal :=
  perform (.dyn fun s =>
    match s.b.plk.steps with
    | step :: _ => bringupFail step (s.stepInput step)
    | [] => .nop) s

/-! ### One report in a bring-up -/

/-- Note that an input meets, or no longer meets, the condition of the step. -/
def noteInput (p : Nat) (ok : Bool) : Act :=
  onPlk fun x => { x with stepOk := if ok then (if x.stepOk.contains p then x.stepOk else p :: x.stepOk)
    else (x.stepOk.filter fun q => q != p) }

/-- The step passes once all 64 inputs meet its condition. -/
def allInputs (a : Act) : Act := .dyn fun s => on (decide (64 ≤ s.b.plk.stepOk.length)) a

/-- The INV that an input reported in a round; the later report counts. -/
def State.invIn (s : State) (p k : Nat) : Bool :=
  match s.b.plk.rounds.find? fun e => e.1 == p && e.2.1 == k with | some e => e.2.2 | none => false

/-- The ball lane that the seven rounds decode for an input (R178). -/
def State.decodedBall (s : State) (p : Nat) : Nat :=
  ((List.range 6).map fun k => if s.invIn p (k + 1) != s.invIn p 0 then 2 ^ k else 0).sum

/-- The end of the rounds of step 3: two inputs with one ball lane fail it; otherwise every ball lane's polarity is set. -/
def decodeRounds : Act := .dyn fun s =>
  let balls := (List.range 64).map s.decodedBall
  match (List.range 64).find? fun p => (balls.take p).contains (balls.getD p 0) with
  | some p => bringupFail 3 p
  | none =>
    acts [onPlk fun x => { x with ballOf := (List.range 64).map fun p => (p, balls.getD p 0), round := 7, reports := [] },
      each (List.range 64) fun p =>
        let b := balls.getD p 0
        setB (F.LQ_CTRL_INV b) (s.b.plk.inv0.getD b false != s.invIn p 0)]

/-- A report in step 3 (R178): two fresh reports of every input a round; after round 6 every input must report true
polarity. -/
def polarityReport (p : Nat) (prbs inv : Bool) : Act := .dyn fun s =>
  let k := s.b.plk.round
  if k = 7 then .seq (noteInput p (prbs && !inv)) (allInputs (stepPassed 2))
  else if !prbs then .nop
  else
    .seq (onPlk fun x => { x with
        rounds := (p, k, inv) :: (x.rounds.filter fun e => !(e.1 == p && e.2.1 == k))
        reports := spPut (fun _ => 0) x.reports p (min 2 (s.freshReports p + 1)) })
      (.dyn fun t => on ((List.range 64).all fun q => t.freshReports q == 2)
        (if k = 6 then decodeRounds
        else .seq (onPlk fun x => { x with round := k + 1, reports := [] }) (.emit (.lanes 3))))

/-- The end of step 4 (R179): the wiring must have a map; PLK_MAP is written, or checked with OVERRIDE and in RELOCK. -/
def orderDone : Act := .dyn fun s =>
  let relock := s.b.plk.ballOf.isEmpty
  let fits := (List.range 64).all fun p => s.feeds p == s.ball p
  if relock then stepPassed 2
  else if s.flag F.PLK_MAP_OVERRIDE then (if fits then stepPassed 2
    else bringupFail 4 (((List.range 64).find? fun p => s.feeds p != s.ball p).getD 0))
  else match mapFor s.feeds with
    | some m => acts [setB F.PLK_MAP_PORT_REV m.1, setF F.PLK_MAP_QREV m.2, stepPassed 2]
    | none => bringupFail 4 0

/-- The order in which R180 tries the coefficients: CM1, C1, CM2, CM3. -/
def adaptOrder : List Nat := [2, 4, 1, 0]

/-- The trial of R180 numbered `n` from 1: pass, coefficient and direction in turn. None where it is skipped. -/
def trial (c : List Int) (n : Nat) : Option (List Int) :=
  let i := adaptOrder.getD ((n - 1) / 2 % 4) 0
  let v := c.getD i 0 + (if (n - 1) % 2 = 0 then -1 else 1)
  let t := c.set i v
  let side := ([0, 1, 2, 4].map fun k => (t.getD k 0).natAbs).sum
  if v < -32 ∨ 31 < v ∨ 31 < side then none else some (t.set 3 (63 - (side : Int)))

/-- The next trial from number `n` on that is not skipped, with `moved` of its pass; 0 once the adaptation ends. -/
def nextTrial (c : List Int) : Nat → Nat → Bool → Nat × Bool
  | 0, _, _ => (0, false)
  | fuel + 1, n, moved =>
    let edge := decide ((n - 1) % 8 = 0) && decide (1 < n)
    if 128 < n ∨ (edge = true ∧ moved = false) then (0, false)
    else
      let m := if edge then false else moved
      if (trial c n).isSome then (n, m) else nextTrial c fuel (n + 1) m

/-- One step of a lane's adaptation, with the figure of merit of the trial under way (R180): number 129 stands for an
adaptation that has ended. -/
def adaptStep (x : Nat × Nat × List Int × Bool) (fom : Nat) : Nat × Nat × List Int × Bool :=
  let n := x.1
  let best := x.2.1
  let c := x.2.2.1
  let moved := x.2.2.2
  let go := fun (m : Nat) (best : Nat) (c : List Int) (moved : Bool) =>
    let r := nextTrial c 130 m moved
    (if r.1 = 0 then 129 else r.1, best, c, r.2)
  if n = 129 then x
  else if n = 0 then go 1 fom c false
  else if best + 2 ≤ fom then go ((n - 1) / 2 * 2 + 3) fom ((trial c n).getD c) true
  else go (n + 1) best c moved

/-- The coefficients that a lane sends with at a point of its adaptation. -/
def adaptApplied (x : Nat × Nat × List Int × Bool) : List Int :=
  if x.1 = 0 ∨ x.1 = 129 then x.2.2.1 else (trial x.2.2.1 x.1).getD x.2.2.1

/-- A report of a lane that adapts: every second one ends a fom() (R180). -/
def adaptReport (p fom : Nat) : Act := .dyn fun s =>
  match s.b.plk.adapt.find? fun e => e.1 == p with
  | some e =>
    if e.2.1 = 129 then .nop
    else if s.freshReports p = 0 then onPlk fun x => { x with reports := spPut (fun _ => 0) x.reports p 1 }
    else
      let y := adaptStep e.2 fom
      .seq (onPlk fun x => { x with
          reports := spPut (fun _ => 0) x.reports p 0
          adapt := x.adapt.map fun a => if a.1 == p then (p, y) else a })
        (setFir (s.feeds p) (adaptApplied y))
  | none => .nop

/-- A lane that PLAN_LANES has adapted and that is still below MIN sends with a larger amplitude, and is adapted once more
(R369). -/
def planLane (p : Nat) : Act := .dyn fun s =>
  match s.b.age.plan, s.b.plk.adapt.find? fun e => e.1 == p with
  | some pl, some e =>
    let b := s.feeds p
    on (pl.left.contains p && !pl.raised.contains p && e.2.1 == 129 && decide (e.2.2.1 < s.fld F.PLK_FOM_MIN))
      (acts [onAge fun a => { a with plan := some { pl with raised := p :: pl.raised } },
        setF (F.LQ_AMP_AMP b) (min 15 (s.fld (F.LQ_AMP_AMP b) + 1)),
        onPlk fun x =>
          { x with
            reports := spPut (fun _ => 0) x.reports p 0
            adapt := x.adapt.map fun a => if a.1 == p then (p, (0, 0, e.2.2.2.1, false)) else a }])
  | _, _ => .nop

/-- The adaptation of an input's lane has ended. -/
def State.adapted (s : State) (p : Nat) : Bool :=
  match s.b.plk.adapt.find? fun e => e.1 == p with | some e => e.2.1 == 129 | none => true

/-- A report in step 6 (R178): a bad one begins the hold anew. -/
def lockReport (p : Nat) (good : Bool) : Act := .dyn fun s =>
  if !good then .seq (noteInput p false) (onPlk fun x => { x with holdStart := s.b.tim.ticks, holdInput := p })
  else .seq (noteInput p true) (on (decide (s.b.plk.holdStart + 250 * s.fld F.PLK_LOCK_HOLD_US ≤ s.b.tim.ticks))
    (allInputs (stepPassed 2)))

/-- A LANE_STAT record as the running step takes it (R178 to R180). -/
def stepReport (p rec : Nat) : Act := .dyn fun s =>
  let lock := rec.testBit 44
  let fom := recBits rec 36 8
  match s.b.plk.steps with
  | 2 :: _ => .seq (noteInput p (rec.testBit 47)) (allInputs (stepPassed 2))
  | 3 :: _ => polarityReport p (rec.testBit 46) (rec.testBit 45)
  | 4 :: _ => .seq (noteInput p (lock && recBits rec 48 6 == s.feeds p)) (allInputs orderDone)
  | 5 :: _ => if s.adapted p then .seq (noteInput p (decide (s.fld F.PLK_FOM_MIN ≤ fom))) (allInputs (stepPassed 2))
      else adaptReport p fom
  | 6 :: _ => lockReport p (lock && recBits rec 20 8 == 0 && recBits rec 28 8 == 0)
  | _ => .seq (adaptReport p fom) (planLane p)

/-! ### Lane states (R174, R177, R193, R194) -/

/-- A lane is down (R177): LANE_DOWN is raised once until it comes back. -/
def laneDown (p : Nat) : Act := .dyn fun s =>
  on (!s.b.plk.down.contains p)
    (acts [onPlk fun x => { x with locked := (x.locked.filter fun q => q != p), down := p :: x.down },
      on (s.bringup == 7) (acts [setF F.PLK_STAT_BRINGUP 8, setF F.PLK_STAT_ERR 7, plkErrInfo p]),
      raise E.PLK_LANE_DOWN, on (s.role == .solo && s.locked) stopSafe])

/-- FOM_LOW, once a lane until it is re-armed at WARN + 8 (R193, R196). -/
def fomCheck (p fom : Nat) : Act := .dyn fun s =>
  let warn := s.fld F.PLK_FOM_WARN
  if fom < warn then on (!s.b.plk.fomLow.contains p)
    (.seq (onPlk fun x => { x with fomLow := p :: x.fomLow }) (raise E.PLK_FOM_LOW))
  else on (decide (warn + 8 ≤ fom)) (onPlk fun x => { x with fomLow := (x.fomLow.filter fun q => q != p) })

/-- The registers that show the plate's view of a lane (R194). -/
def laneRegs (p rec : Nat) : Act := .dyn fun s =>
  let b := s.feeds p
  let bit := fun i : Nat => if rec.testBit i then 1 else 0
  acts [setR (R.LQ_STAT b) (recBits rec 36 8 * 2 ^ 24 + p * 2 ^ 16 + bit 47 * 2 ^ 15 + bit 44 * 2 ^ 14 + s.logical b * 2 ^ 8),
    satR (R.LQ_CRC_ERR b) (recBits rec 28 8), satR (R.LQ_FEC_UNCORR b) (recBits rec 20 8),
    satR (R.LQ_FEC_CORR b) (recBits rec 8 12)]

/-- LANE_STAT (R174, R177, R178). -/
def execLaneStat (rec : BitVec 64) (s : State) : Host.Outcome State Fault Refusal :=
  perform (returnRecord <|
    let x := rec.toNat
    let p := recBits x 54 6
    if recordOk x && recKind x == 2 then
      acts [laneRegs p x, fomCheck p (recBits x 36 8),
        if x.testBit 44 then onPlk fun b =>
          { b with locked := if b.locked.contains p then b.locked else p :: b.locked, down := (b.down.filter fun q => q != p) }
        else laneDown p,
        stepReport p x]
    else discardRecord x) s

/-- LANE_SILENCE (R177). -/
def execLaneSilence (p : Fin 64) (s : State) : Host.Outcome State Fault Refusal := perform (laneDown p) s

/-- The return-lane receivers cannot lock yet: less than 2.0 ms have passed since WAKE_DONE (R457). -/
def State.receiversSettling (s : State) : Bool :=
  match s.b.pwr.wokenAt with | some t => decide (s.b.tim.ticks < t + 500000) | none => false

/-- RETURN_LANE_LOCK (R178, R195): block lock of a return lane, with the polarity and the group learned. -/
def execReturnLaneLock (lane : Fin 4) (up inverted : Bool) (group : Fin 4) (s : State) : Host.Outcome State Fault Refusal :=
  perform (.dyn fun s => on (!(up && s.receiversSettling)) (
    let was := s.b.plk.retLock.contains lane.val
    let others := s.b.plk.retLock.filter fun r => r != lane.val
    acts [onPlk fun x => { x with retLock := if up then lane.val :: others else others },
      setF ⟨R.PRT_STAT, 8 * lane, 8⟩ ((if up then 128 else 0) + (if inverted then 64 else 0) + group.val * 16),
      on (was && !up) (raise E.PRT_RETURN_DOWN),
      .dyn fun t => on (t.b.plk.steps.head? == some 1 && decide (4 ≤ t.b.plk.retLock.length)) (stepPassed 2)])) s

/-! ### Injections (R191) -/

/-- A write to PLK_FIJ_CFG (R191): it arms an injection, or is ignored with INJECT. -/
def plkFijWrite (w : Word) : Act := .dyn fun s =>
  let kind := F.PLK_FIJ_CFG_KIND.get w.toNat
  let isSeal := F.PLK_FIJ_CFG_TARGET.get w.toNat == 1
  let all := F.PLK_FIJ_CFG_ALL.get w.toNat == 1
  let n := max 1 (s.rd R.PLK_FIJ_N)
  if kind = 0 then .seq (writeReg R.PLK_FIJ_CFG w) (onPlk fun x => { x with fijLeft := [] })
  else if s.injecting 0x90 = false ∨ 4 < kind ∨ (isSeal = true ∧ kind % 2 = 0) then err R.PLK_FIJ_CFG Err.inject
  else .seq (writeReg R.PLK_FIJ_CFG w) (onPlk fun x =>
    { x with fijLeft := (if all then List.range 64 else [F.PLK_FIJ_CFG_LANE.get w.toNat]).map fun l => (l, n) })

/-- PLK_FIJ_CFG_WRITE (R191). -/
def execPlkFijCfgWrite (w : Word) (s : State) : Host.Outcome State Fault Refusal := perform (toPage 0x90 (plkFijWrite w)) s

end Sys2Proof.Machine
end

