-- ==== Sys2Proof/Machine/Join.lean ====
section
/-! DEFINITION. Pairing and joining (R287 to R290, R459): the steps, the checkpoint, the pulled images, and the commands of
the PAR page. -/

namespace Sys2Proof.Machine

/-! ### Lanes (R265, R281, R459) -/

/-- Both devices are in READY (R459). -/
def State.bothReady (s : State) : Bool := s.dev == .ready && s.b.par.mateState == 3

/-! ### The checkpoint (R288) -/

/-- A number as its length in bytes and its bytes, least significant first. -/
def natBytes (n : Nat) : List Nat := leBytes 2 (Nat.log2 n / 8 + 1) ++ leBytes (Nat.log2 n / 8 + 1) n

/-- A number from its bytes, and the bytes after it. -/
def readNat (b : List Nat) : Nat × List Nat := (leAt b 2 (leAt b 0 2), b.drop (2 + leAt b 0 2))

/-- A rational as its sign, numerator and denominator: the generator's values are exact. -/
def ratBytes (q : Rat) : List Nat := (if q < 0 then 1 else 0) :: natBytes q.num.natAbs ++ natBytes q.den

/-- A rational from its bytes, and the bytes after it. -/
def readRat (b : List Nat) : Rat × List Nat :=
  let n := readNat (b.drop 1)
  let d := readNat n.2
  (if b.head? = some 1 then -((n.1 : Rat) / d.1) else (n.1 : Rat) / d.1, d.2)

/-- An optional rational: a mark, then the value. -/
def optBytes : Option Rat → List Nat
  | none => [0]
  | some q => 1 :: ratBytes q

/-- An optional rational from its bytes, and the bytes after it. -/
def readOpt (b : List Nat) : Option Rat × List Nat :=
  if b.head? = some 1 then (some (readRat (b.drop 1)).1, (readRat (b.drop 1)).2) else (none, b.drop 1)

/-- A segment as the checkpoint carries it. -/
def segBytes (x : Seg) : List Nat :=
  leBytes 4 x.periods ++ ratBytes x.jerk ++ optBytes x.acc ++ ratBytes x.endP ++ ratBytes x.endV ++ ratBytes x.endA

/-- A number of segments from their bytes, and the bytes after them. -/
def readSegs : Nat → List Nat → List Seg × List Nat
  | 0, b => ([], b)
  | n + 1, b =>
    let j := readRat (b.drop 4)
    let c := readOpt j.2
    let p := readRat c.2
    let v := readRat p.2
    let a := readRat v.2
    let rest := readSegs n a.2
    (⟨leAt b 0 4, j.1, c.1, p.1, v.1, a.1⟩ :: rest.1, rest.2)

/-- What an axis's plan may be replanned to, as the checkpoint carries it. -/
def aimBytes : Aim → List Nat
  | .keep => [0]
  | .stop => [1]
  | .speed v => 2 :: ratBytes v

/-- An aim from its bytes, and the bytes after it. -/
def readAim (b : List Nat) : Aim × List Nat :=
  match b.head? with
  | some 1 => (.stop, b.drop 1)
  | some 2 => (.speed (readRat (b.drop 1)).1, (readRat (b.drop 1)).2)
  | _ => (.keep, b.drop 1)

/-- One axis of the generator as the checkpoint carries it: a layout of this model. -/
def genBytes (g : Gen) : List Nat :=
  ratBytes g.p ++ ratBytes g.v ++ ratBytes g.a ++ ratBytes g.p0 ++ ratBytes g.v0 ++ ratBytes g.a0 ++ leBytes 4 g.k ++
    leBytes 4 g.segs.length ++ g.segs.flatMap segBytes ++ aimBytes g.aim

/-- One axis of the generator from its bytes, and the bytes after it. -/
def readGen (b : List Nat) : Gen × List Nat :=
  let p := readRat b
  let v := readRat p.2
  let a := readRat v.2
  let p0 := readRat a.2
  let v0 := readRat p0.2
  let a0 := readRat v0.2
  let segs := readSegs (leAt a0.2 4 4) (a0.2.drop 8)
  let aim := readAim segs.2
  ({ p := p.1, v := v.1, a := a.1, p0 := p0.1, v0 := v0.1, a0 := a0.1, k := leAt a0.2 0 4, segs := segs.1, aim := aim.1
     j := match segs.1 with | x :: _ => x.jerk | [] => 0 }, aim.2)

/-- The generator's plan at a named period (R288): both axes and the targets that wait for them. -/
def planBytes (s : State) : List Nat :=
  let m := s.b.mot
  leBytes 8 m.period ++ genBytes m.y ++ optBytes m.thenY ++ genBytes m.x ++ optBytes m.thenX

/-- Take up a plan: the joiner's generator stands where the plan is at the period that it has reached, or at the named one if
that is later (R288). -/
def loadPlan (b : List Nat) : Act := .dyn fun s =>
  let named := leAt b 0 8
  let y := readGen (b.drop 8)
  let ty := readOpt y.2
  let x := readGen ty.2
  let tx := readOpt x.2
  let n := s.b.mot.period - named
  onMot fun m =>
    let gy := y.1.follow s.limits n ty.1
    let gx := x.1.follow s.limits n tx.1
    { m with
      y := gy.1, thenY := gy.2, x := gx.1, thenX := gx.2, period := max m.period named
      phase := if gy.1.atRest && gx.1.atRest && gy.2.isNone && gx.2.isNone then .idle else .move }

/-- Bytes of the digest's nine parts (R261). -/
def partsLen : Nat := 2117832

/-- The checkpoint (R288): the nine parts, the Heydemann values, the cellar's layout, PLK_VINTAGE.NEXT, the job queue, and
the generator's plan after its length. The order of its parts beyond R261 is this model's. -/
def ckptBytes (s : State) : List Nat :=
  s.digestImage ++
    (axisList.flatMap fun i => leBytes 4 (s.rd (R.AX_HEY_PQ i)) ++ leBytes 4 (s.rd (R.AX_HEY_RS i)) ++
      leBytes 4 (s.rd (R.AX_CAND_PQ i)) ++ leBytes 4 (s.rd (R.AX_CAND_RS i))) ++
    leBytes 4 (s.rd R.CEL_BIN_CFG) ++ leBytes 4 (s.rd R.CEL_POOL_UNITS) ++ leBytes 4 (s.fld F.PLK_VINTAGE_NEXT) ++
    leBytes 4 s.b.job.queue.length ++ (s.b.job.queue.flatMap fun e => e.bytes) ++
    leBytes 4 (planBytes s).length ++ planBytes s

/-- Bytes filled up with zeros to whole data blocks (R266, R267). -/
def wholeBlocks (b : List Nat) : List Nat := b ++ List.replicate ((8 - b.length % 8) % 8) 0

/-- Cut bytes into messages of `n` bytes. -/
def chunks (n : Nat) : Nat → Nat → List Nat → List (Nat × List Nat)
  | 0, _, _ => []
  | fuel + 1, o, b => if b.isEmpty then [] else (o, b.take n) :: chunks n fuel (o + n) (b.drop n)

/-- Send messages spread over the lanes that are up (R267). -/
def sendSpread (kind : Nat) (ms : List (Nat × List Nat)) : Act := .dyn fun s =>
  let lanes := s.txLanes
  on (!lanes.isEmpty) (each ((List.range ms.length).zip ms) fun e =>
    pairEmit (lanes.getD (e.1 % lanes.length) 0) kind 0 e.2.1 e.2.2)

/-- The bytes from offset 0 on that the parts received cover. -/
def assembled : List (Nat × List Nat) → Nat → List Nat → List Nat
  | _, 0, b => b
  | ps, fuel + 1, b => match ps.find? fun e => e.1 == b.length with
    | some e => if e.2.isEmpty then b else assembled ps fuel (b ++ e.2)
    | none => b

/-- Where a checkpoint's plan begins: after the queue's entries and its own length. -/
def planOffset (b : List Nat) : Nat := partsLen + 84 + 32 * leAt b (partsLen + 76) 4

/-- Length of a checkpoint, once that much of it has come; none before. -/
def ckptLen (b : List Nat) : Option Nat :=
  if b.length < partsLen + 80 then none
  else if b.length < planOffset b then none
  else some (planOffset b + leAt b (planOffset b - 4) 4)

/-- Write `n` registers from an address on, with the effect of register writes in READY. -/
def loadRegs (addr n : Nat) (b : List Nat) (o : Nat) : Act :=
  each (List.range n) fun i => writeLocked (addr + 4 * i) (BitVec.ofNat 32 (leAt b (o + 4 * i) 4))

/-- A table of words that are not 0. -/
def tableAt (b : List Nat) (o n mask : Nat) : List (Nat × Word) := (List.range n).filterMap fun i =>
  let w := Nat.land (leAt b (o + 4 * i) 4) mask
  if w = 0 then none else some (i, BitVec.ofNat 32 w)

/-- The offsets of parts 3 to 9 in the image of R261. -/
def partOffset (n : Nat) : Nat :=
  let sizes := [4096, 2097152, 12, 68, 20, 16412, 12, 56, 4]
  (sizes.take (n - 1)).sum

/-- Load a checkpoint (R287, R288), and start the lattice check. A CHECK of the host's that is under way begins anew on the loaded
tables (DESIGN CHOICE: no rule says what becomes of it). -/
def loadCkpt (b : List Nat) : Act :=
  let p4 := partOffset 4
  let p6 := partOffset 6
  let tail := partsLen
  let q := tail + 80
  let n := leAt b (tail + 76) 4
  let entries := (List.range n).map fun i => parseEntry (bytesAt b (q + 32 * i) 32)
  acts [
    onLat fun l => { l with
      lattice := tableAt b 0 1024 0x03031FFF
      gain := tableAt b 4096 524288 0x0FFF0FFF
      gainWritten := true },
    loadRegs R.LAT_STEP 1 b (partOffset 3), loadRegs R.LAT_DSCALE 1 b (partOffset 3 + 4), loadRegs R.LAT_CFG 1 b (partOffset 3 + 8),
    loadRegs R.POS_CFG 1 b p4, loadRegs R.POS_TS 6 b (p4 + 4), loadRegs R.POS_EST_CFG 2 b (p4 + 28),
    each axisList fun i => .seq (loadRegs (R.AX_CTRL i) 1 b (p4 + 36 + 8 * i)) (loadRegs (R.AX_LAMBDA i) 1 b (p4 + 40 + 8 * i)),
    loadRegs R.SHT_CFG 5 b (partOffset 5), loadRegs R.TRK_CFG 7 b p6,
    onPos fun p => { p with ramp := tableAt b (p6 + 28) 4096 0xFFFFFFFF },
    loadRegs R.CAL_CFG 3 b (partOffset 7),
    .dyn fun s => writeLocked R.MOT_CFG (BitVec.ofNat 32 (F.MOT_CFG_LTQ.put (F.MOT_CFG_EN.put (leAt b (partOffset 8) 4)
      (s.fld F.MOT_CFG_EN)) (s.fld F.MOT_CFG_LTQ))),
    loadRegs R.MOT_LEAD 13 b (partOffset 8 + 4),
    .dyn fun s => writeLocked R.PAR_CFG (BitVec.ofNat 32 (F.PAR_CFG_ACCEPT.put (F.PAR_CFG_PREFER.put (leAt b (partOffset 9) 4)
      (s.fld F.PAR_CFG_PREFER)) (s.fld F.PAR_CFG_ACCEPT))),
    each axisList fun i =>
      let o := tail + 16 * i
      acts [setR (R.AX_HEY_PQ i) (leAt b o 4), setR (R.AX_HEY_RS i) (leAt b (o + 4) 4),
        setR (R.AX_CAND_PQ i) (leAt b (o + 8) 4), setR (R.AX_CAND_RS i) (leAt b (o + 12) 4),
        onAxis i fun x => { x with cur := heyOf (leAt b o 4) (leAt b (o + 4) 4), ramp := none, win := [] }],
    celLayoutWrite false (BitVec.ofNat 32 (leAt b (tail + 64) 4)), celLayoutWrite true (BitVec.ofNat 32 (leAt b (tail + 68) 4)),
    setF F.PLK_VINTAGE_NEXT (leAt b (tail + 72) 4),
    onJob fun j => { j with queue := entries, head := entries.getLast?.map fun e => e.stripe },
    setR R.JOB_HEAD ((entries.getLast?.map fun e => e.stripe).getD 0),
    loadPlan (b.drop (planOffset b)),
    onPar fun p => { p with ckpt := [] },
    setF F.LAT_STAT_WINDOW 0, setF F.LAT_STAT_CHK_STATE 1]

/-- The cellar's layout in a checkpoint fits this device (R287). -/
def State.ckptFits (s : State) (b : List Nat) : Bool :=
  let bins := leAt b (partsLen + 64) 4
  decide (F.CEL_BIN_CFG_NBINS.get bins * F.CEL_BIN_CFG_BIN_MIB.get bins + leAt b (partsLen + 68) 4 ≤ s.fld F.CEL_CAPACITY_MIB)

/-! ### The steps (R287) -/

/-- The procedure fails with a code (R287). -/
def joinFail (code : Nat) : Act := .dyn fun s =>
  acts [setF F.PAR_STAT_JOIN_ERR code, onPar fun p => { p with joinStep := 0, ckpt := [] }, raise E.PAR_JOIN_FAIL,
    if s.b.par.isJoin && s.b.par.joiner then leavePair .solo
    else if s.b.par.isJoin && s.role == .active then onPar fun p => { p with mate := .lost } else .nop]

/-- A free value as a register word, for what the mate holds and no message carries (R287). -/
def freeWord (addr mask : Nat) : Act := .dyn fun s =>
  .seq (setR addr (Nat.land (Config.unstated 3 s.fresh) mask)) .draw

/-- The joiner of step 4 takes the mate's Heydemann values (R287): those of the checkpoint; under PAIR, which transfers nothing, no
message carries them, so they are free. -/
def alignTake : Act := .dyn fun s =>
  on (!s.b.par.isJoin) (each axisList fun i => acts [
    freeWord (R.AX_HEY_PQ i) 0xFFFFFFFF, freeWord (R.AX_HEY_RS i) 0xFFFFFFFF,
    freeWord (R.AX_CAND_PQ i) 0xFFFFFFFF, freeWord (R.AX_CAND_RS i) 0xFFFFFFFF,
    .dyn fun s => onAxis i fun x => { x with cur := heyOf (s.rd (R.AX_HEY_PQ i)) (s.rd (R.AX_HEY_RS i)), ramp := none }])

/-- At a named sample the joiner sets its origins so that its Yc equals the mate's (R287): `d` is the mate's Yc less its own, by
which both Y axes move; the mate's Xc no message carries, so the X origins are free. -/
def alignOrigin (d : Int) : Act := acts [
  each [0, 1] fun i => .dyn fun s => setOrigin i (s.origin i - divNear (d * 2 ^ 32) (s.axisK i)),
  each [2, 3] fun i => .seq (freeWord (R.AX_ORG_LO i) 0xFFFFFFFF) (freeWord (R.AX_ORG_HI i) 0xFFFF),
  onPos fun p => { p with hist := [] },
  onPar fun p => { p with aligned := true }]

/-- Whether this device becomes ACTIVE at PAIR (R289); the mate's PREFER is not carried by any message. -/
def State.takesActive (s : State) : Bool :=
  let mine := s.flag F.PAR_CFG_PREFER
  let mate := Config.unstated 4 s.fresh % 2 == 1
  if mine == mate then decide (s.devId < s.mateId) else mine

/-- The image of a bin as XFER messages (R267, R287): the word holds the low 12 bits of the stripe number and the low 20 bits of the
piece's number, the first block the whole offset and the poison mark, and the bytes follow (a layout of this model). -/
def State.imageMessages (s : State) (x : Bin) (len : Nat) : List (Nat × List Nat) :=
  (List.range ((len + 4031) / 4032)).map fun i =>
    let o := 4032 * i
    let n := min 4032 (len - o)
    let bs := (List.range n).map fun k => s.imageByte [] x (o + k)
    (x.stripe % 4096 * 2 ^ 20 + i % 2 ^ 20, wholeBlocks <| leBytes 5 o ++ [if bs.all fun v => v.isSome then 0 else 1, 0, 0] ++ bs.map fun v => v.getD 0)

/-- The mate sends what the joiner pulls (R287): the stripe digests and the images of its READY bins. -/
def sendImages : Act := .dyn fun s =>
  let held := s.b.cel.bins.filter fun x => x.state == .ready
  .seq (each held fun x => pairSend 9 x.stripe (leBytes 8 (x.sdig.getD 0) ++ List.replicate 8 0))
    (each held fun x => match x.hdr with
      | some h => .seq (each ((List.range ((h.imageLen + 63) / 64)).map fun i => lineAddr (s.imageAddr x (64 * i))) (lineNote 5 []))
          (sendSpread 0x11 (s.imageMessages x h.imageLen))
      | none => .nop)

/-- The mate's digest for the joiner (R262): not recomputed during a job. -/
def digestForJoin : Act := .dyn fun s =>
  match s.b.par.ownDigest with
  | some d => if s.locked then .seq (onPar fun p => { p with ownDigest := some (d.1, 0) })
      (pairSend 8 0 (leBytes 8 d.1 ++ leBytes 8 0)) else requestDigest 0
  | none => requestDigest 0

/-- Begin a step (R287). -/
def beginStep (n : Nat) : Act := .dyn fun s =>
  let p := s.b.par
  let starts := match n with
    | 3 =>
      if !p.isJoin then .seq (onPar fun x => { x with ownDigest := none }) (requestDigest 0)
      else if p.joiner then onPar fun x => { x with ownDigest := none, ckpt := [] }
      else .seq (sendSpread 0x10 (chunks 4096 1024 0 (wholeBlocks (ckptBytes s)))) digestForJoin
    | 4 => acts [on (!p.isJoin) (.seq (onPar fun x => { x with joiner := !s.takesActive }) .draw),
        .dyn fun t => on t.b.par.joiner alignTake,
        each axisList fun i => onAxis i fun x => { x with win := [] },
        onPar fun x => { x with hbChecks := 0, hbWord := none, aligned := false }]
    | 5 => on (!p.joiner) sendImages
    | 6 => if p.joiner then on (s.bringup != 7) (joinFail 6) else on s.locked stopAtEnd
    | _ => .nop
  .seq (onPar fun x => { x with joinStep := n, stepAt := s.b.pos.pt }) starts

/-- The pair is formed: the procedure's own records end, and both devices count its arm requests from here (R262). -/
def paired (r : Role) : Act :=
  acts [changeRole r, onJob fun j => { j with armCount := 0, armReq := none }, onPar fun p =>
    { p with
      mate := .up, wdMate := false, wdSelf := false, defer := none, mismatch := false, splitEnd := 0, soloAtEnd := false
      cleanStripes := 0, dirty := false, roleAt := none, sigNext := 0 }]

/-- The two last digests, of no arm request, are held and equal (R287). -/
def State.joinDigests (s : State) : Option Bool :=
  match s.b.par.digestReq, s.b.par.ownDigest, s.b.par.mateDigest with
  | none, some a, some b => if a.2 = 0 ∧ b.2 = 0 then some (a.1 == b.1) else none
  | _, _, _ => none

/-- Every image that the mate has announced stands READY with an equal stripe digest (R287). -/
def State.pulledAll (s : State) : Bool :=
  s.b.cel.earlySdig.isEmpty && s.b.cel.bins.all fun x => x.state != .filling && x.mateSdig.isSome && x.sdig == x.mateSdig

/-- The mate of a joiner acts at ENTER (R287): it becomes ACTIVE, and a pair ARM follows. -/
def enterMate : Act := .dyn fun s =>
  on (s.dev == .ready && s.b.par.mate != .up)
    (acts [paired .active, onPar fun p => { p with joined := true },
      setR R.PAR_JOIN_STRIPE ((s.b.job.queue.head?.map fun e => e.stripe).getD 0),
      noteArmRequest, pairAtPeriod R.JOB_CMD 1])

/-- The joiner acts at ENTER (R287). -/
def enterJoiner : Act := .dyn fun s =>
  on (s.role == .joining)
    (acts [freeWritten true, paired .standby, onPar fun p => { p with joinStep := 6, joined := true },
      setR R.PAR_JOIN_STRIPE ((s.b.job.queue.head?.map fun e => e.stripe).getD 0)])

/-- Pass on to the next step where the present one's condition holds (R287). -/
def joinAdvance : Act := .dyn fun s =>
  let p := s.b.par
  match p.joinStep with
  | 2 => on (decide (4 ≤ s.rxLanes.length) && decide (4 ≤ s.txLanes.length)) (beginStep 3)
  | 3 => match s.joinDigests with
    | some eq => if eq && s.fld F.CSK_FIT_CODE == 0 then beginStep 4 else joinFail 3
    | none => .nop
  | 4 => on (decide (1000 ≤ p.hbChecks))
      (if p.isJoin then beginStep 5
       else .seq (onPar fun x => { x with joinStep := 0, joined := false })
         (.seq (paired (if p.joiner then .standby else .active)) (raise E.PAR_PAIRED)))
  | 5 =>
    if p.joiner then on (s.pulledAll && decide (3 ≤ p.mateState) && decide (p.mateState ≤ 4)) (beginStep 6)
    else on ((s.b.cel.bins.filter fun x => x.state == .ready).all fun x => x.mateSdig.isSome && x.mateSdig == x.sdig) (beginStep 6)
  | 6 =>
    if s.dev = .armed ∧ p.mate = .up then .seq (onPar fun x => { x with joinStep := 0 }) (raise E.PAR_JOIN_DONE)
    else on (!p.joiner) enterMate
  | _ => .nop

/-- A session with the mate is up: step 1 passes (R287). -/
def joinSession (x : Exchange) : Act := .dyn fun s =>
  on (s.b.par.joinStep == 1 && x.purpose == 1 && x.role == 1) (.seq (beginStep 2) joinAdvance)

/-- HELLO_REPLY (R287, R321). -/
def execHelloReply (m : NetMsg) (cert : Cert) (sigOk : Bool) (s : State) : Host.Outcome State Fault Refusal :=
  perform (helloReplied m cert sigOk joinSession) s

/-- KEY_CONFIRM (R287, R321). -/
def execKeyConfirm (m : NetMsg) (sigOk : Bool) (s : State) : Host.Outcome State Fault Refusal :=
  perform (keyConfirmed m sigOk joinSession) s

/-! ### Commands of the PAR page (R262, R287, R290, R292) -/

/-- Start PAIR or JOIN (R287): the joiner, or of two that pair the device with the lower serial, sends HELLO. -/
def joinStart (isJoin : Bool) : Act := .dyn fun s =>
  acts [onPar fun p =>
      { p with stepAt := s.b.pos.pt, mateStripe := none, joinStep := 1, isJoin := isJoin, joiner := isJoin, hbChecks := 0, mateDigest := none, ownDigest := none, ckpt := [] },
    on isJoin (changeRole .joining),
    match s.partners 1 with
    | p :: _ => on (isJoin || decide (s.devId < p.id)) (startHello p 1)
    | [] => .nop]

/-- PAIR or JOIN (R287, R292, R369). -/
def joinCmd (isJoin : Bool) : Act := .dyn fun s =>
  let w : Waiting := if isJoin then .join else .pair
  if s.dev != .ready then refuseCmd R.PAR_CMD (if isJoin then 2 else 1)
  else if s.role != .solo || s.b.par.joinStep != 0 then err R.PAR_CMD Err.refused
  else if s.ageBusy then onAge fun a => { a with waiting := if a.waiting.contains w then a.waiting else a.waiting ++ [w] }
  else joinStart isJoin

/-- PAIR (R287). -/
def execPair (s : State) : Host.Outcome State Fault Refusal := perform (toPage 0xA8 (joinCmd false)) s
/-- JOIN (R287). -/
def execJoin (s : State) : Host.Outcome State Fault Refusal := perform (toPage 0xA8 (joinCmd true)) s

/-- UNPAIR (R290). -/
def unpairCmd : Act := .dyn fun s =>
  if s.dev != .ready then refuseCmd R.PAR_CMD 3
  else if s.role == .active || s.role == .standby || s.role == .split then leavePair .solo else err R.PAR_CMD Err.refused

/-- UNPAIR (R290). -/
def execUnpair (s : State) : Host.Outcome State Fault Refusal := perform (toPage 0xA8 unpairCmd) s

/-- DIGEST (R262). -/
def digestCmd : Act := .dyn fun s => if s.dev != .ready then refuseCmd R.PAR_CMD 4 else requestDigest 0

/-- DIGEST (R262). -/
def execDigest (s : State) : Host.Outcome State Fault Refusal := perform (toPage 0xA8 digestCmd) s

/-- ABORT (R290, R292): only while JOINING. -/
def abortCmd : Act := .dyn fun s =>
  if s.role == .joining then .seq (leavePair .solo) (onPar fun p => { p with ckpt := [] }) else err R.PAR_CMD Err.refused

/-- JOIN_ABORT (R290). -/
def execJoinAbort (s : State) : Host.Outcome State Fault Refusal := perform (toPage 0xA8 abortCmd) s

/-- The limit of a step in ms (R287); none for step 5. -/
def stepLimit : Nat → Option Nat
  | 1 => some 1000
  | 2 => some 10
  | 3 => some 100
  | 4 => some 10
  | 6 => some 1000
  | _ => none

/-- JOIN_STEP_TIMEOUT (R287): the step at hand has not passed within its limit. -/
def execJoinStepTimeout (s : State) : Host.Outcome State Fault Refusal :=
  perform (.dyn fun s => match stepLimit s.b.par.joinStep with
    | some ms => .seq (advanceTo (s.b.par.stepAt + (ms * 250000 * 65536 : Nat))) (joinFail s.b.par.joinStep)
    | none => .nop) s

/-- A write to PAR_FIJ_CFG (R291): it arms an injection, or is ignored with INJECT. -/
def parFijWrite (w : Word) : Act := .dyn fun s =>
  let kind := F.PAR_FIJ_CFG_KIND.get w.toNat
  let n := max 1 (s.rd R.PAR_FIJ_N)
  if kind = 0 then .seq (writeReg R.PAR_FIJ_CFG w) (onPar fun p => { p with fijLeft := [] })
  else if s.injecting 0xA8 = false ∨ 5 < kind ∨ (kind = 2 ∧ F.PAR_FIJ_CFG_TARGET.get w.toNat ≠ 2) then err R.PAR_FIJ_CFG Err.inject
  else .seq (writeReg R.PAR_FIJ_CFG w) (onPar fun p =>
    { p with fijLeft := if kind = 5 then [(8, n)]
        else (if F.PAR_FIJ_CFG_ALL.get w.toNat = 1 then List.range 8 else [F.PAR_FIJ_CFG_LANE.get w.toNat]).map fun l => (l, n) })

/-- PAR_FIJ_CFG_WRITE (R291). -/
def execParFijCfgWrite (w : Word) (s : State) : Host.Outcome State Fault Refusal := perform (toPage 0xA8 (parFijWrite w)) s

end Sys2Proof.Machine
end

