-- ==== Sys2Proof/Machine/Check.lean ====
section
/-! DEFINITION. The check-value units CK0 to CK3 (R349 to R351, R354). -/

namespace Sys2Proof.Machine

/-- The algorithm of CK_CFG.POLY (R349). -/
def ckAlg : Nat → CrcAlg
  | 0 => crc32c
  | 1 => crc32
  | 2 => ⟨16, 0x1021, 0xFFFF, false, 0⟩
  | _ => crc64

/-- The algorithm that a unit runs. -/
def State.ckAlg (s : State) (k : Nat) : CrcAlg := Machine.ckAlg (s.fld (F.CK_CFG_POLY k))

/-- CK_VAL, the running register before the final XOR, as the registers show it (R350). -/
def State.ckVal (s : State) (k : Nat) : Nat := s.rd (R.CK_VAL_LO k) + s.rd (R.CK_VAL_HI k) * 2 ^ 32

/-- CK_RES: CK_VAL XOR the final XOR (R350). -/
def State.ckRes (s : State) (k : Nat) : Nat := Nat.xor (s.ckVal k) (s.ckAlg k).xorOut

/-- Store CK_VAL; bits above the width are not held (R350). -/
def setCkVal (k v : Nat) : Act := .dyn fun s =>
  let x := v % 2 ^ (s.ckAlg k).width
  .seq (setR (R.CK_VAL_LO k) (x % 2 ^ 32)) (setR (R.CK_VAL_HI k) (x / 2 ^ 32))

/-- Load Init and clear CK_CNT (R350). -/
def ckInit (k : Nat) : Act := .dyn fun s => .seq (setCkVal k (s.ckAlg k).init) (setR (R.CK_CNT k) 0)

/-- A running value after more bytes. In a reflected algorithm bit 0 of CK_VAL is the coefficient of x^(width − 1) (R350),
so the running register lies in it in reverse. -/
def ckFeed (a : CrcAlg) (v : Nat) (bytes : List Nat) : Nat :=
  if a.refl then reflect a.width (bytes.foldl (crcByte a) (reflect a.width v)) else bytes.foldl (crcByte a) v

/-- Feed bytes (R351). -/
def ckTake (k : Nat) (bytes : List Nat) : Act := .dyn fun s =>
  .seq (setCkVal k (ckFeed (s.ckAlg k) (s.ckVal k) bytes)) (addR (R.CK_CNT k) bytes.length)

/-- A write to CK_FEED32, a window data register that reads the last word written (R351). -/
def ckFeedWord (k : Nat) (w : Word) : Act := .seq (ckTake k (leBytes 4 w.toNat)) (.wr (R.CK_FEED32 k) w)

/-- A write to CK_CFG (R350). -/
def ckCfgWrite (k : Nat) (w : Word) : Act := .seq (writeReg (R.CK_CFG k) w) (ckInit k)

/-- A write to CK_VAL_LO or CK_VAL_HI (R350). -/
def ckValWrite (k : Nat) (hi : Bool) (w : Word) : Act := .dyn fun s =>
  setCkVal k (if hi then s.ckVal k % 2 ^ 32 + w.toNat * 2 ^ 32 else s.ckVal k / 2 ^ 32 * 2 ^ 32 + w.toNat)

/-- CK_INIT (R350). -/
def execCkInit (k : Fin 4) (s : State) : Host.Outcome State Fault Refusal := perform (toPage (0xC8 + k) (ckInit k)) s

/-- CK_CFG_WRITE (R350). -/
def execCkCfgWrite (k : Fin 4) (w : Word) (s : State) : Host.Outcome State Fault Refusal :=
  perform (toPage (0xC8 + k) (ckCfgWrite k w)) s

/-- CK_VAL_WRITE (R350). -/
def execCkValWrite (k : Fin 4) (hi : Bool) (w : Word) (s : State) : Host.Outcome State Fault Refusal :=
  perform (toPage (0xC8 + k) (ckValWrite k hi w)) s

/-- CK_FEED8 (R351). -/
def execCkFeed8 (k : Fin 4) (w : Word) (s : State) : Host.Outcome State Fault Refusal :=
  perform (toPage (0xC8 + k) (ckTake k (leBytes 1 w.toNat))) s

/-- CK_FEED16 (R351). -/
def execCkFeed16 (k : Fin 4) (w : Word) (s : State) : Host.Outcome State Fault Refusal :=
  perform (toPage (0xC8 + k) (ckTake k (leBytes 2 w.toNat))) s

/-- CK_FEED32 (R351). -/
def execCkFeed32 (k : Fin 4) (w : Word) (s : State) : Host.Outcome State Fault Refusal :=
  perform (toPage (0xC8 + k) (ckFeedWord k w)) s

end Sys2Proof.Machine
end

