-- ==== Sys2Proof/Machine/Mem.lean ====
section
/-! DEFINITION. The memory controllers and the scrubber (R332, R336, R339, R342 to R346, R348, R352, R353, R355). -/

namespace Sys2Proof.Machine

/-! ### Refresh and its polls (R336) -/

/-- REFRESH (R336): an all-bank refresh of a rank changes nothing that a command can see. -/
def execRefresh (_mc : Fin 4) (_rank : Fin 2) (s : State) : Host.Outcome State Fault Refusal := perform .nop s

/-- State of a rank in MC_STAT (R352). -/
def rankField (mc rank : Nat) : Fld := if rank = 0 then F.MC_STAT_RANK0 mc else F.MC_STAT_RANK1 mc

/-- A rank asks for the doubled refresh rate: MR4 codes from 3 up name tREFI/2 or faster. -/
def fastRefresh (rate : Nat) : Bool := decide (3 ≤ rate)

/-- One poll of a rank's refresh rate (R336): REF_HIGH is set with REFRESH_HIGH, and cleared by the second normal poll in a
row. -/
def mr4Rate (mc rank rate : Nat) : Act := .dyn fun s =>
  let key := 2 * mc + rank
  let high := s.fld (F.MC_STAT_REF_HIGH mc)
  let normal := spGet (fun _ => 0) s.b.ram.normalPolls key + 1
  if fastRefresh rate then
    acts [onRam fun m => { m with normalPolls := spPut (fun _ => 0) m.normalPolls key 0 },
      on (!high.testBit rank) (.seq (setF (F.MC_STAT_REF_HIGH mc) (Nat.lor high (2 ^ rank))) (raise (E.MC_REFRESH_HIGH mc)))]
  else if high.testBit rank then
    acts [onRam fun m => { m with normalPolls := spPut (fun _ => 0) m.normalPolls key (if normal = 2 then 0 else normal) },
      on (normal == 2) (setF (F.MC_STAT_REF_HIGH mc) (Nat.xor high (2 ^ rank)))]
  else .nop

/-- A rank reports a temperature above its operating range (R23, R336). -/
def mr4Hot (mc rank : Nat) (hot : Bool) : Act := .dyn fun s =>
  let key := 2 * mc + rank
  let others := s.b.ram.hot.filter fun k => k != key
  if hot then
    acts [onRam fun m => { m with hot := key :: others }, on (!s.b.ram.hot.contains key) (raise (E.MC_DRAM_HOT mc)),
      on s.inJob (faultEntry 6 (0x10 + mc) rank)]
  else onRam fun m => { m with hot := others }

/-- The controllers poll their ranks (R336): not before READY, in DORMANT, or with the MEM domain down. The first poll after
DORMANT takes place while the device wakes, when the MEM domain accepts no request yet. -/
def State.polls (s : State) : Bool := s.memUp || (s.dev == .dormant && s.flag F.PWR_STAT_WAKING)

/-- MR4_POLL (R336). -/
def execMr4Poll (mc : Fin 4) (rank : Fin 2) (rate : BitVec 3) (hot : Bool) (s : State) : Host.Outcome State Fault Refusal :=
  perform (.dyn fun s => on (s.polls && s.fld (rankField mc rank) != 0)
    (acts [setF (if rank.val = 0 then F.MC_MR4_RANK0 mc else F.MC_MR4_RANK1 mc) rate.toNat, mr4Rate mc rank rate.toNat,
      mr4Hot mc rank hot])) s

/-! ### The correction rate (R339, R355) -/

/-- CE_RATE_SECOND (R339): a rank's corrections of the second that ends are compared with CE_RATE. -/
def execCeRateSecond (mc : Fin 4) (rank : Fin 2) (s : State) : Host.Outcome State Fault Refusal :=
  perform (.dyn fun s =>
    let key := 2 * mc.val + rank.val
    let n := spGet (fun _ => 0) s.b.ram.ceSecond key
    let limit := s.fld F.MEM_CFG_CE_RATE
    let raised := s.b.ram.ceHigh.contains key
    let over' := limit != 0 && decide (limit < n) && !raised
    acts [onRam fun m => { m with
        ceSecond := spPut (fun _ => 0) m.ceSecond key 0
        ceRaised := m.ceRaised.filter fun k => k != key
        ceHigh := if over' then key :: m.ceHigh else if 2 * n < limit then m.ceHigh.filter fun k => k != key else m.ceHigh },
      on over' (raise (E.MC_CE_RATE mc))]) s

/-! ### Migration (R342 to R344) -/

/-- Lines of a rank with sparing (R332): the cellar is four such ranks. -/
def State.rankLines (s : State) : Nat := s.fld F.CEL_CAPACITY_MIB * 4096

/-- The lines of a channel in ascending order within the rank (R333): line i lies in subchannel i mod 2. -/
def channelLine (ch i : Nat) : Nat := ((i / 2) * 8 + ch * 2 + i % 2) * 64

/-- MIG_START (R342, R343): the oldest retirement that waits starts its copy; one runs at a time. -/
def execMigStart (s : State) : Host.Outcome State Fault Refusal :=
  perform (.dyn fun s => match s.b.ram.migQueue with
    | ch :: rest =>
      on (s.b.ram.mig.isNone && s.memUp && s.pageWorks 0x14)
        (acts [bistPage 0x14, onRam fun m => { m with mig := some { kind := ch, start := channelLine ch 0, lines := s.rankLines }, migQueue := rest },
          setB F.MEM_STAT_MIG true, setF F.MEM_STAT_MIG_CH ch, setB F.MEM_STAT_MIG_QUEUED (!rest.isEmpty), setR R.MEM_MIG_PROG 0,
          raise E.MEM_MIG_START])
    | [] => .nop) s

/-- The copy of one line (R343): a corrected line is written corrected; one that does not read is lost, and is poison on the
spare. -/
def migrateLine (faults : List LineFault) (ch la : Nat) : Act := .dyn fun s =>
  acts [lineNote 7 faults la,
    if (s.readLine faults la).ok then correctLine faults la
    else
      acts [addR R.MEM_MIG_LOST 1, memRecord 3 7 la 0 15 ch, raise E.MEM_MIG_LOST, lineFresh [la],
        on (s.lineBytes la).isSome (onCel fun c => { c with poison := la :: c.poison.filter fun x => x != la })]]

/-- The migration copies its next `n` lines, and its pointer moves past them (R343, R353). -/
def migrate (faults : List LineFault) (n : Nat) : Act := .dyn fun s => match s.b.ram.mig with
  | some w =>
    let k := min n (w.lines - w.done)
    acts [each ((List.range k).map fun i => channelLine w.kind (w.done + i)) (migrateLine faults w.kind),
      onRam fun m => { m with mig := m.mig.map fun v => { v with done := w.done + k } }, setR R.MEM_MIG_PROG (w.done + k)]
  | none => .nop

/-- MIG_DONE (R343): the rest of the copy has been made, the spare takes the rank's place, and the old rank is OUT. -/
def execMigDone (faults : List LineFault) (s : State) : Host.Outcome State Fault Refusal :=
  perform (.dyn fun s => match s.b.ram.mig with
    | some w =>
      let ch := w.kind
      on (s.memUp && s.pageWorks 0x14)
        (acts [migrate faults w.lines,
          onRam fun m => { m with mig := none, poisonFill := ch :: m.poisonFill },
          setB F.MEM_STAT_MIG false,
          .dyn fun t => setF F.MEM_STAT_SPARE_USED (Nat.lor (t.fld F.MEM_STAT_SPARE_USED) (2 ^ ch)),
          setF (F.MC_STAT_RANK0 ch) 3, setF (F.MC_STAT_RANK1 ch) 1, raise E.MEM_MIG_DONE])
    | none => .nop) s

/-! ### The scrubber (R345, R346) -/

/-- A 64-bit value in a pair of registers. -/
def State.rd64 (s : State) (lo hi : Nat) : Nat := s.rd lo + s.rd hi * 2 ^ 32

/-- Store a 64-bit value in a pair of registers. -/
def setR64 (lo hi v : Nat) : Act := .seq (setR lo (v % 2 ^ 32)) (setR hi (v / 2 ^ 32 % 2 ^ 32))

/-- START of MEM_SCRUB_CMD (R345, R346). -/
def scrubStart : Act := .dyn fun s =>
  let start := s.rd64 R.MEM_SCRUB_START_LO R.MEM_SCRUB_START_HI
  let len := s.rd64 R.MEM_SCRUB_LEN_LO R.MEM_SCRUB_LEN_HI
  if s.dev != .ready && s.dev != .draining && s.dev != .armed then refuseCmd R.MEM_SCRUB_CMD 1
  else if s.b.ram.scrub.isSome || start % 64 != 0 || len % 64 != 0 || decide (s.fld F.CEL_CAPACITY_MIB * 2 ^ 20 < start + len) then
    err R.MEM_SCRUB_CMD Err.refused
  else
    acts [onRam fun m => { m with scrub := some { kind := s.fld F.MEM_SCRUB_CFG_MODE, start := start, lines := len / 64 } },
      setF F.MEM_SCRUB_STAT_STATE 1, setR64 R.MEM_SCRUB_LINES_LO R.MEM_SCRUB_LINES_HI 0, setR R.MEM_SCRUB_CE 0,
      setR R.MEM_SCRUB_UE 0, setR64 R.MEM_SCRUB_FIRST_LO R.MEM_SCRUB_FIRST_HI 0, setR64 R.MEM_SCRUB_LAST_LO R.MEM_SCRUB_LAST_HI 0]

/-- SCRUB_START (R345). -/
def execScrubStart (s : State) : Host.Outcome State Fault Refusal := perform (toPage 0x14 scrubStart) s

/-- A bad line enters the scrub's summary (R346). -/
def Walk.bad (w : Walk) (la : Nat) (ok : Bool) : Walk :=
  { w with
    ce := if ok then w.ce + 1 else w.ce
    ue := if ok then w.ue else w.ue + 1
    first := some (w.first.getD la)
    last := some la }

/-- What the scrubber does with one line (R345, R346): INIT writes zeros without reading; the other modes read, CORRECT queues a
corrected line's write-back, and a stripe in a FILLING or READY bin is refused for a line of its image that does not read
(R341). -/
def scrubLine (faults : List LineFault) (mode la : Nat) : Act :=
  if mode = 2 then storeRun 6 [] la (List.replicate 64 0)
  else .dyn fun s =>
    let read := s.readLine faults la
    let held := s.b.cel.poison.contains la || (cellGet s.mem la).isSome
    acts [lineNote 6 faults la,
      on (read != .clean) (onRam fun m => { m with scrub := m.scrub.map fun w => w.bad la read.ok }),
      on (mode == 1 && read.ok && read != .clean) (queueWriteBack la),
      on (!read.ok && held) (.dyn fun t => match t.binOf la with
        | some x => on (x.state != .current) (refuseStripe x.num 8)
        | none => .nop)]

/-- The scrub processes its next `n` lines, and its pointer moves past them. -/
def scrubTo (faults : List LineFault) (n : Nat) : Act := .dyn fun s => match s.b.ram.scrub with
  | some w =>
    let k := min n (w.lines - w.done)
    .seq (each ((List.range k).map fun i => w.start + 64 * (w.done + i)) (scrubLine faults w.kind))
      (onRam fun m => { m with scrub := m.scrub.map fun v => { v with done := w.done + k } })
  | none => .nop

/-- A scrub ends with a STATE, and writes its summary (R346). -/
def scrubEnd (state : Nat) : Act := .dyn fun s => match s.b.ram.scrub with
  | some w =>
    acts [setR64 R.MEM_SCRUB_LINES_LO R.MEM_SCRUB_LINES_HI w.done, setR R.MEM_SCRUB_CE w.ce, setR R.MEM_SCRUB_UE w.ue,
      setR64 R.MEM_SCRUB_FIRST_LO R.MEM_SCRUB_FIRST_HI (w.first.getD 0), setR64 R.MEM_SCRUB_LAST_LO R.MEM_SCRUB_LAST_HI (w.last.getD 0),
      onRam fun m => { m with scrub := none }, setF F.MEM_SCRUB_STAT_STATE state, raise E.MEM_SCRUB_DONE]
  | none => .nop

/-- STOP of MEM_SCRUB_CMD (R345): the lines processed up to it are given; those that time has brought stand. -/
def scrubStop (lines : Nat) (faults : List LineFault) : Act := .dyn fun s => match s.b.ram.scrub with
  | some w => .seq (scrubTo faults (lines - w.done)) (scrubEnd 3)
  | none => .nop

/-- SCRUB_STOP (R345). -/
def execScrubStop (lines : BitVec 32) (faults : List LineFault) (s : State) : Host.Outcome State Fault Refusal :=
  perform (toPage 0x14 (scrubStop lines.toNat faults)) s

/-- SCRUB_DONE (R346): the rest of the range has been processed. A scrub does not end while the MEM domain is down or its page is
stopped. -/
def execScrubDone (faults : List LineFault) (s : State) : Host.Outcome State Fault Refusal :=
  perform (.dyn fun s => match s.b.ram.scrub with
    | some w => on (s.memUp && s.pageWorks 0x14) (.seq (scrubTo faults w.lines) (scrubEnd 2))
    | none => .nop) s

/-! ### What a tick brings (R339, R343, R345) -/

/-- Lines that a walk has earned after one more tick of 4 ns at `rate` × 100 MB/s, 2/5 byte each: whole lines, and the rest. The
spec gives the rate as a most; here it is the rate (DESIGN CHOICE). -/
def Walk.earn (w : Walk) (rate : Nat) : Nat × Walk := ((w.earned + rate) / 160, { w with earned := (w.earned + rate) % 160 })

/-- A tick: the write-backs that wait go out, and a migration and a scrub move on. With the MEM domain down all of them wait, with
their pointers kept (R344). -/
def memTick : Act := .dyn fun s =>
  let m := s.b.ram
  let pace := fun (w : Option Walk) (rate : Nat) => match w with | some v => v.earn rate | none => (0, ⟨0, 0, 0, 0, 0, 0, 0, none, none⟩)
  let mig := pace m.mig (s.fld F.MEM_MIG_RATE_RATE)
  let scrub := pace m.scrub (s.fld F.MEM_SCRUB_CFG_RATE)
  on (s.memUp && s.pageWorks 0x14)
    (acts [writeBack m.wb,
      onRam fun m => { m with mig := m.mig.map fun _ => mig.2, scrub := m.scrub.map fun _ => scrub.2 },
      on (m.mig.isSome && mig.1 != 0) (migrate [] mig.1), on (m.scrub.isSome && scrub.1 != 0) (scrubTo [] scrub.1)])

/-- A tick of the TIME clock where no command waits. -/
def quietTick : Act := .seq idleTick (.dyn fun s => on (s.dev != .off) memTick)

/-! ### Writes to the pages (R332, R352) -/

/-- A write to MC_CFG, MC_GEOM or MEM_CFG (R332): MC_CFG and MC_GEOM, and SPARE of MEM_CFG, are locked from START on. -/
def memCfgWrite (addr : Nat) (w : Word) : Act := .dyn fun s =>
  if s.b.ram.locked then
    if addr = R.MEM_CFG then
      .seq (writeLocked addr (BitVec.ofNat 32 (F.MEM_CFG_SPARE.put w.toNat (s.fld F.MEM_CFG_SPARE))))
        (on (!s.locked && F.MEM_CFG_SPARE.get w.toNat != s.fld F.MEM_CFG_SPARE) (err addr Err.locked))
    else err addr Err.locked
  else writeLocked addr w

/-- A write to MC_SCHED (R352). -/
def mcSchedWrite (mc : Nat) (w : Word) : Act :=
  if (F.MC_SCHED_WR_HI mc).get w.toNat ≤ (F.MC_SCHED_WR_LO mc).get w.toNat then err (R.MC_SCHED mc) Err.range
  else writeReg (R.MC_SCHED mc) w

end Sys2Proof.Machine
end

