-- ==== Sys2Proof/Machine/Track.lean ====
section
/-! DEFINITION. The tracking deflection (R223 to R226, R230), and the meanings of TRK_SAMPLE, TRK_DATA_ACCESS and
JTX_SYNC_CHANGE. -/

namespace Sys2Proof.Machine

/-- The PT of a DAC sample (R199, R223). -/
def State.dacTime (s : State) (n : Nat) : Int := ((n * s.rd R.TRK_TS + 128) / 256 : Nat)

/-- E_prev and E_next of R224: the edge at or before a PT, and the one that comes next. -/
def State.edgesAt (s : State) (t : Int) : Option Int × Option Int :=
  match s.b.sht.lastEdge with
  | some e => if e ≤ t then (some e, s.b.sht.pred) else (s.b.sht.prevEdge, some e)
  | none => (none, s.b.sht.pred)

/-- The shot phase index (R224). -/
def State.shotPhase (s : State) (t : Int) : Nat :=
  match s.edgesAt t with
  | (some a, some b) => if b ≤ a then 4095 else (satI (((t - a) * 4096).tdiv (b - a)) 0 4095).toNat
  | _ => 4095

/-- f of R225 as 2.14. With TRK_VNOM = 0 the quotient has no value. -/
def State.rampScale (s : State) : Int :=
  let v := s.b.sht.lastVel
  if !s.flag F.TRK_CFG_FF then 0x4000
  else if v ≤ 0 then 0
  else if s.rd R.TRK_VNOM = 0 then (Config.unstated 1 s.fresh % 0x10000 : Nat)
  else satI ((v * 2 ^ 14).tdiv (s.rd R.TRK_VNOM)) 0 0xFFFF

/-- One entry of the RAMP table: X, Y (R230). -/
def State.rampEntry (s : State) (i : Nat) : Int × Int :=
  let w := (spGet (fun _ => (0 : Word)) s.b.pos.ramp i).toNat
  (toSigned 16 (w / 65536), toSigned 16 (w % 65536))

/-- A DAC code from a value in 2⁻¹⁰ pixel, and whether it was limited (R225). -/
def State.dacCode (s : State) (v : Int) : Int × Bool :=
  let c := (v * s.rd R.TRK_KPIX + 2 ^ 25).fdiv (2 ^ 26)
  (satI c (-32768) 32767, decide (c < -32768) || decide (32767 < c))

/-- The following-error part of X in 2⁻¹⁰ pixel, and whether it was limited (R225). -/
def State.trackError (s : State) (t : Int) : Int × Bool :=
  if !s.flag F.TRK_CFG_FEC then (0, false)
  else
    let e := (((s.b.pos.xc : Int) : Rat) / 64 - (s.setpointAt (s.trajAt t)).2.1 * 1024).floor
    let m : Int := (4 * s.fld F.TRK_EMAX_LIMIT : Nat)
    (satI e (-m) m, decide (e < -m) || decide (m < e))

/-- The waveform is output (R226). -/
def State.tracking (s : State) : Bool := s.inJob && s.flag F.TRK_CFG_EN

/-- The direction of the scan at hand. -/
def State.scanRev (s : State) : Bool := match s.b.mot.cur with | some c => c.rev | none => false

/-- One DAC sample of the waveform (R224, R225). -/
def trackWave (t : Int) : Act := .dyn fun s =>
  let i := s.shotPhase t
  let r := s.rampEntry i
  let f := s.rampScale
  let offx := toSigned 16 (if s.scanRev then s.fld F.TRK_OFFX_OFFX_R else s.fld F.TRK_OFFX_OFFX_F)
  let e := s.trackError t
  let x := s.dacCode ((r.1 * f).fdiv (2 ^ 14) + 4 * offx - e.1)
  let y := s.dacCode ((r.2 * f).fdiv (2 ^ 14))
  acts [.draw, setF F.TRK_STAT_INDEX i, on (s.flag F.TRK_STAT_JTX_UP) (.emit (.dac x.1 y.1)),
    on (x.2 || y.2 || e.2) (.seq (addR R.TRK_CLIP_CNT 1) (on (!s.b.pos.trkClipped)
      (.seq (onPos fun p => { p with trkClipped := true }) (raise E.TRK_TRK_CLIP))))]

/-- TRK_SAMPLE (R224 to R226): code 0 on both converters outside the shot path's states and while EN is 0. -/
def execTrkSample (s : State) : Host.Outcome State Fault Refusal :=
  perform (.dyn fun s =>
    let p := s.dacTime s.b.pos.trkN
    if !s.powered 5 then .nop
    else acts [advanceTo p, onPos fun b => { b with trkN := b.trkN + 1 },
      if s.tracking then trackWave (p + (s.rd R.TRK_DAC_LAT * 1024 : Nat))
      else on (s.flag F.TRK_STAT_JTX_UP) (.emit (.dac 0 0))]) s

/-- JTX_SYNC_CHANGE (R223, R230). -/
def execJtxSyncChange (up : Bool) (s : State) : Host.Outcome State Fault Refusal :=
  perform (.dyn fun s => on (s.flag F.TRK_STAT_JTX_UP != up)
    (.seq (setB F.TRK_STAT_JTX_UP up) (on (!up) (raise E.TRK_JTX_DOWN)))) s

/-- The next entry of the RAMP table, after each access, whether or not its data take effect (R230). -/
def trkStep : Act := .dyn fun s => setF F.TRK_IDX_INDEX (s.fld F.TRK_IDX_INDEX + 1)

/-- A write of TRK_DATA (R226, R230). -/
def trkDataWrite (w : Word) : Act := .dyn fun s =>
  if s.locked then .seq (err R.TRK_DATA Err.locked) trkStep
  else .seq (onPos fun p => { p with ramp := spPut (fun _ => 0) p.ramp (s.fld F.TRK_IDX_INDEX) w, lastTrk := w }) trkStep

/-- What TRK_DATA reads (R226). -/
def State.trkData (s : State) : Nat := (spGet (fun _ => (0 : Word)) s.b.pos.ramp (s.fld F.TRK_IDX_INDEX)).toNat

/-- A read of TRK_DATA (R226, R230). -/
def trkDataRead : Act := .dyn fun s => .seq (answerWord s.trkData) trkStep

/-- TRK_DATA_ACCESS (R226): a write of the entry, or a read. -/
def execTrkDataAccess (data : Option Word) (s : State) : Host.Outcome State Fault Refusal :=
  perform (match data with
    | some w => toPage 0xB2 (trkDataWrite w)
    | none => fromPage 0xB2 trkDataRead) s

end Sys2Proof.Machine
end

