-- ==== Sys2Proof/Machine/Dma.lean ====
section
/-! DEFINITION. Rings, descriptors and channels (R99 to R115, R118 to R120, R124, R125), parking (R115), link and ring resets
(R100, R125), and BAR2 (R99). -/

namespace Sys2Proof.Machine

/-! ### Producer and consumer indices (R105 to R107) -/

/-- The host writes the ring's entries (R104, R125). -/
def State.hostWritten (s : State) (ring : Nat) : Bool :=
  decide (ring < 64) || (decide (112 ≤ ring) && !s.flag (F.RNG_CFG_DIR ring))

/-- A producer index that R106 accepts: it goes forward, and the ring holds the entries. -/
def State.doorbellOk (s : State) (ring pi : Nat) : Bool :=
  let n := (pi + 2 ^ 32 - s.pi ring) % 2 ^ 32
  decide (n < 2 ^ 31) && s.ringRoom ring n

/-- A write to RNG_PI (R106, R122, R125): read-only for rings that the device writes. -/
def doorbellIndex (ring pi : Nat) : Act := .dyn fun s =>
  if !s.hostWritten ring then .nop
  else if s.doorbellOk ring pi then
    .seq (.index (2 * ring) (pi % 2 ^ 32)) (bookIn .ring ((pi + 2 ^ 32 - s.pi ring) % 2 ^ 32))
  else err (R.RNG_PI ring) Err.doorbell

/-- A write to RNG_CI (R107, R122, R125): the host consumes entries that the device wrote; answers that wait for room in the
reply ring follow (R301). -/
def consumerIndex (ring ci : Nat) : Act := .dyn fun s =>
  let n := (ci + 2 ^ 32 - s.ci ring) % 2 ^ 32
  if s.hostWritten ring then .nop
  else if s.ringUsed ring < n then err (R.RNG_CI ring) Err.range
  else acts [.index (2 * ring + 1) (ci % 2 ^ 32), bookOut .ring n,
    on (decide (112 ≤ ring)) (flushReplies s.b.dma.replies.length)]

/-- CONSUMER_INDEX_WRITE (R107). -/
def execConsumerIndexWrite (ring : Fin 128) (ci : Word) (s : State) : Host.Outcome State Fault Refusal :=
  perform (toPage 0xA (consumerIndex ring ci.toNat)) s

/-! ### Completions that waited (R108) -/

/-- Entries that a reset ring owes go out first, oldest first. -/
def payOwed (cq : Nat) : Nat → Act
  | 0 => .nop
  | fuel + 1 => .dyn fun s =>
    match s.b.dma.owed.find? fun o => o.1 == cq with
    | some o =>
      on (s.flag (F.RNG_CFG_EN cq) && s.ringRoom cq 1)
        (acts [onDma fun d => { d with owed := d.owed.erase o }, writeCompletion cq o.2.1 o.2.2, payOwed cq fuel])
    | none => .nop

/-- Room appears in a completion ring (R108). -/
def stallEnd (cq : Nat) : Act := .dyn fun s =>
  on (s.flag (F.RNG_CFG_EN cq) && s.ringRoom cq 1) (.seq (payOwed cq s.b.dma.owed.length) (.dyn fun t =>
    each (t.b.dma.stalled.filter fun r => t.fld (F.RNG_CFG_LINK r) == cq) fun r => .dyn fun u =>
      on (u.cqRoom cq) (.seq (onDma fun d => { d with stalled := d.stalled.filter fun x => x != r })
        (flushRing r u.b.dma.inflight.length))))

/-- COMPLETION_STALL_END (R108). -/
def execCompletionStallEnd (cq : Fin 32) (s : State) : Host.Outcome State Fault Refusal := perform (stallEnd (64 + cq)) s

/-! ### Channels (R101, R102, R110, R124) -/

/-- The channel is at work. -/
def State.chan (s : State) (ch : Nat) : Option Chan := s.b.dma.chans.find? fun c => c.ch == ch

/-- A descriptor that has been taken. -/
def State.flight (s : State) (ring dindex : Nat) : Option InFlight :=
  s.b.dma.inflight.find? fun f => f.ring == ring && f.dindex == dindex

/-- Replace a descriptor's record. -/
def setFlight (ring dindex : Nat) (f : InFlight → InFlight) : Act :=
  onDma fun d => { d with inflight := d.inflight.map fun g => if g.ring == ring && g.dindex == dindex then f g else g }

/-- Replace a channel's record. -/
def setChan (ch : Nat) (f : Chan → Chan) : Act :=
  onDma fun d => { d with chans := d.chans.map fun c => if c.ch == ch then f c else c }

/-- The lowest idle channel of a ring's mask (R110). -/
def State.idleChannel (s : State) (ring : Nat) : Option Nat :=
  (List.range 32).find? fun c => (s.rd (R.RNG_CHMASK ring)).testBit c && s.flag (F.DMA_CH_CFG_EN c) && (s.chan c).isNone

/-- A channel moves data: it neither is parked nor waits for a reservation. -/
def Chan.moving (c : Chan) : Bool := !c.parked && !c.poolWait

/-- A channel of a higher class than `cl` moves data. -/
def State.higherBusy (s : State) (cl : Nat) : Bool :=
  s.b.dma.chans.any fun c => c.moving && decide (cl < s.fld (F.DMA_CH_CFG_CLASS c.ch))

/-- A channel becomes ready and pre-empts those of a lower class that move data (R101, R102). -/
def preemptBy (ch : Nat) : Act := .dyn fun s =>
  let yields := fun c : Chan =>
    c.ch != ch && c.moving && !c.preempted && decide (s.fld (F.DMA_CH_CFG_CLASS c.ch) < s.fld (F.DMA_CH_CFG_CLASS ch))
  acts [each (s.b.dma.chans.filter yields) fun c => addR (R.DMA_CH_PREEMPT c.ch) 1,
    onDma fun d => { d with chans := d.chans.map fun c => { c with preempted := c.preempted || yields c } }]

/-- A channel is PRE-EMPTED: a channel of a higher class still needs the port (R102). -/
def State.chanWaits (s : State) (c : Chan) : Bool := c.preempted && c.moving && s.higherBusy (s.fld (F.DMA_CH_CFG_CLASS c.ch))

/-- Pre-empted channels resume once no channel of a higher class needs the port (R102). -/
def resumePreempted : Act := .dyn fun s =>
  onDma fun d => { d with chans := d.chans.map fun c =>
    { c with preempted := s.chanWaits c } }

/-- A channel starts on a descriptor. -/
def startChannel (ch ring dindex : Nat) : Act :=
  acts [onDma fun d => { d with chans := d.chans ++ [⟨ch, ring, dindex, false, false, false⟩] }, setR (R.DMA_CH_DONE ch) 0, preemptBy ch]

/-- The bin of a descriptor, while it is in the filling that the descriptor belongs to. -/
def State.flightBin (s : State) (f : InFlight) : Option Bin :=
  match s.bin f.desc.bin.toNat with
  | some x => if x.state = .filling ∧ x.gen = f.gen then some x else none
  | none => none

/-- A bin's reservation has been granted (R78, R118). -/
def State.granted (s : State) (x : Bin) : Bool := x.hdr.isSome && !s.b.cel.waits.contains x.num

/-- A descriptor waits for a channel: it has moved nothing, and its bin's reservation has been granted (R118), or it goes on
with a header that an earlier piece left incomplete (R119). -/
def State.ready (s : State) (f : InFlight) : Bool :=
  f.desc.op.toNat % 16 == 1 && f.ended.isNone && !f.awaits &&
    !(s.b.dma.chans.any fun c => c.ring == f.ring && c.dindex == f.dindex) &&
    match s.flightBin f with
    | some x => s.granted x ||
        (x.hdr.isNone && decide (f.desc.dst.toNat = confirmedPrefix x.pieces (x.pieces.length + 1) 0))
    | none => false

/-- Held descriptors whose reservations have been granted go to channels, oldest first (R118). -/
def assignHeld : Act := .dyn fun s => each s.b.dma.inflight fun f => .dyn fun t =>
  match t.ready f, t.idleChannel f.ring with
  | true, some ch => startChannel ch f.ring f.dindex
  | _, _ => .nop

/-- A channel waits no longer for a reservation: it has been granted, or its bin is gone (R118). -/
def State.waitOver (s : State) (c : Chan) : Bool :=
  match s.flight c.ring c.dindex with
  | some f => match s.flightBin f with | some x => s.granted x | none => true
  | none => true

/-- Channels that stopped at the first byte of a spill stream go on (R118). -/
def endPoolWait : Act := .dyn fun s =>
  let over' := s.b.dma.chans.filter fun c => c.poolWait && s.waitOver c
  .seq (onDma fun d => { d with chans := d.chans.map fun c => if over'.contains c then { c with poolWait := false } else c })
    (each over' fun c => preemptBy c.ch)

/-- What follows once bytes were confirmed, a bin refused or a reservation granted. -/
def dmaSettle : Act := acts [endPoolWait, assignHeld, resumePreempted, flushRings]

/-! ### Window data registers (R109, R112, R113) -/

/-- Whether a window data register takes writes now; none for any other register (R109, R112). -/
def State.windowOpen (s : State) (addr : Nat) : Option Bool :=
  if addr = R.LAT_DATA then some (s.fld F.LAT_STAT_WINDOW == 1 || s.fld F.LAT_STAT_WINDOW == 2)
  else if addr = R.TRK_DATA then some (!s.locked)
  else if addr = R.IDN_DATA then some (s.fld F.IDN_STAT_WINDOW == 2 || s.fld F.IDN_STAT_WINDOW == 3)
  else if addr = R.AGE_DATA then some s.ageWritable
  else if addr = R.JOB_DATA then some true
  else if (List.range 4).any fun k => addr == R.CK_FEED32 k then some true
  else none

/-- The anchor's words as they stand once a word has been written at an index (R321). -/
def State.anchorAfter (s : State) (w : Word) : List Nat :=
  let i := s.fld F.IDN_IDX_INDEX
  (List.range 24).map fun k => if i % 24 = k then w.toNat else (spGet (fun _ => 0) s.b.idn.anchors (i / 24 * 24 + k)).toNat

/-- Write a word to a window data register. -/
def windowWrite (addr : Nat) (w : Word) : Act := .dyn fun s =>
  .seq (bistPage (addr / 0x1000))
    (if addr = R.LAT_DATA then latDataWrite w
    else if addr = R.TRK_DATA then trkDataWrite w
    else if addr = R.IDN_DATA then idnWrite w (Config.onCurve (s.anchorAfter w))
    else if addr = R.AGE_DATA then ageDataWrite w
    else if addr = R.JOB_DATA then jobDataWrite w
    else ckFeedWord (addr / 0x1000 - 0xC8) w)

/-! ### Data moved (R103, R113, R118, R121) -/

/-- The bus address of byte `o` of a host buffer that is linear, or circular of 2ⁿ bytes (R103). -/
def hostAddr (wrap base o : Nat) : Nat := if wrap = 0 then base + o else circAddr wrap base o

/-- Bytes from `o` on that lie in one run of bus addresses (R103). -/
def hostRun (wrap base o n : Nat) : Nat := if wrap = 0 then n else min n (2 ^ wrap - (base + o) % 2 ^ wrap)

/-- Bytes to a host buffer, in runs (R103). -/
def hostWrites (wrap base : Nat) : Nat → Nat → List Nat → Act
  | 0, _, _ => .nop
  | fuel + 1, o, data =>
    let n := hostRun wrap base o data.length
    if data.isEmpty then .nop
    else .seq (.emit (.host (hostAddr wrap base o) (data.take n))) (hostWrites wrap base fuel (o + n) (data.drop n))

/-- The reads that brought `n` bytes of a source buffer, in runs (R103). -/
def hostReads (wrap base : Nat) : Nat → Nat → Nat → Act
  | 0, _, _ => .nop
  | fuel + 1, o, n =>
    let k := hostRun wrap base o n
    if n = 0 then .nop
    else .seq (.emit (.hostRead (hostAddr wrap base o) k)) (hostReads wrap base fuel (o + k) (n - k))

/-- Bytes of a descriptor are confirmed by its channel (R113, R121, R124, R241). -/
def confirm (ch : Nat) (f : InFlight) (n : Nat) : Act := .dyn fun s =>
  let total := s.rd64 (R.DMA_CH_BYTES_LO ch) (R.DMA_CH_BYTES_HI ch) + n
  let done := (match s.flight f.ring f.dindex with | some g => g.confirmed | none => 0) + n
  acts [setFlight f.ring f.dindex fun g => { g with confirmed := g.confirmed + n }, bookOut .creditDma n,
    setR (R.DMA_CH_DONE ch) done, setR64 (R.DMA_CH_BYTES_LO ch) (R.DMA_CH_BYTES_HI ch) total,
    on (f.desc.op.toNat % 16 == 1) (setBin f.desc.bin.toNat fun x =>
      if x.gen = f.gen then
        { x with
          pieces := x.pieces.map fun p =>
            if p.off = f.desc.dst.toNat ∧ !p.ended then { p with confirmed := p.confirmed + n } else p
          rate := match x.rate with | r :: rs => (r + n) :: rs | [] => [n] }
      else x)]

/-- A stripe piece ends (R118, R119): the rest of one that ended early is missing, and the image has no LAST yet. -/
def endPiece (f : InFlight) (early : Bool) : Act :=
  on (f.desc.op.toNat % 16 == 1) (setBin f.desc.bin.toNat fun x =>
    if x.gen = f.gen then
      { x with pieces := x.pieces.map fun p =>
          if p.off = f.desc.dst.toNat ∧ !p.ended then { p with ended := true, last := p.last && !early } else p }
    else x)

/-- End a channel's descriptor with a status. -/
def endFlight (f : InFlight) (status : Nat) : Act :=
  .seq (endPiece f (status != 0)) (endDesc f.ring f.dindex status)

/-- The confirming read of a descriptor fails (R114): it ends READBACK, and its stripe is refused. -/
def readbackFails (f : InFlight) : Act := .dyn fun s =>
  .seq (endFlight f 3) (on (f.desc.op.toNat % 16 == 1 && (s.flightBin f).isSome) (refuseStripe f.desc.bin.toNat 8))

/-- Bytes of an image that lie within it: none past its end are stored. -/
def Bin.within (x : Bin) (o n : Nat) : Nat := match x.hdr with | some h => min n (h.imageLen - o) | none => n

/-- Stripe bytes reach the cellar, their last line is read back, and they are confirmed (R113, R116, R341). -/
def putStripe (ch : Nat) (f : InFlight) (x : Bin) (faults : List LineFault) (o : Nat) (all : List Byte) : Act :=
  let data := all.take (x.within o all.length)
  on (!data.isEmpty) (.seq (storeImage 1 faults x (data.length + 1) o data) (.dyn fun s =>
    let la := lineAddr (s.imageAddr x (o + data.length - 1))
    .seq (lineNote 2 faults la)
      (if (s.readLine faults la).ok then confirm ch f data.length else readbackFails f)))

/-- Move bytes of a stripe piece, from where it stands (R118): a bin's first piece passes its header to the audit first, and
stops at the spill stream while the reservation waits. -/
def moveStripe (ch : Nat) (f : InFlight) (data : List Byte) (faults : List LineFault) : Act := .dyn fun s =>
  match s.flightBin f with
  | none => .nop
  | some x =>
    let o := f.desc.dst.toNat + f.confirmed
    let head := if x.hdr.isNone && decide (o < 512) then 512 - o else 0
    let rest := data.drop head
    acts [hostReads f.desc.wrap.toNat f.desc.src.toNat (data.length + 1) f.confirmed data.length,
      on (decide (0 < head)) (.seq (putStripe ch f x faults o (data.take head)) (audit x.num faults)),
      .dyn fun t => match t.flightBin f with
        | none => .nop
        | some y =>
          let o' := o + min head data.length
          let stop := match y.hdr with | some h => if t.granted y then rest.length else h.spillOff - o' | none => 0
          acts [on (!rest.isEmpty) (.seq (putStripe ch f y faults o' (rest.take stop)) (audit y.num faults)),
            on (decide (stop < rest.length)) (setChan ch fun c => { c with poolWait := true })]]

/-- Stripe bytes are stored whose confirming read fails (R113, R114): nothing of them is confirmed. With `spoilt` their last beat is
poison, for an error in the staging buffer (R347). -/
def storeUnconfirmed (f : InFlight) (data : List Byte) (faults : List LineFault) (spoilt : Bool) : Act := .dyn fun s =>
  match s.flightBin f with
  | none => .nop
  | some x =>
    let o := f.desc.dst.toNat + f.confirmed
    let stop := match x.hdr with
      | some h => if s.granted x then x.within o data.length else min data.length (h.spillOff - o)
      | none => min data.length (512 - o)
    let put := data.take stop
    acts [hostReads f.desc.wrap.toNat f.desc.src.toNat (data.length + 1) f.confirmed data.length,
      storeImage 1 faults x (put.length + 1) o put,
      on (spoilt && !put.isEmpty)
        (let la := lineAddr (s.imageAddr x (o + put.length - 1))
        .seq (lineFresh [la]) (onCel fun c => { c with poison := la :: c.poison.filter fun a => a != la }))]

/-- Table words reach their window data register (R109, R113). -/
def moveTable (f : InFlight) (data : List Byte) : Act :=
  let words := (List.range (data.length / 4)).map fun i => BitVec.ofNat 32 (leAt (data.map BitVec.toNat) (4 * i) 4)
  .seq (hostReads f.desc.wrap.toNat f.desc.src.toNat (data.length + 1) f.confirmed (4 * words.length))
    (each words (windowWrite f.desc.dst.toNat))

/-- Cellar bytes reach the host (R99, R103, R112): a line that does not read gives all ones. -/
def moveRead (f : InFlight) (n : Nat) (faults : List LineFault) : Act := .dyn fun s =>
  let a := f.desc.src.toNat + f.confirmed
  let bytes := (List.range n).map fun i => (s.readByte faults (a + i)).getD 0xFF
  let known := (linesOf a n).filter fun la => decide (la < s.fld F.CEL_CAPACITY_MIB * 2 ^ 20)
  .seq (each known (lineNote 1 faults)) (hostWrites f.desc.wrap.toNat f.desc.dst.toNat (n + 1) f.confirmed bytes)

/-- The bytes of a descriptor that are left to move. -/
def InFlight.left (f : InFlight) : Nat := f.desc.len.toNat - f.confirmed

/-- Move bytes of a descriptor, and confirm them: those supplied, or for READ as many as the cellar gives. -/
def moveBytes (ch : Nat) (f : InFlight) (data : List Byte) (faults : List LineFault) : Act :=
  match f.desc.op.toNat % 16 with
  | 1 => moveStripe ch f (data.take f.left) faults
  | 2 => .seq (moveTable f (data.take f.left)) (confirm ch f (min data.length f.left / 4 * 4))
  | 3 => .seq (moveRead f (min data.length f.left) faults) (confirm ch f (min data.length f.left))
  | _ => .nop

/-- Bytes of a descriptor move whose confirming read fails (R113, R114, R347): an error in the staging buffer makes the last beat of
stripe data poison, and a table word that it holds is not written. -/
def moveUnconfirmed (f : InFlight) (data : List Byte) (faults : List LineFault) (sram : Bool) : Act :=
  match f.desc.op.toNat % 16 with
  | 1 => storeUnconfirmed f (data.take f.left) faults sram
  | 2 => moveTable f (if sram then (data.take f.left).take (data.length - 4) else data.take f.left)
  | 3 => moveRead f (min data.length f.left) faults
  | _ => .nop

/-- A descriptor ends before all its bytes were confirmed: the audit looks again at a stripe (R118). -/
def endEarly (f : InFlight) (status : Nat) : Act :=
  .seq (endFlight f status) (on (f.desc.op.toNat % 16 == 1) (audit f.desc.bin.toNat []))

/-! ### Taking a descriptor (R109, R110, R112, R118) -/

/-- A descriptor that ends DESC (R112). -/
def State.descBad (s : State) (d : Desc) : Bool :=
  let op := d.op.toNat % 16
  let wrap := d.wrap.toNat
  if op = 4 then false
  else op = 0 || decide (4 < op) || d.len.toNat == 0 || d.len.toNat % 4 != 0 || d.src.toNat % 4 != 0 || d.dst.toNat % 4 != 0 ||
    (decide (1 ≤ wrap) && decide (wrap ≤ 11)) || decide (36 < wrap) || (op == 2 && (s.windowOpen d.dst.toNat).isNone)

/-- A STRIPE_DATA descriptor that its bin does not accept (R118). -/
def State.binRefuses (s : State) (ring : Nat) (d : Desc) : Bool :=
  let n := d.bin.toNat
  decide (s.fld F.CEL_BIN_CFG_NBINS ≤ n) ||
    if d.dst.toNat = 0 then (s.bin n).isSome || (s.entryOf n).isNone || decide (d.len.toNat < 512)
    else match s.bin n with
      | some x => x.state != .filling || (x.sring.isSome && x.sring != some ring)
      | none => true

/-- Two pieces overlap (R118): of an ended one only the confirmed bytes count. -/
def Piece.meets (p : Piece) (off len : Nat) : Bool :=
  let n := if p.ended then p.confirmed else p.len
  decide (p.off < off + len) && decide (off < p.off + n)

/-- A piece is accepted for its bin (R117 to R119). -/
def acceptPiece (ring dindex : Nat) (d : Desc) : Act := .dyn fun s =>
  let n := d.bin.toNat
  let off := d.dst.toNat
  let len := d.len.toNat
  let last := d.flags.toNat.testBit 1
  let piece : Piece := ⟨off, len, 0, false, last⟩
  match s.bin n, s.entryOf n with
  | some x, _ =>
    let beyond := match x.hdr with | some h => piece.overruns h.imageLen | none => false
    .seq (setFlight ring dindex fun f => { f with gen := x.gen })
      (setBin n fun y => { y with
        sring := some ring, pieces := y.pieces ++ [piece], overrun := y.overrun || beyond || y.pieces.any fun p => p.meets off len })
  | none, some e =>
    acts [onCel fun c => { c with
        bins := c.bins ++ [{ num := n, state := .filling, stripe := e.stripe, sring := some ring, gen := c.fillings + 1, pieces := [piece] }]
        fillings := c.fillings + 1 },
      setFlight ring dindex fun f => { f with gen := s.b.cel.fillings + 1 }]
  | none, none => .nop

/-- What becomes of a descriptor once it is taken (R109, R110, R112, R118). -/
def placeDesc (ring dindex : Nat) (d : Desc) (ch : Nat) : Act := .dyn fun s =>
  let op := d.op.toNat % 16
  if s.descBad d then endDesc ring dindex 1
  else if op = 4 then .nop
  else if op = 1 then
    if s.dev = .fault then endDesc ring dindex 8
    else if s.binRefuses ring d then endDesc ring dindex 4
    else .seq (acceptPiece ring dindex d) (.dyn fun t => match t.flight ring dindex with
      | some f => on (f.ended.isNone && decide (d.dst.toNat = 0)) (startChannel ch ring dindex)
      | none => .nop)
  else startChannel ch ring dindex

/-- A ring's next descriptor may be taken (R110, R118, R120, R394, R423). -/
def State.mayTake (s : State) (ring : Nat) : Bool :=
  (s.inJob || s.dev == .ready || s.dev == .fault) && !s.flag F.PWR_STAT_ENTERING && s.powered 3 && s.pageWorks 9 && s.pageWorks 0xA &&
    s.flag (F.RNG_CFG_EN ring) && !s.ringStalled ring && !s.cqFull (s.fld (F.RNG_CFG_LINK ring)) &&
    !(s.b.cel.bins.any fun x => x.sring == some ring && s.b.cel.waits.contains x.num) &&
    decide ((s.b.dma.inflight.filter fun f => f.ring == ring).length < s.ringUsed ring)

/-- Take the next descriptor of a ring (R110, R121). A FENCE moves no data (R109). -/
def takeDesc (ring : Nat) (d : Desc) : Act := .dyn fun s =>
  match s.mayTake ring, s.idleChannel ring with
  | true, some ch =>
    let dindex := (s.ci ring + (s.b.dma.inflight.filter fun f => f.ring == ring).length) % 2 ^ 32
    let d' : Desc := if d.op.toNat % 16 = 4 then { d with len := 0 } else d
    acts [bistPage 9, bistPage 0xA,
      onDma fun b => { b with inflight := b.inflight ++ [⟨ring, dindex, d', 0, 0, none, false⟩] },
      bookIn .creditDma d'.len.toNat, placeDesc ring dindex d' ch, dmaSettle]
  | _, _ => .nop

/-- The fields of a submission descriptor (R109), from its 32 bytes as one number, the byte at offset 0 lowest. -/
def parseDesc (e : BitVec 256) : Desc where
  src := e.extractLsb' 0x00 64
  dst := e.extractLsb' 0x40 64
  len := e.extractLsb' 0x80 32
  progress := e.extractLsb' 0xA0 32
  tag := e.extractLsb' 0xC0 16
  op := e.extractLsb' 0xD0 8
  flags := e.extractLsb' 0xD8 8
  bin := e.extractLsb' 0xE0 16
  wrap := e.extractLsb' 0xF0 8

/-- DESCRIPTOR_TAKE (R109, R110). -/
def execDescriptorTake (ring : Fin 64) (entry : BitVec 256) (s : State) : Host.Outcome State Fault Refusal :=
  perform (takeDesc ring (parseDesc entry)) s

/-- FENCE_DONE (R109): every earlier descriptor of the ring has completed. -/
def execFenceDone (ring : Fin 64) (s : State) : Host.Outcome State Fault Refusal :=
  perform (.dyn fun s => match s.b.dma.inflight.find? fun f => f.ring == ring.val with
    | some f => on (f.desc.op.toNat % 16 == 4 && f.ended.isNone) (.seq (endDesc ring f.dindex 0) flushRings)
    | none => .nop) s

/-! ### A transfer ends (R112, R113, R118, R119) -/

/-- Whether a piece waits for the audit before it completes (R118): it carries LAST, or completes the coverage, or reaches beyond the
image. -/
def State.waitsAudit (s : State) (f : InFlight) : Bool :=
  match s.flightBin f with
  | some x => f.desc.flags.toNat.testBit 1 || match x.hdr with
      | some h => decide (h.imageLen ≤ x.confirmed) || decide (h.imageLen < f.desc.dst.toNat + f.desc.len.toNat)
      | none => false
  | none => false

/-- All bytes of a stripe piece are confirmed (R118): it completes at once, or once the audit has finished. -/
def pieceDone (ch : Nat) (f : InFlight) (faults : List LineFault) : Act := .dyn fun s =>
  if s.waitsAudit f then
    acts [endPiece f false, setFlight f.ring f.dindex fun g => { g with awaits := true },
      onDma fun d => { d with chans := d.chans.filter fun c => c.ch != ch }, audit f.desc.bin.toNat faults]
  else .seq (endFlight f 0) (audit f.desc.bin.toNat faults)

/-- A descriptor's work is over as far as its channel goes, with the status that its operation gives. -/
def finish (ch : Nat) (f : InFlight) (faults : List LineFault) : Act := .dyn fun s =>
  match s.flight f.ring f.dindex with
  | some g =>
    if g.ended.isSome then .nop
    else match f.desc.op.toNat % 16 with
      | 1 => match s.flightBin f with
        | some x => on (decide (x.within f.desc.dst.toNat f.desc.len.toNat ≤ g.confirmed)) (pieceDone ch f faults)
        | none => endFlight f 5
      | 3 =>
        let bad := (linesOf f.desc.src.toNat f.desc.len.toNat).any fun la => !(s.readLine faults la).ok
        endFlight f (if bad then 6 else 0)
      | _ => endFlight f 0
  | none => .nop

/-- Stripe data stops in FAULT, where it stands (R112). -/
def stopInFault (c : Chan) (f : InFlight) (data : List Byte) (faults : List LineFault) : Act :=
  .seq (on (!c.poolWait) (moveBytes c.ch f data faults)) (endFlight f 8)

/-- A channel's transfer ends (R112, R113, R118). -/
def transferEnd (ch : Nat) (data : List Byte) (res : XferEnd) (faults : List LineFault) : Act := .dyn fun s =>
  match s.chan ch with
  | some c => match s.flight c.ring c.dindex with
    | some f =>
      let op := f.desc.op.toNat % 16
      let whole := op == 3 || decide (f.left ≤ data.length)
      let closed := op == 2 && s.windowOpen f.desc.dst.toNat != some true
      let all := List.replicate f.left (0 : Byte)
      if c.parked then .nop
      else if op = 1 ∧ s.dev = .fault then stopInFault c f data faults
      else if c.poolWait then .nop
      else if closed then endFlight f 8
      else match res with
        | .ok => on whole (.seq (moveBytes ch f (if op = 3 then all else data) faults) (finish ch f faults))
        | .busErr => .seq (moveBytes ch f data faults) (endEarly f 2)
        | .readback => .seq (moveUnconfirmed f data faults false) (readbackFails f)
        | .sramUe => acts [sramErrorAt 4 true, moveUnconfirmed f data faults true, readbackFails f]
    | none => .nop
  | none => .nop

/-- TRANSFER_DONE (R113). -/
def execTransferDone (ch : Fin 32) (data : List Byte) (res : XferEnd) (faults : List LineFault) (s : State) :
    Host.Outcome State Fault Refusal := perform (.seq (transferEnd ch data res faults) dmaSettle) s

/-- HIF_CPL_TIMEOUT (R112, R435): a read of the host gets no completion, and its descriptor ends BUS_ERR. -/
def execHifCplTimeout (ch : Fin 32) (data : List Byte) (s : State) : Host.Outcome State Fault Refusal :=
  perform (.dyn fun s =>
    let reads := match s.chan ch with
      | some c => match s.flight c.ring c.dindex with | some f => f.desc.op.toNat % 16 != 3 | none => false
      | none => false
    on reads (.seq (transferEnd ch data .busErr []) dmaSettle)) s

/-- RESERVATION_GRANT (R118, R120): the oldest waiting reservation is granted once the pool covers it. -/
def execReservationGrant (s : State) : Host.Outcome State Fault Refusal :=
  perform (.dyn fun s => match s.b.cel.waits with
    | n :: _ => match s.bin n with
      | some x => match x.hdr with
        | some h => on (decide (h.units ≤ s.poolFree)) (acts [grantUnits n, audit n [], dmaSettle])
        | none => .nop
      | none => .nop
    | [] => .nop) s

/-! ### Parking (R115, R392) -/

/-- The bytes that a stopped channel had moved. -/
def movedBy (moved : Moved) (ch : Nat) : List Byte :=
  match moved.find? fun e => e.1.val == ch with | some e => e.2 | none => []

/-- A descriptor's transfer has its source or target in one of these domains (R115). -/
def touches (doms : Nat) (f : InFlight) : Bool :=
  let op := f.desc.op.toNat % 16
  let dst := f.desc.dst.toNat
  doms.testBit 3 || doms.testBit 7 || (doms.testBit 2 && op != 2) || (doms.testBit 1 && op == 2 && dst == R.LAT_DATA) ||
    (doms.testBit 5 && op == 2 && dst == R.TRK_DATA)

/-- Park a channel (R115): the bytes written are confirmed, and PROGRESS goes to the descriptor. -/
def parkChannel (moved : Moved) (c : Chan) : Act := .dyn fun s =>
  match s.flight c.ring c.dindex with
  | some f =>
    acts [on (!c.poolWait) (moveBytes c.ch f (movedBy moved c.ch) []), .dyn fun t =>
      match t.flight c.ring c.dindex with
      | some g =>
        on g.ended.isNone (acts [.emit (.progress c.ring c.dindex (t.entryAddr c.ring c.dindex + 0x14) g.confirmed), setR (R.DMA_CH_DONE c.ch) g.confirmed,
          setChan c.ch fun x => { x with parked := true, preempted := false }, addR R.PWR_PARK_CNT 1, raise E.DMA_PARKED])
      | none => .nop]
  | none => .nop

/-- Park every transfer that the domains source or receive. -/
def parkDomains (doms : Nat) (moved : Moved) : Act := .dyn fun s =>
  .seq (each (s.b.dma.chans.filter fun c => !c.parked && match s.flight c.ring c.dindex with
    | some f => touches doms f | none => false) (parkChannel moved)) resumePreempted

/-- Parked channels resume once every domain that they need is powered (R115). -/
def resumeParked : Act := .dyn fun s =>
  let down := 255 - s.fld F.PWR_STAT_ON
  .seq (each (s.b.dma.chans.filter fun c => c.parked && match s.flight c.ring c.dindex with
      | some f => !touches down f | none => true)
    fun c => acts [setChan c.ch fun x => { x with parked := false }, preemptBy c.ch, raise E.DMA_RESUMED]) dmaSettle

/-! ### Ring and link resets (R100, R119, R125) -/

/-- A descriptor of a reset ring ends ABORTED, with what it had confirmed (R119). -/
def abortFlight (moved : Moved) (ring dindex : Nat) : Act := .dyn fun s =>
  match s.flight ring dindex with
  | some f =>
    if f.ended.isSome then .nop
    else
      .seq (match s.b.dma.chans.find? fun c => c.ring == ring && c.dindex == dindex with
        | some c => on (c.moving && f.desc.op.toNat % 16 != 3) (moveBytes c.ch f (movedBy moved c.ch) [])
        | none => .nop)
      (endEarly f 7)
  | none => .nop

/-- The completion of a descriptor that a ring reset ended: written, or owed while its completion ring has no room. -/
def resetCompletion (cq : Nat) (bytes : List Nat) (irq : Bool) : Act := .dyn fun s =>
  if s.cqRoom cq then writeCompletion cq bytes irq
  else .seq (onDma fun d => { d with owed := d.owed ++ [(cq, bytes, irq)] }) (raise E.DMA_CQ_STALL)

/-- The completions of the descriptors that a ring had taken go out, now that all of them have ended. -/
def abortTaken (ring : Nat) : Act := .dyn fun s =>
  each (s.b.dma.inflight.filter fun f => f.ring == ring) fun f =>
    on (f.desc.flags.toNat.testBit 0 || f.ended != some 0)
      (resetCompletion (s.fld (F.RNG_CFG_LINK ring)) (completionEntry f.desc.tag.toNat (f.ended.getD 7) ring f.confirmed f.dindex)
        (f.desc.flags.toNat.testBit 2))

/-- Every descriptor of a submission ring that is still queued ends ABORTED (R125). The TAG of one that had not been fetched
is not known to the device's rules. -/
def abortQueued (ring : Nat) : Act := .dyn fun s =>
  let cq := s.fld (F.RNG_CFG_LINK ring)
  let mine := s.b.dma.inflight.filter fun f => f.ring == ring
  let more := s.ringUsed ring - mine.length
  acts [abortTaken ring,
    each (List.range more) fun i => .dyn fun t =>
      acts [.draw, raise E.DMA_DESC_ERR,
        resetCompletion cq (completionEntry (Config.unstated 5 t.fresh) 7 ring 0 ((s.ci ring + mine.length + i) % 2 ^ 32)) false],
    onDma fun d => { d with inflight := d.inflight.filter fun f => f.ring != ring, stalled := d.stalled.filter fun r => r != ring }]

/-- RESET of RNG_CFG (R119, R122, R125). -/
def ringReset (ring : Nat) (moved : Moved) : Act := .dyn fun s =>
  acts [each (s.b.dma.inflight.filter fun f => f.ring == ring) fun f => abortFlight moved ring f.dindex,
    on (decide (ring < 64)) (abortQueued ring),
    .dyn fun t => bookOut .ring (t.ringUsed ring),
    .index (2 * ring) 0, .index (2 * ring + 1) 0,
    onCel fun c => { c with bins := c.bins.map fun x => if x.sring = some ring then { x with sring := none } else x },
    dmaSettle]

/-- RING_RESET (R125). -/
def execRingReset (ring : Fin 128) (moved : Moved) (s : State) : Host.Outcome State Fault Refusal :=
  perform (toPage 0xA (ringReset ring moved)) s

/-- The HIF, DMA and RNG pages, with the page index that the last rings take (R125). -/
def linkPage (addr : Nat) : Bool := [0x008, 0x009, 0x00A, 0x00B].contains (addr / 0x1000)

/-- LINK_RESET (R100, R405, R409, R435): every transfer ends ABORTED, with its completion where its ring has room, and the link and
the HIF, DMA and RNG pages are reset, their headers too; bins keep what was confirmed. -/
def linkReset (moved : Moved) : Act := .dyn fun s =>
  acts [each s.b.dma.inflight fun f => abortFlight moved f.ring f.dindex,
    each s.busyRings abortTaken,
    onDma fun _ => {},
    onCel fun c => { c with bins := c.bins.map fun x => { x with sring := none } },
    .book .creditDma .clear, .book .ring .clear,
    each (List.range 256) fun k => .index k 0,
    .clear fun a => a == R.HIF_RESET_CNT || !linkPage a,
    .evt fun e => { e with
      pba := [], raw := e.raw.filter fun r => !linkPage (r.1 * 0x1000), en := e.en.filter fun r => !linkPage (r.1 * 0x1000) },
    addR R.HIF_RESET_CNT 1, .emit (.link 0), raise E.HIF_LINK_RESET]

/-- LINK_RESET (R100): the device state does not change. -/
def execLinkReset (moved : Moved) (s : State) : Host.Outcome State Fault Refusal :=
  perform (.dyn fun s => on (s.dev != .off) (linkReset moved)) s

/-! ### BAR2 (R99, R341, R396) and DROP (R119) -/

/-- The cellar address of a BAR2 offset (R99, R126). -/
def State.apertureAddr (s : State) (off : Nat) : Nat := s.fld F.CEL_APERTURE_BASE * 2 ^ 28 + off

/-- A run of the cellar lies within its capacity, and its controllers work. -/
def State.cellarHas (s : State) (a n : Nat) : Bool :=
  s.memUp && decide (a + n ≤ s.fld F.CEL_CAPACITY_MIB * 2 ^ 20)

/-- BAR2_READ (R99, R341). -/
def execBar2Read (off : BitVec 28) (len : Fin 65) (faults : List LineFault) (s : State) : Host.Outcome State Fault Refusal :=
  perform (.dyn fun s =>
    let a := s.apertureAddr off.toNat
    let bytes := (List.range len).map fun i => s.readByte faults (a + i)
    let ones : Act := .emit (.completion (List.replicate len 0xFF) true)
    if s.dev = .off then .nop
    else if s.dev = .dormant then acts [linkToL0, .emit .unsupported, setB F.PWR_STAT_DORM_ACCESS true]
    else if !s.cellarHas a len then ones
    else .seq (each (linesOf a len) (lineNote 0 faults))
      (if bytes.all fun b => b.isSome then .emit (.completion (bytes.map fun b => b.getD 0) false) else ones)) s

/-- BAR2_WRITE (R99, R424). -/
def execBar2Write (off : BitVec 28) (x : CellarWrite) (s : State) : Host.Outcome State Fault Refusal :=
  perform (.dyn fun s =>
    let a := s.apertureAddr off.toNat
    if s.dev = .off then .nop
    else if s.dev = .dormant then .seq linkToL0 (setB F.PWR_STAT_DORM_ACCESS true)
    else if s.dev = .ready then on (s.cellarHas a x.data.length) (storeRun 0 x.faults a x.data)
    else .seq (err R.CEL_APERTURE Err.locked) (raise E.CEL_BAR2_DROP)) s

/-- DROP of CEL_BIN_CMD (R119, R126). -/
def dropCmd : Act := .dyn fun s =>
  match s.bin (s.fld F.CEL_BIN_SEL_BIN) with
  | some x => if x.state = .filling then .seq (refuseStripe x.num 9) dmaSettle else err R.CEL_BIN_CMD Err.refused
  | none => err R.CEL_BIN_CMD Err.refused

/-- DROP (R119). -/
def execDrop (s : State) : Host.Outcome State Fault Refusal := perform (toPage 0x15 dropCmd) s

end Sys2Proof.Machine
end

