-- ==== Sys2Proof/Machine/PairMsg.lean ====
section
/-! DEFINITION. The pair link's messages as they arrive (R262 to R289, R462), the heartbeats, the loss of a mate (R281 to R283),
and the RECLAIM swap (R289). -/

namespace Sys2Proof.Machine

/-! ### Damaged messages (R266) -/

/-- The pair link is at work on this device. -/
def State.pairHears (s : State) : Bool := s.dev != .off && s.dev != .reset && s.dev != .dormant && s.powered 4

/-- A message is discarded: its CRC fails, a MSG block cuts it short, or it comes late (R266, R462). -/
def discardMessage : Act := .seq (addR R.PAR_MSG_ERR 1) (raise E.PAR_MSG_ERR)

/-- Take a message that came whole; discard another (R266). A message that has interrupted a CKPT or XFER is an ordinary command
that comes before the one it interrupted. -/
def whole (intact : Bool) (a : Act) : Act := if intact then a else .dyn fun s => on s.pairHears discardMessage

/-! ### Heartbeats (R265, R267, R270) -/

/-- PCRC of a setpoint payload (R245). -/
def spPcrc (b : List Nat) : Nat := leAt b 0x5C 4

/-- The setpoint that HB reports (R270): the last one launched, or computed by a STANDBY. -/
def State.reported (s : State) : Option Setpoint :=
  if s.role = .standby then s.b.mot.sps.head? else s.b.mot.sps.find? fun x => x.seq == s.rd R.MOT_SP_SEQ

/-- The HB data on a lane (R270). -/
def hbData (s : State) (lane : Nat) : List Nat :=
  let rx := (s.rxLanes.map fun l => 2 ^ l).sum
  let sp := match s.reported with | some x => leBytes 4 x.seq ++ leBytes 4 (spPcrc x.bytes) | none => List.replicate 8 0
  hbHead s ++ [lane, rx] ++ sp ++ leBytes 4 (ofSigned 32 s.b.pos.yc)

/-- HB_SEND (R267, R270): one HB on every lane, naming the newest sample. -/
def execHbSend (s : State) : Host.Outcome State Fault Refusal :=
  perform (.dyn fun s => on (s.pairLive && s.pairHears && s.pageWorks 0xA8)
    (each (List.range 8) fun l => .dyn fun t => pairEmit l 1 0 ((t.b.pos.n - 1) % 2 ^ 32) (hbData t l))) s

/-- A mismatch with the mate is found (R285): both devices stop at stripe end and become SPLIT. -/
def mismatchFound (cause : Nat) (e : Evt) : Act := .dyn fun s =>
  acts [onPar fun p => { p with mismatch := true }, raise e, splitOn s.b.sht.first cause,
    if s.dev = .ready then leavePair .split
    else .seq passStopEnd stopAtEnd]

/-- The sample that an HB names, as this device measured it. -/
def State.ycAt (s : State) (word : Nat) : Option Int :=
  (s.b.pos.hist.find? fun e => e.1 % 2 ^ 32 == word).map fun e => e.2.1

/-- The comparisons of an HB (R285, R287): in step 4 of joining the joiner sets its origins at the first sample that both have
measured, and the positions are checked; a STANDBY compares setpoint and position. -/
def hbCompare (word : Nat) (b : List Nat) : Act := .dyn fun s =>
  let same := match s.ycAt word with | some y => some (ofSigned 32 y == leAt b 12 4) | none => none
  let sp := match s.b.mot.sps.find? fun x => x.seq == leAt b 4 4 with
    | some x => spPcrc x.bytes == leAt b 8 4
    | none => true
  if s.b.par.hbWord = some word then .nop
  else
    .seq (match s.ycAt word with
      | some y => on (s.b.par.joinStep == 4 && s.b.par.joiner && !s.b.par.aligned) (alignOrigin (toSigned 32 (leAt b 12 4) - toSigned 32 (ofSigned 32 y)))
      | none => .nop) <|
    .seq (onPar fun p =>
      { p with
        hbWord := some word
        hbChecks := match same with | some true => p.hbChecks + 1 | some false => 0 | none => p.hbChecks })
      (if s.role = .standby ∧ s.b.par.mate ≠ .lost ∧ s.b.par.mismatch = false then
        (if !sp then mismatchFound 2 E.PAR_SP_MISMATCH
         else if same = some false then mismatchFound 3 E.PAR_POS_MISMATCH else .nop)
       else .nop)

/-- The mate asks to be joined (R287): a device that accepts it becomes the mate of the procedure. -/
def acceptJoiner : Act := .dyn fun s =>
  let accepts := (s.role == .solo && s.flag F.PAR_CFG_ACCEPT) || (s.role == .active && s.b.par.mate == .lost)
  on (s.b.par.mateRole == 3 && s.b.par.joinStep == 0 && accepts && (s.session s.mateId).isSome)
    (.seq (onPar fun p => { p with isJoin := true, joiner := false, mateDigest := none }) (beginStep 2))

/-- The mate's lanes and state from an HB (R265, R270, R281). -/
def hbNote (word : Nat) (b : List Nat) : Act := .dyn fun s =>
  let lane := b.getD 2 0 % 8
  let live := s.b.par.rxLock.contains lane
  acts [noteMate (b.getD 0 0) (b.getD 1 0),
    onPar fun p =>
      { p with
        rxHb := if live then (lane, s.b.pos.pt) :: p.rxHb.filter fun e => e.1 != lane else p.rxHb
        txUp := b.getD 3 0, mateSeq := leAt b 4 4 },
    on (live && s.b.par.mate == .linkDown) (.seq (onPar fun p => { p with mate := .up }) (raise E.PAR_LINK_UP)),
    hbCompare word b, .dyn fun t => on (t.role == .active && t.b.par.mateRole == 4 && t.dev == .ready) (leavePair .split),
    acceptJoiner, joinAdvance]

/-- HB (R270, R281, R285, R287). -/
def execHb (word : Word) (x : Arrived (BitVec 128)) (s : State) : Host.Outcome State Fault Refusal :=
  perform (whole x.intact (.dyn fun s => on s.pairHears
    (.seq (bistPage 0xA8) (hbNote word.toNat (leBytes 16 x.data.toNat))))) s

/-- PAIR_LANE_BLOCK_LOCK (R265, R268, R459): a lane that loses lock in a job regains it only once both devices are in
READY. -/
def execPairLaneBlockLock (lane : Fin 8) (up : Bool) (s : State) : Host.Outcome State Fault Refusal :=
  perform (.dyn fun s =>
    let l := lane.val
    let p := s.b.par
    let drop := fun x : List Nat => x.filter fun y => y != l
    if up then
      if p.rxStuck.contains l && !s.bothReady then .nop
      else .seq (onPar fun q => { q with rxLock := l :: drop q.rxLock, rxStuck := drop q.rxStuck }) joinAdvance
    else on (p.rxLock.contains l) (onPar fun q =>
      { q with
        rxLock := drop q.rxLock
        rxStuck := if s.inJob then l :: drop q.rxStuck else q.rxStuck })) s

/-! ### Losing a mate (R281 to R283) -/

/-- t_app of a setpoint lies at least 100 µs ahead (R282). -/
def State.reachable (s : State) (x : Setpoint) : Bool :=
  decide (s.trajAt s.b.pos.pt + 100000 * 2 ^ 32 ≤ x.period * periodUnits)

/-- The frames that a new ACTIVE launches at once (R282): those after the mate's last SEQ; closer ones are counted. -/
def catchUp : Act := .dyn fun s =>
  let due := s.b.mot.sps.reverse.filter fun x =>
    let d := (x.seq + 2 ^ 32 - s.b.par.mateSeq) % 2 ^ 32
    decide (0 < d) && decide (d < 2 ^ 31)
  on (s.flag F.MOT_CFG_EN) (each due fun x => .dyn fun t =>
    if s.reachable x then
      sendFrame ⟨t.fld F.MOT_CFG_LTQ, t.timNs / 1000000000, t.timNs % 1000000000, none, 0x30, x.bytes⟩ false
    else addR R.MOT_SP_LATE 1)

/-- A STANDBY takes over (R282). -/
def takeover : Act := .dyn fun s =>
  on (s.role == .standby) (acts [changeRole .active, raise E.PAR_TAKEOVER, addR R.PAR_TAKEOVER_CNT 1, catchUp])

/-- The mate is LOST (R281, R282): the verdicts at hand settle without it. -/
def mateLost : Act := .dyn fun s =>
  on (s.paired && s.b.par.mate != .lost)
    (acts [onPar fun p => { p with mate := .lost }, raise E.PAR_MATE_LOST, takeover, settleAll])

/-- PT of the latest valid HB on any lane. -/
def State.lastHb (s : State) : Int := (s.b.par.rxHb.map fun e => e.2).foldl max 0

/-- HB_TIMEOUT (R281): HB_TIMEOUT after the latest valid HB on any lane, the mate is LINK_DOWN. -/
def execHbTimeout (s : State) : Host.Outcome State Fault Refusal :=
  perform (.seq (.dyn fun s => advanceTo (s.lastHb + s.hbTimeout)) (.dyn fun s =>
    on (s.b.par.mate == .up) (.seq (onPar fun p => { p with mate := .linkDown }) (raise E.PAR_LINK_DOWN)))) s

/-- NET_TIMEOUT in PT units (R281): 10 µs are 2,500 ticks. -/
def State.netTimeout (s : State) : Int := (s.fld F.PAR_HB_NET_TIMEOUT * 2500 * 65536 : Nat)

/-- NET_TIMEOUT (R281, R282): NET_TIMEOUT after the latest MATE heartbeat, a mate that is LINK_DOWN is LOST. -/
def execNetTimeout (s : State) : Host.Outcome State Fault Refusal :=
  perform (.dyn fun s => on (s.b.par.mate == .linkDown)
    (.seq (match s.b.par.netAt with | some t => advanceTo (t + s.netTimeout) | none => .nop) mateLost)) s

/-- The first shot from `k` on whose trigger has not occurred (R283). -/
def State.firstUntriggered (s : State) (k : Nat) : Nat :=
  k + ((List.range (s.b.sht.recs.length + 1)).find? fun i => !(s.shotRec (k + i)).triggered).getD 0

/-- A FAULT notice (R283): the mate is LOST, and its shots from the named one on are withheld here. -/
def faultNotice (shot seq : Nat) : Act := .dyn fun s =>
  let k := s.firstUntriggered (max shot s.b.sht.first)
  acts [onPar fun p => { p with mateSeq := seq, mateFault := true }, mateLost, withhold k 7 true]

/-! ### Late messages (R462) -/

/-- A stop that LATE_COMMAND brings, from the shot that the STOP message names (R280, R462). -/
def lateStop (shot : Nat) : Act := .dyn fun s => if s.dev = .armed then disarmNow else stopSafeFrom shot

/-- A message that names a period, a sample or a shot that has begun: discarded and reported, and both devices stop
(R462). -/
def lateMessage : Act := .dyn fun s =>
  acts [discardMessage, pairSend 7 s.firstUnsigned (stopData s 2), lateStop s.firstUnsigned]

/-- Act on a message that names a setpoint period, unless it has begun. -/
def forPeriod (w : Nat) (f : Nat → Act) : Act := .dyn fun s =>
  let k := fullIndex s.periodNow w
  if k ≤ s.periodNow then lateMessage else f k

/-- Act on a message that names a sample, unless it has been processed. -/
def forSample (w : Nat) (f : Nat → Act) : Act := .dyn fun s =>
  let j := fullIndex s.b.pos.n w
  if j < s.b.pos.n then lateMessage else f j

/-! ### One shot (R267, R268, R271 to R275) -/

/-- SIG (R266 to R268, R271): the copies from lane j and from lane j + 1 are kept apart; a damaged one from lane j gives way to
the other. -/
def execSig (shot : Word) (group copyLane : Fin 8) (sigs : Arrived (List (BitVec 64))) (s : State) :
    Host.Outcome State Fault Refusal :=
  performWf (sigs.data.length == 8) "SIG" (.dyn fun s =>
    let k := shot.toNat
    let j := group.val
    let own := copyLane == group
    let put := fun l : List (Nat × List Nat) => (j, sigs.data.map BitVec.toNat) :: l.filter fun e => e.1 != j
    .seq (whole sigs.intact .nop) (on (s.paired && s.run.isSome && decide (s.b.sht.first ≤ k))
      (.seq (putRec k fun x =>
        if sigs.intact then (if own then { x with mateSigs := put x.mateSigs } else { x with mateAlt := put x.mateAlt })
        else { x with sigBad := if own then j :: x.sigBad else x.sigBad }) (tryVote k)))) s

/-- VOTE (R272 to R275). -/
def execVote (shot : Word) (data : Arrived (BitVec 64)) (s : State) : Host.Outcome State Fault Refusal :=
  perform (whole data.intact (.dyn fun s =>
    let k := shot.toNat
    let v := data.data.toNat
    let x := s.shotRec k
    on (s.paired && s.run.isSome && decide (s.b.sht.first ≤ k) && v.testBit 8 == x.rexp)
      (acts [putRec k fun y => { y with mateVote := some v },
        on (v.testBit 1) (.seq (onPar fun p => { p with wdMate := true, dirty := true }) settleAll), tryVote k]))) s

/-! ### Speeds, commits, writes and commands (R212, R243, R263, R279, R280, R289) -/

/-- SPEED (R243). -/
def execSpeed (period : Word) (v : Arrived (BitVec 64)) (s : State) : Host.Outcome State Fault Refusal :=
  perform (whole v.intact (.dyn fun s => on s.paired (forPeriod period.toNat fun k =>
    onMot fun m => { m with mateSpeed := (k % 2 ^ 32, v.data.toNat) :: m.mateSpeed.take 63 }))) s

/-- MATE_COMMIT (R212): whatever made the sender commit, the cause here is the mate (R231). -/
def execMateCommit (sample : Word) (axes : BitVec 4) (cause : Arrived (Fin 4)) (s : State) :
    Host.Outcome State Fault Refusal :=
  perform (whole cause.intact (.dyn fun s => on s.paired (forSample sample.toNat fun j =>
    onPos fun p => { p with commits := p.commits ++ [(j, axes.toNat, 3)] }))) s

/-- A write that the mate has passed on (R263, R280): commands and MOT registers at a period, others before a sample, a stop at
stripe end at the end of the stripe it names. -/
def regwrIn (at' addr : Nat) (value : Word) : Act :=
  if addr = R.JOB_CMD ∧ value = 3 then stopEndAt at'
  else if addr / 0x1000 = 7 ∨ addr / 0x1000 = 0xB4 then
    forPeriod at' fun k => acts [on (addr == R.JOB_CMD && value == 1) (.seq enterJoiner noteArmRequest),
      onMot fun m => { m with writes := m.writes ++ [(k, addr, value)] }]
  else forSample at' fun j => onPos fun p => { p with writes := p.writes ++ [(j, addr, value)] }

/-- REGWR (R263, R280, R287). -/
def execRegwr (at' : Word) (addr : BitVec 20) (value : Arrived Word) (s : State) : Host.Outcome State Fault Refusal :=
  perform (whole value.intact (.dyn fun s => on (s.paired || s.role == .joining) (regwrIn at'.toNat addr.toNat value.data))) s

/-- STOP_MSG (R280, R283, R462): reason 1 is a FAULT notice, 2 LATE_COMMAND, any other a stop at a safe point. -/
def execStopMsg (shot : Word) (reason : Fin 8) (seq : Arrived Word) (s : State) : Host.Outcome State Fault Refusal :=
  perform (whole seq.intact (.dyn fun s => on s.paired (match reason.val with
    | 1 => faultNotice shot.toNat seq.data.toNat
    | 2 => lateStop shot.toNat
    | _ => if s.run.isSome ∧ shot.toNat < s.b.sht.first then lateMessage else stopSafeFrom shot.toNat))) s

/-- ROLE_MSG (R289): the new roles from a setpoint period on. -/
def execRoleMsg (period : Word) (mateActive : Arrived Bool) (s : State) : Host.Outcome State Fault Refusal :=
  perform (whole mateActive.intact (.dyn fun s => on s.paired (forPeriod period.toNat fun k =>
    onPar fun p => { p with roleAt := some (k, !mateActive.data) }))) s

/-- REENTRY (R279). -/
def execReentry (shot : Word) (period : Arrived Word) (s : State) : Host.Outcome State Fault Refusal :=
  perform (whole period.intact (.dyn fun s => on (s.paired && s.b.sht.rackN == some shot.toNat) (forPeriod period.data.toNat fun k =>
    onMot fun m => { m with reentryMate := some k }))) s

/-! ### Digests and what a joiner receives (R262, R264, R287, R288) -/

/-- DIGEST_MSG (R262, R287). -/
def execDigestMsg (digest : BitVec 64) (req : Arrived Word) (s : State) : Host.Outcome State Fault Refusal :=
  perform (whole req.intact (.dyn fun s => on s.pairLive (acts [onPar fun p => { p with mateDigest := some (digest.toNat, req.data.toNat) },
    setR R.PAR_MATE_DIGEST_LO (digest.toNat % 2 ^ 32), setR R.PAR_MATE_DIGEST_HI (digest.toNat / 2 ^ 32),
    compareDigests, joinAdvance]))) s

/-- SDIG (R264, R287). -/
def execSdig (stripe : Word) (digest : Arrived (BitVec 64)) (s : State) : Host.Outcome State Fault Refusal :=
  perform (whole digest.intact (.dyn fun s =>
    let d := digest.data.toNat
    on s.pairLive (.seq (match s.b.cel.bins.find? fun x => x.stripe == stripe.toNat && x.sdig.isSome with
      | some x => .seq (setBin x.num fun y => { y with mateSdig := some d }) (on s.paired (compareSdig x.num))
      | none => onCel fun c =>
          { c with earlySdig := (stripe.toNat, d) :: c.earlySdig.filter fun e => e.1 != stripe.toNat }) joinAdvance))) s

/-- CKPT (R287, R288): the joiner keeps each part, and loads the checkpoint once it is whole. -/
def execCkpt (offset : Word) (data : Arrived (List Byte)) (s : State) : Host.Outcome State Fault Refusal :=
  perform (whole data.intact (.dyn fun s =>
    let parts := (offset.toNat, data.data.map BitVec.toNat) :: s.b.par.ckpt.filter fun e => e.1 != offset.toNat
    let b := assembled parts (parts.length + 1) []
    on (s.role == .joining && s.b.par.joinStep == 3)
      (.seq (onPar fun p => { p with ckpt := parts })
        (match ckptLen b with
        | some n => on (decide (n ≤ b.length)) (if s.ckptFits b then loadCkpt b else joinFail 3)
        | none => .nop)))) s

/-- Store pulled image bytes that a bin takes at an offset; lines of a poisoned message become poison (R287, R341). -/
def pullBytes (n o : Nat) (data : List Byte) (poisoned : Bool) : Act := .dyn fun s =>
  match s.bin n with
  | some x =>
    let lines := ((List.range data.length).map fun i => lineAddr (s.imageAddr x (o + i))).dedup
    let total := match x.hdr with | some h => h.imageLen | none => 0
    acts [storeImage 5 [] x (data.length + 1) o data, on poisoned (onCel fun c => { c with poison := lines ++ c.poison }),
      on poisoned (each lines fun la => .dyn fun t => memRecord 2 5 la (t.lineRank la) 15 (lineChannel la)),
      bookIn .creditDma data.length, bookOut .creditDma data.length,
      setBin n fun y => { y with pieces := y.pieces ++ [⟨o, data.length, data.length, true, o + data.length == total⟩] },
      audit n []]
  | none => .nop

/-- XFER (R264, R287): part of a pulled image; its first part begins the filling of the bin that the queue's entry names. -/
def execXfer (stripe : Word) (offset : BitVec 40) (data : List Byte) (poisoned : Arrived Bool) (s : State) :
    Host.Outcome State Fault Refusal :=
  perform (whole poisoned.intact (.dyn fun s =>
    let o := offset.toNat
    on (s.role == .joining && s.b.par.joinStep == 5)
      (match s.b.job.queue.find? fun e => e.stripe == stripe.toNat with
      | some e =>
        let head := 256 - o
        .seq (on (s.bin e.bin).isNone (onCel fun c =>
            { c with
              bins := c.bins ++ [{ num := e.bin, state := .filling, stripe := e.stripe, sring := none, gen := c.fillings }]
              fillings := c.fillings + 1 }))
          (.seq (on (decide (0 < head)) (pullBytes e.bin o (data.take head) poisoned.data))
            (.seq (on (decide (head < data.length)) (pullBytes e.bin (o + head) (data.drop head) poisoned.data)) joinAdvance))
      | none => .nop))) s

/-! ### The RECLAIM swap (R289) -/

/-- Periods that the turnaround under way still takes, on the axis that takes longer (R248). -/
def State.turnLeft (s : State) : Nat :=
  let m := s.b.mot
  let axis := fun (g : Gen) (t : Option Rat) => g.left + match t with
    | some q => ((planMove s.limits (planEnd g.p g.segs) q).map fun x => x.periods).sum
    | none => 0
  max (axis m.y m.thenY) (axis m.x m.thenX)

/-- RECLAIM_SWAP (R289): the ACTIVE names a setpoint period within the turnaround, at least 1 ms ahead; the roles change at it. -/
def execReclaimSwap (s : State) : Host.Outcome State Fault Refusal :=
  perform (.dyn fun s =>
    let p := s.b.par
    let k := max s.periodAhead (s.b.mot.period + 20)
    on (s.role == .active && p.mate == .up && p.joined && s.flag F.PAR_CFG_COMEBACK && decide (1 ≤ p.cleanStripes) &&
        p.roleAt.isNone && s.dev == .writing && s.b.mot.phase == .turn && decide (k < s.b.mot.period + s.turnLeft))
      (acts [pairSend 10 (k % 2 ^ 32) [Role.standby.code, Role.active.code, 0, 0, 0, 0, 0, 0],
        onPar fun q => { q with roleAt := some (k, false), joined := false }])) s

end Sys2Proof.Machine
end

