-- ==== Sys2Proof/Machine/Blocks.lean ====
section
/-! DEFINITION. What spans blocks: the page controls (R423, R424), events as the host handles them (R427, R428, R431), fault
injection's arming (R417, R418), the ledger checker (R406, R407, R416), the OTP window (R438) and AER (R435). -/

namespace Sys2Proof.Machine

/-! ### Events (R427, R428, R431) -/

/-- A write of 1s to EVT_PEND (R427). -/
def pendClear (page : Nat) (w : Word) : Act := .dyn fun s =>
  .evt fun x => { x with raw := spPut (fun _ => 0) x.raw page (BitVec.ofNat 32 (s.evtRaw page) &&& ~~~w) }

/-- EVT_PEND_CLEAR (R427). -/
def execEvtPendClear (page : BitVec 8) (w : Word) (s : State) : Host.Outcome State Fault Refusal :=
  perform (toPage page.toNat (pendClear page.toNat w)) s

/-- A write of 1s to EVT_FORCE (R428): the page's own events are raised as forced. -/
def forceEvents (page : Nat) (w : Word) : Act :=
  each ((List.range (pageEvents page)).filter fun i => w.toNat.testBit i) fun i => raiseForced page i

/-- EVT_FORCE (R428). -/
def execEvtForce (page : BitVec 8) (w : Word) (s : State) : Host.Outcome State Fault Refusal :=
  perform (toPage page.toNat (forceEvents page.toNat w)) s

/-- A write to EVT_EN (R427): a source that it makes pending is delivered. -/
def enableEvents (page : Nat) (w : Word) : Act := .dyn fun s =>
  let bits := (List.range (pageEvents page)).filter fun i => !s.srcPending (evtSource page i)
  .seq (.evt fun x => { x with en := spPut (fun _ => 0) x.en page w })
    (each bits fun i => .dyn fun t => on (t.srcPending (evtSource page i)) (deliver (evtSource page i) page i false))

/-- EVT_EN_WRITE (R427). -/
def execEvtEnWrite (page : BitVec 8) (w : Word) (s : State) : Host.Outcome State Fault Refusal :=
  perform (toPage page.toNat (on (pageRow page.toNat).isSome (enableEvents page.toNat w))) s

/-- A vector is unmasked: a pending message is sent (R431). -/
def unmask (v : Nat) : Act := .dyn fun s =>
  on (s.evt.pba.contains v)
    (.seq (.evt fun x => { x with pba := x.pba.filter fun k => k != v }) (msixSend v))

/-- The vector control word of an MSI-X vector (R435, PCI Express). -/
def msixControl (v : Nat) : Nat := 0x8400 + 16 * v + 12

/-- A write to a vector's control word: bit 0 masks it. -/
def msixControlWrite (v : Nat) (w : Word) : Act :=
  .seq (setR (msixControl v) (w.toNat % 2)) (on (w.toNat % 2 == 0) (unmask v))

/-- MSIX_UNMASK (R431). -/
def execMsixUnmask (v : Fin 64) (s : State) : Host.Outcome State Fault Refusal :=
  perform (toPage 8 (msixControlWrite v 0)) s

/-! ### Fault injection (R417, R418) -/

/-- Cancel the injection that a page has armed (R418). -/
def cancelInjection (page : Nat) : Act :=
  match page with
  | 0x90 => .seq (setF F.PLK_FIJ_CFG_KIND 0) (onPlk fun p => { p with fijLeft := [] })
  | 0xA8 => .seq (setF F.PAR_FIJ_CFG_KIND 0) (onPar fun p => { p with fijLeft := [] })
  | 0xC0 => .seq (setF (F.NET_FIJ_CFG_KIND 0) 0) (onNet fun n => { n with fijLeft := n.fijLeft.filter fun e => e.1 != 0 })
  | 0xC1 => .seq (setF (F.NET_FIJ_CFG_KIND 1) 0) (onNet fun n => { n with fijLeft := n.fijLeft.filter fun e => e.1 != 1 })
  | _ => .nop

/-- The pages on which an injection can be armed (R403). -/
def injPages : List Nat := [0x90, 0xA8, 0xC0, 0xC1]

/-- Disarm, cancelling every armed injection (R418). -/
def disarmInjection (e : Evt) : Act := .dyn fun s =>
  on (s.flag F.FIJ_ARM_ARM)
    (acts [setR R.FIJ_ARM 0, setB F.FIJ_STAT_ARMED false, each injPages cancelInjection, raise e])

/-- A write to FIJ_ARM (R417): 1 arms with the key; 0 disarms. -/
def fijArmWrite (w : Word) : Act := .dyn fun s =>
  if F.FIJ_ARM_ARM.get w.toNat = 0 then disarmInjection E.FIJ_DISARMED
  else if F.FIJ_ARM_KEY.get w.toNat ≠ 0x5248 then err R.FIJ_ARM Err.refused
  else if s.dev = .dormant then err R.FIJ_ARM Err.locked
  else
    acts [setR R.FIJ_ARM 1, setB F.FIJ_STAT_ARMED true, onTim fun m => { m with armed := m.ticks }, raise E.FIJ_ARMED]

/-- A write to FIJ_ARM as it comes (R396, R417): in DORMANT the page is not served, and a write of 1 is recorded. -/
def fijArmAccess (w : Word) : Act := .dyn fun s =>
  if s.dev = .dormant then acts [linkToL0, fijArmWrite w, setB F.PWR_STAT_DORM_ACCESS true] else toPage 6 (fijArmWrite w)

/-- FIJ_ARM_WRITE (R396, R417). -/
def execFijArmWrite (w : Word) (s : State) : Host.Outcome State Fault Refusal := perform (fijArmAccess w) s

/-- EXPIRED (R417, R418): FIJ_EXPIRE seconds after arming. -/
def execExpired (s : State) : Host.Outcome State Fault Refusal :=
  perform (.dyn fun s => on (s.fld F.FIJ_EXPIRE_S != 0 && s.flag F.FIJ_ARM_ARM)
    (.seq (advanceToTick (s.b.tim.armed + s.fld F.FIJ_EXPIRE_S * 250000000)) (disarmInjection E.FIJ_EXPIRED))) s

/-! ### The ledger checker (R406, R407, R416) -/

/-- A test of an account that fails: its number and lane (R406, R416). -/
def State.ledgerFails (s : State) (l : Ledger) : Option (Nat × Nat) :=
  if !(s.led.get l).balanced then some (1, 0)
  else match l with
    | .frame =>
      let c := s.b.plk.counts
      let old := s.b.plk.before
      let advanced := fun i => old.isEmpty || c.getD i 0 == (old.getD i 0 + 1) % 2 ^ 32
      match (List.range 64).find? fun i => !advanced i with
      | some lane => some (2, lane)
      | none => ((List.range 64).find? fun i => c.getD i 0 != c.headD 0).map fun lane => (3, lane)
    | .shot => if s.b.sht.resolved ≠ s.b.sht.reexposed + s.b.sht.abandoned then some (4, 0) else none
    | _ => none

/-- The account that LDG_SEL selects (R416). -/
def State.selected (s : State) : Ledger :=
  match s.fld F.LDG_SEL_ACCT with
  | 1 => .creditDma | 2 => .creditCel | 3 => .frame | 4 => .shot | 5 => .dose | 6 => .ring | _ => .tile

/-- Show the selected account of the last sample (R416). -/
def showSnapshot : Act := .dyn fun s =>
  let a := s.b.snap.get s.selected
  let two := fun (lo hi : Nat) (v : BitVec 48) => Act.seq (setR lo (v.toNat % 2 ^ 32)) (setR hi (v.toNat / 2 ^ 32))
  acts [two R.LDG_SNAP_IN_LO R.LDG_SNAP_IN_HI a.inn, two R.LDG_SNAP_OUT_LO R.LDG_SNAP_OUT_HI a.out,
    two R.LDG_SNAP_HELD_LO R.LDG_SNAP_HELD_HI a.held]

/-- A failure of an account (R407, R416): recorded, with VIOLATION once for each ledger, and a fault while shots are at
stake. -/
def violation (l : Ledger) (test lane : Nat) : Act := .dyn fun s =>
  let viol := s.fld F.LDG_STAT_VIOL
  acts [on (!viol.testBit l.code) (.seq (setF F.LDG_STAT_VIOL (Nat.lor viol (2 ^ l.code))) (raise E.LDG_VIOLATION)),
    on (!s.flag F.LDG_VIOL_INFO_VALID)
      (.seq (setR R.LDG_VIOL_INFO (2 ^ 31 + l.code * 2 ^ 24 + test * 2 ^ 16 + lane)) (setR R.LDG_VIOL_CHECK (s.rd R.LDG_CHECKS))),
    on s.inJob (faultEntry 1 5 l.code)]

/-- LEDGER_CHECK (R406): all seven accounts are sampled, then tested. -/
def ledgerCheck : Act := .dyn fun s =>
  let failed := Ledger.all.filterMap fun l => (s.ledgerFails l).map fun f => (l, f)
  acts [addR R.LDG_CHECKS 1, .blk fun b => { b with snap := s.led }, showSnapshot,
    each failed fun f => violation f.1 f.2.1 f.2.2]

/-- LEDGER_CHECK (R406): the checker runs from READY on, and not in DORMANT, 1 ms after its last check or after READY. -/
def execLedgerCheck (s : State) : Host.Outcome State Fault Refusal :=
  perform (.dyn fun s => on (s.dev == .ready || s.inJob || s.dev == .fault)
    (acts [advanceToTick (s.b.tim.checkAt + 250000), .dyn fun t => onTim fun m => { m with checkAt := t.b.tim.ticks },
      ledgerCheck])) s

/-- A write to LDG_SEL (R416). -/
def ldgSelWrite (w : Word) : Act := .seq (writeReg R.LDG_SEL w) showSnapshot

/-- LDG_SEL_WRITE (R416). -/
def execLdgSelWrite (w : Word) (s : State) : Host.Outcome State Fault Refusal := perform (toPage 5 (ldgSelWrite w)) s

/-! ### The page controls (R422 to R424) -/

/-- Pages whose EN, FREEZE and SRST have no effect (R423). -/
def fixedPage (page : Nat) : Bool := [0, 1, 2, 3, 4, 5, 8, 0xF0].contains page

/-- Pages that carry the shot path (R423). -/
def shotPathPage (page : Nat) : Bool :=
  [0x07, 0x18, 0x30, 0x31, 0x90, 0xA1, 0xA8, 0xB0, 0xB1, 0xB2, 0xB4].contains page ||
    (decide (0x40 ≤ page) && decide (page ≤ 0x83)) || (decide (0x91 ≤ page) && decide (page ≤ 0xA0))

/-- A bit of PAGE_CTRL. -/
def pageCtrl (page bit : Nat) : Fld := ⟨pageReg page 0x008, bit, 1⟩

/-- Stop or start a block by EN or FREEZE (R423): stopping a block of the shot path is ignored while a job is on. A block that
works again is not quiescent. -/
def stopBlock (page bit : Nat) (v stop : Bool) : Act := .dyn fun s =>
  if fixedPage page || (pageRow page).isNone then .nop
  else if stop && shotPathPage page && s.inJob then err (pageReg page 0x008) Err.locked
  else .seq (setB (pageCtrl page bit) v) (.dyn fun t => on (t.pageWorks page) (setF (pageStat page 8 1) 0))

/-- FREEZE (R423). -/
def execFreeze (page : BitVec 8) (v : Bool) (s : State) : Host.Outcome State Fault Refusal :=
  perform (toPage page.toNat (stopBlock page.toNat 2 v v)) s

/-- EN (R423). -/
def execEn (page : BitVec 8) (v : Bool) (s : State) : Host.Outcome State Fault Refusal :=
  perform (toPage page.toNat (stopBlock page.toNat 0 v (!v))) s

/-- A block holds a unit of work (R422, R423): a beat, a cluster or a message, or a command of its own that takes time. -/
def State.working (s : State) (page : Nat) : Bool :=
  match page with
  | 0x09 => s.b.dma.chans.any fun c => c.moving
  | 0x14 => s.b.ram.scrub.isSome || s.b.ram.mig.isSome || !s.b.ram.wb.isEmpty
  | 0x18 => s.b.press.runs.any fun r => !r.busy.isEmpty
  | 0x31 => s.checking
  | 0x90 => !s.b.plk.steps.isEmpty || !s.b.plk.txq.isEmpty
  | 0xA8 => s.b.par.joinStep != 0 || s.b.par.digestReq.isSome
  | 0xB4 => s.b.mot.moving || !s.atRest
  | 0xC4 => !s.b.net.exchanges.isEmpty || s.b.idn.burning.isSome
  | 0xD1 => s.ageBusy
  | 0xD2 => match s.b.bst.cur with | some t => !t.yielded | none => false
  | _ => decide (0x20 ≤ page) && decide (page < 0x30) &&
      s.b.press.runs.any fun r => r.busy.any fun c => c.engine + 0x20 == page

/-- PAGE_QUIESCENT (R423). -/
def execPageQuiescent (page : BitVec 8) (s : State) : Host.Outcome State Fault Refusal :=
  perform (.dyn fun s =>
    on (s.reaches page.toNat && (pageRow page.toNat).isSome && !s.pageWorks page.toNat && !s.working page.toNat)
      (setF (pageStat page.toNat 8 1) 1)) s

/-- ERR_CLR (R422, R424). -/
def errClear (page : Nat) : Act :=
  on (pageRow page).isSome (each [0x020, 0x024, 0x028, 0x02C] fun o => setR (pageReg page o) 0)

/-- ERR_CLR (R424). -/
def execErrClr (page : BitVec 8) (s : State) : Host.Outcome State Fault Refusal :=
  perform (toPage page.toNat (errClear page.toNat)) s

/-- INJ_EN of a page (R418, R423): clearing it cancels the page's armed injection. -/
def injEnable (page : Nat) (v : Bool) : Act := .dyn fun s =>
  on (injPages.contains page) (.seq (on (!v && s.flag (pageCtrl page 3)) (cancelInjection page)) (setB (pageCtrl page 3) v))

/-- INJ_EN (R418). -/
def execInjEn (page : BitVec 8) (v : Bool) (s : State) : Host.Outcome State Fault Refusal :=
  perform (toPage page.toNat (injEnable page.toNat v)) s

/-! ### Block resets (R423) -/

/-- Give up every bin (R81, R117, R423). -/
def dropBins : Act := .dyn fun s =>
  .seq (each s.b.cel.bins fun x => acts [discardBlocks x, freeBin x.num, markMissing x.stripe, endHeld x.gen 7])
    (onCel fun c => { c with earlySdig := [] })

/-- Registers of a page that a block reset clears: those past the header. -/
def blockRegs (page addr : Nat) : Bool := addr / 0x1000 == page && (decide (0x100 ≤ addr % 0x1000) || page == 0x00B)

/-- The state that a page's block holds beside its registers returns to its reset value (R423). -/
def blockState (page : Nat) : Act := .dyn fun s =>
  if page = 6 then disarmInjection E.FIJ_DISARMED
  else if page = 7 then onJob fun _ => {}
  else if page = 9 then .seq (each s.b.dma.inflight fun f => abortFlight [] f.ring f.dindex) dmaSettle
  else if page = 0xA then each (List.range 128) fun r => ringReset r []
  else if page = 0x14 then onRam fun m => { m with scrub := none, mig := none, migQueue := [], wb := [], ceSecond := [], ceHigh := [], ceRaised := [] }
  else if page = 0x15 then dropBins
  else if page = 0x18 then onPress fun _ => {}
  else if page = 0x30 then onCask fun _ => {}
  else if page = 0x31 then onLat fun _ => {}
  else if page = 0x90 then .seq (onPlk fun p => { retLock := p.retLock }) (.emit (.lanes 0))
  else if page = 0xA1 then onPlk fun p => { p with acks := [], retLock := [] }
  else if page = 0xA8 then onPar fun p =>
    { mate := p.mate, mateState := p.mateState, mateRole := p.mateRole, rxLock := p.rxLock, rxHb := p.rxHb, txUp := p.txUp,
      joined := p.joined }
  else if page = 0xB0 then onPos fun p => { pt := p.pt, n := p.n, ramp := p.ramp, trkN := p.trkN, lastTrk := p.lastTrk }
  else if page = 0xB1 then onSht fun _ => {}
  else if page = 0xB2 then onPos fun p => { p with ramp := [], trkClipped := false, lastTrk := 0 }
  else if page = 0xB4 then onMot fun _ => {}
  else if page = 0xC0 ∨ page = 0xC1 then onNet fun n =>
    { n with fijLeft := n.fijLeft.filter fun e => e.1 != page - 0xC0, swapHeld := n.swapHeld.filter fun h => h.1 != page - 0xC0 }
  else if page = 0xC2 then onTim fun t => { ticks := t.ticks, armed := t.armed, checkAt := t.checkAt, ltq := t.ltq }
  else if page = 0xC3 then .seq (onTim fun t => { t with ltq := [] }) (onNet fun n => { n with lateRun := [], noStage := false })
  else if page = 0xC4 then acts [closeSessions fun _ => true, onNet fun n => { n with exchanges := [] }, onIdn fun _ => {}]
  else if page = 0xC5 then onNet fun n => { n with partners := [], fullRaised := false }
  else if page = 0xD0 then onThm fun _ => {}
  else if page = 0xD1 then onAge fun _ => {}
  else if page = 0xD2 then
    .seq (match s.b.bst.cur with
      | some t => .seq (setF (pageStat (slicePage t.slice) 10 1) 0)
          (if t.slice < 68 then setF (F.TP_STAT_STATE t.slice) 0
          else if t.slice < 84 then setB (F.PE_STAT_BIST (t.slice - 68)) false else .nop)
      | none => .nop) (onBst fun b => { cover := b.cover })
  else if page = 0xD3 then onPos fun p => { p with stepWait := [] }
  else .nop

/-- Reset a page's block and its block-specific registers (R92, R151, R423): a retired tap or engine stays retired. -/
def blockReset (page : Nat) : Act := .dyn fun s =>
  let tap := decide (0x40 ≤ page) && decide (page ≤ 0x83) && s.tapRetired (page - 0x40)
  let pe := decide (0x20 ≤ page) && decide (page < 0x30) && s.flag (F.PE_STAT_RETIRED (page - 0x20))
  acts [blockState page, .clear fun a => !(blockRegs page a || (page == 0xA && blockRegs 0xB a)),
    on tap (setF (F.TP_STAT_STATE (page - 0x40)) 3), on pe (setB (F.PE_STAT_RETIRED (page - 0x20)) true)]

/-- SRST of PAGE_CTRL (R423). -/
def srst (page : Nat) : Act := .dyn fun s =>
  if fixedPage page || (pageRow page).isNone then .nop
  else if s.dev = .ready then blockReset page
  else err (pageReg page 0x008) Err.locked

/-- SRST (R423). -/
def execSrst (page : BitVec 8) (s : State) : Host.Outcome State Fault Refusal := perform (toPage page.toNat (srst page.toNat)) s

/-! ### OTP and AER (R435, R438) -/

/-- What OTP_DATA gives at an index (R438). -/
def State.otpData (s : State) (i : Nat) : Nat := if i < 0xD00 then s.otpWord i else 0

/-- A read of OTP_DATA moves the index on (R438). -/
def otpReadStep : Act := .dyn fun s => setF F.OTP_IDX_INDEX (s.fld F.OTP_IDX_INDEX + 1)

/-- A read of OTP_DATA (R438). -/
def otpDataRead : Act := .dyn fun s => .seq (answerWord (s.otpData (s.fld F.OTP_IDX_INDEX))) otpReadStep

/-- OTP_DATA_READ (R438). -/
def execOtpDataRead (s : State) : Host.Outcome State Fault Refusal :=
  perform (fromPage 0xF0 otpDataRead) s

/-- AER_REPORT (R435). -/
def execAerReport (uncorrectable : Bool) (s : State) : Host.Outcome State Fault Refusal :=
  perform (.dyn fun s => on (s.dev != .off)
    (.seq (addR (if uncorrectable then R.HIF_AER_UE_CNT else R.HIF_AER_CE_CNT) 1) (raise E.HIF_AER))) s

end Sys2Proof.Machine
end

