-- ==== Sys2Proof/Machine/Bist.lean ====
section
/-! DEFINITION. The meanings of the self-test's commands (R149, R150, R372 to R377, R381, R458). -/

namespace Sys2Proof.Machine

/-! ### Which slices may be tested (R149, R372, R458) -/

/-- The register of a slice's class bit (R381). -/
def classBit (k : Nat) : Fld := if k < 68 then F.BST_CFG_TAPS else if k < 84 then F.BST_CFG_PE else F.BST_CFG_SI

/-- A tap that serves its lane and must be relieved first: no pending slot is in use, no steering request waits, and
another spare is free (R149, R150). -/
def State.coverFor (s : State) (t : Nat) : Option (Nat × Nat) :=
  match s.laneOf t with
  | some n =>
    if s.steerBoundary && s.b.cask.steerPending.isEmpty then
      ((List.range 4).find? fun i => 64 + i != t && s.spareFree i).map fun i => (n, i)
    else none
  | none => none

/-- A tap is eligible: idle, or relieved at a steering boundary and covered by a free spare. -/
def State.tapEligible (s : State) (t : Nat) : Bool :=
  !s.tapRetired t && !(decide (64 ≤ t) && s.flag (F.CSK_STEER_EN (t - 64)) && !s.flag (F.CSK_STEER_ACTIVE (t - 64))) &&
    ((s.laneOf t).isNone || (s.coverFor t).isSome)

/-- Engines available for dispatch, PRS_STAT.AVAIL (R84, R96): enabled, not frozen, not retired, not under test. -/
def State.engineAvail (s : State) (e : Nat) : Bool :=
  s.pageWorks (0x20 + e) && !s.flag (F.PE_STAT_RETIRED e) && !s.flag (F.PE_STAT_BIST e)

/-- PRS_STAT.AVAIL. -/
def State.enginesAvail (s : State) : Nat := ((List.range 16).filter s.engineAvail).length

/-- A press engine is eligible: idle, not the last, and the others keep the device supplied (R372). -/
def State.engineEligible (s : State) (e : Nat) : Bool :=
  !s.flag (F.PE_STAT_RETIRED e) && !s.flag (F.PE_STAT_BUSY e) && decide (2 ≤ s.enginesAvail) &&
    decide (2048 * s.vCap ≤ ((s.enginesAvail : Nat) - 1 : Rat) * 6030000000)

/-- A single-instance block is at work (R372). -/
def State.blockBusy (s : State) (k : Nat) : Bool :=
  match k with
  | 84 => !s.b.dma.chans.isEmpty
  | 85 => !s.b.dma.replies.isEmpty
  | 90 => s.checking
  | 91 => s.b.ram.scrub.isSome || s.b.ram.mig.isSome || !s.b.ram.wb.isEmpty
  | 94 => s.b.tim.ltq.any fun f => s.flag (F.LTQ_Q_CFG_EN f.queue)
  | 95 => !s.b.net.exchanges.isEmpty || s.b.idn.burning.isSome
  | 97 => !s.b.press.runs.isEmpty
  | 99 => s.b.mot.moving || !s.atRest
  | 101 => s.b.sht.active
  | 102 => s.b.par.joinStep != 0 || s.b.par.digestReq.isSome
  | 103 => s.fld F.PLK_STAT_BRINGUP != 0 && s.fld F.PLK_STAT_BRINGUP != 8 || !s.b.plk.txq.isEmpty
  | _ => false

/-- The block has had no request for BST_IDLE (R372): 1 µs is 250 ticks. -/
def State.idleLong (s : State) (k : Nat) : Bool :=
  decide (spGet (fun _ => 0) s.b.bst.used k + s.fld F.BST_IDLE_US * 250 ≤ s.b.tim.ticks)

/-- A single-instance block has been idle for BST_IDLE, and the state allows its test (R372, R458). -/
def State.blockEligible (s : State) (k : Nat) : Bool :=
  (if k ≤ 91 ∨ k = 95 ∨ k = 96 then s.dev == .ready || s.inJob else s.dev == .ready) && !s.blockBusy k && s.idleLong k

/-- A slice of the rotation that can be started now (R373). -/
def State.eligible (s : State) (k : Nat) : Bool :=
  !s.b.bst.done.contains k && s.flag (classBit k) &&
    (if k < 68 then s.tapEligible k else if k < 84 then s.engineEligible (k - 68) else s.blockEligible k)

/-! ### Starting and ending a test (R374) -/

/-- Mark a slice as under test, or as restored. -/
def markSlice (k : Nat) (v : Bool) : Act :=
  acts [setB (pageStat (slicePage k) 10 1) v, setF F.BST_STAT_STATE (if v then 2 else 0),
    on (decide (k < 68)) (setF (F.TP_STAT_STATE k) (if v then 2 else 0)),
    on (decide (68 ≤ k) && decide (k < 84)) (setB (F.PE_STAT_BIST (k - 68)) v)]

/-- Start the next eligible slice of the rotation. -/
def startSlice : Act := .dyn fun s =>
  match (List.range 104).find? s.eligible with
  | some k =>
    acts [match (if k < 68 then s.coverFor k else none) with
        | some c => onBst fun b => { b with cover := some c }
        | none => .nop,
      onBst fun b => { b with
        cur := some { slice := k, since := s.b.tim.ticks }, restoring := none, slotAt := s.b.tim.ticks },
      markSlice k true, setF F.BST_STAT_SLICE k, setF F.BST_STAT_GROUP 0, .dyn fun t => setF F.BST_STAT_NEXT ((nextSlice t.b.bst.done (some k)).getD 0)]
  | none => .nop

/-- The scheduler starts a slice: self-test is on, and none is under test (R373); a tap whose test has ended goes back to
its lane at a steering boundary first (R150). -/
def scheduleSlice : Act := .dyn fun s =>
  on (s.flag F.BST_CFG_EN && s.pageWorks 0xD2 && s.b.bst.cur.isNone && (s.dev == .ready || s.inJob || s.dev == .fault))
    (.seq (on (s.coverStale && s.steerBoundary) (onBst fun b => { b with cover := none })) startSlice)

/-- BIST_SLICE_START (R373): BST_CFG.INTERVAL, in 10 ms, after the last start. -/
def execBistSliceStart (s : State) : Host.Outcome State Fault Refusal :=
  perform (.dyn fun s => .seq (advanceToTick (s.b.bst.slotAt + s.fld F.BST_CFG_INTERVAL * 2500000)) scheduleSlice) s

/-- Give up the test under way: the slice is restored, and stays in the rotation. -/
def stopTest : Act := .dyn fun s =>
  match s.b.bst.cur with
  | some t => .seq (on (!t.yielded) (markSlice t.slice false))
      (onBst fun b => { b with cur := none, restoring := some t.slice, restoreAt := s.b.tim.ticks })
  | none => .nop

/-- A write of BST_CFG: a test under way ends with its group once self-test is off (R415). -/
def bstCfgWrite (w : Word) : Act :=
  .seq (writeReg R.BST_CFG w) (.dyn fun s => on (!s.flag F.BST_CFG_EN) stopTest)

/-- BIST_RESUME (R375): the slice has been idle again, and its test goes on from its last complete group. -/
def execBistResume (s : State) : Host.Outcome State Fault Refusal :=
  perform (.dyn fun s =>
    match s.b.bst.cur with
    | some t => on (t.yielded && s.blockEligible t.slice && s.flag F.BST_CFG_EN && s.pageWorks 0xD2)
        (.seq (onBst fun b => { b with cur := some { t with yielded := false, since := s.b.tim.ticks }, restoring := none })
          (markSlice t.slice true))
    | none => .nop) s

/-! ### How a test ends (R376, R377) -/

/-- Retire a press engine (R92, R93). No cluster failed, so STRIPE, CLUSTER and ATTEMPT of its record are free values. -/
def retireEngine (e : Nat) : Act := .dyn fun s =>
  let v := Config.unstated 14 s.fresh
  on (!s.flag (F.PE_STAT_RETIRED e)) (.seq .draw (engineRetired e v (v / 2 ^ 32) (v / 2 ^ 64 % 16)))

/-- Retire a tap whose test failed; its lane keeps the spare that covers it (R376). -/
def retireTested (t : Nat) : Act := .dyn fun s =>
  .seq (match s.b.bst.cover with
    | some (n, i) =>
      on (s.steeredTap n == t) (acts [setB (F.CSK_STEER_EN i) true, setB (F.CSK_STEER_AUTO i) true,
        setB (F.CSK_STEER_ACTIVE i) true, setF (F.CSK_STEER_LANE i) n, onBst fun b => { b with cover := none },
        unserve i, onCask fun c => { c with serve := (i, n) :: c.serve },
        raise E.CSK_STEERED])
    | none => .nop) (retireTap t)

/-- Retire the tap or engine of a slice. -/
def retireSlice (k : Nat) : Act :=
  if k < 68 then retireTested k else if k < 84 then retireEngine (k - 68) else .nop

/-- A failure is counted and recorded (R381): kind 1 MISR, 2 SHADOW_UE. -/
def sliceFailed (k kind : Nat) : Act :=
  acts [addR R.BST_FAIL_CNT 1, setR R.BST_LAST_FAIL (k * 2 ^ 24 + kind * 2 ^ 20)]

/-- A single-instance slice is reset as by SRST; a CK unit's register returns to Init (R377). -/
def restoreLost (k : Nat) : Act :=
  .seq (blockReset (slicePage k)) (on (decide (86 ≤ k) && decide (k ≤ 89)) (ckInit (k - 86)))

/-- An uncorrectable error in shadow SRAM as a slice is restored (R377). -/
def shadowLost (k : Nat) : Act :=
  acts [sramErrorAt 7 true, sliceFailed k 2, raise E.BST_SHADOW_UE, if k < 84 then retireSlice k else restoreLost k]

/-- BIST_SLICE_DONE (R376, R377): a first mismatch repeats the slice, a second one is a failure; an error in shadow SRAM
loses the slice's state, also as a test that gave way or was given up is restored. -/
def execBistSliceDone (fail shadowUe : Bool) (s : State) : Host.Outcome State Fault Refusal :=
  perform (.dyn fun s =>
    match s.b.bst.cur with
    | some t =>
      let k := t.slice
      if t.yielded then on (shadowUe && s.b.bst.restoring.isSome)
        (acts [onBst fun b => { b with cur := none, restoring := none }, shadowLost k, sliceCounted k])
      else if fail && !t.repeated && !shadowUe then
        .seq (onBst fun b => { b with cur := some { t with repeated := true, since := s.b.tim.ticks, group := 0 } })
          (setF F.BST_STAT_GROUP 0)
      else
        acts [onBst fun b => { b with cur := none }, setF F.BST_STAT_GROUP (s.rd R.BST_PATTERNS), markSlice k false,
          on (fail && t.repeated) (acts [sliceFailed k 1, raise E.BST_BIST_FAIL, retireSlice k]),
          on shadowUe (shadowLost k), sliceCounted k]
    | none => match s.b.bst.restoring with
      | some k => on shadowUe (.seq (onBst fun b => { b with restoring := none }) (shadowLost k))
      | none => .nop) s

/-! ### BST_CMD (R381) -/

/-- RUN_NEXT: start now, in READY only. -/
def runNextCmd : Act := .dyn fun s => if s.dev = .ready then scheduleSlice else refuseCmd R.BST_CMD 1

/-- RUN_NEXT (R381). -/
def execRunNext (s : State) : Host.Outcome State Fault Refusal := perform (toPage 0xD2 runNextCmd) s

/-- SKIP: the next slice of the rotation counts as skipped. -/
def skipCmd : Act := .dyn fun s =>
  match nextSlice s.b.bst.done s.testing with
  | some k => acts [addR R.BST_SKIP_CNT 1, raise E.BST_BIST_SKIP, sliceCounted k]
  | none => .nop

/-- SKIP (R381). -/
def execSkip (s : State) : Host.Outcome State Fault Refusal := perform (toPage 0xD2 skipCmd) s

/-- A new rotation begins with slice 0. -/
def restartRotation : Act := .dyn fun s =>
  .seq (onBst fun b => { b with done := [], yields := [] }) (setF F.BST_STAT_NEXT ((nextSlice [] s.testing).getD 0))

/-- RESTART (R381). -/
def execRestart (s : State) : Host.Outcome State Fault Refusal := perform (toPage 0xD2 restartRotation) s

end Sys2Proof.Machine
end

