-- ==== Sys2Proof/Machine/Power.lean ====
section
/-! DEFINITION. Supplies, clocks, resets, power domains and Dormant (chapter 13). -/

namespace Sys2Proof.Machine

/-! ### Supplies and device resets (R383, R384, R390) -/

/-- POWER_UP (R383, R384): the power-on reset of a device whose VDD_AON had left its window. -/
def execPowerUp (s : State) : Host.Outcome State Fault Refusal :=
  perform (.dyn fun s => on (s.dev == .off && s.b.pwr.aonLost) (.restart 1)) s

/-- SUPPLY_LOSS (R19, R383): to OFF, keeping the reset causes while VDD_AON stays good. -/
def execSupplyLoss (aonLost : Bool) (s : State) : Host.Outcome State Fault Refusal :=
  perform (.dyn fun s =>
    if s.dev = .off then onPwr fun p => { p with aonLost := p.aonLost || aonLost }
    else acts [.restart (BitVec.ofNat 32 (Nat.lor (s.rd R.AON_RST_CAUSE) 16)), .goto .off,
      onPwr fun p => { p with aonLost := aonLost }]) s

/-- SUPPLY_RETURN (R383, R390): the supply reset. -/
def execSupplyReturn (s : State) : Host.Outcome State Fault Refusal :=
  perform (.dyn fun s => on (s.dev == .off && !s.b.pwr.aonLost) (deviceReset 0)) s

/-- PIN_RESET (R390). -/
def execPinReset (s : State) : Host.Outcome State Fault Refusal :=
  perform (.dyn fun s => on (s.dev != .off) (deviceReset 2)) s

/-- A write to AON_RST_CMD (R390, R399). -/
def resetCmd (key : Nat) : Act := on (key == 0x5248) (deviceReset 8)

/-- COMMAND_RESET (R390, R399). -/
def execCommandReset (key : BitVec 16) (s : State) : Host.Outcome State Fault Refusal := perform (toPage 2 (resetCmd key.toNat)) s

/-! ### From RESET to READY (R332, R391, R402, R438) -/

/-- The PLLs lock; PLL5 needs DEVCLK (R387). -/
def lockPlls : Act := .dyn fun s =>
  .seq (setF F.CLK_STAT_LOCKED (if s.b.pwr.devclk then 0xFF else 0xDF))
    (onPwr fun p => { p with unlocked := if p.devclk then [] else [5] })

/-- OTP words whose loss leaves the device usable: the certificates and the ageing log (R438). -/
def otpSpare (i : Nat) : Bool := decide (0x100 ≤ i) && decide (i < 0xD00)

/-- RESET_INIT_DONE (R391, R438): `bad` names the words found uncorrectable, in the order in which they were loaded. -/
def execResetInitDone (bad : List (BitVec 14)) (corrected : BitVec 16) (s : State) : Host.Outcome State Fault Refusal :=
  perform (.dyn fun s =>
    let holds := bad.any fun i => !otpSpare i.toNat
    on (s.dev == .reset && !s.flag F.OTP_STAT_LOADED)
      (acts [setR R.OTP_STAT (2 ^ 31 + (if holds then 2 ^ 30 else 0) + corrected.toNat),
        match bad.head? with | some i => setR R.OTP_FAIL_IDX (2 ^ 31 + i.toNat) | none => .nop,
        onPwr fun p => { p with otpBad := bad.map BitVec.toNat },
        lockPlls, on (!holds) (setB F.MEM_TRAIN_WAIT true)])) s

/-- A write to MEM_TRAIN (R332, R391): START, accepted while WAIT = 1. -/
def memTrainWrite (cmd : Nat) : Act := .dyn fun s =>
  on (cmd == 1 && s.flag F.MEM_TRAIN_WAIT) (.seq (setB F.MEM_TRAIN_WAIT false) (onRam fun m => { m with locked := true }))

/-- START (R391). -/
def execStart (s : State) : Host.Outcome State Fault Refusal := perform (toPage 0x14 (memTrainWrite 1)) s

/-- A channel's geometry as training finds it: MC_GEOM where soldered down, else the SPD's (R331, R332). -/
def State.channelGeom (s : State) (ranks : Nat) (dens16 : Bool) (c : Nat) : Nat × Nat × Nat :=
  if s.flag (F.MC_CFG_SOLDERED c) then (s.fld (F.MC_GEOM_RANKS c), s.fld (F.MC_GEOM_DENS c), s.fld (F.MC_CFG_RATE c))
  else (ranks, if dens16 then 1 else 0, s.fld (F.MC_CFG_RATE c))

/-- The spare of R332 can exist. -/
def State.ranksFit (s : State) (ranks : Nat) : Bool := ranks == 2 || (ranks == 1 && !s.flag F.MEM_CFG_SPARE)

/-- The device reaches READY after a device reset (R402, R438). -/
def readyAfterReset : Act := .dyn fun s =>
  acts [enter .ready, on s.b.pwr.resetDone (raise E.AON_RESET_DONE), onPwr fun p => { p with resetDone := false },
    onTim fun m => { m with checkAt := s.b.tim.ticks },
    on (s.rd R.OTP_FAIL_IDX != 0) (raise E.OTP_LOAD_ERR)]

/-- A channel's registers once it has trained (R352). -/
def channelTrained (c ranks dens : Nat) (spare : Bool) : Act :=
  acts [setF (F.MC_GEOM_RANKS c) ranks, setF (F.MC_GEOM_DENS c) dens, setB (F.MC_STAT_TRAINED c) true, setF (rankField c 0) 1,
    setF (rankField c 1) (if ranks = 1 then 0 else if spare then 2 else 1)]

/-- TRAINING_DONE (R331, R332, R391, R402): a channel fails by itself, by a geometry other than MC0's, or by a geometry that
the device does not have. -/
def execTrainingDone (failed : BitVec 4) (ranks : Fin 3) (dens16 : Bool) (s : State) : Host.Outcome State Fault Refusal :=
  perform (.dyn fun s =>
    let geom := s.channelGeom ranks dens16
    let spare := s.flag F.MEM_CFG_SPARE
    let bad := fun c : Nat => failed.toNat.testBit c || geom c != geom 0 || !s.ranksFit (geom c).1
    let mcs := List.range 4
    on (s.dev == .reset && s.b.ram.locked && !s.flag F.MEM_TRAIN_DONE && !s.flag F.MEM_TRAIN_FAIL)
      (.seq (each mcs fun c => if bad c then err (R.MC_CFG c) Err.training else channelTrained c (geom c).1 (geom c).2.1 spare)
        (if mcs.any bad then setB F.MEM_TRAIN_FAIL true
        else
          acts [setB F.MEM_TRAIN_DONE true,
            setF F.CEL_CAPACITY_MIB (4 * (if spare then 1 else (geom 0).1) * (if (geom 0).2.1 = 1 then 32768 else 16384)),
            readyAfterReset]))) s

/-! ### The link (R98, R100, R435) -/

/-- LINK_CHANGE (R98, R435): UP, SPEED and WIDTH, with a retrain counted while the link was up. -/
def execLinkChange (up : Bool) (speed : Fin 6) (width : Fin 17) (s : State) : Host.Outcome State Fault Refusal :=
  perform (.dyn fun s =>
    let was := s.rd R.HIF_LINK
    let degraded := decide (width.val < 8) || decide (speed.val < 4)
    let w := if up then 2 ^ 31 + speed.val * 2 ^ 24 + width.val * 2 ^ 16 + (if degraded then 64 else 0) else 0
    on (s.powered 3)
      (acts [setR R.HIF_LINK w, on (up && was / 2 ^ 31 == 1) (addR R.HIF_RETRAIN_CNT 1),
        on (was / 2 ^ 16 != w / 2 ^ 16) (raise E.HIF_LINK_CHANGE)])) s

/-- The HOST domain goes down, and the link with it (R392). -/
def linkDown : Act := .dyn fun s =>
  on (s.flag F.HIF_LINK_UP) (acts [setR R.HIF_LINK 0, .emit (.link 15), raise E.HIF_LINK_CHANGE])

/-! ### Clocks (R388, R389) -/

/-- PLL_UNLOCK (R203, R389): counted; a fault while shots are at stake, but in POS the axes go out of sync. -/
def execPllUnlock (dom : Fin 8) (s : State) : Host.Outcome State Fault Refusal :=
  perform (.dyn fun s =>
    let d := dom.val
    let locked := s.fld F.CLK_STAT_LOCKED
    on (d != 0 && s.powered d && locked.testBit d)
      (acts [setF F.CLK_STAT_LOCKED (Nat.xor locked (2 ^ d)), addR R.CLK_UNLOCK_CNT 1, setR R.CLK_LAST_UNLOCK (2 ^ d),
        onPwr fun p => { p with unlocked := d :: p.unlocked, tryAt := spPut (fun _ => 0) p.tryAt d s.b.tim.ticks },
        raise E.CLK_CLK_UNLOCK,
        on (s.inJob && [1, 2, 4, 6, 7].contains d) (faultEntry 5 3 (2 ^ d)), on (d == 5) (jrxSync false)])) s

/-- PLL_RELOCK_TRY (R389): in READY, 1 ms after the loss or the last try. -/
def execPllRelockTry (dom : Fin 8) (locks : Bool) (s : State) : Host.Outcome State Fault Refusal :=
  perform (.dyn fun s =>
    let d := dom.val
    on (s.dev == .ready && s.b.pwr.unlocked.contains d)
      (acts [advanceToTick (spGet (fun _ => 0) s.b.pwr.tryAt d + 250000),
        .dyn fun t => onPwr fun p => { p with tryAt := spPut (fun _ => 0) p.tryAt d t.b.tim.ticks },
        on (locks && (d != 5 || s.b.pwr.devclk))
          (acts [onPwr fun p => { p with unlocked := p.unlocked.filter fun e => e != d },
            setF F.CLK_STAT_LOCKED (Nat.lor (s.fld F.CLK_STAT_LOCKED) (2 ^ d)), dmaSettle])])) s

/-- PLL6 follows DEVCLK or XTAL (R388): a change clears SYSREF_OK and raises TIME_SRC. -/
def timeSource : Act := .dyn fun s =>
  let src := s.b.pwr.devclk && s.flag F.CLK_DEVCLK_EN
  on (src != s.flag F.CLK_STAT_TIME_SRC)
    (acts [setB F.CLK_STAT_TIME_SRC src, setB F.POS_STAT_SYSREF_OK false, raise E.CLK_TIME_SRC])

/-- DEVCLK_PRESENCE (R388). -/
def execDevclkPresence (present : Bool) (s : State) : Host.Outcome State Fault Refusal :=
  perform (.dyn fun s => on (s.dev != .off)
    (acts [onPwr fun p => { p with devclk := present }, setB F.CLK_STAT_DEVCLK present, timeSource])) s

/-! ### What a domain loses (R392, R395) -/

/-- CORE: the lattice, gain, derived and class tables; the cask, the slots and the press. The flags, RESULT, WINDOW and counts that
the last check left in LAT_STAT, LAT_DYMAX and the count registers stay as they were: R395 has RO status recomputed at wake, and with
the tables lost there is nothing to recompute them from (DESIGN CHOICE); CHK_STATE and CSK_FIT.VALID say that none holds. -/
def loseCore : Act :=
  acts [onLat fun _ => {}, setF F.LAT_STAT_CHK_STATE 0, setF F.CSK_FIT_VALID 0, onCask fun _ => {}, onPress fun _ => {}]

/-- LANE: the plate link and the pair lanes; the settings stay. -/
def loseLane : Act :=
  acts [.dyn fun s => each s.b.plk.retLock fun _ => raise E.PRT_RETURN_DOWN,
    onPlk fun p => { counts := p.counts, before := p.before }, setR R.PRT_STAT 0, setF F.PLK_STAT_BRINGUP 0, .emit (.lanes 0),
    onPar fun p => { p with rxLock := [], rxHb := [], txUp := 0 }]

/-- POS: the axis counts, PT's alignment and the RAMP table; every axis is LOST. -/
def losePos : Act :=
  acts [each axisList fun i => onAxis i fun y => { cur := y.params, lost := true },
    onPos fun p => { p with hist := [], realign := false, ramp := [], trkClipped := false },
    setB F.POS_STAT_SYSREF_OK false, setB F.POS_STAT_JRX_UP false, setB F.TRK_STAT_JTX_UP false]

/-- The domains' bits (R392): CORE, MEM, HOST, LANE, POS. -/
def gatedDomains : List Nat := [1, 2, 3, 4, 5]

/-- One domain goes down. -/
def domainDown (d : Nat) : Act := .dyn fun s =>
  acts [setF F.PWR_STAT_ON (Nat.land (s.fld F.PWR_STAT_ON) (255 - 2 ^ d)),
    setF F.CLK_STAT_LOCKED (Nat.land (s.fld F.CLK_STAT_LOCKED) (255 - 2 ^ d)),
    onPwr fun p => { p with unlocked := p.unlocked.filter fun e => e != d },
    on (d == 1) loseCore, on (d == 3) linkDown, on (d == 4) loseLane, on (d == 5) losePos]

/-- One domain returns; PLL5 needs DEVCLK. -/
def domainUp (d : Nat) : Act := .dyn fun s =>
  let locks := d != 5 || s.b.pwr.devclk
  acts [setF F.PWR_STAT_ON (Nat.lor (s.fld F.PWR_STAT_ON) (2 ^ d)),
    if locks then setF F.CLK_STAT_LOCKED (Nat.lor (s.fld F.CLK_STAT_LOCKED) (2 ^ d))
    else onPwr fun p => { p with unlocked := d :: p.unlocked }]

/-- A power command refused (R393): the code is shown, and the page's error recorded; a state condition is also one of
R21. -/
def powerRefused (cmd code : Nat) : Act :=
  .seq (setF F.PWR_STAT_REFUSE code) (if code = 1 then refuseCmd R.PWR_CMD cmd else err R.PWR_CMD Err.refused)

/-- SOLO or SPLIT. -/
def State.alone (s : State) : Bool := s.role == .solo || s.role == .split

/-- DOM_DOWN of PWR_CMD (R392). -/
def domDownCmd (doms : Nat) (moved : Moved) : Act := .dyn fun s =>
  let going := gatedDomains.filter fun d => doms.testBit d && (s.fld F.PWR_STAT_ON).testBit d
  if s.dev != .ready then powerRefused 3 1
  else if !s.alone then powerRefused 3 2
  else if Nat.land doms 0xC1 != 0 then err R.PWR_CMD Err.refused
  else if going.isEmpty then .nop
  else acts [parkDomains doms moved, each going domainDown, raise E.PWR_DOM_DOWN]

/-- DOM_DOWN (R392). -/
def execDomDown (doms : Byte) (moved : Moved) (s : State) : Host.Outcome State Fault Refusal :=
  perform (toPage 4 (domDownCmd doms.toNat moved)) s

/-- DOM_UP of PWR_CMD (R392). -/
def domUpCmd (doms : Nat) : Act := .dyn fun s =>
  let back := gatedDomains.filter fun d => doms.testBit d && !(s.fld F.PWR_STAT_ON).testBit d
  if s.dev != .ready then powerRefused 4 1
  else on (!back.isEmpty) (acts [each back domainUp, resumeParked, raise E.PWR_DOM_UP])

/-- DOM_UP (R392). -/
def execDomUp (doms : Byte) (s : State) : Host.Outcome State Fault Refusal := perform (toPage 4 (domUpCmd doms.toNat)) s

/-! ### Entering DORMANT (R393, R394) -/

/-- The first condition of R393 that fails; 0 where all hold. -/
def State.dormantRefusal (s : State) (linkPm : Bool) : Nat :=
  if s.dev != .ready then 1
  else if !s.alone then 2
  else if !s.atRest then 3
  else if !linkPm && (s.fld F.PWR_STAT_ON).testBit 3 then 4
  else 0

/-- Queued frames are discarded and counted, the setpoints that lie ahead among them (R244, R394). -/
def discardFrames : Act := .dyn fun s =>
  acts [each s.b.tim.ltq fun f => addR (R.LTQ_Q_LATE f.queue) 1, addR (R.LTQ_Q_LATE (s.fld F.MOT_CFG_LTQ)) s.ltqAhead,
    onTim fun t => { t with ltq := [] }]

/-- DORMANT of PWR_CMD (R393, R394): it waits for a plan or a log entry, is refused, or starts the entry. -/
def dormantCmd (linkPm : Bool) (moved : Moved) : Act := .dyn fun s =>
  let code := s.dormantRefusal linkPm
  if s.flag F.PWR_STAT_ENTERING then .nop
  else if s.ageBusy then onAge fun a => { a with waiting := a.waiting ++ [.dormant linkPm moved] }
  else if code ≠ 0 then .seq (powerRefused 1 code) (raise E.PWR_DORMANT_REFUSED)
  else acts [setB F.PWR_STAT_ENTERING true, parkDomains 0xBE moved, discardFrames]

/-- DORMANT (R393). -/
def execDormant (linkPm : Bool) (moved : Moved) (s : State) : Host.Outcome State Fault Refusal :=
  perform (toPage 4 (dormantCmd linkPm moved)) s

/-- The network in DORMANT (R323): one port stays, at 1000BASE-KX; only HOST sessions are kept. -/
def netToDormant : Act := .dyn fun s =>
  let p := s.dormantPort
  acts [closeSessions fun x => x.role != 0, onNet fun n => { n with exchanges := [] },
    on (s.flag (F.NET_STAT_LINK p)) (.seq (setF (F.NET_STAT_SPEED p) 3) (setF (F.NET_STAT_FEC p) 3)),
    on (s.flag (F.NET_STAT_LINK (1 - p))) (.seq (setR (R.NET_STAT (1 - p)) 0) (raise (E.NET_LINK_DOWN (1 - p))))]

/-- DORMANT_ENTERED (R394, R395, R404): injections are disarmed, a test under way is given up, the domains but AON and TIME are
gated, and what they held is lost. -/
def execDormantEntered (s : State) : Host.Outcome State Fault Refusal :=
  perform (.dyn fun s => on (s.dev == .ready && s.flag F.PWR_STAT_ENTERING)
    (acts [disarmInjection E.FIJ_DISARMED, stopTest, loseCore, loseLane, losePos, netToDormant, restartRotation,
      onPar fun p => { p with joinStep := 0 },
      setF F.PWR_STAT_ON 0x41, setF F.CLK_STAT_LOCKED (Nat.land (s.fld F.CLK_STAT_LOCKED) 0x41),
      onPwr fun p => { p with unlocked := p.unlocked.filter fun d => d == 6 },
      on (s.flag F.HIF_LINK_UP) (.seq (setB F.HIF_LINK_L12 true) (.emit (.link 12))),
      setB F.PWR_STAT_ENTERING false, addR R.PWR_DORM_CNT 1, enter .dormant, raise E.PWR_DORMANT_ENTERED])) s

/-! ### Waking (R394, R396, R397, R433) -/

/-- A wake request from an enabled source (R394, R397): it ends an entry at its next step, or starts the wake. -/
def wakeFrom (src : Nat) (enable : Fld) : Act := .dyn fun s =>
  if !s.flag enable then .nop
  else if s.flag F.PWR_STAT_ENTERING then acts [setB F.PWR_STAT_ENTERING false, resumeParked, raise E.PWR_DORMANT_ABORT]
  else on (s.dev == .dormant && !s.flag F.PWR_STAT_WAKING)
    (acts [setR R.AON_WAKE_SRC src, setB F.PWR_STAT_WAKING true, onPwr fun p => { p with wakeAt := s.b.tim.ticks }])

/-- WAKE (R397). -/
def execWake (s : State) : Host.Outcome State Fault Refusal := perform (toPage 4 (wakeFrom 2 F.AON_WAKE_CFG_HOST)) s

/-- WAKE_N (R397, R447). -/
def execWakeN (s : State) : Host.Outcome State Fault Refusal := perform (wakeFrom 3 F.AON_WAKE_CFG_PIN) s

/-- The message came under a HOST session (R323). -/
def State.hostSession (s : State) (o : Origin) : Bool :=
  match o.sess with
  | some id => s.b.net.sessions.any fun x => x.id == id && x.partner == o.partner && x.role == 0
  | none => false

/-- NET_WAKE (R299, R323, R397). -/
def execNetWake (m : NetMsg) (s : State) : Host.Outcome State Fault Refusal :=
  perform (.dyn fun s =>
    if s.hears m.port && m.payload.length != 0 then netDrop m.port
    else receiveAuth m fun o => .dyn fun s => on (s.hostSession o) (wakeFrom 1 F.AON_WAKE_CFG_NET)) s

/-- A delivery that waited for the wake: its MSI-X message, or its EVENT message (R433). -/
def lateDelivery (msix : Bool) (d : Nat × Nat × Nat × Bool) : Act :=
  routeEvent netFijDone loseMessage d.1 d.2.1 d.2.2.1 d.2.2.2 msix (!msix)

/-- Each source delivered during DORMANT, once. -/
def oncePerSource (l : List (Nat × Nat × Nat × Bool)) : List (Nat × Nat × Nat × Bool) :=
  l.foldl (fun a d => if a.any fun e => e.1 == d.1 then a else a ++ [d]) []

/-- The ports renegotiate at their configured rates (R323): the one that is up stays up, which the spec leaves open, at its configured
rate; what AUTO negotiates is free. -/
def netToReady : Act := .dyn fun s =>
  let n := Config.unstated 16 s.fresh
  .seq (each [0, 1] fun p => on (s.flag (F.NET_STAT_LINK p)) (.dyn fun t => setR (R.NET_STAT p) (t.linkWord p (n % 3 + 1) (n / 3 % 3 + 1))))
    .draw

/-- WAKE_DONE (R323, R395, R397, R433): `us` µs after the wake request. -/
def execWakeDone (us : BitVec 16) (s : State) : Host.Outcome State Fault Refusal :=
  perform (.dyn fun s =>
    let late := s.evt.deferred
    on (s.dev == .dormant && s.flag F.PWR_STAT_WAKING)
      (acts [advanceToTick (s.b.pwr.wakeAt + us.toNat * 250), .dyn fun t => .seq
          (setR R.PWR_WAKE_US (min 0xFFFF ((t.b.tim.ticks - t.b.pwr.wakeAt) / 250)))
          (.seq (onTim fun m => { m with checkAt := t.b.tim.ticks }) (onPwr fun p => { p with wokenAt := some t.b.tim.ticks })),
        setF F.PWR_STAT_ON 0xFF, lockPlls, linkToL0, .evt fun e => { e with deferred := [] }, enter .ready, netToReady,
        setB F.PWR_STAT_WAKING false, setB F.PWR_STAT_DORM_ACCESS false, resumeParked,
        each late (lateDelivery true), raise E.PWR_WAKE_DONE, each (oncePerSource late) (lateDelivery false)])) s

/-- L1_2_RETURN (R396): after 100 µs without traffic. -/
def execL12Return (s : State) : Host.Outcome State Fault Refusal :=
  perform (.dyn fun s => on (s.dev == .dormant && s.flag F.HIF_LINK_UP && !s.flag F.HIF_LINK_L12)
    (acts [advanceToTick (s.b.pwr.linkAt + 25000), setB F.HIF_LINK_L12 true, .emit (.link 12)])) s

end Sys2Proof.Machine
end

