-- ==== Sys2Proof/Machine/Age.lean ====
section
/-! DEFINITION. Margin re-planning, the core voltage and the ageing log (R368 to R371, R380, R386). -/

namespace Sys2Proof.Machine

/-! ### The core voltage (R357, R368, R386) -/

/-- VDD_CORE in mV of a CODE (R368). -/
def coreMv (code : Nat) : Nat := 700 + 5 * code

/-- Set CODE, the limits of channels 28 to 31 with it (R357), and send one VoltageWrite (R386). -/
def putCode (code : Nat) : Act :=
  acts [setF F.AGE_AVS_CODE code,
    each (List.range 4) fun i => setR (R.HK_LIM (28 + i)) ((coreMv code + 30) * 2 ^ 16 + (coreMv code - 30)),
    .emit (.avs (coreMv code))]

/-- Change CODE, for a plan (1), a register write (2) or a log entry (3). -/
def setAvs (code cause : Nat) : Act := .dyn fun s =>
  .seq (onAge fun a => { a with avsOld := some (s.fld F.AGE_AVS_CODE, cause) }) (putCode code)

/-- A write of AGE_AVS (R368, R380, R424). -/
def ageAvsWrite (w : Word) : Act := .dyn fun s =>
  let code := F.AGE_AVS_CODE.get w.toNat
  if s.dev != .ready || s.ageBusy || s.b.age.avsOld.isSome then err R.AGE_AVS Err.locked
  else if 20 < code then err R.AGE_AVS Err.range
  else on (code != s.fld F.AGE_AVS_CODE) (setAvs code 2)

/-! ### Plans (R369) -/

/-- Change the plan at work. -/
def onPlan (f : Plan → Plan) : Act := onAge fun a => { a with plan := a.plan.map f }

/-- The plan fails with a code. -/
def planFail (code : Nat) : Act := onPlan fun p => { p with avs := false, lanes := false, fail := code }

/-- The lanes of the plan: those below MIN + 16 adapt from their present coefficients. -/
def planLanesNow : Act := .dyn fun s =>
  let low := (List.range 64).filter fun p => decide (s.fld (F.LQ_STAT_FOM (s.feeds p)) < s.fld F.PLK_FOM_MIN + 16)
  .seq (onPlan fun p => { p with lanes := false, left := low }) (startAdapt low)

/-- The voltage is planned; the lanes follow in PLAN_ALL. -/
def avsPlanned : Act := .dyn fun s =>
  .seq (onPlan fun p => { p with avs := false })
    (on (match s.b.age.plan with | some p => p.lanes | none => false) planLanesNow)

/-- One step of the plan at a measured margin. -/
def planStep (margin : Nat) : Act := .dyn fun s =>
  let target := s.fld F.AGE_CFG_TARGET
  let code := s.fld F.AGE_AVS_CODE
  match s.b.age.plan with
  | some p =>
    if !p.avs then on p.lanes planLanesNow
    else if p.up || (!p.down && decide (margin < target)) then
      if target ≤ margin then avsPlanned
      else if 20 ≤ code then planFail 1
      else .seq (onPlan fun q => { q with up := true }) (setAvs (code + 1) 1)
    else if margin < target then .seq (onPlan fun q => { q with avs := false }) (setAvs (code + 1) 1)
    else if target + 10 ≤ margin ∧ 0 < code then .seq (onPlan fun q => { q with down := true }) (setAvs (code - 1) 1)
    else avsPlanned
  | none => .nop

/-- Start a plan (R369): refused outside READY, while another one or a log entry is at work, and for the lanes while the plate
link is not UP. -/
def planCmd (cmd : Nat) (avs lanes : Bool) : Act := .dyn fun s =>
  if s.dev != .ready then refuseCmd R.AGE_CMD cmd
  else if s.ageBusy || (lanes && s.bringup != 7) then err R.AGE_CMD Err.refused
  else
    acts [onAge fun a => { a with plan := some { avs := avs, lanes := lanes } }, setF F.AGE_STAT_PLAN 1, setF F.AGE_STAT_ERR 0,
      on s.b.age.avsOld.isNone (planStep (s.fld F.AGE_CAN_MIN_PS))]

/-- PLAN_AVS (R369). -/
def execPlanAvs (s : State) : Host.Outcome State Fault Refusal := perform (toPage 0xD1 (planCmd 1 true false)) s
/-- PLAN_LANES (R369). -/
def execPlanLanes (s : State) : Host.Outcome State Fault Refusal := perform (toPage 0xD1 (planCmd 2 false true)) s
/-- PLAN_ALL (R369). -/
def execPlanAll (s : State) : Host.Outcome State Fault Refusal := perform (toPage 0xD1 (planCmd 3 true true)) s

/-- The ring oscillators have been measured at CODE 10: CODE is restored before the entry is burned (R370). What is measured is the
counts of the last housekeeping round, on which R366 has every ageing monitor measured. -/
def logMeasured : Act := .dyn fun s =>
  match s.b.age.burn with
  | some code => on s.b.age.logRings.isNone
      (.seq (onAge fun a => { a with logRings := some a.rings }) (on (s.fld F.AGE_AVS_CODE != code) (setAvs code 3)))
  | none => .nop

/-- AVS_WRITE_DONE (R386): the voltage has settled and the canaries give `margin`, or the write has failed after two retries
and the old voltage is written back. -/
def execAvsWriteDone (ok : Bool) (margin : BitVec 16) (s : State) : Host.Outcome State Fault Refusal :=
  perform (.dyn fun s =>
    match s.b.age.avsOld with
    | some (old, _) =>
      acts [onAge fun a => { a with avsOld := none },
        if ok then .seq (setR R.PWR_AVS (coreMv (s.fld F.AGE_AVS_CODE))) (planStep margin.toNat)
        else acts [.emit (.avs (coreMv (s.fld F.AGE_AVS_CODE))), .emit (.avs (coreMv (s.fld F.AGE_AVS_CODE))), putCode old,
          setB F.PWR_AVS_FAIL true, raise E.PWR_AVS_FAIL, planFail 1],
        logMeasured]
    | none => .nop) s

/-- The best figure of merit that an input's lane has reached. -/
def State.bestFom (s : State) (p : Nat) : Nat := match s.b.plk.adapt.find? fun e => e.1 == p with | some e => e.2.2.1 | none => 0

/-- How a plan that has come to its end ended: ERR, 0 for DONE; none while it still works. -/
def State.planResult (s : State) (p : Plan) : Option Nat :=
  if p.avs || p.lanes || s.b.age.avsOld.isSome then none
  else if p.fail ≠ 0 then some p.fail
  else if p.left.isEmpty then some 0
  else if s.bringup ≠ 7 then some 2
  else if p.left.all s.adapted then some (if p.left.any fun i => decide (s.bestFom i < s.fld F.PLK_FOM_MIN) then 2 else 0)
  else none

/-- Commands that waited for a plan or a log entry are acted on (R369, R370). -/
def runWaiting : Act := .dyn fun s =>
  .seq (onAge fun a => { a with waiting := [] })
    (each s.b.age.waiting fun w => match w with
      | .arm => armCmd
      | .dormant linkPm moved => dormantCmd linkPm moved
      | .pair => joinCmd false
      | .join => joinCmd true)

/-- PLAN_DONE (R369). -/
def execPlanDone (s : State) : Host.Outcome State Fault Refusal :=
  perform (.dyn fun s =>
    match s.b.age.plan with
    | some p => match s.planResult p with
      | some e =>
        acts [onAge fun a => { a with plan := none }, setF F.AGE_STAT_PLAN (if e = 0 then 2 else 3), setF F.AGE_STAT_ERR e,
          raise (if e = 0 then E.AGE_PLAN_DONE else E.AGE_PLAN_FAIL), runWaiting]
      | none => .nop
    | none => .nop) s

/-! ### The log (R370, R371) -/

/-- DAY of TIM (R371). -/
def State.day (s : State) : Nat := s.b.tim.sec / 86400

/-- 56 days of TIM time have passed since the last entry (R370): from its second, or, where it was written before the last reset,
from the start of the DAY that OTP holds of it (DESIGN CHOICE: OTP keeps nothing finer). -/
def State.logDue (s : State) : Bool := s.logUsed == 0 ||
  decide ((match s.b.age.logAt with | some t => t | none => s.lastLog * 86400) + 56 * 86400 ≤ s.b.tim.sec)

/-- Why no entry may be written now (R370, R380): ERR, 0 where one may. -/
def State.logErr (s : State) : Nat :=
  if s.logUsed = 320 then 5
  else if s.fld F.TIM_STAT_STATE ≠ 2 then 4
  else if !s.logDue then 3
  else 0

/-- LOG_FULL, once (R370). -/
def logFull : Act := .dyn fun s => on (!s.b.age.fullRaised) (.seq (onAge fun a => { a with fullRaised := true }) (raise E.AGE_LOG_FULL))

/-- Start an entry (R370): CODE goes to 10 for the ring oscillators. -/
def logStart : Act := .dyn fun s =>
  let code := s.fld F.AGE_AVS_CODE
  acts [onAge fun a => { a with burn := some code, logRings := none }, setB F.AGE_STAT_BURN true, setF F.AGE_STAT_ERR 0,
    if code = 10 then logMeasured else setAvs 10 3]

/-- LOG of AGE_CMD (R370). -/
def logCmd : Act := .dyn fun s =>
  if s.dev != .ready then refuseCmd R.AGE_CMD 4
  else if s.ageBusy || s.b.age.avsOld.isSome then err R.AGE_CMD Err.refused
  else if s.logErr ≠ 0 then
    acts [setF F.AGE_STAT_ERR s.logErr, err R.AGE_CMD Err.refused, on (s.logErr == 5) logFull]
  else logStart

/-- LOG (R370). -/
def execLog (s : State) : Host.Outcome State Fault Refusal := perform (toPage 0xD1 logCmd) s

/-- AUTO_LOG (R370). -/
def execAutoLog (s : State) : Host.Outcome State Fault Refusal :=
  perform (.dyn fun s =>
    on (s.dev == .ready && s.flag F.AGE_CFG_AUTO && s.pageWorks 0xD1 && !s.ageBusy && s.b.age.avsOld.isNone)
      (if s.logErr = 0 then logStart else on (s.logErr == 5) logFull)) s

/-- Hours of TIME clock ticks (R309, R371). -/
def hoursOf (ticks : Nat) : Nat := ticks / 900000000000

/-- The rank with the highest smoothed correction rate: its key and that rate (R371). -/
def State.worstRank (s : State) : Nat × Nat :=
  (List.range 8).foldl (fun b k =>
    let r := (Config.rateOfWord (spGet (fun _ => 0) s.b.age.rates k)).toNat
    if b.2 < r then (k, r) else b) (0, (Config.rateOfWord (spGet (fun _ => 0) s.b.age.rates 0)).toNat)

/-- Shift of a ring oscillator from its baseline in OTP, in ppm (R371), to nearest (DESIGN CHOICE: the rounding is not stated); none
where OTP holds no baseline. -/
def State.ringShift (s : State) (rings : List (Nat × Nat)) (i : Nat) : Option Int :=
  let base : Int := (s.otpWord (ringBaselineWord i) : Nat)
  if base = 0 then none
  else some ((2 * (((spGet (fun _ => 0) rings i : Nat) : Int) - base) * 1000000 + base).fdiv (2 * base))

/-- RO_MEAN and RO_WORST, the shift of the largest magnitude (R371), saturating at 16 bits; without a baseline they are free values. -/
def State.ringFields (s : State) (rings : List (Nat × Nat)) : Nat × Nat :=
  let shifts := (List.range 16).filterMap (s.ringShift rings)
  let code := fun x : Int => ofSigned 16 (satI x (-32768) 32767)
  if shifts.length = 16 then
    (code ((2 * shifts.sum + 16).fdiv 32), code (shifts.foldl (fun w x => if w.natAbs < x.natAbs then x else w) 0))
  else (Config.unstated 7 s.fresh % 65536, Config.unstated 8 s.fresh % 65536)

/-- A log entry but its ECRC (R371): `code` is the CODE in use, and the shifts of the ring oscillators are those measured. -/
def logBytes (s : State) (code mean worst : Nat) : List Nat :=
  let w := s.worstRank
  let taps := ((List.range 68).filter fun t => s.tapRetired t).length
  let engines := ((List.range 16).filter fun e => s.flag (F.PE_STAT_RETIRED e)).length
  leBytes 4 s.day ++ [code, s.fld F.AGE_CAN_MIN_CANARY] ++ leBytes 2 (s.fld F.AGE_CAN_MIN_PS) ++ leBytes 2 mean ++ leBytes 2 worst ++
    leBytes 2 (s.rd R.THM_MAX) ++ [s.fld F.AGE_FOM_MIN_FOM, s.fld F.AGE_FOM_MIN_LANE] ++
    leBytes 4 (hoursOf (s.b.tim.ticks - s.b.age.since)) ++ leBytes 4 (hoursOf s.b.age.writing) ++ leBytes 2 w.2 ++
    [w.1 / 2 * 16 + w.1 % 2 * 8 + min 7 s.b.ram.retired.length, min 15 taps * 16 + min 15 engines]

/-- Burn an entry. -/
def burnEntry (i : Nat) (b : List Nat) : Act :=
  let all := b ++ leBytes 4 (crcOf crc32c b)
  each (List.range 8) fun k => .otp (ageLogWord + 8 * i + k) (BitVec.ofNat 32 (leAt all (4 * k) 4))

/-- LOG_WRITTEN (R370, R371): the entry is burned once CODE is restored. -/
def execLogWritten (s : State) : Host.Outcome State Fault Refusal :=
  perform (.dyn fun s =>
    match s.b.age.burn, s.b.age.logRings with
    | some code, some rings =>
      let i := s.logUsed
      let ro := s.ringFields rings
      on s.b.age.avsOld.isNone
        (acts [burnEntry i (logBytes s code ro.1 ro.2), .draw,
          onAge fun a => { a with
            burn := none, logRings := none, logAt := some s.b.tim.sec, since := s.b.tim.ticks, writing := 0 },
          setB F.AGE_STAT_BURN false, raise E.AGE_LOG_WRITTEN, on (i == 319) logFull, runWaiting])
    | _, _ => .nop) s

end Sys2Proof.Machine
end

