-- ==== Sys2Proof/Machine/Health.lean ====
section
/-! DEFINITION. The housekeeping round: temperatures, supplies, ageing monitors and the calibration trigger (R210, R356 to
R367, R379). -/

namespace Sys2Proof.Machine

/-! ### Levels (R359) -/

/-- One round of a level: `up` is a value beyond it, `down` one back beyond its hysteresis; true where the level is
entered. -/
def Level.next (l : Level) (dwell : Nat) (up down : Bool) : Level × Bool :=
  if l.above then
    if !down then (⟨true, 0⟩, false)
    else if dwell ≤ l.run + 1 then (⟨false, 0⟩, false) else (⟨true, l.run + 1⟩, false)
  else
    if !up then (⟨false, 0⟩, false)
    else if dwell ≤ l.run + 1 then (⟨true, 0⟩, true) else (⟨false, l.run + 1⟩, false)

/-- DWELL of THM_CFG; 0 acts as 1 (R379). -/
def State.dwell (s : State) : Nat := max 1 (s.fld F.THM_CFG_DWELL)

/-- A temperature or rate level: its state, its bit, and what its entry does. -/
def thmLevel (get : ThmBlk → Level) (put : ThmBlk → Level → ThmBlk) (bit : Fld) (v level hyst : Int) (enter : Act) : Act :=
  .dyn fun s =>
    let n := (get s.b.thm).next s.dwell (decide (level < v)) (decide (v < level - hyst))
    acts [onThm fun t => put t n.1, setB bit n.1.above, on n.2 enter]

/-! ### Sensors (R358, R362 to R365) -/

/-- A sensor is excluded. -/
def State.excluded (s : State) (i : Nat) : Bool := (s.fld F.THM_STAT_EXCL).testBit i

/-- The sensors in use. -/
def State.sensors (s : State) : List Nat := (List.range 28).filter fun i => !s.excluded i

/-- A sensor's latched temperature, 1/16 °C. -/
def State.temp (s : State) (i : Nat) : Int := toSigned 16 (s.fld (F.THM_T_TEMP i))

/-- Exclude a sensor (R364). -/
def excludeSensor (i : Nat) : Act := .dyn fun s =>
  on (!s.excluded i) (acts [setF F.THM_STAT_EXCL (Nat.lor (s.fld F.THM_STAT_EXCL) (2 ^ i)),
    onThm fun t => { t with strikes := spPut (fun _ => 0) t.strikes i 0 }, raise E.THM_SENSOR_EXCLUDED])

/-- The neighbours of a sensor that are in use (R356, R363, R379). -/
def State.neighbours (s : State) (i : Nat) : List Nat :=
  ((List.range 4).map fun k => s.rd (R.THM_NBR i) / 256 ^ k % 256).filter fun n => decide (n < 28) && !s.excluded n

/-- The median; of an even number of values the mean of the middle two, rounded towards minus infinity (R363). -/
def median (l : List Int) : Int :=
  let t := l.mergeSort fun a b => decide (a ≤ b)
  if t.length % 2 = 1 then t.getD (t.length / 2) 0
  else (t.getD (t.length / 2 - 1) 0 + t.getD (t.length / 2) 0).fdiv 2

/-- A sensor's deviation from the median of its neighbours; none where it is not checked (R363). -/
def State.deviation (s : State) (i : Nat) : Option Nat :=
  let n := s.neighbours i
  if s.excluded i ∨ n.length < 2 then none else some (s.temp i - median (n.map s.temp)).natAbs

/-- Readings that exclude a sensor at once (R364). -/
def rangeCheck (temps : List (BitVec 16 × Bool)) : Act :=
  each (List.range 28) fun i =>
    let r := temps.getD i (0, false)
    let t := r.1.toInt
    on (r.2 || decide (t < -640) || decide (2400 < t)) (excludeSensor i)

/-- The cross-check of a round (R363, R364): of the sensors that have reached XROUNDS, the one with the largest deviation is
excluded. -/
def crossCheck : Act := .dyn fun s =>
  let devs := (List.range 28).filterMap fun i => (s.deviation i).map fun d => (i, d)
  let limit := s.fld F.THM_CFG_XCHK
  let rounds := s.fld F.THM_CFG_XROUNDS
  let strike := fun (e : Nat × Nat) => if limit < e.2 then spGet (fun _ => 0) s.b.thm.strikes e.1 + 1 else 0
  let reached := devs.filter fun e => decide (rounds ≤ strike e)
  let worst := reached.find? fun e => reached.all fun f => decide (f.2 ≤ e.2)
  on (rounds != 0)
    (.seq (onThm fun t => { t with strikes := devs.foldl (fun l e => spPut (fun _ => 0) l e.1 (strike e)) t.strikes })
      (match worst with | some e => excludeSensor e.1 | none => .nop))

/-- 8 or more sensors are excluded (R365). -/
def sensorLimit : Act := .dyn fun s =>
  let many := decide (s.sensors.length ≤ 20)
  acts [on (many && !s.b.thm.limited) (raise E.THM_SENSOR_LIMIT), onThm fun t => { t with limited := many }, on many stopAtEnd]

/-- The sensor with the largest value; the lower index wins a tie (R358). -/
def largest (l : List (Nat × Int)) : Option (Nat × Int) := l.find? fun e => l.all fun f => decide (f.2 ≤ e.2)

/-- THM_TRIP and RISE_TRIP in a job are faults without a recovery path (R19, R360, R362). -/
def thermalFault : Act := .dyn fun s => on s.inJob (faultEntry 2 0xD0 0)

/-- THM_MAX and its levels (R358, R360, R361). -/
def tempLevels : Act := .dyn fun s =>
  match largest (s.sensors.map fun i => (i, s.temp i)) with
  | some (i, t) =>
    let hyst : Int := s.fld F.THM_CFG_HYST
    acts [setR R.THM_MAX (i * 2 ^ 16 + ofSigned 16 t),
      thmLevel (fun x => x.warn) (fun x l => { x with warn := l }) F.THM_STAT_WARN t (toSigned 16 (s.fld F.THM_WARN_TEMP)) hyst
        (raise E.THM_THM_WARN),
      thmLevel (fun x => x.trip) (fun x l => { x with trip := l }) F.THM_STAT_TRIP t (toSigned 16 (s.fld F.THM_TRIP_TEMP)) hyst
        (.seq (raise E.THM_THM_TRIP) thermalFault),
      onThm fun x => { x with hotRun := if 1920 ≤ t then x.hotRun + 1 else 0 }]
  | none => onThm fun x => { x with hotRun := 0 }

/-- A sensor's rate over 8 rounds, 1/16 °C/s, once it holds them since its last inclusion (R362). -/
def State.rate (s : State) (i : Nat) : Option Int :=
  let since := match s.b.thm.included.find? fun e => e.1 == i with | some e => e.2 | none => s.b.thm.history.length
  if 8 ≤ since ∧ 8 ≤ s.b.thm.history.length then
    some (((s.temp i - (s.b.thm.history.getD 7 []).getD i 0) * 125).fdiv 8)
  else none

/-- THM_RISE_MAX and its levels (R362). -/
def rateLevels : Act := .dyn fun s =>
  match largest (s.sensors.filterMap fun i => (s.rate i).map fun r => (i, r)) with
  | some (i, r) =>
    let hyst : Int := s.fld F.THM_CFG_HYST
    acts [setR R.THM_RISE_MAX (i * 2 ^ 16 + ofSigned 16 r),
      thmLevel (fun x => x.riseWarn) (fun x l => { x with riseWarn := l }) F.THM_STAT_RWARN r (s.fld F.THM_RISE_WARN : Nat) hyst
        (raise E.THM_RISE_WARN),
      thmLevel (fun x => x.riseTrip) (fun x l => { x with riseTrip := l }) F.THM_STAT_RTRIP r (s.fld F.THM_RISE_TRIP : Nat) hyst
        (.seq (raise E.THM_RISE_TRIP) thermalFault)]
  | none => .nop

/-- The round joins the history of the rates. -/
def keepHistory : Act := .dyn fun s =>
  let now := (List.range 28).map s.temp
  onThm fun t => { t with
    history := now :: t.history.take 8
    included := (t.included.map fun e => (e.1, e.2 + 1)).filter fun e => decide (e.2 ≤ 9) }

/-! ### Supplies (R357, R359) -/

/-- The lower and upper limit of a supply channel, and its two levels. -/
def supplyCheck (ch : Nat) : Act := .dyn fun s =>
  let v := s.fld (F.HK_VAL_VAL ch)
  let lo := s.fld (F.HK_LIM_LOW ch)
  let hi := s.fld (F.HK_LIM_HIGH ch)
  let h := s.fld F.THM_CFG_HK_HYST
  let get := fun k => spGet (fun _ => (⟨false, 0⟩ : Level)) s.b.thm.supply k
  let low := (get (2 * ch)).next s.dwell (decide (v < lo)) (decide (lo + h < v))
  let high := (get (2 * ch + 1)).next s.dwell (decide (hi < v)) (decide (v + h < hi))
  acts [onThm fun t => { t with supply := spPut (fun _ => ⟨false, 0⟩) (spPut (fun _ => ⟨false, 0⟩) t.supply (2 * ch) low.1) (2 * ch + 1) high.1 },
    setB (F.HK_STAT_LO ch) low.1.above, setB (F.HK_STAT_HI ch) high.1.above,
    on low.2 (raise E.THM_HK_LIMIT), on high.2 (raise E.THM_HK_LIMIT)]

/-! ### Ageing monitors (R366, R367) -/

/-- The worst canary and its levels, which work downwards with 5 ps of hysteresis (R367). -/
def canaryLevels (canaries : List (BitVec 16)) : Act := .dyn fun s =>
  let l := (List.range 48).map fun i => (i, (canaries.getD i 0).toNat)
  match l.find? fun e => l.all fun f => decide (e.2 ≤ f.2) with
  | some (i, ps) =>
    let warn := s.b.age.warn.next s.dwell (decide (ps < s.fld F.AGE_CFG_WARN)) (decide (s.fld F.AGE_CFG_WARN + 5 < ps))
    let crit := s.b.age.crit.next s.dwell (decide (ps < s.fld F.AGE_CFG_CRIT)) (decide (s.fld F.AGE_CFG_CRIT + 5 < ps))
    acts [onAge fun a =>
        { a with
          canaries := l.foldl (fun t e => spPut (fun _ => 0) t e.1 e.2) a.canaries
          warn := warn.1
          crit := crit.1 },
      setR R.AGE_CAN_MIN (i * 2 ^ 16 + ps), on warn.2 (raise E.AGE_MARGIN_LOW),
      on crit.2 (.seq (raise E.AGE_MARGIN_CRIT) stopAtEnd)]
  | none => .nop

/-- The word of a smoothed figure of merit after a round: m + (FOM − m)/256 (R366), in the word's own units. -/
def smoothFom (m fom : Nat) : Nat :=
  let x := 255 * m + fom * 2 ^ (Config.fomFrac % 25)
  x / 256 + (if x % 256 ≠ 0 ∧ Config.fomUp m fom then 1 else 0)

/-- The figure of merit that a smoothed word shows (R366, R380). -/
def fomOfWord (m : Nat) : Nat :=
  let unit := 2 ^ (Config.fomFrac % 25)
  min 255 (m / unit + (if m % unit ≠ 0 ∧ Config.fomShownUp m then 1 else 0))

/-- Smooth a lane's figure of merit. -/
def smoothLane (t : List (Nat × Nat)) (i fom : Nat) : List (Nat × Nat) :=
  spPut (fun _ => 0) t i (smoothFom (spGet (fun _ => 0) t i) fom)

/-- The smoothed figures of merit (R366, R367): plate lanes that report LOCK, and the eye monitors of the return and pair
lanes. -/
def fomMonitors (foms : List Byte) : Act := .dyn fun s =>
  let plate := (List.range 64).filter fun p => s.b.plk.locked.contains p
  let t1 := plate.foldl (fun t p => smoothLane t p (s.fld (F.LQ_STAT_FOM (s.feeds p)))) s.b.age.foms
  let t2 := (List.range 12).foldl (fun t i => smoothLane t (64 + i) (foms.getD i 0).toNat) t1
  let smooth := fun p => fomOfWord (spGet (fun _ => 0) t2 p)
  let low := plate.filter fun p => decide (smooth p < s.fld F.PLK_FOM_WARN + 8) && !s.b.age.trend.contains p
  acts [onAge fun a => { a with foms := t2, trend := a.trend ++ low }, each low fun _ => raise E.AGE_FOM_TREND,
    match plate.find? fun p => plate.all fun q => decide (smooth p ≤ smooth q) with
      | some p => setR R.AGE_FOM_MIN (p * 2 ^ 8 + smooth p)
      | none => .nop]

/-- The smoothed DRAM correction rates (R366). -/
def rateMonitors : Act := .dyn fun s =>
  let count := fun k : Nat => s.rd (if k % 2 = 0 then R.MC_CE_CNT0 (k / 2) else R.MC_CE_CNT1 (k / 2))
  onAge fun a => { a with rates := (List.range 8).foldl (fun t k =>
    spPut (fun _ => 0) t k (Config.smoothRate (spGet (fun _ => 0) t k) (count k))) a.rates }

/-! ### The round (R357) -/

/-- The temperature trigger of R210, evaluated once a round (R212, R365). -/
def calTrigger : Act := .dyn fun s =>
  let dt := s.fld F.CAL_DT_DT
  let moved := (toSigned 16 s.calTemp - toSigned 16 (s.fld F.CAL_TREF_TEMP)).natAbs
  on (dt != 0 && decide (dt < moved) && s.role != .standby && s.role != .joining) (commitTrigger 1)

/-- A round from READY to FAULT. -/
def fullRound (r : HkRound) : Act :=
  acts [each (List.range 28) fun i => .seq (setF (F.THM_T_TEMP i) (r.temps.getD i (0, false)).1.toNat)
      (setF (F.HK_VAL_VAL i) (r.temps.getD i (0, false)).1.toNat),
    each (List.range 36) fun i => setF (F.HK_VAL_VAL (28 + i)) (r.supplies.getD i 0).toNat,
    addR R.THM_ROUND 1, rangeCheck r.temps, crossCheck, sensorLimit, tempLevels, rateLevels, keepHistory,
    each (List.range 36) fun i => supplyCheck (28 + i),
    canaryLevels r.canaries,
    onAge fun a => { a with rings := (List.range 16).foldl (fun t i => spPut (fun _ => 0) t i (r.rings.getD i 0).toNat) a.rings },
    fomMonitors r.foms, rateMonitors, calTrigger]

/-- A round in DORMANT (R357): the temperatures and channel 34. -/
def dormantRound (r : HkRound) : Act :=
  acts [each (List.range 28) fun i => .seq (setF (F.THM_T_TEMP i) (r.temps.getD i (0, false)).1.toNat)
      (setF (F.HK_VAL_VAL i) (r.temps.getD i (0, false)).1.toNat),
    setF (F.HK_VAL_VAL 34) (r.supplies.getD 6 0).toNat, addR R.THM_ROUND 1,
    onThm fun t => { t with history := [], included := [] }, rangeCheck r.temps, sensorLimit, tempLevels,
    supplyCheck 34]

/-- The thermal reset (R361, R390). -/
def thermalReset : Act := .dyn fun s => on (decide (2 ≤ s.b.thm.hotRun)) (deviceReset 4)

/-- HK_ROUND (R357). -/
def execHkRound (r : HkRound) (s : State) : Host.Outcome State Fault Refusal :=
  performWf (roundOk r) "HK_ROUND" (.dyn fun s =>
    if !s.pageWorks 0xD0 then .nop
    else if s.dev == .ready || s.inJob || s.dev == .fault then .seq (fullRound r) thermalReset
    else if s.dev = .dormant then .seq (dormantRound r) thermalReset
    else .nop) s

/-! ### INCLUDE and EXCLUDE (R364, R378, R379) -/

/-- INCLUDE of THM_CMD: SENSOR_LIMIT may come again once fewer than 8 are excluded (R365). -/
def includeCmd (i : Nat) : Act := .dyn fun s =>
  if s.dev != .ready then refuseCmd R.THM_CMD 1
  else if 28 ≤ i then err R.THM_CMD Err.refused
  else on (s.excluded i) (acts [setF F.THM_STAT_EXCL (Nat.xor (s.fld F.THM_STAT_EXCL) (2 ^ i)),
    onThm fun t => { t with
      included := (i, 0) :: (t.included.filter fun e => e.1 != i)
      strikes := spPut (fun _ => 0) t.strikes i 0 }, sensorLimit])

/-- INCLUDE (R364). -/
def execInclude (i : Fin 32) (s : State) : Host.Outcome State Fault Refusal := perform (toPage 0xD0 (includeCmd i)) s

/-- EXCLUDE of THM_CMD. -/
def excludeCmd (i : Nat) : Act := .dyn fun s =>
  if s.dev != .ready then refuseCmd R.THM_CMD 2
  else if 28 ≤ i then err R.THM_CMD Err.refused
  else .seq (excludeSensor i) sensorLimit

/-- EXCLUDE (R378). -/
def execExclude (i : Fin 32) (s : State) : Host.Outcome State Fault Refusal := perform (toPage 0xD0 (excludeCmd i)) s

end Sys2Proof.Machine
end

