-- ==== Sys2Proof/Machine/View.lean ====
section
/-! DEFINITION. What a read of a register gives (R8, R11, R420 to R422): the page header, the registers that show the state
of a block, and the stored words of the others. -/

namespace Sys2Proof.Machine

/-- A bit of a word. -/
def bitOf (k : Nat) (v : Bool) : Nat := if v then 2 ^ k else 0

/-- A mask of the numbers below `n` that have a property. -/
def maskOf (n : Nat) (f : Nat → Bool) : Nat := ((List.range n).map fun i => bitOf i (f i)).sum

/-! ### The header (R422) -/

/-- The account that a page's header shows (R81, R121, R122, R227, R405, R416). -/
def State.pageAccount (s : State) (page : Nat) : Account :=
  match page with
  | 0x05 => s.b.snap.get s.selected
  | 0x09 => s.led.creditDma
  | 0x0A => s.led.ring
  | 0x15 => s.led.creditCel
  | 0x18 => s.led.tile
  | 0x31 => s.led.dose
  | 0x90 => s.led.frame
  | 0xB1 => s.led.shot
  | _ => {}

/-- A register of a page's header (R422). -/
def State.headerWord (s : State) (r : PageRow) (page off : Nat) : Nat :=
  match off with
  | 0x000 => r.first * 2 ^ 16 + (page - r.first) * 2 ^ 8 + 1
  | 0x004 => bitOf 11 r.early + bitOf 10 r.dormant + bitOf 9 r.inj + bitOf 8 r.ledger + r.events
  | 0x00C => s.rd (pageReg page off) + bitOf 9 (s.working page)
  | 0x010 => s.evtRaw page
  | 0x014 => s.evtEn page
  | 0x018 => s.evtPend page
  | 0x030 => (s.pageAccount page).inn.toNat % 2 ^ 32
  | 0x034 => (s.pageAccount page).out.toNat % 2 ^ 32
  | 0x038 => (s.pageAccount page).held.toNat % 2 ^ 32
  | _ => if [0x008, 0x020, 0x024, 0x028, 0x02C, 0x03C].contains off then s.rd (pageReg page off) else 0

/-! ### Registers that show the state of a block -/

/-- TOP_STAT (R436). -/
def State.topStat (s : State) : Nat := s.prevDev.code * 2 ^ 16 + s.role.code * 2 ^ 8 + s.dev.code

/-- The EVT page's counts and sums (R434). -/
def State.evtView (s : State) (off : Nat) : Option Nat :=
  if off < 0x900 then if off % 8 = 4 then some (spGet (fun _ => (0 : Word)) s.evt.cnt ((off - 0x104) / 8)).toNat else none
  else if off < 0x920 then some (maskOf 32 fun b => s.srcPending ((off - 0x900) / 4 * 32 + b))
  else if off < 0x92C then some (maskOf 32 fun b =>
    decide ((off - 0x920) / 4 * 32 + b < 68) && s.evtPend (0x40 + (off - 0x920) / 4 * 32 + b) != 0)
  else if off = 0x930 then some s.evt.lost.toNat
  else none

/-- FIJ_STAT.LEFT (R417): the seconds of the TIME clock (250 MHz) until the arming in force expires. -/
def State.fijSecondsLeft (s : State) : Nat :=
  let expire := s.fld F.FIJ_EXPIRE_S
  if expire = 0 then 0xFFFF
  else if s.flag F.FIJ_ARM_ARM then expire - (s.b.tim.ticks - s.b.tim.armed) / 250000000
  else 0

/-- FIJ_STAT (R417). -/
def State.fijStat (s : State) : Nat :=
  s.rd R.FIJ_STAT + s.fijSecondsLeft + (maskOf 4 fun i => s.flag (pageCtrl (injPages.getD i 0) 3)) * 2 ^ 16

/-- JOB_STAT (R257): entries queued, and what the next one waits for. -/
def State.jobStat (s : State) : Nat :=
  bitOf 31 (s.b.job.queue.any fun e => e.last) + s.b.job.queue.length * 2 ^ 16 +
    match s.b.job.queue with
    | [] => 0
    | e :: _ => if e.outOfTravel then 3 else if e.missing then 2 else 1

/-- The HIF page's pending bits (R435). -/
def State.pbaWord (s : State) (k : Nat) : Nat := maskOf 32 fun b => s.evt.pba.contains (32 * k + b)

/-- DMA_CH_STAT (R124). A channel that moves data is READING, WRITING or CONFIRMING, and which of the three is open: the spec gives no
time that a beat spends in each. -/
def State.chanStat (s : State) (ch : Nat) : Nat :=
  match s.chan ch with
  | some c => c.dindex % 2 ^ 16 * 2 ^ 16 + c.ring * 2 ^ 8 +
      (if c.parked then 5 else if c.poolWait then 6 else if s.chanWaits c then 4 else 1 + Config.unstated 15 (ch + 32 * s.fresh) % 3)
  | none => 0

/-- The DMA page (R124). -/
def State.dmaView (s : State) (off : Nat) : Option Nat :=
  if off = 0x900 then some (maskOf 32 fun ch => match s.chan ch with | some c => c.moving && !s.chanWaits c | none => false)
  else if off = 0x904 then some (maskOf 32 fun ch => match s.chan ch with | some c => c.parked | none => false)
  else if off < 0x900 ∧ (off - 0x100) % 0x40 = 4 then some (s.chanStat ((off - 0x100) / 0x40))
  else none

/-- RNG_STAT (R125). -/
def State.ringStat (s : State) (r : Nat) : Nat :=
  bitOf 3 (s.b.cel.bins.any fun x => x.sring == some r && s.b.cel.waits.contains x.num) +
    bitOf 2 (s.ringStalled r) + bitOf 1 (s.ringUsed r == s.ringLen r) + bitOf 0 (s.pi r == s.ci r)

/-- The register sets of the rings, by offset from the RNG page (R125). -/
def State.rngView (s : State) (off : Nat) : Option Nat :=
  let r := (off - 0x100) / 0x20
  match (off - 0x100) % 0x20 with
  | 0x0C => some (s.pi r)
  | 0x10 => some (s.ci r)
  | 0x18 => some (s.ringStat r)
  | _ => none

/-- CEL_STAT (R126). -/
def State.celStat (s : State) : Nat :=
  match s.b.cel.waits with
  | n :: _ =>
    let need := match s.bin n with | some x => (match x.hdr with | some h => h.units | none => 0) | none => 0
    2 ^ 31 + n * 2 ^ 16 + min (need - s.poolFree) 0xFFFF
  | [] => 0

/-- CEL_BIN_INFO (R126). -/
def State.binInfo (s : State) : Nat :=
  match s.bin (s.fld F.CEL_BIN_SEL_BIN) with
  | some x => (match x.state with | .filling => 1 | .ready => 2 | .current => 3) * 2 ^ 30 +
      x.sring.getD 0 * 2 ^ 24 + x.stripe % 2 ^ 24
  | none => 0

/-- PRS_STAT (R94). -/
def State.prsStat (s : State) : Nat := s.enginesAvail * 2 ^ 16 + maskOf 16 fun e => s.flag (F.PE_STAT_RETIRED e)

/-- CSK_STAT (R152): FREE counts from the first fit on. -/
def State.cskStat (s : State) : Nat :=
  (match s.b.cask.head with | some h => h / 64 % 128 | none => 0) * 2 ^ 24 + s.b.cask.discard / 64 % 128 * 2 ^ 16 +
    s.heldBands * 2 ^ 8 + (if s.flag F.CSK_FIT_VALID then 128 - s.heldBands else 0)

/-- TP_STAT (R153). -/
def State.tapStat (s : State) (t : Nat) : Nat :=
  if s.dev = .reset then 0 else
  let lane := s.laneOf t
  let st := s.fld (F.TP_STAT_STATE t)
  (if t < 64 then t else lane.getD 0) * 2 ^ 24 + bitOf 23 (decide (64 ≤ t)) + s.fld (F.TP_STAT_RETRIES t) * 2 ^ 8 +
    (if st = 0 ∧ lane.isSome then 1 else st)

/-- PLK_STAT (R193). -/
def State.plkStat (s : State) : Nat :=
  s.b.plk.locked.length * 2 ^ 16 + s.fld F.PLK_STAT_ERR * 2 ^ 4 + s.fld F.PLK_STAT_BRINGUP

/-- The receive lanes that are up, as a mask. -/
def State.rxMask (s : State) : Nat := maskOf 8 fun l => s.rxLanes.contains l

/-- PAR_STAT (R292). -/
def State.parStat (s : State) : Nat :=
  let p := s.b.par
  let same := match p.ownDigest, p.mateDigest with | some a, some b => a.1 == b.1 | _, _ => false
  bitOf 28 same + p.joinStep * 2 ^ 24 + s.rxMask * 2 ^ 16 + s.fld F.PAR_STAT_JOIN_ERR * 2 ^ 12 + bitOf 9 p.wdMate +
    bitOf 8 p.wdSelf + p.mate.code * 2 ^ 4 + s.role.code

/-- A word that a wide read has latched (R228). -/
def State.latchedWord (s : State) (addr : Nat) : Nat := (spGet (fun _ => (0 : Word)) s.b.pos.latched addr).toNat

/-- The low word of a wide register. -/
def State.wideLow (s : State) (addr : Nat) : Option Nat := (s.wide addr).map fun w => w.1

/-- POS_STAT (R228). -/
def State.posStat (s : State) : Nat :=
  s.fld F.POS_STAT_JRX_UP * 2 ^ 31 + s.fld F.POS_STAT_SYSREF_OK * 2 ^ 30 + s.fld F.POS_STAT_SYSREF_MOVED * 2 ^ 29 +
    axisMask (fun i => (s.b.pos.axis i).lost) * 2 ^ 4 + axisMask s.axisValid

/-- AX_STAT (R228). -/
def State.axStat (s : State) (i : Nat) : Nat :=
  s.fld (F.AX_STAT_RADIUS i) * 2 ^ 16 + s.fld (F.AX_STAT_CAND_VALID i) * 2 ^ 8 + s.fld (F.AX_STAT_SLIP i) * 4 +
    bitOf 1 (s.b.pos.axis i).lost + bitOf 0 (s.axisValid i)

/-- The POS page and the axes' register sets (R228). -/
def State.posView (s : State) (addr : Nat) : Option Nat :=
  if addr = R.POS_STAT then some s.posStat
  else if addr = R.POS_YAW then some (if s.rd R.POS_BASE = 0 then 0 else s.rd R.POS_YAW)
  else if addr = R.POS_Y_HI ∨ addr = R.POS_X_HI then some (s.latchedWord addr)
  else match s.wideLow addr with
    | some w => some w
    | none =>
      let i := (addr - 0xB0200) / 0x40
      if addr < 0xB0200 then none
      else if addr = R.AX_CNT_HI i then some (s.latchedWord addr)
      else if addr = R.AX_STAT i then some (s.axStat i)
      else none

/-- The stage waits at rest: for a run-in, for a further stripe, or in a racking's dwell (R247, R248, R254). -/
def State.motWaits (s : State) : Bool :=
  s.atRest && ((s.dev == .armed && !s.b.job.disarming) || (s.dev == .writing && s.b.mot.phase == .turn) || s.b.mot.rackPart == 3)

/-- MOT_STAT (R258). -/
def State.motStat (s : State) : Nat :=
  bitOf 31 (!s.atRest) + s.fld F.MOT_STAT_LATCHED * 2 ^ 30 + s.fld F.MOT_STAT_REFUSED * 2 ^ 29 +
    bitOf 28 (decide (s.vTgt < s.vCap)) + bitOf 27 s.motWaits + s.b.mot.phase.code

/-- The LTQ page (R327). -/
def State.ltqView (s : State) (off : Nat) : Option Nat :=
  if off = 0x208 then some (1024 - s.ltqUsed)
  else if off < 0x200 ∧ off % 0x10 = 4 then some (s.ltqDepth ((off - 0x100) / 0x10))
  else none

/-- BST_STAT.STATE (R374, R381): a slice is saved for 4 µs, tested, and restored for 4 µs; the test that gave way or was given up is
restored too. -/
def State.bstState (s : State) : Nat :=
  let now := s.b.tim.ticks
  let back := s.b.bst.restoring.isSome && decide (now < s.b.bst.restoreAt + 1000)
  match s.b.bst.cur with
  | some t =>
    if t.yielded then (if back then 3 else 0)
    else if now < t.since + 1000 then 1
    else if s.groupsOf t 0 < s.fld F.BST_PATTERNS_GROUPS then 2
    else 3
  | none => if back then 3 else 0

/-- BST_STAT (R381). -/
def State.bstStat (s : State) : Nat :=
  F.BST_STAT_STATE.put (match s.b.bst.cur with
    | some t => F.BST_STAT_GROUP.put (s.rd R.BST_STAT) (if t.yielded then t.group else s.groupsOf t 0)
    | none => s.rd R.BST_STAT) s.bstState

/-- What a strobe output shows outside shots (R451): nothing, high-impedance, in OFF; low in every other state. -/
def State.strobeRest (s : State) : Option Bool := if s.dev = .off then none else some false

/-- Slots of the sessions that are up, as a mask (R328). -/
def State.sessMask (s : State) : Nat := maskOf 8 fun k => s.b.net.sessions.any fun x => x.slot == k && x.up && !x.old

/-- The partner in the slot that DSC_SEL names (R329). -/
def State.selPartner (s : State) : Option Partner := s.b.net.partners.find? fun p => p.slot == s.fld F.DSC_SEL_SEL

/-- DSC_E_INFO (R329). -/
def State.partnerInfo (s : State) (p : Partner) : Nat :=
  2 ^ 31 + bitOf 30 (s.session p.id).isSome + p.role * 2 ^ 27 + p.pref * 2 ^ 26 + p.heard * 2 ^ 24 + p.state * 2 ^ 20 + p.column

/-- The DSC page (R329). -/
def State.dscView (s : State) (addr : Nat) : Option Nat :=
  let sel := fun (f : Partner → Nat) => some (match s.selPartner with | some p => f p | none => 0)
  if addr = R.DSC_STAT then some (s.b.net.partners.length * 2 ^ 16 + bitOf 0 (!(s.partners 1).isEmpty))
  else if addr = R.DSC_E_ID_LO then sel fun p => p.id % 2 ^ 32
  else if addr = R.DSC_E_ID_HI then sel fun p => p.id / 2 ^ 32 % 2 ^ 32
  else if addr = R.DSC_E_INFO then sel s.partnerInfo
  else if addr = R.DSC_E_AGE then sel fun p => min ((s.b.tim.ticks - p.at') / 250000) 0xFFFFFFFF
  else none

/-- A register that shows the state of its block; none where the register holds a stored word. -/
def State.shown (s : State) (addr : Nat) : Option Nat :=
  let off := addr % 0x1000
  let eq := fun (r : Nat) (v : Nat) => if addr = r then some v else none
  match addr / 0x1000 with
  | 0x00 => eq R.TOP_STAT s.topStat
  | 0x01 => s.evtView off
  | 0x06 => eq R.FIJ_STAT s.fijStat
  | 0x07 => (eq R.JOB_STAT s.jobStat).or (eq R.JOB_DATA s.b.job.lastWord.toNat)
  | 0x08 => if 0x800 ≤ off then some (s.pbaWord ((off - 0x800) / 4)) else none
  | 0x09 => s.dmaView off
  | 0x0A => s.rngView off
  | 0x0B => s.rngView (off + 0x1000)
  | 0x14 => eq R.MEM_SCRUB_STAT (s.rd R.MEM_SCRUB_STAT + bitOf 29 (s.b.ram.scrub.isSome && !s.powered 2))
  | 0x15 => ((eq R.CEL_POOL_FREE s.poolFree).or (eq R.CEL_STAT s.celStat)).or (eq R.CEL_BIN_INFO s.binInfo)
  | 0x18 => (eq R.PRS_STAT s.prsStat).or (eq R.PRS_FILL s.fill)
  | 0x30 => (eq R.CSK_STAT s.cskStat).or (eq R.CSK_OLDEST s.oldestOpen)
  | 0x31 => eq R.LAT_DATA s.latData
  | 0x90 => eq R.PLK_STAT s.plkStat
  | 0xA8 => (eq R.PAR_STAT s.parStat).or (eq R.PAR_LANES (s.b.par.txUp * 2 ^ 8 + s.rxMask))
  | 0xB0 => s.posView addr
  | 0xB1 => eq R.SHT_NEXT (ofSigned 32 s.b.sht.next)
  | 0xB2 => eq R.TRK_DATA s.trkData
  | 0xB4 => (eq R.MOT_STAT s.motStat).or (eq R.MOT_VCMD (magnitude s.b.mot.y.v).floor.toNat)
  | 0xC0 => (eq (R.NET_MAC_LO 0) (s.mac 0 % 2 ^ 32)).or (eq (R.NET_MAC_HI 0) (s.mac 0 / 2 ^ 32))
  | 0xC1 => (eq (R.NET_MAC_LO 1) (s.mac 1 % 2 ^ 32)).or (eq (R.NET_MAC_HI 1) (s.mac 1 / 2 ^ 32))
  | 0xD2 => eq R.BST_STAT s.bstStat
  | 0xC2 => if addr = R.TIM_STAT then some (F.TIM_STAT_PORT.put (s.rd R.TIM_STAT) s.ptpPort)
    else if addr = R.TIM_SEC_LO ∨ addr = R.TIM_SEC_HI then some (s.latchedWord addr) else s.wideLow addr
  | 0xC3 => s.ltqView off
  | 0xC4 =>
    if addr = R.IDN_DATA then some s.idnData
    else if addr = R.IDN_STAT then some (s.rd R.IDN_STAT + bitOf 31 s.hasOwner)
    else if addr = R.IDN_SERIAL_LO then some (s.otpWord 0)
    else if addr = R.IDN_SERIAL_HI then some (s.otpWord 1)
    else eq R.IDN_SESS s.sessMask
  | 0xC5 => s.dscView addr
  | 0xD1 =>
    if addr = R.AGE_DATA then some s.ageData
    else if addr = R.AGE_LAST_LOG then some s.lastLog
    else eq R.AGE_STAT (s.rd R.AGE_STAT + s.logUsed * 2 ^ 20)
  | 0xF0 => eq R.OTP_DATA (s.otpData (s.fld F.OTP_IDX_INDEX))
  | page =>
    if 0x40 ≤ page ∧ page ≤ 0x83 then eq (R.TP_STAT (page - 0x40)) (s.tapStat (page - 0x40))
    else if 0xC8 ≤ page ∧ page ≤ 0xCB then
      (eq (R.CK_RES_LO (page - 0xC8)) (s.ckRes (page - 0xC8) % 2 ^ 32)).or
        (eq (R.CK_RES_HI (page - 0xC8)) (s.ckRes (page - 0xC8) / 2 ^ 32 % 2 ^ 32))
    else none

/-- What a read of an address gives (R8, R11, R421, R422). -/
def State.view (s : State) (addr : Nat) : Nat :=
  let page := addr / 0x1000
  match pageRow page with
  | some r =>
    if addr % 0x1000 < 0x100 then s.headerWord r page (addr % 0x1000)
    else match regDesc addr with
      | some d => match s.shown addr with
        | some v => v % 2 ^ 32
        | none => Nat.land (s.rd addr) (0xFFFFFFFF - d.wo)
      | none => 0
  | none =>
    match regDesc addr with
    | some d => match s.shown addr with
      | some v => v % 2 ^ 32
      | none => Nat.land (s.rd addr) (0xFFFFFFFF - d.wo)
    | none => 0

/-- What a read of an address does beside answering: a window's index moves on, and a wide register's high words are
latched (R55, R228, R230, R328, R380, R438). -/
def readEffect (addr : Nat) : Act :=
  if addr = R.LAT_DATA then latReadStep
  else if addr = R.TRK_DATA then trkStep
  else if addr = R.IDN_DATA then idnReadStep
  else if addr = R.AGE_DATA then ageStep
  else if addr = R.OTP_DATA then otpReadStep
  else .dyn fun s => match s.wide addr with
    | some w => latchHigh w.2
    | none => .nop

end Sys2Proof.Machine
end

