-- ==== Sys2Proof/Machine/Bus.lean ====
section
/-! DEFINITION. The register bus: a write to any register (R8, R11, R263, R420 to R424 and the register tables of every chapter),
accesses in DORMANT (R396), REG_READ and REG_WRITE (R299), and doorbells with the messages of the control rings (R106, R300,
R301). -/

namespace Sys2Proof.Machine

/-! ### Registers whose writes are plain (R11, R263, R424) -/

/-- Registers besides MOT's that a pair writes together (R263). -/
def coveredRegs : List Nat := [R.POS_YAW_LIM, R.POS_EST_CFG, R.POS_RLIM, R.TRK_EMAX, R.CAL_DT, R.CAL_RAMP]

/-- A MOT register that a pair writes together (R263). -/
def coveredMot (addr : Nat) : Bool :=
  decide (R.MOT_LEAD ≤ addr) && decide (addr ≤ R.MOT_XLIM_HI) && match regDesc addr with | some d => d.rw != 0 | none => false

/-- A field of a word lies within bounds. -/
def inRange (f : Fld) (w : Word) (lo hi : Nat) : Bool := decide (lo ≤ f.get w.toNat) && decide (f.get w.toNat ≤ hi)

/-- A signed field's magnitude. -/
def magnitudeOf (f : Fld) (w : Word) : Nat := (toSigned f.width (f.get w.toNat)).natAbs

/-- The magnitudes of an LQ_FIR word (R194): C0 is unsigned. -/
def firSum (w : Word) : Nat :=
  magnitudeOf (F.LQ_FIR_CM3 0) w + magnitudeOf (F.LQ_FIR_CM2 0) w + magnitudeOf (F.LQ_FIR_CM1 0) w +
    (F.LQ_FIR_C0 0).get w.toNat + magnitudeOf (F.LQ_FIR_C1 0) w

/-- Whether a register takes a value (R424 and the register tables). -/
def State.valueFits (s : State) (addr : Nat) (w : Word) : Bool :=
  let page := addr / 0x1000
  if addr = R.HIF_CPL_TO then inRange F.HIF_CPL_TO_MS w 0 1000
  else if addr = R.PAR_HB then inRange F.PAR_HB_NET_TIMEOUT w 10 1000 && inRange F.PAR_HB_HB_TIMEOUT w 2 1000
  else if addr = R.DSC_CFG then inRange F.DSC_CFG_INTERVAL w 100 60000
  else if addr = R.MEM_MIG_RATE then inRange F.MEM_MIG_RATE_RATE w 10 160
  else if addr = R.MEM_SCRUB_CFG then inRange F.MEM_SCRUB_CFG_RATE w 1 100
  else if addr = R.BST_PATTERNS then inRange F.BST_PATTERNS_GROUPS w 1 65535
  else if addr = R.SHT_SEAL_LEAD then inRange F.SHT_SEAL_LEAD_NS w 80 400
  else if addr = R.SHT_CFG then inRange F.SHT_CFG_VWIN w 3 7 && decide (2 ^ F.SHT_CFG_VWIN.get w.toNat * s.rd R.POS_TS ≤ 64 * 2 ^ 24)
  else if addr = R.MOT_LEAD then inRange F.MOT_LEAD_US w 500 10000
  else if addr = R.POS_EST_CFG then inRange F.POS_EST_CFG_MIN w 1 255
  else if addr = R.PRS_MARKS then decide (F.PRS_MARKS_LOW.get w.toNat < F.PRS_MARKS_HIGH.get w.toNat)
  else if 0x91 ≤ page ∧ page ≤ 0xA0 ∧ addr % 0x20 = 4 then decide (firSum w ≤ 63)
  else true

/-- A write to a register that only holds its value: locked first, then in range (R11, R424). -/
def storeValue (addr : Nat) (w : Word) : Act := .dyn fun s =>
  match regDesc addr with
  | some d =>
    if s.locked ∧ d.rwl ≠ 0 ∧ d.rw = 0 then err addr Err.locked
    else if s.valueFits addr w then writeLocked addr w
    else err addr Err.range
  | none => .nop

/-- A write to a covered register while a pair runs a job: the ACTIVE passes it on and both apply it together; the STANDBY
ignores it (R263). -/
def plainWrite (addr : Nat) (w : Word) : Act := .dyn fun s =>
  let mot := coveredMot addr
  if s.paired && s.locked && s.b.par.mate != .lost && (mot || coveredRegs.contains addr) then
    if s.role = .standby then err addr Err.conflict
    else if s.valueFits addr w = false then err addr Err.range
    else if mot then pairAtPeriod addr w.toNat
    else
      let j := s.sampleAhead
      .seq (pairSend 6 (j % 2 ^ 32) (regwrData addr w.toNat)) (onPos fun p => { p with writes := p.writes ++ [(j, addr, w)] })
  else storeValue addr w

/-! ### Ring registers (R105, R106, R125) -/

/-- A write to RNG_CFG (R125): configuration only while EN is 0; RESET ends the ring's descriptors. -/
def ringConfig (r : Nat) (w : Word) : Act := .dyn fun s =>
  let reg := R.RNG_CFG r
  let on' := w.toNat.testBit 31
  let was := s.flag (F.RNG_CFG_EN r)
  let size := (F.RNG_CFG_SIZE r).get w.toNat
  let link := (F.RNG_CFG_LINK r).get w.toNat
  let keep := s.rd reg % 2 ^ 31
  let asked := Nat.land w.toNat 0x1FF1F
  let base := s.rd (R.RNG_BASE_LO r) + s.rd (R.RNG_BASE_HI r) * 2 ^ 32
  let config : Act :=
    if was then
      .seq (on (asked != keep) (err reg Err.conflict)) (setR reg (keep + bitOf 31 on'))
    else if size < 12 ∨ 30 < size then err reg Err.range
    else if on' && (base % 2 ^ size != 0 || (decide (r < 64) && (decide (link < 64) || decide (95 < link)))) then
      .seq (setR reg asked) (err reg Err.range)
    else setR reg (asked + bitOf 31 on')
  .seq config (on (w.toNat.testBit 30) (ringReset r []))

/-- A write to a register of a ring's set, by its offset in the set (R125). -/
def ringWriteReg (addr r off : Nat) (w : Word) : Act := .dyn fun s =>
  match off with
  | 0x00 => if s.flag (F.RNG_CFG_EN r) then err addr Err.conflict else .wr addr w
  | 0x04 => if s.flag (F.RNG_CFG_EN r) then err addr Err.conflict else .wr addr w
  | 0x08 => ringConfig r w
  | 0x0C => doorbellIndex r w.toNat
  | 0x10 => consumerIndex r w.toNat
  | 0x14 => .seq (.wr addr w) dmaSettle
  | _ => .nop

/-! ### Command registers -/

/-- LAT_CMD (R56, R57). -/
def latCommand (c : Nat) : Act :=
  match c with
  | 1 | 2 | 3 | 4 | 5 => openLat c
  | 6 => closeLat
  | 7 => checkCmd
  | _ => .nop

/-- JOB_CMD (R257). -/
def jobCommand (c : Nat) : Act :=
  match c with
  | 1 => armCmd
  | 2 => disarmCmd
  | 3 => stopEndCmd
  | 4 => stopSafeCmd
  | 5 => flushCmd
  | _ => .nop

/-- PLK_CMD (R193). -/
def plkCommand (c : Nat) : Act :=
  match c with
  | 1 => trainCmd
  | 2 => relockCmd
  | 3 => plkCmd 3 linkIdle
  | 4 => bringupAbortCmd
  | _ => .nop

/-- PAR_CMD (R292). -/
def parCommand (c : Nat) : Act :=
  match c with
  | 1 => joinCmd false
  | 2 => joinCmd true
  | 3 => unpairCmd
  | 4 => digestCmd
  | 5 => abortCmd
  | _ => .nop

/-- A certificate that a register-borne WRITE_OWNER finds in the owner window: its verdicts are free. -/
def freeCert (v : Nat) : Cert :=
  { signedBy := (List.finRange 4).filter fun a => v.testBit (a + 1)
    usage := v.testBit 5
    serial := BitVec.ofNat 64 (v / 64)
    notBefore := 0
    notAfter := 0
    ownKey := v.testBit 0 }

/-- IDN_CMD (R328). -/
def idnCommand (c : Nat) : Act :=
  match c with
  | 1 | 2 | 3 => openIdn c
  | 4 => .dyn fun s => .seq .draw (writeOwnerCmd (freeCert (Config.unstated 10 s.fresh)))
  | 5 => setF F.IDN_STAT_WINDOW 0
  | _ => .nop

/-- PWR_CMD (R401); the link's power state at a register-borne DORMANT is free, and what channels had moved is not
stated. -/
def pwrCommand (c doms : Nat) : Act :=
  match c with
  | 1 => .dyn fun s => .seq .draw (dormantCmd (Config.unstated 9 s.fresh % 2 == 1) [])
  | 2 => wakeFrom 2 F.AON_WAKE_CFG_HOST
  | 3 => domDownCmd doms []
  | 4 => domUpCmd doms
  | _ => .nop

/-- MEM_SCRUB_CMD (R346); the lines that a register-borne STOP finds done are free. -/
def scrubCommand (c : Nat) : Act :=
  match c with
  | 1 => scrubStart
  | 2 => .dyn fun s => .seq .draw (scrubStop (Config.unstated 11 s.fresh) [])
  | _ => .nop

/-- AGE_CMD (R380). -/
def ageCommand (c : Nat) : Act :=
  match c with
  | 1 => planCmd 1 true false
  | 2 => planCmd 2 false true
  | 3 => planCmd 3 true true
  | 4 => logCmd
  | _ => .nop

/-- BST_CMD (R381). -/
def bstCommand (c : Nat) : Act :=
  match c with
  | 1 => runNextCmd
  | 2 => skipCmd
  | 3 => restartRotation
  | _ => .nop

/-- One of two commands of a page. -/
def command2 (c : Nat) (a b : Act) : Act :=
  match c with
  | 1 => a
  | 2 => b
  | _ => .nop

/-! ### A write to any register -/

/-- PAGE_CTRL (R422, R423). -/
def pageCtrlWrite (page w : Nat) : Act :=
  acts [on (w.testBit 4) (errClear page), injEnable page (w.testBit 3), stopBlock page 2 (w.testBit 2) (w.testBit 2),
    stopBlock page 0 (w.testBit 0) (!w.testBit 0), on (w.testBit 1) (srst page)]

/-- A write to a page's header (R422). -/
def headerWrite (page off : Nat) (w : Word) : Act :=
  match off with
  | 0x008 => pageCtrlWrite page w.toNat
  | 0x014 => enableEvents page w
  | 0x018 => pendClear page w
  | 0x01C => forceEvents page w
  | 0x03C => .wr (pageReg page 0x03C) w
  | _ => .nop

/-- A write to a check unit (R350, R351, R354). -/
def ckWrite (k off : Nat) (w : Word) : Act :=
  match off with
  | 0x100 => ckCfgWrite k w
  | 0x104 => on (w.toNat % 16 == 1) (ckInit k)
  | 0x108 => ckTake k (leBytes 1 w.toNat)
  | 0x10C => ckTake k (leBytes 2 w.toNat)
  | 0x110 => ckFeedWord k w
  | 0x114 => ckValWrite k false w
  | 0x118 => ckValWrite k true w
  | _ => .nop

/-- A write to a memory controller's page (R332, R352). -/
def mcWrite (c addr : Nat) (w : Word) : Act :=
  if addr = R.MC_CFG c ∨ addr = R.MC_GEOM c then memCfgWrite addr w
  else if addr = R.MC_SCHED c then
    (if (F.MC_SCHED_HIT_CAP c).get w.toNat = 0 then err addr Err.range else mcSchedWrite c w)
  else plainWrite addr w

/-- A write to a block-specific register that does more than hold its value; none for the others. -/
def specialWrite (addr : Nat) (w : Word) : Option Act :=
  let v := w.toNat
  let c := v % 16
  if addr = R.AON_RST_CAUSE then some (.dyn fun s => setR addr (Nat.land (s.rd addr) (0xFFFFFFFF - v)))
  else if addr = R.AON_RST_CMD then some (resetCmd (v % 2 ^ 16))
  else if addr = R.AON_WAKE_CFG then some (if v % 8 = 0 then err addr Err.range else writeReg addr w)
  else if addr = R.CLK_DEVCLK then some (.seq (writeLocked addr w) timeSource)
  else if addr = R.PWR_CMD then some (pwrCommand c (F.PWR_CMD_DOMS.get v))
  else if addr = R.LDG_SEL then some (ldgSelWrite w)
  else if addr = R.FIJ_ARM then some (fijArmWrite w)
  else if addr = R.JOB_CMD then some (jobCommand c)
  else if addr = R.JOB_DATA then some (jobDataWrite w)
  else if addr = R.MEM_CFG then some (memCfgWrite addr w)
  else if addr = R.MEM_TRAIN then some (memTrainWrite c)
  else if addr = R.MEM_SCRUB_CMD then some (scrubCommand c)
  else if addr = R.CEL_BIN_CFG then some (celLayoutWrite false w)
  else if addr = R.CEL_POOL_UNITS then some (celLayoutWrite true w)
  else if addr = R.CEL_BIN_CMD then some (on (c == 1) dropCmd)
  else if addr = R.LAT_CMD then some (latCommand c)
  else if addr = R.LAT_DATA then some (latDataWrite w)
  else if addr = R.LAT_STEP then some (latParamWrite .step w)
  else if addr = R.LAT_DSCALE then some (latParamWrite .dscale w)
  else if addr = R.LAT_CFG then some (latParamWrite .cfg w)
  else if addr = R.PLK_CMD then some (plkCommand c)
  else if addr = R.PLK_FIJ_CFG then some (plkFijWrite w)
  else if addr = R.PAR_CMD then some (parCommand c)
  else if addr = R.PAR_FIJ_CFG then some (parFijWrite w)
  else if addr = R.POS_CMD then some (command2 c realignCmd (clearLostCmd (F.POS_CMD_AXES.get v)))
  else if addr = R.TRK_DATA then some (trkDataWrite w)
  else if addr = R.MOT_CMD then some (command2 c moveCmd stopCmd)
  else if addr = R.MOT_VMAX ∨ addr = R.MOT_AMAX ∨ addr = R.MOT_JMAX then some (limitWrite addr w)
  else if addr = R.NET_FIJ_CFG 0 then some (netFijWrite 0 w)
  else if addr = R.NET_FIJ_CFG 1 then some (netFijWrite 1 w)
  else if addr = R.TIM_CMD then some (command2 c setCmd stepCmd)
  else if addr = R.TIM_INC_LO ∨ addr = R.TIM_INC_HI then
    some (.dyn fun s => if s.flag F.TIM_CFG_SERVO then err addr Err.conflict else .seq (noteRate 0) (writeReg addr w))
  else if addr = R.IDN_CMD then some (idnCommand c)
  else if addr = R.IDN_DATA then some (.dyn fun s => idnWrite w (Config.onCurve (s.anchorAfter w)))
  else if addr = R.THM_CMD then some (command2 c (includeCmd (F.THM_CMD_SENSOR.get v)) (excludeCmd (F.THM_CMD_SENSOR.get v)))
  else if addr = R.AGE_CMD then some (ageCommand c)
  else if addr = R.AGE_AVS then some (ageAvsWrite w)
  else if addr = R.AGE_DATA then some (ageDataWrite w)
  else if addr = R.BST_CMD then some (bstCommand c)
  else if addr = R.BST_CFG then some (bstCfgWrite w)
  else if addr = R.CAL_CMD then some (command2 c (commitTrigger 2) loadCmd)
  else none

/-- A write to a block-specific register. -/
def blockWrite (addr : Nat) (w : Word) : Act :=
  let page := addr / 0x1000
  let off := addr % 0x1000
  match specialWrite addr w with
  | some a => a
  | none =>
    if page = 0x0A then ringWriteReg addr ((off - 0x100) / 0x20) ((off - 0x100) % 0x20) w
    else if page = 0x0B then ringWriteReg addr (120 + off / 0x20) (off % 0x20) w
    else if page = 0x08 ∧ 0x400 ≤ off ∧ off < 0x800 then
      (if off % 16 = 12 then msixControlWrite ((off - 0x400) / 16) w else .wr addr w)
    else if page = 0x09 then .seq (plainWrite addr w) dmaSettle
    else if 0x10 ≤ page ∧ page ≤ 0x13 then mcWrite (page - 0x10) addr w
    else if page = 0x30 ∧ 0x120 ≤ off then steerWrite ((off - 0x120) / 4) w
    else if 0xC8 ≤ page ∧ page ≤ 0xCB then ckWrite (page - 0xC8) off w
    else if page = 0xD0 ∧ 0x400 ≤ off ∧ off < 0x600 then .nop
    else plainWrite addr w

/-- A 32-bit write to a BAR0 address (R8, R420, R421): offsets that no page defines ignore it. -/
def busWrite (addr : Nat) (w : Word) : Act :=
  let page := addr / 0x1000
  if addr = R.FIJ_ARM then fijArmAccess w
  else toPage (if page = 0x0B then 0x0A else page)
    (if addr % 0x1000 < 0x100 ∧ (pageRow page).isSome then headerWrite page (addr % 0x1000) w
    else on (regDesc addr).isSome (blockWrite addr w))

/-- A word's address (R420). -/
def wordAddr (addr : Nat) : Nat := addr / 4 * 4

/-- A write of fewer than 4 bytes is dropped, and its page records RANGE (R420), at an offset that a listed page does not define
too: R420's sentence names every write, while its last one leaves undefined offsets to R8, which raises no error (DESIGN
CHOICE). An index that the page map does not list has no page to record it (R421). -/
def partialWrite (addr : Nat) : Act :=
  let page := addr / 0x1000
  let ring := page == 0x0B && decide (addr % 0x1000 < 0x100)
  toPage (if page = 0x0B then 0x0A else page) (on ((pageRow page).isSome || ring) (err addr Err.range))

/-- REGISTER_WRITE (R11, R420): a naturally aligned word with its byte enables. -/
def execRegisterWrite (addr : BitVec 20) (w : Word) (bytes : BitVec 4) (s : State) : Host.Outcome State Fault Refusal :=
  perform (if bytes = 15 then busWrite (wordAddr addr.toNat) w else partialWrite (wordAddr addr.toNat)) s

/-- The page that a read of an address reaches. -/
def readPage (addr : Nat) : Nat := if addr / 0x1000 = 0x0B then 0x0A else addr / 0x1000

/-- What a read of a BAR0 address leaves behind. -/
def busRead (addr : Nat) : Act := .dyn fun s =>
  on (s.reaches (readPage addr)) (.seq (bistPage (readPage addr)) (readEffect addr))

/-- What a read of a BAR0 address gives. -/
def State.busValue (s : State) (addr : Nat) : Nat :=
  if s.reaches (readPage addr) then ((bistPage (readPage addr)).run s).view addr else 0

/-- PROXY_ACCESS (R396): the link goes to L0, and the proxy serves its pages. -/
def execProxyAccess (addr : BitVec 20) (data : Option Word) (s : State) : Host.Outcome State Fault Refusal :=
  perform (.dyn fun s =>
    let a := wordAddr addr.toNat
    on (s.dev == .dormant) (.seq linkToL0 (match data with
      | some w => busWrite a w
      | none => .seq (busRead a) (answerWord (s.busValue a))))) s

/-! ### REG_READ and REG_WRITE (R299) -/

/-- 32-bit words of a payload. -/
def wordsOf (b : List Nat) : List Nat := (List.range (b.length / 4)).map fun i => leAt b (4 * i) 4

/-- Offsets that name registers: aligned words of BAR0 (R420). -/
def offsetsOk (l : List Nat) : Bool := l.all fun a => a % 4 == 0 && decide (a < 2 ^ 20)

/-- The values of reads made one after another. -/
def State.readAll (s : State) : List Nat → List Nat
  | [] => []
  | a :: rest => s.busValue a :: ((busRead a).run s).readAll rest

/-- Serve a REG_READ (R299). -/
def regRead (o : Origin) (b : List Nat) : Act := .dyn fun s =>
  let l := wordsOf b
  if b.length % 4 ≠ 0 ∨ l.length = 0 ∨ 64 < l.length ∨ offsetsOk l = false then respond o 4 []
  else .seq (each l busRead) (respond o 0 ((s.readAll l).flatMap (leBytes 4)))

/-- REG_READ (R299, R328). -/
def execRegRead (m : NetMsg) (s : State) : Host.Outcome State Fault Refusal :=
  perform (receive m fun o => .dyn fun s => hostRequest o (s.flag F.IDN_POLICY_RD_AUTH) (regRead o (msgBytes m))) s

/-- Offset and value pairs of a REG_WRITE. -/
def pairsOf : List Nat → List (Nat × Nat)
  | a :: v :: rest => (a, v) :: pairsOf rest
  | _ => []

/-- Serve a REG_WRITE (R299): the writes are made in the order listed. -/
def regWrite (o : Origin) (b : List Nat) : Act :=
  let l := pairsOf (wordsOf b)
  if b.length % 8 ≠ 0 ∨ l.length = 0 ∨ 64 < l.length ∨ offsetsOk (l.map fun e => e.1) = false then respond o 4 []
  else .seq (each l fun e => busWrite e.1 (BitVec.ofNat 32 e.2)) (respond o 0 [])

/-- REG_WRITE (R299). -/
def execRegWrite (m : NetMsg) (s : State) : Host.Outcome State Fault Refusal :=
  perform (receive m fun o => hostRequest o true (regWrite o (msgBytes m))) s

/-! ### Control-message rings (R300, R301) -/

/-- MORE of an entry (R301). -/
def moreBit (e : List Nat) : Bool := (e.getD 255 0).testBit 6

/-- The entries of the first message, and the rest; none while the message is not complete. -/
def firstMessage : List (List Nat) → Option (List (List Nat) × List (List Nat))
  | [] => none
  | e :: rest => if moreBit e then (firstMessage rest).map fun x => (e :: x.1, x.2) else some ([e], rest)

/-- Entries that a message of `len` payload bytes takes (R301). -/
def entriesFor (len : Nat) : Nat := if len ≤ 223 then 1 else 1 + (len - 223 + 254) / 255

/-- The payload that entries carry. -/
def entryPayload : List (List Nat) → List Nat
  | [] => []
  | e :: rest => bytesAt e 32 223 ++ rest.flatMap fun x => bytesAt x 0 255

/-- Message types (R299). -/
def netTypes : List Nat := [1, 2, 3, 4, 5, 6, 0x10, 0x11, 0x12, 0x20, 0x21, 0x22, 0x23, 0x24, 0x25, 0x30, 0x31]

/-- Act on a message of a control ring (R300): as from a HOST partner that holds a session. -/
def ctrlMessage (es : List (List Nat)) : Act := .dyn fun s =>
  let h := es.headD []
  let len := leAt h 4 2
  let type := h.getD 3 0
  let b := (entryPayload es).take len
  let o : Origin := ⟨true, 0, leAt h 8 8, none, leAt h 0x1C 4⟩
  if leAt h 0 2 ≠ 0x4852 ∨ h.getD 2 0 ≠ 1 ∨ 1404 < len ∨ netTypes.contains type = false then netDrop 0
  else if es.length ≠ entriesFor len then .seq (netDrop 0) (respond o 4 [])
  else match type with
    | 0x05 => hostRequest o (s.flag F.IDN_POLICY_ATT_AUTH) (attestRequest o b)
    | 0x10 => hostRequest o (s.flag F.IDN_POLICY_RD_AUTH) (regRead o b)
    | 0x11 => hostRequest o true (regWrite o b)
    | 0x25 => on (len == 0) (wakeFrom 1 F.AON_WAKE_CFG_NET)
    | 0x31 => hostRequest o true (launchRequest o b)
    | _ => .nop

/-- A control ring that the device reads: in use, from host to device, and its page at work (R104, R125, R423). -/
def State.ctrlReads (s : State) (ring : Nat) : Bool :=
  decide (112 ≤ ring) && s.flag (F.RNG_CFG_EN ring) && s.hostWritten ring && s.pageWorks 0xA && s.powered 3

/-- Take the messages of a control ring whose entries RNG_PI covers, one after another (R301). -/
def ctrlTake (ring : Nat) : Nat → List (List Nat) → Act
  | 0, _ => .nop
  | fuel + 1, es => .dyn fun s =>
    match firstMessage (es.take (s.ringUsed ring)) with
    | some (m, _) =>
      on (s.ctrlReads ring) (acts [each m fun _ => consumeEntry ring, ctrlMessage m, ctrlTake ring fuel (es.drop m.length)])
    | none => .nop

/-- DOORBELL (R106, R301): `entries` is what host memory gives for a control ring's entries from its consumer index on. -/
def execDoorbell (ring : Fin 128) (pi : Word) (entries : List (List Byte)) (s : State) : Host.Outcome State Fault Refusal :=
  perform (toPage 0xA (acts [bistPage 9, doorbellIndex ring pi.toNat,
    ctrlTake ring entries.length (entries.map fun e => e.map BitVec.toNat)])) s

end Sys2Proof.Machine
end

