-- ==== Sys2Proof/Machine/Dispatch.lean ====
section
/-! DEFINITION. What every command does: one arm a command, each a call of its meaning. -/

namespace Sys2Proof.Machine

open Sys2Proof

/-- The effect of a command on everything but the queue of waiting commands. -/
def exec (i : Instr) (s : State) : Host.Outcome State Fault Refusal :=
  match i with
  | .powerUp => Sys2Proof.Machine.execPowerUp s
  | .supplyLoss aonLost => Sys2Proof.Machine.execSupplyLoss aonLost s
  | .supplyReturn => Sys2Proof.Machine.execSupplyReturn s
  | .pinReset => Sys2Proof.Machine.execPinReset s
  | .commandReset key => Sys2Proof.Machine.execCommandReset key s
  | .resetInitDone bad corrected => Sys2Proof.Machine.execResetInitDone bad corrected s
  | .start => Sys2Proof.Machine.execStart s
  | .trainingDone failed ranks dens16 => Sys2Proof.Machine.execTrainingDone failed ranks dens16 s
  | .linkReset moved => Sys2Proof.Machine.execLinkReset moved s
  | .linkChange up speed width => Sys2Proof.Machine.execLinkChange up speed width s
  | .hifCplTimeout ch data => Sys2Proof.Machine.execHifCplTimeout ch data s
  | .pllUnlock dom => Sys2Proof.Machine.execPllUnlock dom s
  | .pllRelockTry dom locks => Sys2Proof.Machine.execPllRelockTry dom locks s
  | .devclkPresence present => Sys2Proof.Machine.execDevclkPresence present s
  | .dormant linkPm moved => Sys2Proof.Machine.execDormant linkPm moved s
  | .dormantEntered => Sys2Proof.Machine.execDormantEntered s
  | .wake => Sys2Proof.Machine.execWake s
  | .wakeN => Sys2Proof.Machine.execWakeN s
  | .netWake m => Sys2Proof.Machine.execNetWake m s
  | .wakeDone us => Sys2Proof.Machine.execWakeDone us s
  | .domDown doms moved => Sys2Proof.Machine.execDomDown doms moved s
  | .domUp doms => Sys2Proof.Machine.execDomUp doms s
  | .proxyAccess addr data => Sys2Proof.Machine.execProxyAccess addr data s
  | .l12Return => Sys2Proof.Machine.execL12Return s
  | .arm => Sys2Proof.Machine.execArm s
  | .disarm => Sys2Proof.Machine.execDisarm s
  | .stopEnd => Sys2Proof.Machine.execStopEnd s
  | .stopSafe => Sys2Proof.Machine.execStopSafe s
  | .flush => Sys2Proof.Machine.execFlush s
  | .jobDataWrite w => Sys2Proof.Machine.execJobDataWrite w s
  | .drainComplete => Sys2Proof.Machine.execDrainComplete s
  | .openLattice => Sys2Proof.Machine.execOpenLattice s
  | .openGain => Sys2Proof.Machine.execOpenGain s
  | .openDerived => Sys2Proof.Machine.execOpenDerived s
  | .openClass => Sys2Proof.Machine.execOpenClass s
  | .openLees => Sys2Proof.Machine.execOpenLees s
  | .latClose => Sys2Proof.Machine.execLatClose s
  | .check => Sys2Proof.Machine.execCheck s
  | .checkDone => Sys2Proof.Machine.execCheckDone s
  | .latDataAccess data sram => Sys2Proof.Machine.execLatDataAccess data sram s
  | .latParamWrite p w => Sys2Proof.Machine.execLatParamWrite p w s
  | .digestDone => Sys2Proof.Machine.execDigestDone s
  | .tapShotStart f => Sys2Proof.Machine.execTapShotStart f s
  | .tapShotDone => Sys2Proof.Machine.execTapShotDone s
  | .cskSteerWrite spare w => Sys2Proof.Machine.execCskSteerWrite spare w s
  | .steerApply => Sys2Proof.Machine.execSteerApply s
  | .commitWritesDone ce ue => Sys2Proof.Machine.execCommitWritesDone ce ue s
  | .pressStripeStart => Sys2Proof.Machine.execPressStripeStart s
  | .pressDispatch faults => Sys2Proof.Machine.execPressDispatch faults s
  | .clusterPass engine => Sys2Proof.Machine.execClusterPass engine s
  | .clusterFail engine fault => Sys2Proof.Machine.execClusterFail engine fault s
  | .doorbell ring pi entries => Sys2Proof.Machine.execDoorbell ring pi entries s
  | .consumerIndexWrite ring ci => Sys2Proof.Machine.execConsumerIndexWrite ring ci s
  | .completionStallEnd cq => Sys2Proof.Machine.execCompletionStallEnd cq s
  | .ringReset ring moved => Sys2Proof.Machine.execRingReset ring moved s
  | .descriptorTake ring entry => Sys2Proof.Machine.execDescriptorTake ring entry s
  | .transferDone ch data res faults => Sys2Proof.Machine.execTransferDone ch data res faults s
  | .reservationGrant => Sys2Proof.Machine.execReservationGrant s
  | .fenceDone ring => Sys2Proof.Machine.execFenceDone ring s
  | .bar2Read off len faults => Sys2Proof.Machine.execBar2Read off len faults s
  | .bar2Write off data => Sys2Proof.Machine.execBar2Write off data s
  | .drop => Sys2Proof.Machine.execDrop s
  | .celLayoutWrite pool w => Sys2Proof.Machine.execCelLayoutWrite pool w s
  | .strobeEdge => Sys2Proof.Machine.execStrobeEdge s
  | .takePoint => Sys2Proof.Machine.execTakePoint s
  | .frameSent lane internalError => Sys2Proof.Machine.execFrameSent lane internalError s
  | .sealIssue => Sys2Proof.Machine.execSealIssue s
  | .sealDeadline => Sys2Proof.Machine.execSealDeadline s
  | .laneStat rec => Sys2Proof.Machine.execLaneStat rec s
  | .ack rec => Sys2Proof.Machine.execAck rec s
  | .ackTimeout halfB => Sys2Proof.Machine.execAckTimeout halfB s
  | .returnRecordDiscard rec => Sys2Proof.Machine.execReturnRecordDiscard rec s
  | .laneSilence p => Sys2Proof.Machine.execLaneSilence p s
  | .train => Sys2Proof.Machine.execTrain s
  | .relock => Sys2Proof.Machine.execRelock s
  | .idle => Sys2Proof.Machine.execIdle s
  | .bringupAbort => Sys2Proof.Machine.execBringupAbort s
  | .bringupStepTimeout => Sys2Proof.Machine.execBringupStepTimeout s
  | .plkFijCfgWrite w => Sys2Proof.Machine.execPlkFijCfgWrite w s
  | .posSample x crcOk => Sys2Proof.Machine.execPosSample x crcOk s
  | .estDiscard ax => Sys2Proof.Machine.execEstDiscard ax s
  | .jrxSyncChange up => Sys2Proof.Machine.execJrxSyncChange up s
  | .jtxSyncChange up => Sys2Proof.Machine.execJtxSyncChange up s
  | .sysrefEdge onBoundary => Sys2Proof.Machine.execSysrefEdge onBoundary s
  | .realign => Sys2Proof.Machine.execRealign s
  | .clearLost axes => Sys2Proof.Machine.execClearLost axes s
  | .edgeFreeze => Sys2Proof.Machine.execEdgeFreeze s
  | .trkSample => Sys2Proof.Machine.execTrkSample s
  | .trkDataAccess data => Sys2Proof.Machine.execTrkDataAccess data s
  | .commit => Sys2Proof.Machine.execCommit s
  | .load => Sys2Proof.Machine.execLoad s
  | .calStepApply => Sys2Proof.Machine.execCalStepApply s
  | .calRampEnd ax => Sys2Proof.Machine.execCalRampEnd ax s
  | .setpointPeriod => Sys2Proof.Machine.execSetpointPeriod s
  | .runInStart => Sys2Proof.Machine.execRunInStart s
  | .move => Sys2Proof.Machine.execMove s
  | .stop => Sys2Proof.Machine.execStop s
  | .limitWrite l w => Sys2Proof.Machine.execLimitWrite l w s
  | .limitLatchApply => Sys2Proof.Machine.execLimitLatchApply s
  | .rackDwellEnd => Sys2Proof.Machine.execRackDwellEnd s
  | .rackAbandon => Sys2Proof.Machine.execRackAbandon s
  | .ltqLaunch q sramUe => Sys2Proof.Machine.execLtqLaunch q sramUe s
  | .hbSend => Sys2Proof.Machine.execHbSend s
  | .hb word data => Sys2Proof.Machine.execHb word data s
  | .sig shot group copyLane sigs => Sys2Proof.Machine.execSig shot group copyLane sigs s
  | .vote shot data => Sys2Proof.Machine.execVote shot data s
  | .speed period v => Sys2Proof.Machine.execSpeed period v s
  | .mateCommit sample axes cause => Sys2Proof.Machine.execMateCommit sample axes cause s
  | .regwr at' addr value => Sys2Proof.Machine.execRegwr at' addr value s
  | .stopMsg shot reason seq => Sys2Proof.Machine.execStopMsg shot reason seq s
  | .digestMsg digest req => Sys2Proof.Machine.execDigestMsg digest req s
  | .sdig stripe digest => Sys2Proof.Machine.execSdig stripe digest s
  | .roleMsg period mateActive => Sys2Proof.Machine.execRoleMsg period mateActive s
  | .reentry shot period => Sys2Proof.Machine.execReentry shot period s
  | .ckpt offset data => Sys2Proof.Machine.execCkpt offset data s
  | .xfer stripe offset data poisoned => Sys2Proof.Machine.execXfer stripe offset data poisoned s
  | .hbTimeout => Sys2Proof.Machine.execHbTimeout s
  | .netTimeout => Sys2Proof.Machine.execNetTimeout s
  | .pair => Sys2Proof.Machine.execPair s
  | .join => Sys2Proof.Machine.execJoin s
  | .unpair => Sys2Proof.Machine.execUnpair s
  | .digest => Sys2Proof.Machine.execDigest s
  | .joinAbort => Sys2Proof.Machine.execJoinAbort s
  | .joinStepTimeout => Sys2Proof.Machine.execJoinStepTimeout s
  | .reclaimSwap => Sys2Proof.Machine.execReclaimSwap s
  | .parFijCfgWrite w => Sys2Proof.Machine.execParFijCfgWrite w s
  | .announceSend => Sys2Proof.Machine.execAnnounceSend s
  | .announce m => Sys2Proof.Machine.execAnnounce m s
  | .partnerLost slot => Sys2Proof.Machine.execPartnerLost slot s
  | .hello m cert => Sys2Proof.Machine.execHello m cert s
  | .helloReply m cert sigOk => Sys2Proof.Machine.execHelloReply m cert sigOk s
  | .keyConfirm m sigOk => Sys2Proof.Machine.execKeyConfirm m sigOk s
  | .sessionExpire slot => Sys2Proof.Machine.execSessionExpire slot s
  | .attestReq m => Sys2Proof.Machine.execAttestReq m s
  | .regRead m => Sys2Proof.Machine.execRegRead m s
  | .regWrite m => Sys2Proof.Machine.execRegWrite m s
  | .launch m => Sys2Proof.Machine.execLaunch m s
  | .mateHbSend => Sys2Proof.Machine.execMateHbSend s
  | .mateHb m => Sys2Proof.Machine.execMateHb m s
  | .withdrawn m => Sys2Proof.Machine.execWithdrawn m s
  | .tmapSend => Sys2Proof.Machine.execTmapSend s
  | .tmap m => Sys2Proof.Machine.execTmap m s
  | .ptpSync y => Sys2Proof.Machine.execPtpSync y s
  | .ptpAnnounce port gm src utcOff => Sys2Proof.Machine.execPtpAnnounce port gm src utcOff s
  | .ptpDelayResp delay => Sys2Proof.Machine.execPtpDelayResp delay s
  | .holdover => Sys2Proof.Machine.execHoldover s
  | .set => Sys2Proof.Machine.execSet s
  | .timStep => Sys2Proof.Machine.execTimStep s
  | .netLinkChange port up speed fec => Sys2Proof.Machine.execNetLinkChange port up speed fec s
  | .netFijCfgWrite port w => Sys2Proof.Machine.execNetFijCfgWrite port w s
  | .openDev => Sys2Proof.Machine.execOpenDev s
  | .openOwner => Sys2Proof.Machine.execOpenOwner s
  | .openAnchor => Sys2Proof.Machine.execOpenAnchor s
  | .writeOwner cert => Sys2Proof.Machine.execWriteOwner cert s
  | .ownerWritten => Sys2Proof.Machine.execOwnerWritten s
  | .idnClose => Sys2Proof.Machine.execIdnClose s
  | .idnDataAccess data onCurve => Sys2Proof.Machine.execIdnDataAccess data onCurve s
  | .refresh mc rank => Sys2Proof.Machine.execRefresh mc rank s
  | .mr4Poll mc rank rate hot => Sys2Proof.Machine.execMr4Poll mc rank rate hot s
  | .ceRateSecond mc rank => Sys2Proof.Machine.execCeRateSecond mc rank s
  | .migStart => Sys2Proof.Machine.execMigStart s
  | .migDone faults => Sys2Proof.Machine.execMigDone faults s
  | .scrubStart => Sys2Proof.Machine.execScrubStart s
  | .scrubStop lines faults => Sys2Proof.Machine.execScrubStop lines faults s
  | .scrubDone faults => Sys2Proof.Machine.execScrubDone faults s
  | .ckInit k => Sys2Proof.Machine.execCkInit k s
  | .ckCfgWrite k w => Sys2Proof.Machine.execCkCfgWrite k w s
  | .ckValWrite k hi w => Sys2Proof.Machine.execCkValWrite k hi w s
  | .ckFeed8 k w => Sys2Proof.Machine.execCkFeed8 k w s
  | .ckFeed16 k w => Sys2Proof.Machine.execCkFeed16 k w s
  | .ckFeed32 k w => Sys2Proof.Machine.execCkFeed32 k w s
  | .hkRound r => Sys2Proof.Machine.execHkRound r s
  | .include k => Sys2Proof.Machine.execInclude k s
  | .exclude k => Sys2Proof.Machine.execExclude k s
  | .planAvs => Sys2Proof.Machine.execPlanAvs s
  | .planLanes => Sys2Proof.Machine.execPlanLanes s
  | .planAll => Sys2Proof.Machine.execPlanAll s
  | .planDone => Sys2Proof.Machine.execPlanDone s
  | .avsWriteDone ok margin => Sys2Proof.Machine.execAvsWriteDone ok margin s
  | .log => Sys2Proof.Machine.execLog s
  | .autoLog => Sys2Proof.Machine.execAutoLog s
  | .logWritten => Sys2Proof.Machine.execLogWritten s
  | .ageDataAccess data => Sys2Proof.Machine.execAgeDataAccess data s
  | .bistSliceStart => Sys2Proof.Machine.execBistSliceStart s
  | .bistSliceDone fail shadowUe => Sys2Proof.Machine.execBistSliceDone fail shadowUe s
  | .bistResume => Sys2Proof.Machine.execBistResume s
  | .runNext => Sys2Proof.Machine.execRunNext s
  | .skip => Sys2Proof.Machine.execSkip s
  | .restart => Sys2Proof.Machine.execRestart s
  | .ledgerCheck => Sys2Proof.Machine.execLedgerCheck s
  | .fijArmWrite w => Sys2Proof.Machine.execFijArmWrite w s
  | .expired => Sys2Proof.Machine.execExpired s
  | .ldgSelWrite w => Sys2Proof.Machine.execLdgSelWrite w s
  | .evtPendClear page w => Sys2Proof.Machine.execEvtPendClear page w s
  | .evtForce page w => Sys2Proof.Machine.execEvtForce page w s
  | .evtEnWrite page w => Sys2Proof.Machine.execEvtEnWrite page w s
  | .msixUnmask v => Sys2Proof.Machine.execMsixUnmask v s
  | .srst page => Sys2Proof.Machine.execSrst page s
  | .freeze page on => Sys2Proof.Machine.execFreeze page on s
  | .en page on => Sys2Proof.Machine.execEn page on s
  | .pageQuiescent page => Sys2Proof.Machine.execPageQuiescent page s
  | .errClr page => Sys2Proof.Machine.execErrClr page s
  | .injEn page on => Sys2Proof.Machine.execInjEn page on s
  | .otpDataRead => Sys2Proof.Machine.execOtpDataRead s
  | .registerWrite addr w bytes => Sys2Proof.Machine.execRegisterWrite addr w bytes s
  | .returnLaneLock lane up inverted group => Sys2Proof.Machine.execReturnLaneLock lane up inverted group s
  | .pairLaneBlockLock lane up => Sys2Proof.Machine.execPairLaneBlockLock lane up s
  | .swapHoldExpiry lane => Sys2Proof.Machine.execSwapHoldExpiry lane s
  | .ptpPortMove => Sys2Proof.Machine.execPtpPortMove s
  | .ndArpEchoRequest port payload => Sys2Proof.Machine.execNdArpEchoRequest port payload s
  | .aerReport uncorrectable => Sys2Proof.Machine.execAerReport uncorrectable s
  | .latchedRead addr => Sys2Proof.Machine.execLatchedRead addr s

end Sys2Proof.Machine
end

