-- ==== Sys2Proof/Safety.lean ====
section
/-! DEFINITION. What counts as a sound state, and the words in which statements say what a command leaves alone: the parts of
the state, and the registers and parts outside which two states agree. -/

namespace Sys2Proof.Machine

/-! ### Sound states -/

/-- Every account balances: IN = OUT + HELD (R406). -/
def State.ledgersBalanced (s : State) : Bool := Ledger.all.all fun k => (s.led.get k).balanced

/-- The sparse tables of the state are in their canonical form: registers, cellar, ring indexes. -/
def State.canonical (s : State) : Bool :=
  spWf resetValue s.regs && Memory.wf s.mem && spWf (fun _ => 0) s.rings && spWf Config.otpWord s.otp

/-- The device came to its state along an edge of the state table (R19, R22, R390). -/
def State.cameLegally (s : State) : Bool := s.prevDev.edge s.dev

/-- A sound state. -/
def State.Inv (s : State) : Prop := s.ledgersBalanced = true ∧ s.canonical = true ∧ s.cameLegally = true

/-- The device passes from one state to another along edges of the state table only (R19, R22, R390). -/
inductive Leads : DevState → DevState → Prop where
  | here (d : DevState) : Leads d d
  | via (a b c : DevState) : Leads a b → b.edge c = true → Leads a c

/-- The role passes from one to another along edges of R290, or to SOLO by a device reset. -/
inductive RoleLeads : Role → Role → Prop where
  | here (r : Role) : RoleLeads r r
  | reset (a b : Role) : RoleLeads a b → RoleLeads a .solo
  | via (a b c : Role) : RoleLeads a b → b.edge c = true → RoleLeads a c

/-! ### Parts of the state -/

/-- The parts of the state other than the registers and the queue. -/
inductive Part where
  | dev | prevDev | role | mem | otp | rings | fresh | out | evt
  | ledTile | ledCreditDma | ledCreditCel | ledFrame | ledShot | ledDose | ledRing
  | bLat | bCask | bPress | bCel | bDma | bJob | bPlk | bSht | bPos | bMot
  | bPar | bNet | bTim | bIdn | bRam | bThm | bAge | bBst | bPwr | bSnap
  deriving DecidableEq, Repr

/-- Two states agree on a part. -/
def Part.same (s t : State) : Part → Prop
  | .dev => t.dev = s.dev
  | .prevDev => t.prevDev = s.prevDev
  | .role => t.role = s.role
  | .mem => t.mem = s.mem
  | .otp => t.otp = s.otp
  | .rings => t.rings = s.rings
  | .fresh => t.fresh = s.fresh
  | .out => t.out = s.out
  | .evt => t.evt = s.evt
  | .ledTile => t.led.tile = s.led.tile
  | .ledCreditDma => t.led.creditDma = s.led.creditDma
  | .ledCreditCel => t.led.creditCel = s.led.creditCel
  | .ledFrame => t.led.frame = s.led.frame
  | .ledShot => t.led.shot = s.led.shot
  | .ledDose => t.led.dose = s.led.dose
  | .ledRing => t.led.ring = s.led.ring
  | .bLat => t.b.lat = s.b.lat
  | .bCask => t.b.cask = s.b.cask
  | .bPress => t.b.press = s.b.press
  | .bCel => t.b.cel = s.b.cel
  | .bDma => t.b.dma = s.b.dma
  | .bJob => t.b.job = s.b.job
  | .bPlk => t.b.plk = s.b.plk
  | .bSht => t.b.sht = s.b.sht
  | .bPos => t.b.pos = s.b.pos
  | .bMot => t.b.mot = s.b.mot
  | .bPar => t.b.par = s.b.par
  | .bNet => t.b.net = s.b.net
  | .bTim => t.b.tim = s.b.tim
  | .bIdn => t.b.idn = s.b.idn
  | .bRam => t.b.ram = s.b.ram
  | .bThm => t.b.thm = s.b.thm
  | .bAge => t.b.age = s.b.age
  | .bBst => t.b.bst = s.b.bst
  | .bPwr => t.b.pwr = s.b.pwr
  | .bSnap => t.b.snap = s.b.snap

/-- Outside the named registers and parts, two states agree: every other register reads the same, every other part is the
same, and the queue of waiting commands is the same. -/
def framed (regs : Nat → Bool) (parts : List Part) (s t : State) : Prop :=
  t.pending = s.pending ∧ (∀ a, regs a = false → t.rd a = s.rd a) ∧ ∀ p, p ∉ parts → p.same s t

/-- The registers that raising and delivering an event may change: the transmit counts of the two ports and the counts and
configuration of an injection on them (R324, R431). -/
def eventRegs (a : Nat) : Bool :=
  a == R.FIJ_DONE || a == R.NET_FIJ_CFG 0 || a == R.NET_FIJ_CFG 1 || a == R.NET_FIJ_DONE 0 || a == R.NET_FIJ_DONE 1 ||
    a == R.NET_TX_CNT 0 || a == R.NET_TX_CNT 1

/-- The parts that raising and delivering an event may change (R427, R431): the event registers, what is put out, the ring
that carries the message, the RING account, and the sequence numbers of the network. -/
def eventParts : List Part := [.evt, .out, .rings, .ledRing, .bNet]

/-- The registers that a host access may change before it reaches its page: the link's power state, and the self-test's
counts and the BIST bit of a tested page (R375, R396). -/
def accessRegs (a : Nat) : Bool :=
  a == R.HIF_LINK || a == R.BST_YIELD_CNT || a == R.BST_SKIP_CNT || a == R.BST_STAT || a == R.BST_ROT_CNT ||
    (List.range 20).any (fun i => a == pageReg (slicePage (84 + i)) 0x00C) || eventRegs a

/-- The parts that a host access may change before it reaches its page: in DORMANT it also marks when the link came to L0. -/
def accessParts (s : State) : List Part := .bBst :: (if s.dev = .dormant then [.bPwr] else []) ++ eventParts

/-- The frame of an occurrence that raises no event: besides the named registers and parts, only what the block puts out. -/
def plainFrame (regs : List Nat) (parts : List Part) (s t : State) : Prop :=
  framed (fun a => regs.contains a) (.out :: parts) s t

/-- The frame of an occurrence that may raise events. -/
def eventFrame (regs : List Nat) (parts : List Part) (s t : State) : Prop :=
  framed (fun a => eventRegs a || regs.contains a) (eventParts ++ parts) s t

/-- The frame of a host access that reaches its page. -/
def accessFrame (regs : List Nat) (parts : List Part) (s t : State) : Prop :=
  framed (fun a => accessRegs a || regs.contains a) (accessParts s ++ parts) s t

/-- A coarser frame: besides the registers of the named pages and the named parts, only what raising events may change. -/
def pagesFrame (pages : List Nat) (parts : List Part) (s t : State) : Prop :=
  framed (fun a => eventRegs a || pages.contains (a / 0x1000)) (eventParts ++ parts) s t

/-- The state `t` after a device reset in `s` (R390): every register, table and buffer at its reset value, but for AON_RST_CAUSE as
given; OTP, the queue of commands and the model's counter of free values stay. -/
def resetWith (cause : Nat) (s t : State) : Prop :=
  t.dev = .reset ∧ t.role = .solo ∧ t.led = {} ∧ t.evt = {} ∧ t.rings = [] ∧ t.mem = [] ∧
    t.b = { pwr := { resetDone := true } } ∧
    (∀ a, t.rd a = if a = R.AON_RST_CAUSE then cause else (resetValue a).toNat) ∧
    t.otp = s.otp ∧ t.pending = s.pending ∧ t.fresh = s.fresh

/-- The event bit is recorded in EVT_RAW of its page (R427). -/
def State.raised (s : State) (e : Evt) : Bool := (s.evtRaw e.page).testBit e.bit

/-- A cellar line reads as it was stored: no error stands in it and no write-back waits (R338, R339). -/
def State.soundLine (s : State) (la : Nat) : Prop :=
  s.readLine [] la = .clean ∧ s.lineErr [] la = [] ∧ la ∉ s.b.ram.wb

/-- The registers that recording an error on a page may change (R424). -/
def errRegs (page a : Nat) : Bool := a == pageReg page 0x020 || a == pageReg page 0x024

/-! ### Messages of the control network -/

/-- The bytes of a message as this device sends it (R298): the header, the payload, and in a session its tag. -/
def State.datagram (s : State) (sess : Option Session) (type flags corr : Nat) (payload : List Nat) : List Nat :=
  match sess with
  | some x =>
    let head := netHeader s type payload.length (flags + 1) (x.sent + 1) x.id corr ++ payload
    head ++ leBytes 16 (Config.gcmTag (BitVec.ofNat 608 x.keys) x.starter (x.sent + 1) head).toNat
  | none => netHeader s type payload.length flags (s.b.net.plainSeq + 1) 0 corr ++ payload

/-- A port sends what it is given: its link is up, IPv6 or IPv4 runs, its page works, and no injection concerns it. -/
def State.sends (s : State) (port : Nat) : Prop :=
  s.flag (F.NET_STAT_LINK port) = true ∧ s.ipRuns port = true ∧ s.pageWorks (0xC0 + port) = true ∧ s.injecting (0xC0 + port) = false ∧
    s.b.net.swapHeld = []

/-- A port hears a message, which is framed as R298 says, and no self-test is under way. -/
def State.listens (s : State) (m : NetMsg) : Prop :=
  s.hears m.port = true ∧ framedMsg m = true ∧ s.b.bst.cur = none

/-- A message passes its session's tag and replay window (R302). -/
def State.inSession (s : State) (m : NetMsg) (x : Session) : Prop :=
  m.auth = true ∧ m.tagOk = true ∧ s.sessionBy m.session.toNat m.devId.toNat = some x ∧ x.replayed m.seq.toNat = false

/-- A session after it has sent one message. -/
def Session.next (x : Session) : Session := { x with sent := x.sent + 1 }

end Sys2Proof.Machine
end

