-- ==== Sys2Proof/Certificates/Slice0/Obligations.lean ====
section
/-! DEFINITION. The statements for the provers, from the numbered rules of the spec. Each names its rules; where a clause rests on a
reading or a choice of the model, it names the entry of the assumption log. -/

open Sys2Proof Sys2Proof.Machine

/-- A step takes the command at the front of the queue and answers what the command answers with the rest of the queue
waiting. On an empty queue, where the spec names no command, one tick of the TIME clock passes unless the device is OFF: TIM
advances by TIM_INC and PT by one tick (R309, R312), and with no migration, scrub or write-back at work nothing else changes.
That the block idles so on an empty queue is the model's choice. Of its readings, these are the model's own: log entries 1,
123. -/
def Obligations.StepRunsTheFrontCommandOnTheRestOfTheQueue : Prop :=
  (∀ (c : Instr) (s : State), step { s with pending := c :: s.pending } = exec c s) ∧
  ∀ s : State, s.pending = [] →
    (s.dev ≠ .off → ∃ t, step s = .next t ∧
      (t.b.tim.sec, t.b.tim.ns) = ((s.timAfter 1).1 % 2 ^ 64, (s.timAfter 1).2) ∧
      t.b.tim.ticks = s.b.tim.ticks + 1 ∧ t.b.pos = { s.b.pos with pt := s.b.pos.pt + 65536 } ∧
      (s.b.ram.mig = none → s.b.ram.scrub = none → s.b.ram.wb = [] → plainFrame [] [.bTim, .bPos, .bAge] s t)) ∧
    (s.dev = .off → ∃ t, step s = .next t ∧ plainFrame [] [] s t)

/-- The state after reset is sound; the device is in RESET and SOLO with nothing held, nothing counted and nothing put out
(R390, R391), and registers hold the values that the spec gives for reset. Of its readings, these are the model's own: log
entries 10, 13. -/
def Obligations.ResetStateIsSoundAndHoldsTheSpecsValues : Prop :=
  State.reset.Inv ∧ State.reset.dev = .reset ∧ State.reset.role = .solo ∧ State.reset.pending = [] ∧ State.reset.mem = [] ∧
    State.reset.out = [] ∧ State.reset.led = {} ∧ State.reset.evt = {} ∧
    State.reset.rd R.AON_RST_CAUSE = 1 ∧ State.reset.fld (F.NET_PORTS_MSG 0) = 47100 ∧ State.reset.fld (F.NET_PORTS_EVT 0) = 47101 ∧
    State.reset.rd R.BST_PATTERNS = 256 ∧ State.reset.fld F.AGE_AVS_CODE = 10 ∧ State.reset.fld F.MOT_RACK_REPEAT = 3 ∧
    State.reset.fld F.THM_WARN_TEMP = 95 * 16 ∧ State.reset.fld F.THM_TRIP_TEMP = 105 * 16 ∧ State.reset.timInc = 4 * 2 ^ 32 ∧
    ∀ page : BitVec 8, (pageRow page.toNat).isSome = true → State.reset.flag (pageCtrl page.toNat 0) = true

/-- R406, R408, R19, R390: whatever command is at the front, and whatever the state, a step that answers a next state keeps
every account balanced (IN = OUT + HELD), keeps the registers, the cellar, the ring indexes and OTP in their canonical form,
and leaves the device in a state that it came to along an edge of the state table. Of its readings, these are the model's
own: log entry 10. -/
def Obligations.EveryStepKeepsASoundStateSound : Prop :=
  ∀ s t : State, s.Inv → step s = .next t → t.Inv

/-- R19, R22, R290, R390: a step moves the device along edges of the state table only, and its role along edges of the role
table or to SOLO by a reset. Of its readings, these are the model's own: log entry 10. -/
def Obligations.EveryStepMovesStateAndRoleAlongTheirTables : Prop :=
  ∀ s t : State, step s = .next t → Leads s.dev t.dev ∧ RoleLeads s.role t.role

/-- Every command whose operands have the lengths that the spec gives, and a doorbell with any entries, answers a next state
in every state of the block and leaves the queue of waiting commands as it is. A SIG message without eight signatures and a
housekeeping round without its readings describe nothing at the interface (R267, R357) and are refused by name. Of its
readings, these are the model's own: log entries 2, 101, 102. -/
def Obligations.EveryWellFormedCommandCompletes : Prop :=
  (∀ (c : Instr) (s : State), (c.wf = true ∨ ∃ ring pi entries, c = .doorbell ring pi entries) →
    ∃ t, exec c s = .next t ∧ t.pending = s.pending) ∧
  (∀ (s : State) shot g k sigs ok, sigs.length ≠ 8 → exec (.sig shot g k ⟨sigs, ok⟩) s = .refused (.illFormed "SIG")) ∧
  ∀ (s : State) r, roundOk r = false → exec (.hkRound r) s = .refused (.illFormed "HK_ROUND")

/-- R358: after a housekeeping round, THM_MAX is the highest latched temperature of the sensors that are not excluded, and
THM_MAX.SENSOR names that sensor, the lower index winning a tie. (The round is one that does not reset the device.) -/
def Obligations.ThmMaxIsTheHottestSensorInUseLowestIndexFirst : Prop :=
  ∀ (s : State) (r : HkRound), roundOk r = true → s.pageWorks 0xD0 = true →
    s.dev = .ready ∨ s.inJob = true ∨ s.dev = .fault ∨ s.dev = .dormant → (∀ i < 28, (r.temps.getD i (0, false)).1.toInt < 1920) →
    ∃ t, exec (.hkRound r) s = .next t ∧
      (t.sensors ≠ [] → ∃ i ∈ t.sensors, t.rd R.THM_MAX = i * 2 ^ 16 + ofSigned 16 (t.temp i) ∧
        ∀ j ∈ t.sensors, t.temp j ≤ t.temp i ∧ (j < i → t.temp j < t.temp i)) ∧
      (∀ i < 28, t.fld (F.THM_T_TEMP i) = (r.temps.getD i (0, false)).1.toNat)

/-- R421: a page index that the page map does not list reads as 0, and a write to it is dropped without an error (in DORMANT
it sets DORM_ACCESS, R396); bytes 0x000 to 0x0FF of index 0x00B hold the register sets of rings 120 to 127, and it has no
header; TP17's TP_STAT lies at 0x51100. -/
def Obligations.UnlistedPagesReadZeroAndDropWrites : Prop :=
  (∀ (s : State) (page : BitVec 8) (off : Nat) (w : Word), pageRow page.toNat = none → page ≠ 0x0B → off < 0x1000 →
    s.busValue (page.toNat * 0x1000 + off) = 0 ∧
    ∃ t, exec (.registerWrite (BitVec.ofNat 20 (page.toNat * 0x1000 + off)) w 15) s = .next t ∧
      plainFrame (if s.dev = .dormant then [R.HIF_LINK, R.PWR_STAT] else [R.HIF_LINK]) (if s.dev = .dormant then [.bPwr] else []) s t) ∧
  pageRow 0x0B = none ∧
  (∀ ring, 120 ≤ ring → ring < 128 → ∀ a ∈ [R.RNG_BASE_LO ring, R.RNG_BASE_HI ring, R.RNG_CFG ring, R.RNG_PI ring, R.RNG_CI ring],
    0xB000 + 0x20 * (ring - 120) ≤ a ∧ a < 0xB000 + 0x20 * (ring - 120) + 0x20 ∧ (regDesc a).isSome = true) ∧
  (∀ (s : State) off, 0x100 ≤ off → off < 0x1000 → s.busValue (0xB000 + off) = 0) ∧
  R.TP_STAT 17 = 0x51100

/-- R131: arming a lattice that does not fit, with every arm condition met and the digest computed, takes the device into
ARMED and from there to FAULT, with ERR_CAUSE of the CSK page set to FIT. Of its readings, these are the model's own: log
entry 38. -/
def Obligations.ArmingALatticeThatDoesNotFitEndsInFault : Prop :=
  ∀ s : State, s.dev = .ready → s.role = .solo → s.b.job.armReq = some 0 → s.b.par.digestReq.isSome = true →
    s.armRefusal = none → s.fld F.CSK_FIT_CODE ≠ 0 →
    ∃ t, exec .digestDone s = .next t ∧ t.dev = .fault ∧ t.prevDev = .armed ∧
      t.rd R.TOP_TRANS_CNT = (s.rd R.TOP_TRANS_CNT + 2) % 2 ^ 32 ∧
      (s.rd (pageReg 0x30 0x020) / 2 ^ 16 % 2 ^ 15 = 0 → t.rd (pageReg 0x30 0x020) = 2 ^ 16 + Err.fit) ∧
      t.mem = s.mem ∧ t.otp = s.otp ∧ t.led.tile = s.led.tile ∧ t.b.dma = s.b.dma

/-- The frame of the commands of the shot path and of the pair whose effects are wide: whatever they do to the shots in
flight, they leave the cellar's bytes, OTP, the TILE account, the transfers and their account, the lattice, the identity, the
thermal and the power state, the registers of the pages EVT, AON, CLK, HIF, CEL, TRK, THM, AGE, CAL and OTP, and the queue as
they are. Of its readings, these are the model's own: log entry 2. -/
def Obligations.ShotPathCommandsLeaveStoredDataAlone : Prop :=
  ∀ (s t : State) (shot : Word) (v : BitVec 64) (rec : BitVec 64) (lane : Fin 64) (p : Fin 64) (q : Fin 16) (mc : Fin 4) (rank : Fin 2)
    (rate : BitVec 3) (b : Bool),
    ∀ c ∈ [Instr.ledgerCheck, .stopSafe, .disarm, .rackAbandon, .ltqLaunch q b, .netTimeout, .vote shot ⟨v, b⟩, .takePoint,
        .frameSent lane b, .sealDeadline, .strobeEdge, .edgeFreeze, .laneStat rec, .laneSilence p, .mr4Poll mc rank rate b, .move, .stop],
      exec c s = .next t →
        t.pending = s.pending ∧
        (∀ x ∈ [Part.mem, .otp, .ledTile, .ledCreditDma, .bLat, .bDma, .bIdn, .bThm], x.same s t) ∧
        (s.dev ≠ .dormant → t.b.pwr = s.b.pwr) ∧
        ∀ a, accessRegs a = false → [0x01, 0x02, 0x03, 0x08, 0x15, 0xB2, 0xD0, 0xD1, 0xD3, 0xF0].contains (a / 0x1000) = true →
          t.rd a = s.rd a

/-- R383, R384, R390: what each reset source clears and keeps. A pin or command reset returns everything to its reset value
and adds its bit to AON_RST_CAUSE; a return of the supplies keeps the causes while VDD_AON stayed good, and is a power-on
reset with every register at its reset value but AON_RST_CAUSE (1) where it did not; a supply loss takes the device to OFF
and adds its bit. Of its readings, these are the model's own: log entries 10, 26, 30. -/
def Obligations.EveryResetSourceClearsAndKeepsWhatItsRowSays : Prop :=
  ∀ s : State,
    (s.dev ≠ .off → ∃ t, exec .pinReset s = .next t ∧ resetWith (s.rd R.AON_RST_CAUSE ||| 2) s t) ∧
    (s.reaches 2 = true → ∃ t, exec (.commandReset 0x5248) s = .next t ∧ resetWith (s.rd R.AON_RST_CAUSE ||| 8) s t) ∧
    (s.dev = .off → s.b.pwr.aonLost = false →
      ∃ t, exec .supplyReturn s = .next t ∧ resetWith (s.rd R.AON_RST_CAUSE) s t) ∧
    (s.dev = .off → s.b.pwr.aonLost = true → ∃ t, exec .powerUp s = .next t ∧ t.dev = .reset ∧ t.role = .solo ∧ t.b = {} ∧
      t.evt = {} ∧ t.led = {} ∧ t.rings = [] ∧ t.mem = [] ∧ t.otp = s.otp ∧ t.pending = s.pending ∧
      ∀ a, t.rd a = if a = R.AON_RST_CAUSE then 1 else (resetValue a).toNat) ∧
    (∀ lost, s.dev ≠ .off → ∃ t, exec (.supplyLoss lost) s = .next t ∧ t.dev = .off ∧ t.b = { pwr := { aonLost := lost } } ∧
      t.mem = [] ∧ t.otp = s.otp ∧ t.pending = s.pending ∧
      ∀ a, t.rd a = if a = R.AON_RST_CAUSE then s.rd R.AON_RST_CAUSE ||| 16 else (resetValue a).toNat)

/-- R391, R331, R332, R402, R438: the way from RESET to READY. The end of the initialisation loads OTP_STAT, locks the PLLs
and waits for START; a word lost outside the certificates and the log holds the device in RESET, and OTP_FAIL_IDX names it;
START is taken while WAIT is set; a training that every channel passes with one geometry sets DONE, writes the cellar's
capacity and takes the device to READY. Of its readings, these are the model's own: log entries 29, 32. -/
def Obligations.ResetLeadsToReadyThroughStartAndTraining : Prop :=
  ∀ s : State,
    (∀ n, s.dev = .reset → s.flag F.OTP_STAT_LOADED = false →
      (∃ t, exec (.resetInitDone [] n) s = .next t ∧ t.rd R.OTP_STAT = 2 ^ 31 + n.toNat ∧ t.flag F.MEM_TRAIN_WAIT = true ∧
        t.fld F.CLK_STAT_LOCKED = (if s.b.pwr.devclk then 0xFF else 0xDF) ∧
        plainFrame [R.OTP_STAT, R.CLK_STAT, R.MEM_TRAIN] [.bPwr] s t) ∧
      ∀ (i : BitVec 14) rest, otpSpare i.toNat = false →
        ∃ t, exec (.resetInitDone (i :: rest) n) s = .next t ∧ t.rd R.OTP_STAT = 2 ^ 31 + 2 ^ 30 + n.toNat ∧
          t.rd R.OTP_FAIL_IDX = 2 ^ 31 + i.toNat ∧ plainFrame [R.OTP_STAT, R.OTP_FAIL_IDX, R.CLK_STAT] [.bPwr] s t) ∧
    (s.reaches 0x14 = true → s.flag F.MEM_TRAIN_WAIT = true →
      ∃ t, exec .start s = .next t ∧ t.flag F.MEM_TRAIN_WAIT = false ∧ t.b.ram = { s.b.ram with locked := true } ∧
        accessFrame [R.MEM_TRAIN] [.bRam] s t) ∧
    (∀ (ranks : Fin 3) (dens : Bool), s.dev = .reset → s.b.ram.locked = true → s.flag F.MEM_TRAIN_DONE = false →
      s.flag F.MEM_TRAIN_FAIL = false →
      (∀ c < 4, s.flag (F.MC_CFG_SOLDERED c) = false ∧ s.fld (F.MC_CFG_RATE c) = s.fld (F.MC_CFG_RATE 0)) →
      s.ranksFit ranks = true →
      ∃ t, exec (.trainingDone 0 ranks dens) s = .next t ∧ t.dev = .ready ∧ t.prevDev = .reset ∧
        t.flag F.MEM_TRAIN_DONE = true ∧ t.raised E.TOP_STATE_CHANGE = true ∧ (∀ c < 4, t.flag (F.MC_STAT_TRAINED c) = true) ∧
        t.fld F.CEL_CAPACITY_MIB =
          4 * (if s.flag F.MEM_CFG_SPARE then 1 else ranks.val) * (if dens then 32768 else 16384))

/-- R98, R388, R389, R435: what the link and the clocks report is recorded: the link's speed and width, with LINK_CHANGE
where they differ; a lost PLL in READY is counted, shown and raised, and shown locked when it locks again; DEVCLK's presence;
the link's return to L1.2 in DORMANT; an AER report. Of its readings, these are the model's own: log entry 31. -/
def Obligations.LinkAndClockOccurrencesAreRecorded : Prop :=
  ∀ s : State,
    (∀ (speed : Fin 6) (width : Fin 17), s.powered 3 = true →
      ∃ t, exec (.linkChange true speed width) s = .next t ∧ t.rd R.HIF_LINK = 2 ^ 31 + speed.val * 2 ^ 24 + width.val * 2 ^ 16 +
          (if width.val < 8 ∨ speed.val < 4 then 64 else 0) ∧
        (s.rd R.HIF_LINK / 2 ^ 16 ≠ t.rd R.HIF_LINK / 2 ^ 16 → t.raised E.HIF_LINK_CHANGE = true) ∧
        eventFrame [R.HIF_LINK, R.HIF_RETRAIN_CNT] [] s t) ∧
    (∀ d : Fin 8, s.dev = .ready → d ≠ 0 → d ≠ 5 → s.powered d = true → (s.fld F.CLK_STAT_LOCKED).testBit d = true →
      ∃ t, exec (.pllUnlock d) s = .next t ∧ t.rd R.CLK_UNLOCK_CNT = (s.rd R.CLK_UNLOCK_CNT + 1) % 2 ^ 32 ∧
        t.rd R.CLK_LAST_UNLOCK = 2 ^ d.val ∧ (t.fld F.CLK_STAT_LOCKED).testBit d = false ∧ t.raised E.CLK_CLK_UNLOCK = true ∧
        t.powered d = false ∧ eventFrame [R.CLK_STAT, R.CLK_UNLOCK_CNT, R.CLK_LAST_UNLOCK] [.bPwr] s t) ∧
    (∀ d : Fin 8, s.dev = .ready → d ≠ 5 → s.b.pwr.unlocked.contains d.val = true →
      ∃ t, exec (.pllRelockTry d true) s = .next t ∧ t.b.pwr.unlocked.contains d.val = false ∧
        (t.fld F.CLK_STAT_LOCKED).testBit d = true ∧ t.dev = .ready) ∧
    (∀ p, s.dev ≠ .off → ∃ t, exec (.devclkPresence p) s = .next t ∧ t.b.pwr.devclk = p ∧ t.flag F.CLK_STAT_DEVCLK = p ∧
      eventFrame [R.CLK_STAT, R.POS_STAT] [.bPwr] s t) ∧
    (s.dev = .dormant → s.flag F.HIF_LINK_UP = true → s.flag F.HIF_LINK_L12 = false →
      ∃ t, exec .l12Return s = .next t ∧ t.flag F.HIF_LINK_L12 = true ∧ t.out = [.link 12] ∧ plainFrame [R.HIF_LINK] [.bTim, .bPos] s t) ∧
    (∀ ue, s.dev ≠ .off → ∃ t, exec (.aerReport ue) s = .next t ∧ t.raised E.HIF_AER = true ∧
      (let r := if ue then R.HIF_AER_UE_CNT else R.HIF_AER_CE_CNT
       t.rd r = (s.rd r + 1) % 2 ^ 32 ∧ eventFrame [r] [] s t))

/-- R393 to R397: Dormant. A DORMANT that meets the conditions starts the entry and stays in READY; one that fails a
condition is refused with the first one's code; the end of the entry gates all domains but AON and TIME and takes the device
to DORMANT, keeping the cellar; a wake from an enabled source records the source, and ends an entry under way; the end of a
wake restores every domain and takes the device to READY. Of its readings, these are the model's own: log entries 14, 34, 35.
-/
def Obligations.DormantIsEnteredAndLeftAsTheRulesSay : Prop :=
  ∀ s : State,
    (∀ pm moved, s.dev = .ready → s.flag F.PWR_STAT_ENTERING = false → s.ageBusy = false →
      s.dormantRefusal pm = 0 → ∃ t, exec (.dormant pm moved) s = .next t ∧ t.flag F.PWR_STAT_ENTERING = true ∧ t.dev = .ready ∧
        t.b.tim.ltq = []) ∧
    (∀ pm moved, s.dev = .ready → s.flag F.PWR_STAT_ENTERING = false → s.ageBusy = false →
      s.dormantRefusal pm ≠ 0 → ∃ t, exec (.dormant pm moved) s = .next t ∧ t.fld F.PWR_STAT_REFUSE = s.dormantRefusal pm ∧
        t.flag F.PWR_STAT_ENTERING = false ∧ t.dev = .ready ∧ t.raised E.PWR_DORMANT_REFUSED = true) ∧
    (s.dev = .ready → s.flag F.PWR_STAT_ENTERING = true →
      ∃ t, exec .dormantEntered s = .next t ∧ t.dev = .dormant ∧ t.fld F.PWR_STAT_ON = 0x41 ∧ t.mem = s.mem ∧ t.otp = s.otp ∧
        t.b.lat = {} ∧ t.b.press = {} ∧ t.b.pos.ramp = [] ∧ t.raised E.PWR_DORMANT_ENTERED = true ∧
        t.rd R.PWR_DORM_CNT = (s.rd R.PWR_DORM_CNT + 1) % 2 ^ 32) ∧
    (s.dev = .dormant → s.flag F.PWR_STAT_ENTERING = false → s.flag F.PWR_STAT_WAKING = false →
      (s.flag F.AON_WAKE_CFG_HOST = true →
        ∃ t, exec .wake s = .next t ∧ t.rd R.AON_WAKE_SRC = 2 ∧ t.flag F.PWR_STAT_WAKING = true ∧ t.dev = .dormant ∧
          accessFrame [R.AON_WAKE_SRC, R.PWR_STAT] [.bPwr] s t) ∧
      (s.flag F.AON_WAKE_CFG_PIN = true →
        ∃ t, exec .wakeN s = .next t ∧ t.rd R.AON_WAKE_SRC = 3 ∧ t.flag F.PWR_STAT_WAKING = true ∧
          plainFrame [R.AON_WAKE_SRC, R.PWR_STAT] [.bPwr] s t)) ∧
    (s.dev = .ready → s.flag F.PWR_STAT_ENTERING = true → s.flag F.AON_WAKE_CFG_PIN = true →
      ∃ t, exec .wakeN s = .next t ∧ t.flag F.PWR_STAT_ENTERING = false ∧ t.dev = .ready ∧ t.raised E.PWR_DORMANT_ABORT = true) ∧
    (∀ us, s.dev = .dormant → s.flag F.PWR_STAT_WAKING = true → s.b.tim.ticks ≤ s.b.pwr.wakeAt + us.toNat * 250 →
      ∃ t, exec (.wakeDone us) s = .next t ∧ t.dev = .ready ∧ t.fld F.PWR_STAT_ON = 0xFF ∧ t.flag F.PWR_STAT_WAKING = false ∧
        t.rd R.PWR_WAKE_US = us.toNat ∧ t.raised E.PWR_WAKE_DONE = true ∧ t.mem = s.mem)

/-- R392, R396: DOM_DOWN in READY takes down the named domains of those that may be named, DOM_UP restores them; in DORMANT
the proxy brings the link to L0 and answers a read of a page it does not serve with 0. Of its readings, these are the model's
own: log entries 33, 99. -/
def Obligations.DomainsGoDownAndReturnAndTheProxyAnswers : Prop :=
  ∀ s : State,
    (∀ (doms : Byte) moved, s.dev = .ready → s.alone = true → doms &&& 0xC1 = 0 →
      ∃ t, exec (.domDown doms moved) s = .next t ∧ t.dev = .ready ∧
        ∀ d < 8, (t.fld F.PWR_STAT_ON).testBit d = ((s.fld F.PWR_STAT_ON).testBit d && !doms.toNat.testBit d)) ∧
    (∀ doms : Byte, s.dev = .ready → ∃ t, exec (.domUp doms) s = .next t ∧ t.dev = .ready ∧
        ∀ d ∈ [1, 2, 3, 4, 5], (t.fld F.PWR_STAT_ON).testBit d = ((s.fld F.PWR_STAT_ON).testBit d || doms.toNat.testBit d)) ∧
    (∀ addr : BitVec 20, s.dev = .dormant → s.reaches (addr.toNat / 0x1000) = false →
      ∃ t, exec (.proxyAccess addr none) s = .next t ∧ .completion [0, 0, 0, 0] false ∈ t.out ∧ t.flag F.HIF_LINK_L12 = false ∧
        plainFrame [R.HIF_LINK] [.bPwr] s t)

/-- R21: a request that the current state does not allow is refused and leaves the device state as it was, and TOP_REFUSE
names it with condition STATE: a Dormant request or an arm request outside READY, a disarm request outside ARMED, a stop
outside ARMED, WRITING and RACKING, a FLUSH outside READY. -/
def Obligations.RequestsTheStateDoesNotAllowAreRefusedAndFlagged : Prop :=
  ∀ s : State,
    (∀ c ∈ [(Instr.arm, 1, s.dev == .ready), (.disarm, 2, s.dev == .armed), (.stopEnd, 3, s.locked), (.stopSafe, 4, s.locked),
        (.flush, 5, s.dev == .ready)],
      s.reaches 7 = true → c.2.2 = false → ∃ t, exec c.1 s = .next t ∧ t.dev = s.dev ∧
        t.rd R.TOP_REFUSE = 7 * 2 ^ 24 + c.2.1 * 2 ^ 16 + 0x10 * 2 ^ 8 + s.dev.code ∧ t.raised E.TOP_REQ_REFUSED = true ∧
        accessFrame [R.TOP_REFUSE] [] s t) ∧
    ∀ pm moved, s.reaches 4 = true → s.dev ≠ .ready → s.flag F.PWR_STAT_ENTERING = false → s.ageBusy = false →
      ∃ t, exec (.dormant pm moved) s = .next t ∧ t.dev = s.dev ∧
        t.rd R.TOP_REFUSE = 4 * 2 ^ 24 + 1 * 2 ^ 16 + 0x10 * 2 ^ 8 + s.dev.code ∧ t.raised E.TOP_REQ_REFUSED = true

/-- R19, R49, R164, R437: a SOLO device's ARM in READY that meets every condition has the configuration digest computed, and
the device waits in READY for it; once the digest has been computed, the device enters ARMED, clears the job's counts and the
DOSE account, and gives the job the next vintage. An ARM that fails a condition is refused with the first one's code. Of its
readings, these are the model's own: log entries 38, 40. -/
def Obligations.ArmOfASoloDeviceEntersArmedOrNamesTheFirstFailedCondition : Prop :=
  ∀ s : State, s.dev = .ready → s.role = .solo →
    (s.ageBusy = false → s.armRefusal = none →
      ∃ t, exec .arm s = .next t ∧ t.dev = .ready ∧ t.b.job = { s.b.job with armReq := some 0 } ∧ t.b.par.digestReq = some 0 ∧
        t.armRefusal = none ∧ accessFrame [] [.bJob, .bPar] s t) ∧
    (s.b.job.armReq = some 0 → s.b.par.digestReq.isSome = true → s.armRefusal = none → s.fld F.CSK_FIT_CODE = 0 → s.deadLane = none →
      ∃ t, exec .digestDone s = .next t ∧ t.dev = .armed ∧ t.prevDev = .ready ∧ t.led.dose = {} ∧ t.rd R.LAT_SHORT_CNT = 0 ∧
        t.rd R.JOB_DONE_CNT = 0 ∧ t.fld F.PLK_VINTAGE_CURRENT = s.fld F.PLK_VINTAGE_NEXT ∧ t.b.job.queue = s.b.job.queue ∧
        t.b.job.stopEnd = false ∧ t.b.job.armReq = none ∧ t.raised E.TOP_STATE_CHANGE = true ∧ t.mem = s.mem) ∧
    ∀ c d, s.ageBusy = false → s.armRefusal = some (c, d) →
      ∃ t, exec .arm s = .next t ∧ t.dev = .ready ∧
        t.rd R.TOP_REFUSE = (7 * 2 ^ 24 + 1 * 2 ^ 16 + c * 2 ^ 8 + d % 256) % 2 ^ 32 ∧ t.raised E.TOP_REQ_REFUSED = true ∧
        accessFrame [R.TOP_REFUSE] [.bJob, .bPar] s t

/-- R19, R20, R248: the commands that end a SOLO device's job. DISARM in ARMED drops the slots, stops the press, and passes
to READY where the stage is at rest, or waits in ARMED for it; STOP_END is noted until the end of the stripe, and between two
stripes passes to DRAINING at once; STOP_SAFE is noted in ARMED; in WRITING and RACKING it withholds every shot from the
first unsealed one for good, leaves none unresolved, and passes to DRAINING once no earlier strobe is to come; the end of the
drain passes to READY. Of its readings, these are the model's own: log entries 41, 42, 110, 111. -/
def Obligations.DisarmStopsAndDrainLeaveTheShotStates : Prop :=
  ∀ s : State,
    (s.dev = .armed → s.role = .solo → s.b.cask.retireAtEnd = [] →
      (s.stageStill = true → ∃ t, exec .disarm s = .next t ∧ t.dev = .ready ∧ t.prevDev = .armed ∧ t.b.press.runs = [] ∧
        t.b.cask.slots = [] ∧ t.b.sht.unresolved = [] ∧ t.b.job.disarming = false ∧ t.raised E.TOP_STATE_CHANGE = true) ∧
      (s.atRest = true → s.stageStill = false → ∃ t, exec .disarm s = .next t ∧ t.dev = .armed ∧ t.b.press.runs = [] ∧
        t.b.cask.slots = [] ∧ t.b.sht.unresolved = [] ∧ t.b.job.disarming = true) ∧
      (s.atRest = false → ∃ t, exec .disarm s = .next t ∧ t.b.press.runs = [] ∧ t.b.cask.slots = [] ∧ t.b.sht.unresolved = [] ∧
        (t.dev = .armed ∧ t.b.job.disarming = true ∨ t.dev = .ready ∧ t.b.job.disarming = false))) ∧
    (s.locked = true → s.role = .solo → s.between = false →
      ∃ t, exec .stopEnd s = .next t ∧ t.dev = s.dev ∧ t.b.job.stopEnd = true ∧ t.b.job.queue = s.b.job.queue ∧
        accessFrame [] [.bJob] s t) ∧
    (s.role = .solo → s.between = true →
      ∃ t, exec .stopEnd s = .next t ∧ t.dev = .draining ∧ t.prevDev = .writing ∧ t.b.job.turnWait = false ∧
        t.b.job.stopEnd = false ∧ t.b.job.queue = s.b.job.queue ∧ t.raised E.TOP_STATE_CHANGE = true ∧
        accessFrame [R.TOP_TRANS_CNT] [.dev, .prevDev, .bJob] s t) ∧
    (s.dev = .armed → s.role = .solo → ∃ t, exec .stopSafe s = .next t ∧ t.dev = .armed ∧
      t.b.job = { s.b.job with pendSafe := true } ∧ accessFrame [] [.bJob] s t) ∧
    (s.dev = .writing ∨ s.dev = .racking → s.role = .solo → s.b.sht.stopFrom = none →
      ∃ t, exec .stopSafe s = .next t ∧
        (let n := max s.firstUnsigned s.b.sht.first
         t.b.sht.stopFrom = some n ∧ (∀ y ∈ t.b.cask.slots, y.shot < n) ∧ t.b.sht.unresolved = [] ∧ t.b.job.pendSafe = false ∧
         t.dev = if n ≤ s.b.sht.first then .draining else s.dev)) ∧
    (s.drained = true → s.b.cask.retireAtEnd = [] → (∀ k < 68, s.fld (F.TP_STAT_RETRIES k) ≤ 16) →
      ∃ t, exec .drainComplete s = .next t ∧ t.dev = .ready ∧ t.prevDev = .draining ∧ t.b.press.runs = [] ∧ t.b.press.nextBase = 0 ∧
        t.b.cask.slots = [] ∧ t.b.sht.stopFrom = none ∧ t.raised E.TOP_STATE_CHANGE = true)

/-- R233, R234, R236, R261: words written to JOB_DATA collect until the eighth, which accepts the descriptor into the queue
where no check fails and refuses it with the check's code where one does; FLUSH in READY empties the queue; a requested
configuration digest, for which no arm request of this device alone waits, is shown and held. Of its readings, these are the
model's own: log entry 43. -/
def Obligations.JobQueueTakesDescriptorsAndFlushEmptiesIt : Prop :=
  ∀ (s : State) (w : Word), s.reaches 7 = true →
    (s.b.job.words.length < 7 → ∃ t, exec (.jobDataWrite w) s = .next t ∧
      t.b.job = { s.b.job with words := s.b.job.words ++ [w], lastWord := w } ∧ accessFrame [] [.bJob] s t) ∧
    (s.b.job.words.length = 7 → (let b := (s.b.job.words ++ [w]).flatMap fun x => leBytes 4 x.toNat
      (s.descCode b = 0 → ∃ t, exec (.jobDataWrite w) s = .next t ∧ t.b.job.words = [] ∧
        t.b.job.head = some (parseEntry b).stripe ∧ t.rd R.JOB_HEAD = (parseEntry b).stripe % 2 ^ 32 ∧
        t.b.job.queue.length = s.b.job.queue.length + 1 ∧
        (t.b.job.queue.map JobEntry.stripe) = (s.b.job.queue.map JobEntry.stripe) ++ [(parseEntry b).stripe] ∧
        accessFrame [R.JOB_HEAD] [.bJob, .bMot] s t) ∧
      (s.descCode b ≠ 0 → ∃ t, exec (.jobDataWrite w) s = .next t ∧ t.b.job = { s.b.job with words := [], lastWord := w } ∧
        t.fld F.JOB_REFUSE_CODE = s.descCode b ∧ t.raised E.JOB_DESC_REFUSED = true ∧ accessFrame [R.JOB_REFUSE] [.bJob] s t))) ∧
    (s.dev = .ready → ∃ t, exec .flush s = .next t ∧ t.dev = .ready ∧ t.b.job.queue = [] ∧ t.b.job.head = none) ∧
    ∀ req, s.b.par.digestReq = some req → s.b.job.armReq ≠ some 0 ∨ s.passes = true → ∃ t, exec .digestDone s = .next t ∧ t.b.par.digestReq = none ∧
      t.b.par.ownDigest = some (crcOf crc64 s.digestImage, req) ∧ t.rd R.PAR_DIGEST_LO = crcOf crc64 s.digestImage % 2 ^ 32 ∧
      t.rd R.PAR_DIGEST_HI = crcOf crc64 s.digestImage / 2 ^ 32 % 2 ^ 32 ∧
      eventFrame [R.PAR_DIGEST_LO, R.PAR_DIGEST_HI, R.PAR_FIJ_CFG, R.PAR_FIJ_DONE, R.FIJ_DONE] [.bPar] s t

/-- R36, R38, R55, R56: an OPEN command of the LAT page opens its window at index 0; CLOSE closes the open window in any
state in which the page is reached and no check runs; CHECK, in READY, closes it and starts the check; a write to a lattice
parameter stores its writable bits and makes the tables UNCHECKED. While a check runs, every command of LAT_CMD is refused
and every write to a lattice parameter is ignored: the LAT page records the first error and nothing else of the page changes.
-/
def Obligations.LatticeCommandsTakeEffectOutsideAChecksRun : Prop :=
  ∀ s : State, s.reaches 0x31 = true →
    (s.checking = false →
      (s.dev = .ready →
        (let opened := fun (window : Nat) (t : State) => t.fld F.LAT_STAT_WINDOW = window ∧ t.fld F.LAT_IDX_INDEX = 0 ∧
           t.fld F.LAT_STAT_CHK_STATE = s.fld F.LAT_STAT_CHK_STATE ∧ t.fld F.LAT_STAT_RESULT = s.fld F.LAT_STAT_RESULT ∧
           accessFrame [R.LAT_STAT, R.LAT_IDX] [] s t
         (∃ t, exec .openLattice s = .next t ∧ opened 1 t) ∧ (∃ t, exec .openGain s = .next t ∧ opened 2 t) ∧
         (∃ t, exec .openDerived s = .next t ∧ opened 3 t) ∧ (∃ t, exec .openClass s = .next t ∧ opened 4 t) ∧
         ∃ t, exec .openLees s = .next t ∧ opened 5 t)) ∧
      (∃ t, exec .latClose s = .next t ∧ t.fld F.LAT_STAT_WINDOW = 0 ∧
        t.fld F.LAT_STAT_CHK_STATE = s.fld F.LAT_STAT_CHK_STATE ∧ accessFrame [R.LAT_STAT] [] s t) ∧
      (s.dev = .ready → ∃ t, exec .check s = .next t ∧ t.fld F.LAT_STAT_WINDOW = 0 ∧ t.fld F.LAT_STAT_CHK_STATE = 1 ∧
        accessFrame [R.LAT_STAT] [] s t) ∧
      (s.locked = false → ∀ w : Word,
        (∃ t, exec (.latParamWrite .step w) s = .next t ∧ t.fld F.LAT_STEP_STEP = w.toNat % 128 ∧
          t.fld F.LAT_STAT_CHK_STATE = 0 ∧ accessFrame [R.LAT_STEP, R.LAT_STAT] [] s t) ∧
        (∃ t, exec (.latParamWrite .dscale w) s = .next t ∧ t.fld F.LAT_DSCALE_W = w.toNat % 65536 ∧
          t.fld F.LAT_STAT_CHK_STATE = 0 ∧ accessFrame [R.LAT_DSCALE, R.LAT_STAT] [] s t) ∧
        ∃ t, exec (.latParamWrite .cfg w) s = .next t ∧ t.fld F.LAT_CFG_DEPTH = w.toNat % 4 ∧
          t.fld F.LAT_STAT_CHK_STATE = 0 ∧ accessFrame [R.LAT_CFG, R.LAT_STAT] [] s t)) ∧
    (s.checking = true → s.rd (pageReg 0x31 0x020) / 2 ^ 16 % 2 ^ 15 = 0 →
      (∀ p ∈ [(Instr.openLattice, 1), (.openGain, 2), (.openDerived, 3), (.openClass, 4), (.openLees, 5), (.latClose, 6), (.check, 7)],
        ∃ t, exec p.1 s = .next t ∧ t.rd (pageReg 0x31 0x020) = 2 ^ 16 + p.2 * 2 ^ 8 + Err.refused ∧
          t.rd (pageReg 0x31 0x024) = 0x100 ∧ accessFrame [pageReg 0x31 0x020, pageReg 0x31 0x024] [] s t) ∧
      ∀ p w, ∃ t, exec (.latParamWrite p w) s = .next t ∧ t.rd (pageReg 0x31 0x020) = 2 ^ 16 + Err.locked ∧
        t.rd (pageReg 0x31 0x024) = latParamReg p - 0x31000 ∧ accessFrame [pageReg 0x31 0x020, pageReg 0x31 0x024] [] s t)

/-- R36 to R38, R57, R130, R262: a check that refuses writes CHK_STATE, RESULT and LAT_BAD, raises CHECK_REFUSED and changes
nothing else; one that passes captures the tables, writes PASS and its figures, raises CHECK_DONE, writes the fit, and
requests the configuration digest. Of its readings, these are the model's own: log entry 38. -/
def Obligations.LatticeCheckCapturesTheTablesOrWritesItsVerdictOnly : Prop :=
  ∀ s : State, s.checking = true → s.powered 1 = true →
    (∀ x : LatBad, s.latIn.check = some x →
      ∃ t, exec .checkDone s = .next t ∧ t.fld F.LAT_STAT_CHK_STATE = 3 ∧ t.fld F.LAT_STAT_RESULT = x.result % 16 ∧
        t.rd R.LAT_BAD = (x.cls % 256 * 2 ^ 20 + x.index) % 2 ^ 32 ∧ t.raised E.LAT_CHECK_REFUSED = true ∧
        t.fld F.LAT_STAT_UNEVEN = s.fld F.LAT_STAT_UNEVEN ∧ t.fld F.LAT_STAT_QMISM = s.fld F.LAT_STAT_QMISM ∧
        t.fld F.LAT_STAT_CLOSE_HOT = s.fld F.LAT_STAT_CLOSE_HOT ∧ eventFrame [R.LAT_STAT, R.LAT_BAD] [] s t) ∧
    (s.latIn.check = none →
      ∃ t, exec .checkDone s = .next t ∧ t.b.lat = { s.b.lat with cap := some s.latIn } ∧
        t.fld F.LAT_STAT_CHK_STATE = 2 ∧ t.fld F.LAT_STAT_RESULT = 0 ∧ t.fld F.LAT_STAT_WINDOW = s.fld F.LAT_STAT_WINDOW ∧
        t.rd R.LAT_DYMAX = s.latIn.dymax % 2 ^ 32 ∧ t.rd R.LAT_NVIS = (s.latIn.nvisMax * 2 ^ 8 + s.latIn.nvisMin) % 2 ^ 32 ∧
        t.rd R.LAT_DEAD_CNT = s.latIn.dead % 2 ^ 32 ∧ t.rd R.LAT_QMISM_CNT = s.latIn.qmism % 2 ^ 32 ∧
        t.raised E.LAT_CHECK_DONE = true ∧ t.b.par = { s.b.par with digestReq := some 0 } ∧
        eventFrame [R.LAT_STAT, R.LAT_DYMAX, R.LAT_NVIS, R.LAT_QMISM_CNT, R.LAT_HOTF, R.LAT_HOTR, R.LAT_DEAD_CNT, R.CSK_FIT, R.CSK_LEAD]
          [.bLat, .bPar, .bJob] s t)

/-- R29, R55, R347: a word written through LAT_DATA to an open lattice or gain window within its entries is stored, with the
bits that the entry has, and the index moves on; a read answers the open window's word at the index and moves the index on.
Where no job locks the tables, an uncorrectable error in their SRAM leaves the check UNCHECKED and is counted, located and
raised. Of its readings, these are the model's own: log entries 108, 113. -/
def Obligations.LatDataWindowStoresAndReadsEntries : Prop :=
  ∀ s : State, s.reaches 0x31 = true →
    (∀ w : Word, s.fld F.LAT_STAT_WINDOW = 1 → s.fld F.LAT_IDX_INDEX < 1024 →
      ∃ t, exec (.latDataAccess (some w) []) s = .next t ∧
        spGet (fun _ => 0) t.b.lat.lattice (s.fld F.LAT_IDX_INDEX) = w &&& 0x03031FFF#32 ∧
        (∀ i, i ≠ s.fld F.LAT_IDX_INDEX → spGet (fun _ => 0) t.b.lat.lattice i = spGet (fun _ => 0) s.b.lat.lattice i) ∧
        t.b.lat.gain = s.b.lat.gain ∧ t.b.lat.cap = s.b.lat.cap ∧ t.fld F.LAT_IDX_INDEX = s.fld F.LAT_IDX_INDEX + 1 ∧
        t.fld F.LAT_STAT_CHK_STATE = 0 ∧ t.fld F.LAT_STAT_WINDOW = 1 ∧ accessFrame [R.LAT_STAT, R.LAT_IDX] [.bLat] s t) ∧
    (∀ w : Word, s.fld F.LAT_STAT_WINDOW = 2 → s.fld F.LAT_IDX_INDEX < 524288 →
      ∃ t, exec (.latDataAccess (some w) []) s = .next t ∧
        spGet (fun _ => 0) t.b.lat.gain (s.fld F.LAT_IDX_INDEX) = w &&& 0x0FFF0FFF#32 ∧
        (∀ i, i ≠ s.fld F.LAT_IDX_INDEX → spGet (fun _ => 0) t.b.lat.gain i = spGet (fun _ => 0) s.b.lat.gain i) ∧
        t.b.lat.lattice = s.b.lat.lattice ∧ t.b.lat.cap = s.b.lat.cap ∧ t.fld F.LAT_IDX_INDEX = s.fld F.LAT_IDX_INDEX + 1 ∧
        t.fld F.LAT_STAT_CHK_STATE = 0 ∧ t.fld F.LAT_STAT_WINDOW = 2 ∧ accessFrame [R.LAT_STAT, R.LAT_IDX] [.bLat] s t) ∧
    (∃ t, exec (.latDataAccess none []) s = .next t ∧ Out.completion (leBytes 4 s.latData) false ∈ t.out ∧
      t.fld F.LAT_IDX_INDEX = (s.fld F.LAT_IDX_INDEX + 1) % 2 ^ 24 ∧
      accessFrame [R.LAT_IDX] [] s t) ∧
    ∀ w : BitVec 20, s.locked = false →
      ∃ t, exec (.latDataAccess none [⟨8, w, true⟩]) s = .next t ∧ t.fld F.LAT_STAT_CHK_STATE = 0 ∧
        t.rd R.MEM_SRAM_UE_CNT = (s.rd R.MEM_SRAM_UE_CNT + 1) % 2 ^ 32 ∧
        t.rd R.MEM_SRAM_LOC = 8 * 2 ^ 24 + 2 ^ 23 + w.toNat ∧ t.raised E.MEM_SRAM_UE = true ∧
        accessFrame [R.LAT_STAT, R.LAT_IDX, R.MEM_SRAM_UE_CNT, R.MEM_SRAM_LOC] [] s t

/-- R34, R47, R132, R134, R136, R140, R142, R143, R144, R147, R149: the taps. A shot whose rows are released is computed into
a new slot, and the groups that pass on retry are counted by tap; its completion gives the slot the 64 lane signatures and
books its 64 frames built; a steering request is noted, and refused where it conflicts; at a boundary the one request that
waits makes its spare serve; the oldest draining slot's lees enter the cask, the corrected words that its reads met are
counted, and the discard pointer moves to the oldest row that a shot still reads. Of its readings, these are the model's own:
log entries 58, 108. -/
def Obligations.TapsComputeSignSteerAndCommitShots : Prop :=
  ∀ s : State,
    (∀ r tb, s.run = some r → s.b.lat.cap = some tb → s.tapsMayStart r = true → rowsReady tb r s.b.cask.nextShot = true →
      ∀ f : TapFaults, f.fail = none → (∀ e ∈ f.sram, e.ue = false) → ∃ t, exec (.tapShotStart f) s = .next t ∧
        (let m := s.b.cask.nextShot
         let o := computeShot s tb r m
         let x : Slot :=
          { shot := m, codes := o.codes, lees := o.lees, closes := o.closes, last := m + 1 == r.stripe.shots,
            row := r.stripe.base + (earlyRow tb r m).toNat }
         t.b.cask.slots = s.b.cask.slots ++ [x]) ∧
        t.b.cask.nextShot = s.b.cask.nextShot + 1 ∧ t.b.cask.cask = s.b.cask.cask ∧
        (∀ n : Fin 68, t.rd (R.TP_RETRY_OK n) =
          (s.rd (R.TP_RETRY_OK n) + ((f.retries.filter fun e => e.1 == n).map fun e => e.2.val).sum) % 2 ^ 32) ∧
        pagesFrame (0x14 :: 0x30 :: tpPages) [.bCask, .bPress] s t) ∧
    (∀ x, s.role = .solo → s.b.cask.slots.find? (fun y => !y.complete) = some x →
      ∃ t, exec .tapShotDone s = .next t ∧ t.led.frame = s.led.frame.book (.come 64) ∧
        (∀ y ∈ t.b.cask.slots, y.shot = x.shot → y.complete = true ∧
          y.sigs = (List.range 64).map fun n => laneSig n x.shot (payloadBytes s.depth (laneCodes x.codes n))) ∧
        t.b.cask.slots.length = s.b.cask.slots.length ∧ plainFrame [] [.bCask, .bSht, .ledFrame] s t) ∧
    (∀ (i : Fin 4) (w : Word), s.reaches 0x30 = true → s.flag (F.CSK_STEER_AUTO i) = false →
      (∀ j < 4, j ≠ i.val → s.flag (F.CSK_STEER_EN j) = true → s.fld (F.CSK_STEER_LANE j) ≠ w.toNat % 64) →
      ∃ t, exec (.cskSteerWrite i w) s = .next t ∧ t.flag (F.CSK_STEER_EN i) = w.toNat.testBit 31 ∧
        t.fld (F.CSK_STEER_LANE i) = w.toNat % 64 ∧ i.val ∈ t.b.cask.steerPending ∧ accessFrame [R.CSK_STEER i] [.bCask] s t) ∧
    (∀ i : Fin 4, s.steerBoundary = true → s.b.cask.steerPending = [i.val] →
      ∃ t, exec .steerApply s = .next t ∧ t.b.cask.steerPending = [] ∧
        t.flag (F.CSK_STEER_ACTIVE i) = (s.flag (F.CSK_STEER_EN i) && !s.tapRetired (64 + i) && !s.tapTested (64 + i)) ∧
        eventFrame [R.CSK_STEER i] [.bCask, .bBst] s t) ∧
    ∀ x rest, s.b.cask.draining = x :: rest →
      ∀ ce, ∃ t, exec (.commitWritesDone ce none) s = .next t ∧ t.rd R.CSK_CE_CNT = (s.rd R.CSK_CE_CNT + ce.length) % 2 ^ 32 ∧
        t.b.cask.discard = t.oldestRow ∧ t.b.cask.draining = rest ∧ t.b.cask.slots = s.b.cask.slots ∧
        t.b.cask.cask = x.lees.foldl (fun l e => spPut (fun _ => 0) l e.1 (spGet (fun _ => 0) l e.1 / 16 * 16 + e.2)) s.b.cask.cask ∧
        pagesFrame [0x14, 0x30] [.bCask] s t

/-- R81, R84, R86, R88 to R91, R117, R129: the press. The next ready stripe starts, and its bin becomes CURRENT; the next
cluster in scan order goes to the lowest idle engine; a cluster that decodes frees its engine and is booked pressed; one that
fails frees its engine, is counted by its kind, and waits for a retry or is lost. Of its readings, these are the model's own:
log entries 59, 119. -/
def Obligations.PressStartsDispatchesPassesAndFailsClusters : Prop :=
  ∀ s : State,
    (∀ e x h tb, s.nextStripe = some (e, x, h) → s.b.lat.cap = some tb → s.pressing = true → s.mayStart = true →
      (s.b.press.runs = [] ∨ s.bandFree s.b.press.nextBase = true) →
      ∃ t, exec .pressStripeStart s = .next t ∧
        (let st : Stripe := ⟨e.stripe, e.bin, e.rev, e.last, h.len, e.y0, e.x, s.b.press.nextBase, shotCount h.len tb.dymax tb.s⟩
         t.b.press.runs = s.b.press.runs ++ [{ stripe := st, hdr := h }]) ∧
        t.b.press.nextBase = ((s.b.press.nextBase + h.len - 1) / 64 + 1) * 64 ∧
        (∀ y ∈ t.b.cel.bins, y.num = e.bin → y.state = .current) ∧ t.rd R.PRS_CUR_STRIPE = e.stripe % 2 ^ 32 ∧
        plainFrame ([R.PRS_CUR_STRIPE, R.PRS_CUR_ROW, R.CSK_BASE] ++ (List.range 16).map R.PE_STAT) [.bCel, .bCask, .bPress] s t) ∧
    (∀ num q e, s.pressing = true → s.nextRetry = none → s.nextCluster = some (num, q) →
      (List.range 16).find? s.engineIdle = some e → (∀ r ∈ s.b.press.runs, (s.bin r.stripe.bin).isSome = true) →
      ∀ faults, ∃ t, exec (.pressDispatch faults) s = .next t ∧ t.flag (F.PE_STAT_BUSY e) = true ∧ t.rd (R.PE_LAST e) = q % 2 ^ 32 ∧
        (∃ r ∈ t.b.press.runs, ∃ c ∈ r.busy, c.engine = e ∧ c.q = q ∧ c.attempt = 0)) ∧
    (∀ (e : Fin 16) r c px, s.onEngine e = some (r, c) → s.decodeOn r c = .pass px →
      ∃ t, exec (.clusterPass e) s = .next t ∧ t.flag (F.PE_STAT_BUSY e) = false ∧
        t.rd (R.PE_CLUSTERS e) = (s.rd (R.PE_CLUSTERS e) + 1) % 2 ^ 32 ∧
        (∀ x, s.bin r.stripe.bin = some x → c.q ∉ x.booked → t.led.tile = s.led.tile.book (.leave 8)) ∧
        eventFrame [R.PE_STAT e, R.PE_CLUSTERS e, R.PRS_CNT_RETRY_OK] [.bCask, .bCel, .bPress, .ledTile] s t) ∧
    ∀ (e : Fin 16) r c fault kind detail computed, s.onEngine e = some (r, c) →
      (s.decodeOn r c).failure fault = some (kind, detail, computed) →
      (c.attempt < s.fld F.PRS_CFG_RETRY → ∃ t, exec (.clusterFail e fault) s = .next t ∧ t.flag (F.PE_STAT_BUSY e) = false ∧
        (let cnt := if kind = 1 then R.PRS_CNT_SAFFRON else if kind = 2 then R.PRS_CNT_POISON else R.PRS_CNT_DECODE
         t.rd cnt = (s.rd cnt + 1) % 2 ^ 32) ∧
        t.rd (R.PE_FAILS e) = (s.rd (R.PE_FAILS e) + 1) % 2 ^ 32 ∧
        t.raised (if kind = 1 then E.PRS_SAFFRON else if kind = 2 then E.PRS_POISON else E.PRS_DECODE) = true ∧
        t.led.tile = s.led.tile ∧ pagesFrame [0x14, 0x18, 0x20 + e] [.bPress] s t) ∧
      (s.fld F.PRS_CFG_RETRY ≤ c.attempt → ∃ t, exec (.clusterFail e fault) s = .next t ∧
        t.rd R.PRS_CNT_LOST = (s.rd R.PRS_CNT_LOST + 1) % 2 ^ 32 ∧ t.raised E.PRS_LOST = true)

/-- R105 to R107, R122, R125: a doorbell that goes forward within the ring sets RNG_PI and books the entries as produced; one
that does not is ignored with DOORBELL. A write to RNG_CI of a ring that the device writes consumes entries that are there;
one beyond them is ignored with RANGE. A ring's entries move only by the side that owns the index. Of its readings, these are
the model's own: log entries 61, 89. -/
def Obligations.RingIndexWritesMoveProducerAndConsumer : Prop :=
  ∀ (s : State) (ring : Fin 128) (w : Word), s.reaches 0xA = true →
    (∀ entries, s.hostWritten ring = true → (ring.val < 64 ∨ entries = []) →
      (s.doorbellOk ring w.toNat = true → ∃ t, exec (.doorbell ring w entries) s = .next t ∧ t.pi ring = w.toNat ∧
        t.ci ring = s.ci ring ∧
        (s.b.bst.cur = none → t.led.ring = s.led.ring.book (.come ((w.toNat + 2 ^ 32 - s.pi ring) % 2 ^ 32))) ∧
        accessFrame [] [] s t) ∧
      (s.doorbellOk ring w.toNat = false → s.rd (pageReg 0xA 0x020) / 2 ^ 16 % 2 ^ 15 = 0 →
        ∃ t, exec (.doorbell ring w entries) s = .next t ∧ t.pi ring = s.pi ring ∧
          t.rd (pageReg 0xA 0x020) = 2 ^ 16 + Err.doorbell ∧ t.rd (pageReg 0xA 0x024) = R.RNG_PI ring - 0xA000 ∧
          accessFrame [pageReg 0xA 0x020, pageReg 0xA 0x024] [] s t)) ∧
    (s.hostWritten ring = false → s.b.dma.replies = [] → s.b.bst.cur = none →
      ((w.toNat + 2 ^ 32 - s.ci ring) % 2 ^ 32 ≤ s.ringUsed ring →
        ∃ t, exec (.consumerIndexWrite ring w) s = .next t ∧ t.ci ring = w.toNat ∧ t.pi ring = s.pi ring ∧
          t.led.ring = s.led.ring.book (.leave ((w.toNat + 2 ^ 32 - s.ci ring) % 2 ^ 32)) ∧ accessFrame [] [] s t) ∧
      (s.ringUsed ring < (w.toNat + 2 ^ 32 - s.ci ring) % 2 ^ 32 → s.rd (pageReg 0xA 0x020) / 2 ^ 16 % 2 ^ 15 = 0 →
        ∃ t, exec (.consumerIndexWrite ring w) s = .next t ∧ t.ci ring = s.ci ring ∧ t.pi ring = s.pi ring ∧
          t.rd (pageReg 0xA 0x020) = 2 ^ 16 + Err.range ∧
          accessFrame [pageReg 0xA 0x020, pageReg 0xA 0x024] [] s t)) ∧
    (s.hostWritten ring = false → s.b.bst.cur = none → ∃ t, exec (.doorbell ring w []) s = .next t ∧ t.pi ring = s.pi ring) ∧
    (s.hostWritten ring = true → ∃ t, exec (.consumerIndexWrite ring w) s = .next t ∧ t.ci ring = s.ci ring)

/-- R107 to R112, R118, R121: a taken descriptor is booked and goes to a channel; one with a bad form ends at once; the first
piece for a FREE bin of a queued entry starts a FILLING; a fence at the front completes; a completion that waited for room is
written once there is room, in order, and its ring goes on. Of its readings, these are the model's own: log entry 64. -/
def Obligations.DescriptorsAreTakenFencedAndCompletedInOrder : Prop :=
  ∀ s : State,
    (∀ (ring : Fin 64) (bytes : BitVec 256) (ch : Nat), s.mayTake ring = true → s.idleChannel ring = some ch →
      (let d := parseDesc bytes
       let dindex := (s.ci ring + (s.b.dma.inflight.filter fun f => f.ring == ring.val).length) % 2 ^ 32
       (s.descBad d = false → d.op.toNat % 16 = 2 ∨ d.op.toNat % 16 = 3 →
        ∃ t, exec (.descriptorTake ring bytes) s = .next t ∧ (⟨ring, dindex, d, 0, 0, none, false⟩ : InFlight) ∈ t.b.dma.inflight ∧
          (∃ c ∈ t.b.dma.chans, c.ch = ch ∧ c.ring = ring.val ∧ c.dindex = dindex) ∧
          t.led.creditDma = s.led.creditDma.book (.come d.len.toNat)) ∧
       (s.descBad d = true → s.flight ring dindex = none →
        ∃ t, exec (.descriptorTake ring bytes) s = .next t ∧ t.raised E.DMA_DESC_ERR = true ∧
          (∀ f ∈ t.b.dma.inflight, f.ring = ring.val → f.dindex = dindex → f.ended = some 1) ∧
          t.led.creditDma = (s.led.creditDma.book (.come d.len.toNat)).book (.leave d.len.toNat)) ∧
       (s.descBad d = false → d.op.toNat % 16 = 1 → d.dst.toNat = 0 → s.flight ring dindex = none → s.dev ≠ .fault →
        s.binRefuses ring d = false →
        ∃ t, exec (.descriptorTake ring bytes) s = .next t ∧
          (∃ x ∈ t.b.cel.bins, x.num = d.bin.toNat ∧ x.state = .filling ∧ x.sring = some ring.val ∧
            x.pieces = [⟨0, d.len.toNat, 0, false, d.flags.toNat.testBit 1⟩]) ∧
          ∃ c ∈ t.b.dma.chans, c.ch = ch ∧ c.ring = ring.val ∧ c.dindex = dindex))) ∧
    (∀ (ring : Fin 64) (f : InFlight), s.b.dma.inflight = [f] → f.ring = ring.val → f.desc.op.toNat % 16 = 4 → f.ended = none →
      (f.desc.flags.toNat.testBit 0 = false ∨ s.cqRoom (s.fld (F.RNG_CFG_LINK ring)) = true) → s.b.dma.stalled = [] →
      ∃ t, exec (.fenceDone ring) s = .next t ∧ t.b.dma.inflight = [] ∧ t.ci ring = (s.ci ring + 1) % 2 ^ 32 ∧
        eventFrame [] [.bDma, .ledCreditDma] s t) ∧
    ∀ cq : Fin 32, s.flag (F.RNG_CFG_EN (64 + cq)) = true → s.ringRoom (64 + cq) 1 = true →
      (∀ bytes, s.b.dma.owed = [(64 + cq.val, bytes, false)] → s.b.dma.stalled = [] →
        ∃ t, exec (.completionStallEnd cq) s = .next t ∧ t.b.dma.owed = [] ∧ t.pi (64 + cq) = (s.pi (64 + cq) + 1) % 2 ^ 32 ∧
          t.out = [.ring (64 + cq) (s.pi (64 + cq)) (s.entryAddr (64 + cq) (s.pi (64 + cq))) (withPhase bytes (s.pi (64 + cq)) (s.ringLen (64 + cq)))] ∧
          plainFrame [] [.bDma, .rings, .ledRing] s t) ∧
      ∀ (ring : Fin 64) (f : InFlight) st, s.b.dma.owed = [] → s.b.dma.stalled = [ring.val] → s.b.dma.inflight = [f] →
        f.ring = ring.val → f.ended = some st → s.fld (F.RNG_CFG_LINK ring) = 64 + cq.val → f.desc.flags.toNat.testBit 0 = true →
        ∃ t, exec (.completionStallEnd cq) s = .next t ∧ t.b.dma.inflight = [] ∧ t.b.dma.stalled = [] ∧
          t.pi (64 + cq) = (s.pi (64 + cq) + 1) % 2 ^ 32 ∧ t.ci ring = (s.ci ring + 1) % 2 ^ 32 ∧
          (let e := completionEntry f.desc.tag.toNat st ring f.confirmed f.dindex
           .ring (64 + cq) (s.pi (64 + cq)) (s.entryAddr (64 + cq) (s.pi (64 + cq))) (withPhase e (s.pi (64 + cq)) (s.ringLen (64 + cq))) ∈ t.out) ∧
          eventFrame [] [.bDma] s t

/-- R99, R103, R109, R113, R119, R121: a transfer ends. A READ puts the cellar's bytes into the host buffer, with all ones
for a line that does not read, and leaves its channel; a TABLE transfer feeds its words to the window's register; stripe data
cut short by the bus, or by a read of the host that gets no completion, stand confirmed in the cellar, and the bin stays
FILLING with the rest of the piece missing. Of its readings, these are the model's own: log entries 64, 65. -/
def Obligations.TransfersMoveBytesAndKeepWhatWasConfirmed : Prop :=
  ∀ (s : State) (ch : Fin 32) (c : Chan) (f : InFlight), s.chan ch = some c → s.flight c.ring c.dindex = some f →
    f.ended = none → c.parked = false → c.poolWait = false →
    (∀ data faults, f.desc.op.toNat % 16 = 3 → f.desc.wrap = 0 → s.b.ram.wb = [] →
      (let n := f.desc.len.toNat - f.confirmed
       0 < n →
        ∃ t, exec (.transferDone ch data .ok faults) s = .next t ∧
          t.led.creditDma = s.led.creditDma.book (.leave n) ∧
          (∃ g, Out.host (f.desc.dst.toNat + f.confirmed) g ∈ t.out ∧ g.length = n ∧
            ∀ i < n, g[i]? = some ((s.readByte faults (f.desc.src.toNat + f.confirmed + i)).getD 0xFF)) ∧
          (∀ g ∈ t.b.dma.inflight, g.ring = f.ring → g.dindex = f.dindex → g.ended.isSome = true) ∧
          t.mem = s.mem)) ∧
    (∀ (data : List Byte) (k : Fin 4), f.desc.op.toNat % 16 = 2 → f.desc.dst.toNat = R.CK_FEED32 k →
      (let n := f.desc.len.toNat - f.confirmed
       n % 4 = 0 → n ≤ data.length →
        ∃ t, exec (.transferDone ch data .ok []) s = .next t ∧ t.rd (R.CK_CNT k) = (s.rd (R.CK_CNT k) + n) % 2 ^ 32 ∧
          t.mem = s.mem ∧ t.led.creditDma = s.led.creditDma.book (.leave n))) ∧
    ∀ (data : List Byte) (x : Bin) (last : Bool), f.desc.op.toNat % 16 = 1 → s.dev ≠ .fault → s.flightBin f = some x → x.hdr = none →
      f.desc.dst = 0 → f.confirmed = 0 → x.pieces = [⟨0, f.desc.len.toNat, 0, false, last⟩] →
      data.length < 256 → data.length % 64 = 0 → data.length ≤ f.desc.len.toNat →
      (let cut := fun t : State => t.raised E.DMA_DESC_ERR = true ∧
          (∀ i < data.length, cellGet t.mem (x.num * s.binBytes + i) = data[i]?) ∧
          (∀ a, (a < x.num * s.binBytes ∨ x.num * s.binBytes + data.length ≤ a) → cellGet t.mem a = cellGet s.mem a) ∧
          (∃ y ∈ t.b.cel.bins, y.num = x.num ∧ y.state = .filling ∧
            y.pieces = [⟨0, f.desc.len.toNat, data.length, true, false⟩]) ∧
          t.led.creditDma = (s.led.creditDma.book (.leave data.length)).book (.leave (f.desc.len.toNat - data.length))
       (∃ t, exec (.transferDone ch data .busErr []) s = .next t ∧ cut t) ∧
        ∃ t, exec (.hifCplTimeout ch data) s = .next t ∧ cut t)

/-- R116, R119, R120: a layout is accepted in READY with every bin FREE where it fits, and is ignored with LOCKED or RANGE
otherwise; DROP refuses a FILLING bin's stripe with DROPPED and frees the bin; the oldest waiting reservation is granted its
buffers once the pool covers it. Of its readings, these are the model's own: log entries 67, 106, 115. -/
def Obligations.CellarLayoutDropAndReservationsTakeEffect : Prop :=
  ∀ s : State,
    (∀ (pool : Bool) (w : Word), s.reaches 0x15 = true →
      (let bins := if pool then s.fld F.CEL_BIN_CFG_NBINS * s.fld F.CEL_BIN_CFG_BIN_MIB
         else F.CEL_BIN_CFG_NBINS.get w.toNat * F.CEL_BIN_CFG_BIN_MIB.get w.toNat
       let units := if pool then F.CEL_POOL_UNITS_UNITS.get w.toNat else s.fld F.CEL_POOL_UNITS_UNITS
       (s.dev = .ready → s.b.cel.bins = [] → bins + units ≤ s.fld F.CEL_CAPACITY_MIB →
        ∃ t, exec (.celLayoutWrite pool w) s = .next t ∧
          (if pool then t.fld F.CEL_POOL_UNITS_UNITS = F.CEL_POOL_UNITS_UNITS.get w.toNat
            else t.fld F.CEL_BIN_CFG_NBINS = F.CEL_BIN_CFG_NBINS.get w.toNat ∧
              t.fld F.CEL_BIN_CFG_BIN_MIB = F.CEL_BIN_CFG_BIN_MIB.get w.toNat) ∧
          accessFrame [if pool then R.CEL_POOL_UNITS else R.CEL_BIN_CFG] [] s t) ∧
       (s.rd (pageReg 0x15 0x020) / 2 ^ 16 % 2 ^ 15 = 0 →
        (s.dev ≠ .ready ∨ s.b.cel.bins ≠ [] → ∃ t, exec (.celLayoutWrite pool w) s = .next t ∧
          t.rd (pageReg 0x15 0x020) = 2 ^ 16 + Err.locked ∧
          accessFrame [pageReg 0x15 0x020, pageReg 0x15 0x024] [] s t) ∧
        (s.dev = .ready → s.b.cel.bins = [] → s.fld F.CEL_CAPACITY_MIB < bins + units →
          ∃ t, exec (.celLayoutWrite pool w) s = .next t ∧ t.rd (pageReg 0x15 0x020) = 2 ^ 16 + Err.range ∧
            accessFrame [pageReg 0x15 0x020, pageReg 0x15 0x024] [] s t)))) ∧
    (s.reaches 0x15 = true →
      (∀ x, s.bin (s.fld F.CEL_BIN_SEL_BIN) = some x → x.state = .filling →
        ∃ t, exec .drop s = .next t ∧ t.fld F.PRS_REFUSE_CODE = 9 ∧ t.rd R.PRS_CNT_REFUSED = (s.rd R.PRS_CNT_REFUSED + 1) % 2 ^ 32 ∧
          t.rd R.PRS_REFUSE_STRIPE = x.stripe % 2 ^ 32 ∧ t.raised E.PRS_REFUSED = true ∧ (∀ y ∈ t.b.cel.bins, y.num ≠ x.num) ∧
          (∀ e ∈ t.b.job.queue, e.stripe = x.stripe → e.missing = true) ∧ t.b.job.queue.length = s.b.job.queue.length ∧
          t.mem = s.mem) ∧
      ((∀ x, s.bin (s.fld F.CEL_BIN_SEL_BIN) = some x → x.state ≠ .filling) → s.rd (pageReg 0x15 0x020) / 2 ^ 16 % 2 ^ 15 = 0 →
        ∃ t, exec .drop s = .next t ∧ t.rd (pageReg 0x15 0x020) = 2 ^ 16 + Err.refused ∧
          accessFrame [pageReg 0x15 0x020, pageReg 0x15 0x024] [] s t)) ∧
    ∀ n rest x h, s.b.cel.waits = n :: rest → s.bin n = some x → x.hdr = some h → h.units ≤ s.poolFree →
      ∃ t, exec .reservationGrant s = .next t ∧ n ∉ t.b.cel.waits ∧
        ((∃ y ∈ t.b.cel.bins, y.num = n ∧ y.units.length = h.units) ∨
          t.rd R.PRS_CNT_REFUSED = (s.rd R.PRS_CNT_REFUSED + 1) % 2 ^ 32 ∨ t.raised E.PAR_STRIPE_DIGEST = true)

/-- R99, R341, R342, R345: a BAR2 read of lines that read answers their bytes and changes nothing, and one of a range outside
the cellar answers all ones; a read command that fails parity is counted and reported, and its rank must be retired, but its
bytes come; a BAR2 write stores its bytes and no other in READY, a line that it covers in part and that does not read
becoming poison, and in any other state of a powered device is dropped with LOCKED and BAR2_DROP. Of its readings, these are
the model's own: log entries 13, 69, 72. -/
def Obligations.CellarApertureReadsAndWritesBytes : Prop :=
  ∀ (s : State) (off : BitVec 28),
    (∀ len : Fin 65, s.dev ≠ .off → s.dev ≠ .dormant → s.cellarHas (s.apertureAddr off.toNat) len = true →
      (∀ la ∈ linesOf (s.apertureAddr off.toNat) len, s.soundLine la) →
      ∃ t, exec (.bar2Read off len []) s = .next t ∧
        t.out = [.completion ((List.range len).map fun i => (s.readByte [] (s.apertureAddr off.toNat + i)).getD 0) false] ∧
        plainFrame [] [] s t) ∧
    (∀ (len : Fin 65) faults, s.dev ≠ .off → s.dev ≠ .dormant → s.cellarHas (s.apertureAddr off.toNat) len = false →
      ∃ t, exec (.bar2Read off len faults) s = .next t ∧ t.out = [.completion (List.replicate len 0xFF) true] ∧
        plainFrame [] [] s t) ∧
    (∀ (len : Fin 65) (f : LineFault), s.dev ≠ .off → s.dev ≠ .dormant → s.cellarHas (s.apertureAddr off.toNat) len = true →
      (let la := lineAddr f.addr.toNat
       let ch := lineChannel la
       f.parity = true → la ∈ linesOf (s.apertureAddr off.toNat) len → s.flag (F.MC_CFG_CAPAR ch) = true →
        (∀ x ∈ linesOf (s.apertureAddr off.toNat) len, s.soundLine x) → s.belowPointer la = false →
        ∃ t, exec (.bar2Read off len [f]) s = .next t ∧ t.rd (R.MC_CAPAR_CNT ch) = min (s.rd (R.MC_CAPAR_CNT ch) + 1) 0xFFFFFFFF ∧
          t.raised (E.MC_CA_PARITY ch) = true ∧ (ch, s.lineRank la) ∈ t.b.ram.retired ∧
          .completion ((List.range len).map fun i => (s.readByte [] (s.apertureAddr off.toNat + i)).getD 0) false ∈ t.out ∧
          t.mem = s.mem)) ∧
    ∀ data : List Byte,
      (s.dev = .ready → s.cellarHas (s.apertureAddr off.toNat) data.length = true →
        (∀ la ∈ linesOf (s.apertureAddr off.toNat) data.length, la < s.apertureAddr off.toNat ∨
          s.apertureAddr off.toNat + data.length < la + 64 → s.soundLine la) →
        ∃ t, exec (.bar2Write off ⟨data, []⟩) s = .next t ∧
          (∀ i < data.length, cellGet t.mem (s.apertureAddr off.toNat + i) = data[i]?) ∧
          (∀ a, (a < s.apertureAddr off.toNat ∨ s.apertureAddr off.toNat + data.length ≤ a) → cellGet t.mem a = cellGet s.mem a) ∧
          plainFrame [] [.mem, .bCel, .bRam] s t) ∧
      (∀ la, s.dev = .ready → s.cellarHas (s.apertureAddr off.toNat) data.length = true → data.length < 64 →
        linesOf (s.apertureAddr off.toNat) data.length = [la] → s.readLine [] la = .bad → la ∉ s.b.ram.wb →
        ∃ t, exec (.bar2Write off ⟨data, []⟩) s = .next t ∧ la ∈ t.b.cel.poison ∧ t.raised (E.MC_UE (lineChannel la)) = true) ∧
      (∀ faults, s.dev ≠ .off → s.dev ≠ .dormant → s.dev ≠ .ready →
        ∃ t, exec (.bar2Write off ⟨data, faults⟩) s = .next t ∧ t.raised E.CEL_BAR2_DROP = true ∧
          (s.rd (pageReg 0x15 0x020) / 2 ^ 16 % 2 ^ 15 = 0 → t.rd (pageReg 0x15 0x020) = 2 ^ 16 + Err.locked) ∧
          eventFrame [pageReg 0x15 0x020, pageReg 0x15 0x024] [] s t)

/-- R100, R119, R125: a ring RESET empties the ring, ends its descriptors, and lets its bins go on from any ring; a link
reset returns the registers of the HIF, DMA and RNG pages, their headers too, but HIF_RESET_CNT, which counts it, to their
reset values, ends every transfer, and keeps the device state and the READY and CURRENT bins. (Between two stripes a line
that a transfer's last bytes meet may retire its rank, whose stop at stripe end ends the job.) Of its readings, these are the
model's own: log entries 62, 63. -/
def Obligations.RingAndLinkResetsEndTransfersAndKeepStripes : Prop :=
  ∀ s : State,
    (∀ (ring : Fin 128) moved, s.reaches 0xA = true →
      (ring.val < 64 → (∀ r < 64, 64 ≤ s.fld (F.RNG_CFG_LINK r)) → ∃ t, exec (.ringReset ring moved) s = .next t ∧ t.pi ring = 0 ∧ t.ci ring = 0 ∧
        (∀ f ∈ t.b.dma.inflight, f.ring ≠ ring.val) ∧ (∀ x ∈ t.b.cel.bins, x.sring ≠ some ring.val) ∧
        (s.between = false → t.dev = s.dev)) ∧
      (64 ≤ ring.val → s.b.dma.inflight = [] → s.b.bst.cur = none →
        ∃ t, exec (.ringReset ring moved) s = .next t ∧ t.pi ring = 0 ∧ t.ci ring = 0 ∧
          t.led.ring = s.led.ring.book (.leave (s.ringUsed ring)) ∧ t.dev = s.dev ∧ t.mem = s.mem)) ∧
    ∀ moved, s.dev ≠ .off → (s.b.cel.bins.map (·.num)).Nodup →
      ∃ t, exec (.linkReset moved) s = .next t ∧ (s.between = false → t.dev = s.dev) ∧ t.role = s.role ∧
        t.rd R.HIF_RESET_CNT = (s.rd R.HIF_RESET_CNT + 1) % 2 ^ 32 ∧ t.raised E.HIF_LINK_RESET = true ∧
        (∀ a, a ≠ R.HIF_RESET_CNT → linkPage a = true → t.rd a = (resetValue a).toNat) ∧
        t.b.dma = {} ∧ t.led.creditDma = {} ∧ t.led.ring = {} ∧
        ∀ x ∈ s.b.cel.bins, x.state ≠ .filling → ∃ y ∈ t.b.cel.bins, y.num = x.num ∧ y.state = x.state ∧ y.stripe = x.stripe

/-- R137, R162, R164, R167, R169, R172, R192: frames and seals. At a take point a shot that is complete has its 64 data
frames taken, with the next COUNT of every lane; one that is not is withheld, and 64 HOLD frames go in its place. A frame
that is sent leaves its lane's queue and is booked, and a SOLO shot whose last frame is sent settles SOLO; an internal error
counts as a failed send check. Of its readings, these are the model's own: log entry 2. -/
def Obligations.FramesAreTakenSentAndBooked : Prop :=
  ∀ s : State,
    (∀ (k edge : Int) rest r c m, s.b.sht.frozen = (k, edge) :: rest → k < (s.b.sht.runStart : Int) → s.dev ≠ .racking →
      s.run = some r → s.b.lat.cap = some c → m = (k + 2).toNat → m < r.stripe.shots → s.stoppedAt m = false →
      s.injecting 0x90 = false → s.b.plk.swapHeld = [] → s.nextCount ≠ 0xFFFFFFFF →
      (∀ x, s.slot m = some x → x.complete = true → s.heldFrom m = false → s.b.par.wdSelf = false → (s.shotRec m).det = none →
        ∃ t, exec .takePoint s = .next t ∧ t.b.sht.frozen = rest ∧ t.b.sht.takeNext = m + 1 ∧
          (t.shotRec m).taken = true ∧ (t.shotRec m).hold = false ∧ (t.shotRec m).count = s.nextCount ∧
          (t.shotRec m).unsent = List.range 64 ∧ t.b.plk.counts = s.b.plk.counts.map (· + 1) ∧
          t.b.plk.txq = s.b.plk.txq ++ (List.range 64).map (frameOf s r m false) ∧
          plainFrame [] [.bPlk, .bSht, .bPos, .bTim, .bAge] s t) ∧
      (s.slot m = none → s.b.sht.first ≤ m → s.heldFrom m = false → s.b.par.wdSelf = false → (s.shotRec m).det = none →
        ∃ t, exec .takePoint s = .next t ∧ (t.shotRec m).withheld.isSome = true ∧
          ∀ lane < 64, ∃ f ∈ t.b.plk.txq, f.lane = lane ∧ f.shot = m ∧ f.hold = true)) ∧
    (∀ (lane : Fin 64) f, s.b.plk.txq.find? (fun x => x.lane == lane.val) = some f →
      (s.paired = false → f.inj.1 = 0 → f.hold = true ∨ f.linkSig = f.sig →
        ∃ t, exec (.frameSent lane false) s = .next t ∧ t.out = [.frame lane f.wire] ∧
          t.b.plk.txq = s.b.plk.txq.erase f ∧ t.led.frame = s.led.frame.book (.leave 1) ∧ t.rd R.PLK_COUNT = f.count % 2 ^ 32 ∧
          (∀ x, s.shotRec f.shot = x → f.shot ≠ 0xFFFFFFFF → x.taken = true → x.count = f.count → x.unsent = [lane.val] →
            x.det = none → x.verdict = none → x.sealed = none → s.heldFrom f.shot = false → s.stoppedAt f.shot = false →
            (t.shotRec f.shot).unsent = [] ∧ (t.shotRec f.shot).verdict = some 3) ∧
          plainFrame [R.PLK_COUNT] [.bPlk, .bSht, .ledFrame] s t) ∧
      (f.hold = false → f.shot ≠ 0xFFFFFFFF → (s.shotRec f.shot).taken = true → (s.shotRec f.shot).count = f.count →
        ∃ t, exec (.frameSent lane true) s = .next t ∧
          t.rd R.PLK_SENDCHK_CNT = (s.rd R.PLK_SENDCHK_CNT + 1) % 2 ^ 32 ∧ t.raised E.PLK_SEND_CHECK = true ∧
          t.raised E.MEM_SRAM_UE = true)) ∧
    ∀ lane : Fin 64, ∃ t, exec (.swapHoldExpiry lane) s = .next t ∧
      t.b.plk.txq = s.b.plk.txq ++ (s.b.plk.swapHeld.filter fun f => f.lane == lane.val) ∧
      (∀ f ∈ t.b.plk.swapHeld, f.lane ≠ lane.val) ∧ plainFrame [] [.bPlk] s t

/-- R18, R19, R140, R165 to R168, R170, R227, R236: a settled shot is sealed on all lanes once its frames are sent; a
deadline that passes without the seal withholds the shot, and a writing SOLO device will rack from its trigger; at its edge a
sealed shot is strobed on the halves that are enabled, its trigger is booked out, its pixels are closed, and a stripe's last
shot ends the stripe; an unsealed one is not strobed, and none in DRAINING. Of its readings, these are the model's own: log
entries 2, 51, 109, 110. -/
def Obligations.SealsDeadlinesAndStrobesFollowTheVerdict : Prop :=
  ∀ s : State,
    (∀ v, (s.shotRec s.b.sht.first).verdict = some v → drives v = true → (s.shotRec s.b.sht.first).allSent = true →
      s.unsealed s.b.sht.first = true → s.injecting 0x90 = false →
      ∃ t, exec .sealIssue s = .next t ∧ (t.shotRec s.b.sht.first).sealed = some (v, s.b.pos.pt) ∧
        (let w := sealWord s.b.sht.first v (s.shotCountOf s.b.sht.first) (s.shotRec s.b.sht.first).sig
         (∀ n < 64, Out.seal n w (sealBytes n w) ∈ t.out) ∧
         ((∀ x ∈ s.b.sht.recs, x.withheld = none) → t.rd R.PLK_SEAL_LO = w % 2 ^ 32 ∧ t.rd R.PLK_SEAL_HI = w / 2 ^ 32 % 2 ^ 32)) ∧
        eventFrame [R.PLK_SEAL_LO, R.PLK_SEAL_HI, R.PAR_SOLE_CNT, R.PAR_WD_CNT, R.PAR_DEFER_CNT] [.bPlk, .bSht, .bPar] s t) ∧
    (∀ e, s.b.sht.pred = some e → s.b.sht.armed = true → (s.b.sht.runStart : Int) ≤ s.b.sht.next →
      (let k := s.b.sht.next.toNat
       s.unsealed k = true → s.b.sht.first ≤ k → s.b.sht.stopFrom = none ∨ (s.shotRec k).taken = true →
        ∃ t, exec .sealDeadline s = .next t ∧ (t.shotRec k).withheld.isSome = true ∧ t.raised E.PLK_LATE = true ∧
          t.rd R.PLK_LATE_CNT = (s.rd R.PLK_LATE_CNT + 1) % 2 ^ 32 ∧
          (s.role = .solo → s.dev = .writing → s.b.sht.stopFrom = none → s.b.sht.rackWait = none → (s.shotRec k).triggered = false →
            (let cause := if (s.shotRec k).allSent then 1 else 3
             t.dev = .writing ∧ (t.shotRec k).withheld = some cause ∧ t.b.sht.rackWait = some (k, cause))))) ∧
    ∀ (k edge : Int) rest r, s.b.sht.frozen = (k, edge) :: rest → s.run = some r → (s.b.sht.runStart : Int) ≤ k →
      (let n := k.toNat
       (s.dev = .writing →
        (∀ v at', (s.shotRec n).sealed = some (v, at') → drives v = true → s.heldFrom n = false → s.stoppedAt n = false →
          ∃ t, exec .strobeEdge s = .next t ∧
            (s.flag F.PLK_STB_EN_A = true → Out.strobe 0 (edge + (s.fld F.PLK_STB_TRIM_A * 2048 : Nat)) (max 8 (s.fld F.PLK_STB_WIDTH)) ∈ t.out) ∧
            (s.flag F.PLK_STB_EN_B = true → Out.strobe 1 (edge + (s.fld F.PLK_STB_TRIM_B * 2048 : Nat)) (max 8 (s.fld F.PLK_STB_WIDTH)) ∈ t.out) ∧
            (∀ x, s.slot n = some x → v ≠ 8 →
              t.led.dose = (s.led.dose.book (.come x.closes.length)).book (.leave (x.closes.filter fun c => c.exact).length) ∧
              t.rd R.LAT_SHORT_CNT = (s.rd R.LAT_SHORT_CNT + (x.closes.filter fun c => !c.exact).length) % 2 ^ 32) ∧
            (n + 1 ≠ r.stripe.shots → t.b.sht.first = n + 1 ∧
              (s.b.sht.stopFrom = none → s.b.sht.rackWait = none → s.b.job.pendSafe = false → (s.shotRec (n + 2)).triggered = false →
                t.led.shot = s.led.shot.book (.leave (1 + (s.b.sht.unresolved.filter fun x => x == n).length)))) ∧
            (n + 1 = r.stripe.shots → t.rd R.JOB_DONE_CNT = (s.rd R.JOB_DONE_CNT + 1) % 2 ^ 32 ∧
              t.raised E.JOB_STRIPE_DONE = true ∧ t.b.press.runs = s.b.press.runs.tail ∧
              (∀ x ∈ t.b.cel.bins, x.num ≠ r.stripe.bin) ∧ (∀ e ∈ t.b.job.queue, e.stripe ≠ r.stripe.num) ∧
              (r.stripe.last = true → t.raised E.JOB_JOB_DONE = true ∧
                (s.b.cask.retireAtEnd = [] → (∀ i < 68, s.fld (F.TP_STAT_RETRIES i) ≤ 16) → t.dev = .draining)))) ∧
        ((s.shotRec n).sealed = none → ∃ t, exec .strobeEdge s = .next t ∧ t.led.dose = s.led.dose ∧
          ∀ h e w, Out.strobe h e w ∉ t.out)) ∧
       (s.dev = .draining → ∃ t, exec .strobeEdge s = .next t ∧ ∀ h e w, Out.strobe h e w ∉ t.out) ∧
       (s.dev = .armed → s.b.job.disarming = false →
        ∃ t, exec .strobeEdge s = .next t ∧ t.dev ≠ .armed ∧ t.raised E.TOP_STATE_CHANGE = true))

/-- R173 to R177, R193, R195, R457: return records. A record with a bad CRC-8 is counted and discarded; an ACK is shown and
ends the wait of its edge, and one that tells of an error on an exposing edge is a blank; an edge that gets no ACK is
counted; a LANE_STAT shows its lane; an input that goes silent while the link is UP fails the link; a return lane's lock is
shown, but a receiver that settles after a wake has none. Of its readings, these are the model's own: log entry 56. -/
def Obligations.ReturnRecordsAreShownCountedAndActedOn : Prop :=
  ∀ s : State,
    (∀ rec : BitVec 64, s.powered 4 = true → recordOk rec.toNat = false →
      ∀ c ∈ [Instr.returnRecordDiscard rec, .ack rec, .laneStat rec],
        ∃ t, exec c s = .next t ∧ t.rd R.PRT_REC_ERR = (s.rd R.PRT_REC_ERR + 1) % 2 ^ 32 ∧ t.raised E.PRT_REC_ERR = true ∧
          eventFrame [R.PRT_REC_ERR] [] s t) ∧
    (∀ rec : BitVec 64, recordOk rec.toNat = true → ∃ t, exec (.returnRecordDiscard rec) s = .next t ∧ plainFrame [] [] s t) ∧
    (∀ (rec : BitVec 64) w, s.powered 4 = true → recordOk rec.toNat = true → recKind rec.toNat = 1 →
      s.ackFor (recBits rec.toNat 59 1) (recBits rec.toNat 8 32) = some w →
      ∃ t, exec (.ack rec) s = .next t ∧ t.rd R.PRT_ACK_LO = rec.toNat % 2 ^ 32 ∧ t.rd R.PRT_ACK_HI = rec.toNat / 2 ^ 32 ∧
        (recBits rec.toNat 56 3 = 0 ∨ w.exposing = false → t.b.plk.acks = s.b.plk.acks.erase w ∧
          plainFrame [R.PRT_ACK_LO, R.PRT_ACK_HI] [.bPlk] s t) ∧
        (recBits rec.toNat 56 3 ≠ 0 → w.exposing = true → t.rd R.PLK_BLANK_CNT = (s.rd R.PLK_BLANK_CNT + 1) % 2 ^ 32 ∧
          t.rd R.PLK_BLANK_SHOT = w.shot % 2 ^ 32 ∧ t.raised E.PLK_PLATE_BLANK = true ∧
          (s.flag F.PLK_CFG_BLANK_STOP = false → eventFrame [R.PRT_ACK_LO, R.PRT_ACK_HI, R.PLK_BLANK_CNT, R.PLK_BLANK_SHOT,
            R.PLK_BLANK_INFO] [.bPlk] s t))) ∧
    (∀ (h : Bool) w, s.b.plk.acks.find? (fun x => x.half == if h then 1 else 0) = some w →
      ∃ t, exec (.ackTimeout h) s = .next t ∧ t.b.plk.acks.length < s.b.plk.acks.length ∧
        t.rd R.PRT_ACK_MISS = (s.rd R.PRT_ACK_MISS + 1) % 2 ^ 32 ∧ t.raised E.PRT_ACK_MISS = true ∧
        (s.flag F.PRT_CFG_ACK_REQ = false → eventFrame [R.PRT_ACK_MISS] [.bPlk, .bTim, .bPos, .bAge] s t) ∧
        (s.flag F.PRT_CFG_ACK_REQ = true → t.raised E.PLK_PLATE_BLANK = true ∧ t.rd R.PLK_BLANK_SHOT = w.shot % 2 ^ 32)) ∧
    (∀ rec : BitVec 64, s.powered 4 = true → recordOk rec.toNat = true → recKind rec.toNat = 2 →
      (let x := rec.toNat
       let p := recBits x 54 6
       let b := s.feeds p
       ∃ t, exec (.laneStat rec) s = .next t ∧
         t.rd (R.LQ_STAT b) = recBits x 36 8 * 2 ^ 24 + p * 2 ^ 16 + recBits x 47 1 * 2 ^ 15 + recBits x 44 1 * 2 ^ 14 +
           s.logical b * 2 ^ 8 ∧
         t.rd (R.LQ_CRC_ERR b) = min (s.rd (R.LQ_CRC_ERR b) + recBits x 28 8) 0xFFFFFFFF ∧
         (x.testBit 44 = true ∨ s.b.plk.down.contains p = false ∨ s.b.plk.locked.contains p = false →
           t.b.plk.locked.contains p = x.testBit 44))) ∧
    (∀ p : Fin 64, s.b.plk.locked.contains p.val = true → s.b.plk.down.contains p.val = false → s.bringup = 7 →
      ∃ t, exec (.laneSilence p) s = .next t ∧ t.b.plk.locked.contains p.val = false ∧ t.fld F.PLK_STAT_BRINGUP = 8 ∧
        t.fld F.PLK_STAT_ERR = 7 ∧ t.rd (pageReg 0x90 0x024) = p.val ∧ t.raised E.PLK_LANE_DOWN = true ∧
        (s.role = .solo → s.dev = .writing → t.b.sht.stopFrom.isSome = true ∧
          (s.firstUnsigned ≤ s.b.sht.first → t.dev = .draining))) ∧
    ∀ (lane : Fin 4) (up inv : Bool) (g : Fin 4), s.b.plk.steps = [] →
      (up = true → s.receiversSettling = true →
        ∃ t, exec (.returnLaneLock lane up inv g) s = .next t ∧ plainFrame [] [] s t) ∧
      ((up = true → s.receiversSettling = false) →
      ∃ t, exec (.returnLaneLock lane up inv g) s = .next t ∧ t.b.plk.retLock.contains lane.val = up ∧
        t.fld ⟨R.PRT_STAT, 8 * lane, 8⟩ = (if up then 128 else 0) + (if inv then 64 else 0) + g.val * 16 ∧
        (s.b.plk.retLock.contains lane.val = true → up = false → t.raised E.PRT_RETURN_DOWN = true) ∧
        eventFrame [R.PRT_STAT] [.bPlk] s t)

/-- R178, R181, R191, R193: bring-up. In READY with none running, TRAIN and RELOCK start at step 1, or at step 2 with all
four return lanes locked; IDLE and ABORT return the link to IDLE; a step's timeout fails the bring-up with the step's code;
outside READY a command is refused. A plate-link injection is armed while injections are, and is ignored with INJECT
otherwise. Of its readings, these are the model's own: log entries 18, 57. -/
def Obligations.BringupCommandsAndPlateInjectionsTakeEffect : Prop :=
  ∀ s : State,
    (s.reaches 0x90 = true →
      (s.dev = .ready → s.b.plk.steps = [] →
        (let starts := fun (steps : List Nat) (t : State) =>
          t.fld F.PLK_STAT_BRINGUP = (if 4 ≤ s.b.plk.retLock.length then 2 else 1) ∧
          t.b.plk.steps = (if 4 ≤ s.b.plk.retLock.length then steps else 1 :: steps) ∧ accessFrame [R.PLK_STAT] [.bPlk] s t
         (∃ t, exec .train s = .next t ∧ starts [2, 3, 4, 5, 6] t) ∧ ∃ t, exec .relock s = .next t ∧ starts [2, 4, 6] t)) ∧
      (s.dev = .ready → s.b.plk.steps = [] → ∃ t, exec .idle s = .next t ∧ t.fld F.PLK_STAT_BRINGUP = 0 ∧
        .lanes 0 ∈ t.out ∧ accessFrame [R.PLK_STAT] [.bPlk] s t) ∧
      (s.dev = .ready → ∃ t, exec .bringupAbort s = .next t ∧ t.b.plk.steps = [] ∧
        t.fld F.PLK_STAT_BRINGUP = (if s.b.plk.steps = [] then s.bringup else 0) ∧ accessFrame [R.PLK_STAT] [.bPlk] s t) ∧
      (∀ c ∈ [(Instr.train, 1), (.relock, 2), (.idle, 3), (.bringupAbort, 4)], s.dev ≠ .ready →
        ∃ t, exec c.1 s = .next t ∧ t.rd R.TOP_REFUSE = 0x90 * 2 ^ 24 + c.2 * 2 ^ 16 + 0x10 * 2 ^ 8 + s.dev.code ∧
          t.raised E.TOP_REQ_REFUSED = true ∧
          accessFrame [R.TOP_REFUSE, pageReg 0x90 0x020, pageReg 0x90 0x024] [] s t) ∧
      ∀ w : Word,
        (s.injecting 0x90 = true → F.PLK_FIJ_CFG_KIND.get w.toNat = 3 → F.PLK_FIJ_CFG_ALL.get w.toNat = 0 →
          ∃ t, exec (.plkFijCfgWrite w) s = .next t ∧ t.fld F.PLK_FIJ_CFG_KIND = 3 ∧
            t.b.plk.fijLeft = [(F.PLK_FIJ_CFG_LANE.get w.toNat, max 1 (s.rd R.PLK_FIJ_N))] ∧
            accessFrame [R.PLK_FIJ_CFG] [.bPlk] s t) ∧
        (s.injecting 0x90 = false → F.PLK_FIJ_CFG_KIND.get w.toNat ≠ 0 → s.rd (pageReg 0x90 0x020) / 2 ^ 16 % 2 ^ 15 = 0 →
          ∃ t, exec (.plkFijCfgWrite w) s = .next t ∧ t.rd (pageReg 0x90 0x020) = 2 ^ 16 + Err.inject ∧
            accessFrame [pageReg 0x90 0x020, pageReg 0x90 0x024] [] s t)) ∧
    ∀ step rest, s.b.plk.steps = step :: rest → step < 8 →
      ∃ t, exec .bringupStepTimeout s = .next t ∧ t.fld F.PLK_STAT_BRINGUP = 8 ∧ t.fld F.PLK_STAT_ERR = step ∧
        t.b.plk.steps = [] ∧ t.rd (pageReg 0x90 0x024) = s.stepInput step % 2 ^ 32 ∧ t.raised E.PLK_BRINGUP_FAIL = true ∧
        eventFrame [R.PLK_STAT, pageReg 0x90 0x024] [.bPlk] s t

/-- R200 to R203, R207, R223: samples and the state of the axes. A sample advances the sample count and is recorded with its
position; a good one moves its axis's count by the phase step, the fourth bad one in a row loses the axis, and is a fault
where shots are at stake; sync, SYSREF, REALIGN and CLEAR_LOST change what they name. Of its readings, these are the model's
own: log entry 53. -/
def Obligations.SamplesMoveCountsAndAxesAreLostAndRestored : Prop :=
  ∀ s : State,
    (∀ (x : Sample) (ok : Bool), s.flag F.POS_STAT_JRX_UP = true → s.powered 5 = true →
      (let bad := s.crcFailed s.b.pos.n ok && s.flag F.POS_CFG_CRC_CHK
       ∃ t, exec (.posSample x ok) s = .next t ∧ t.b.pos.n = s.b.pos.n + 1 ∧
         (∃ good, t.b.pos.hist.head? = some (s.b.pos.n, t.b.pos.yc, good)) ∧
         (s.b.pos.writes = [] → s.b.pos.commits = [] →
          t.rd R.POS_JRX_ERR = (s.rd R.POS_JRX_ERR +
            if ok = false ∧ s.b.pos.crcBlock ≠ some (s.b.pos.n / s.blockSamples) then 1 else 0) % 2 ^ 32) ∧
         (s.b.pos.writes = [] → s.b.pos.commits = [] → ∀ i < 4, (s.b.pos.axis i).lost = false →
          (let j := s.judge i (s.rawIQ x i) bad
           (j.1 = true → (t.b.pos.axis i).phi = some j.2.1 ∧ (t.b.pos.axis i).badRun = 0 ∧ (t.b.pos.axis i).lost = false ∧
             (t.b.pos.axis i).cnt = (match (s.b.pos.axis i).phi with
               | some p => toSigned 48 (ofSigned 48 ((s.b.pos.axis i).cnt + unwrap ((j.2.1 : Int) - p)))
               | none => toSigned 48 (ofSigned 48 (s.b.pos.axis i).cnt))) ∧
           (j.1 = false → (t.b.pos.axis i).cnt = (s.b.pos.axis i).cnt ∧
             (t.b.pos.axis i).badRun = (s.b.pos.axis i).badRun + 1 ∧
             ((t.b.pos.axis i).lost = decide (3 ≤ (s.b.pos.axis i).badRun)) ∧
             (3 ≤ (s.b.pos.axis i).badRun → t.raised E.POS_AXIS_LOST = true ∧
               (s.axisValid i = true → s.inJob = true → t.dev = .fault))))))) ∧
    (∀ ax : Fin 4, ∃ t, exec (.estDiscard ax) s = .next t ∧ (t.b.pos.axis ax).win = [] ∧
      t.fld (F.AX_WIN_DISCARDED ax) = min (s.fld (F.AX_WIN_DISCARDED ax) + 1) 0xFFFF ∧ t.raised E.POS_EST_DISCARD = true ∧
      eventFrame [R.AX_WIN ax] [.bPos] s t) ∧
    ((s.flag F.POS_STAT_JRX_UP = true → ∃ t, exec (.jrxSyncChange false) s = .next t ∧ t.flag F.POS_STAT_JRX_UP = false ∧
        t.raised E.POS_JRX_DOWN = true ∧ (s.inJob = false → eventFrame [R.POS_STAT] [] s t) ∧
        (s.inJob = true → (∃ i < 4, s.axisValid i = true) → t.dev = .fault)) ∧
      (s.powered 5 = true → ∃ t, exec (.jrxSyncChange true) s = .next t ∧ t.flag F.POS_STAT_JRX_UP = true ∧
        plainFrame [R.POS_STAT] [] s t) ∧
      ∀ up, ∃ t, exec (.jtxSyncChange up) s = .next t ∧ t.flag F.TRK_STAT_JTX_UP = up ∧
        (s.flag F.TRK_STAT_JTX_UP = true → up = false → t.raised E.TRK_JTX_DOWN = true) ∧ eventFrame [R.TRK_STAT] [] s t) ∧
    (∀ b, (s.b.pos.realign = true → ∃ t, exec (.sysrefEdge b) s = .next t ∧ t.b.pos.pt = 0 ∧ t.b.pos.n = 0 ∧
        t.flag F.POS_STAT_SYSREF_OK = true ∧ t.b.pos.realign = false ∧ plainFrame [R.POS_STAT] [.bPos] s t) ∧
      (s.b.pos.realign = false → b = false → s.flag F.POS_STAT_SYSREF_MOVED = false →
        ∃ t, exec (.sysrefEdge b) s = .next t ∧ t.flag F.POS_STAT_SYSREF_MOVED = true ∧ t.raised E.POS_SYSREF_MOVED = true ∧
          t.b.pos.pt = s.b.pos.pt ∧ eventFrame [R.POS_STAT] [] s t) ∧
      (s.b.pos.realign = false → b = true → ∃ t, exec (.sysrefEdge b) s = .next t ∧ plainFrame [] [] s t)) ∧
    (s.reaches 0xB0 = true →
      (s.dev = .ready → (∃ t, exec .realign s = .next t ∧ t.flag F.POS_STAT_SYSREF_OK = false ∧
          t.flag F.POS_STAT_SYSREF_MOVED = false ∧ t.b.pos.realign = true ∧ t.b.pos.pt = s.b.pos.pt ∧
          accessFrame [R.POS_STAT] [.bPos] s t) ∧
        ∀ axes : BitVec 4, ∃ t, exec (.clearLost axes) s = .next t ∧
          (∀ i < 4, axes.toNat.testBit i = true → (t.b.pos.axis i).lost = false ∧ (t.b.pos.axis i).badRun = 0 ∧
            (t.b.pos.axis i).phi = none ∧ t.flag (F.AX_STAT_SLIP i) = false) ∧
          (∀ i < 4, axes.toNat.testBit i = false → t.b.pos.axis i = s.b.pos.axis i) ∧
          accessFrame ((List.range 4).map R.AX_STAT) [.bPos] s t) ∧
      (s.dev ≠ .ready → ∀ c ∈ [(Instr.realign, 1), (.clearLost 15, 2)], ∃ t, exec c.1 s = .next t ∧
        t.rd R.TOP_REFUSE = 0xB0 * 2 ^ 24 + c.2 * 2 ^ 16 + 0x10 * 2 ^ 8 + s.dev.code ∧
        accessFrame [R.TOP_REFUSE, pageReg 0xB0 0x020, pageReg 0xB0 0x024] [] s t))

/-- R214, R219, R221, R224 to R226, R230, R252, R253: the freeze and the deflection. A freeze fixes the edge of the index at
hand, after the sample of its tick; of a shot it shows the edge and books the trigger, an edge that follows the one before
too soon is an overspeed, and a racking that waits for the shot's trigger starts. A DAC sample is code 0 while nothing
tracks, and gives the RAMP entry of the shot phase otherwise; the RAMP table is written and read at its index, and not
written in ARMED, WRITING and RACKING. Of its readings, these are the model's own: log entries 51, 55, 109. -/
def Obligations.FrozenEdgesTriggerShotsAndTheDeflectionFollows : Prop :=
  ∀ s : State,
    (∀ e, s.b.sht.pred = some e → s.b.sht.active = true → s.b.sht.armed = true → s.sampleIn (freezeTick e) = true →
      s.b.sht.freezeWait = false → ∃ t, exec .edgeFreeze s = .next t ∧ t.b.sht.freezeWait = true ∧
        t.b.sht.frozen = s.b.sht.frozen ∧ plainFrame [] [.bSht, .bPos, .bTim, .bAge] s t) ∧
    (∀ e, s.b.sht.pred = some e → s.b.sht.active = true → s.b.sht.armed = true →
      s.sampleIn (freezeTick e) = false ∨ s.b.sht.freezeWait = true →
      (let k := s.b.sht.next
       (k < (s.b.sht.runStart : Int) → ∃ t, exec .edgeFreeze s = .next t ∧ t.b.sht.frozen = s.b.sht.frozen ++ [(k, e)] ∧
         t.b.sht.next = k + 1 ∧ t.b.sht.armed = false ∧ t.b.sht.lastEdge = some e ∧ t.b.sht.prevEdge = s.b.sht.lastEdge ∧
         plainFrame [] [.bSht, .bPos, .bTim, .bAge] s t) ∧
       ((s.b.sht.runStart : Int) ≤ k → s.stoppedAt k.toNat = false →
        (let fast := decide ((s.b.sht.runStart : Int) < k) && (match s.b.sht.lastEdge with
           | some e' => decide (e - e' < s.tMinUnits)
           | none => false)
         (fast = true → ∃ t, exec .edgeFreeze s = .next t ∧ t.b.sht.frozen = s.b.sht.frozen ++ [(k, e)] ∧
           t.rd R.SHT_OVERSPEED_CNT = (s.rd R.SHT_OVERSPEED_CNT + 1) % 2 ^ 32 ∧ t.raised E.SHT_OVERSPEED = true) ∧
         (∀ cause, fast = false → s.heldFrom k.toNat = true → s.dev = .writing → s.b.sht.rackWait = some (k.toNat, cause) →
           s.b.sht.rackN ≠ some k.toNat → s.edgesPast k.toNat = true →
           ∃ t, exec .edgeFreeze s = .next t ∧ t.dev = .racking ∧ t.raised E.MOT_RACK_START = true ∧
             t.rd R.MOT_RACK_CNT = (s.rd R.MOT_RACK_CNT + 1) % 2 ^ 32 ∧ t.rd R.MOT_RACK_SHOT = k.toNat % 2 ^ 32) ∧
         (∀ v at', fast = false → (s.shotRec k.toNat).sealed = some (v, at') → s.sealLead ≤ e - at' → s.heldFrom k.toNat = false →
           s.b.sht.rackWait = none →
           ∃ t, exec .edgeFreeze s = .next t ∧ t.b.sht.frozen = s.b.sht.frozen ++ [(k, e)] ∧ t.b.sht.next = k + 1 ∧
             (t.shotRec k.toNat).triggered = true ∧ t.led.shot = s.led.shot.book (.come 1) ∧
             t.rd R.SHT_EDGE_LO = ofSigned 64 e % 2 ^ 32 ∧ t.rd R.SHT_EDGE_HI = ofSigned 64 e / 2 ^ 32 % 2 ^ 32 ∧
             plainFrame [R.SHT_EDGE_LO, R.SHT_EDGE_HI] [.bSht, .ledShot, .bPos, .bTim, .bAge] s t))))) ∧
    (s.powered 5 = true → s.flag F.TRK_STAT_JTX_UP = true →
      (s.tracking = false → ∃ t, exec .trkSample s = .next t ∧ t.out = [.dac 0 0] ∧ t.b.pos.trkN = s.b.pos.trkN + 1 ∧
        plainFrame [] [.bPos, .bTim, .bAge] s t) ∧
      (s.tracking = true → s.flag F.TRK_CFG_FF = false → s.flag F.TRK_CFG_FEC = false →
        ∃ t, exec .trkSample s = .next t ∧ t.b.pos.trkN = s.b.pos.trkN + 1 ∧
          (let i := s.shotPhase (s.dacTime s.b.pos.trkN + (s.rd R.TRK_DAC_LAT * 1024 : Nat))
           let off := toSigned 16 (if s.scanRev then s.fld F.TRK_OFFX_OFFX_R else s.fld F.TRK_OFFX_OFFX_F)
           t.fld F.TRK_STAT_INDEX = i ∧
             Out.dac (s.dacCode ((s.rampEntry i).1 + 4 * off)).1 (s.dacCode (s.rampEntry i).2).1 ∈ t.out) ∧
          eventFrame [R.TRK_STAT, R.TRK_CLIP_CNT] [.bPos, .bTim, .bAge, .fresh] s t)) ∧
    (s.reaches 0xB2 = true →
      (∃ t, exec (.trkDataAccess none) s = .next t ∧ .completion (leBytes 4 s.trkData) false ∈ t.out ∧
        t.fld F.TRK_IDX_INDEX = (s.fld F.TRK_IDX_INDEX + 1) % 2 ^ 12 ∧ accessFrame [R.TRK_IDX] [] s t) ∧
      ∀ w : Word,
        (s.locked = false → ∃ t, exec (.trkDataAccess (some w)) s = .next t ∧
          spGet (fun _ => (0 : Word)) t.b.pos.ramp (s.fld F.TRK_IDX_INDEX) = w ∧
          (∀ i, i ≠ s.fld F.TRK_IDX_INDEX → spGet (fun _ => (0 : Word)) t.b.pos.ramp i = spGet (fun _ => 0) s.b.pos.ramp i) ∧
          t.fld F.TRK_IDX_INDEX = (s.fld F.TRK_IDX_INDEX + 1) % 2 ^ 12 ∧ accessFrame [R.TRK_IDX] [.bPos] s t) ∧
        (s.locked = true → s.rd (pageReg 0xB2 0x020) / 2 ^ 16 % 2 ^ 15 = 0 →
          ∃ t, exec (.trkDataAccess (some w)) s = .next t ∧ t.rd (pageReg 0xB2 0x020) = 2 ^ 16 + Err.locked ∧
            t.fld F.TRK_IDX_INDEX = (s.fld F.TRK_IDX_INDEX + 1) % 2 ^ 12 ∧
            accessFrame [pageReg 0xB2 0x020, pageReg 0xB2 0x024, R.TRK_IDX] [] s t))

/-- R210, R211, R213: calibration. A COMMIT of a SOLO device makes every valid candidate a working parameter, at once by step
outside ARMED, WRITING and RACKING, is counted and raised, but falls together with a temperature's commit of the same tick; a
step that waits is applied at a stripe boundary; a ramp that has run ends at its target; LOAD in READY makes the written
values working and candidate values and clears CAND_VALID, and is refused elsewhere. Of its readings, these are the model's
own: log entry 54. -/
def Obligations.CalibrationCommitsLoadsAndEndsRamps : Prop :=
  ∀ s : State,
    (s.reaches 0xD3 = true →
      (s.role = .solo → s.commitMet 2 = true → ∃ t, exec .commit s = .next t ∧ t.rd R.CAL_CNT = s.rd R.CAL_CNT ∧
        t.fld F.CAL_STAT_CAUSE = 2 ∧ accessFrame [R.CAL_STAT, R.CAL_TREF] [] s t) ∧
      (s.role = .solo → s.commitMet 2 = false → ∃ t, exec .commit s = .next t ∧ t.rd R.CAL_CNT = (s.rd R.CAL_CNT + 1) % 2 ^ 32 ∧
        t.fld F.CAL_STAT_CAUSE = 2 ∧ t.raised E.CAL_COMMIT = true ∧
        (∀ i < 4, s.flag (F.AX_STAT_CAND_VALID i) = true → t.flag (F.AX_STAT_CAND_VALID i) = false ∧
          t.rd (R.AX_HEY_PQ i) = s.rd (R.AX_CAND_PQ i) ∧ t.rd (R.AX_HEY_RS i) = s.rd (R.AX_CAND_RS i) ∧
          ((s.fld F.CAL_CFG_RAMP).testBit i = false → s.locked = false →
            (t.b.pos.axis i).cur = heyOf (s.rd (R.AX_CAND_PQ i)) (s.rd (R.AX_CAND_RS i)) ∧ (t.b.pos.axis i).ramp = none)) ∧
        (∀ i < 4, s.flag (F.AX_STAT_CAND_VALID i) = false → t.b.pos.axis i = s.b.pos.axis i) ∧
        accessFrame ([R.CAL_CNT, R.CAL_STAT, R.CAL_TREF] ++ (List.range 4).map R.AX_STAT ++ (List.range 4).map R.AX_HEY_PQ ++
          (List.range 4).map R.AX_HEY_RS) [.bPos] s t) ∧
      (s.dev = .ready → ∃ t, exec .load s = .next t ∧ t.flag F.CAL_STAT_RAMPING = false ∧
        (∀ i < 4, (t.b.pos.axis i).cur = heyOf (s.rd (R.AX_HEY_PQ i)) (s.rd (R.AX_HEY_RS i)) ∧
          t.rd (R.AX_CAND_PQ i) = s.rd (R.AX_HEY_PQ i) ∧ t.rd (R.AX_CAND_RS i) = s.rd (R.AX_HEY_RS i) ∧
          t.flag (F.AX_STAT_CAND_VALID i) = false) ∧
        accessFrame ([R.CAL_STAT] ++ (List.range 4).map R.AX_STAT ++ (List.range 4).map R.AX_CAND_PQ ++
          (List.range 4).map R.AX_CAND_RS) [.bPos] s t) ∧
      (s.dev ≠ .ready → ∃ t, exec .load s = .next t ∧
        t.rd R.TOP_REFUSE = 0xD3 * 2 ^ 24 + 2 * 2 ^ 16 + 0x10 * 2 ^ 8 + s.dev.code ∧
        accessFrame [R.TOP_REFUSE, pageReg 0xD3 0x020, pageReg 0xD3 0x024] [] s t)) ∧
    (∀ i h, i < 4 → s.stripeBoundary = true → s.b.pos.stepWait = [(i, h)] →
      ∃ t, exec .calStepApply s = .next t ∧ (t.b.pos.axis i).cur = h ∧ (t.b.pos.axis i).ramp = none ∧ t.b.pos.stepWait = [] ∧
        t.flag F.CAL_STAT_PENDING = false ∧ (∀ j < 4, j ≠ i → t.b.pos.axis j = s.b.pos.axis j) ∧
        plainFrame [R.CAL_STAT] [.bPos] s t) ∧
    ∀ (ax : Fin 4) r, (s.b.pos.axis ax).ramp = some r → r.total ≤ r.done →
      ∃ t, exec (.calRampEnd ax) s = .next t ∧ (t.b.pos.axis ax).cur = r.dst ∧ (t.b.pos.axis ax).ramp = none ∧
        t.flag F.CAL_STAT_RAMPING = (List.range 4).any (fun i => i != ax.val && (s.b.pos.axis i).ramp.isSome) ∧
        plainFrame [R.CAL_STAT] [.bPos] s t

/-- R16, R242, R244, R245, R247, R250, R251: the motion commands. A MOVE in READY to a target within travel starts both axes
and one beyond it is refused; in a pair it is passed to the mate for a named period; STOP in READY stops a moving stage; a
limit write takes effect at once where the motion, replanned, keeps the new limits, and is latched otherwise, until a segment
boundary at which it does; a limit of 0 outside READY is ignored with RANGE. Of its readings, these are the model's own: log
entries 44, 45, 49. -/
def Obligations.MovesStopsAndLimitWritesTakeEffect : Prop :=
  ∀ s : State,
    (s.reaches 0xB4 = true →
      (s.paired = false → s.dev = .ready →
        (s.canMove = true → s.inTravelY (s.signedReg R.MOT_TGT_Y : Int) = true → s.inTravelX (s.signedReg R.MOT_TGT_X : Int) = true →
          ∃ t, exec .move s = .next t ∧ t.flag F.MOT_STAT_REFUSED = false ∧
            (if s.stageStill = true ∧ s.b.mot.y.p = (s.signedReg R.MOT_TGT_Y : Int) ∧ s.b.mot.x.p = (s.signedReg R.MOT_TGT_X : Int)
              then t.raised E.MOT_MOVE_DONE = true ∧ t.b.mot = s.b.mot
              else t.b.mot.moving = true ∧ t.b.mot.phase = .move) ∧
            accessFrame [R.MOT_STAT] [.bMot] s t) ∧
        (s.canMove = false ∨ s.inTravelY (s.signedReg R.MOT_TGT_Y : Int) = false ∨ s.inTravelX (s.signedReg R.MOT_TGT_X : Int) = false →
          ∃ t, exec .move s = .next t ∧ t.flag F.MOT_STAT_REFUSED = true ∧ t.raised E.MOT_MOVE_REFUSED = true ∧ t.b.mot = s.b.mot ∧
            accessFrame [R.MOT_STAT] [] s t) ∧
        ∃ t, exec .stop s = .next t ∧
          (s.atRest = true → t.b.mot = s.b.mot) ∧ (s.atRest = false → t.b.mot.phase = .stop ∧ t.b.mot.moving = false) ∧
          accessFrame [] [.bMot] s t) ∧
      (s.paired = true → s.dev = .ready → s.b.par.mate ≠ .lost →
        (∃ t, exec .move s = .next t ∧ t.b.mot.writes = s.b.mot.writes ++
          [(s.periodAhead, R.MOT_TGT_Y, BitVec.ofNat 32 (s.rd R.MOT_TGT_Y)), (s.periodAhead, R.MOT_TGT_X, BitVec.ofNat 32 (s.rd R.MOT_TGT_X)),
            (s.periodAhead, R.MOT_CMD, 1)] ∧ t.b.mot.phase = s.b.mot.phase) ∧
        ∃ t, exec .stop s = .next t ∧ t.b.mot.writes = s.b.mot.writes ++ [(s.periodAhead, R.MOT_CMD, 2)]) ∧
      ∀ (l : Limit) (w : Word),
        (s.paired = false → w ≠ 0 → s.limitFits (limitReg l) w = true →
          ((∀ g, s.limitPlan (limitReg l) w = some g →
            ∃ t, exec (.limitWrite l w) s = .next t ∧ t.rd (limitReg l) = w.toNat ∧ (∀ e ∈ t.b.mot.latched, e.1 ≠ limitReg l) ∧
              t.b.mot.y = g.1 ∧ t.b.mot.x = g.2 ∧
              accessFrame [limitReg l, R.MOT_STAT] [.bMot] s t) ∧
           (s.limitPlan (limitReg l) w = none →
            ∃ t, exec (.limitWrite l w) s = .next t ∧ t.rd (limitReg l) = s.rd (limitReg l) ∧ (limitReg l, w) ∈ t.b.mot.latched ∧
              t.flag F.MOT_STAT_LATCHED = true ∧ t.raised E.MOT_LIMIT_LATCHED = true ∧ accessFrame [R.MOT_STAT] [.bMot] s t))) ∧
        (w = 0 → s.dev ≠ .ready → s.rd (pageReg 0xB4 0x020) / 2 ^ 16 % 2 ^ 15 = 0 →
          ∃ t, exec (.limitWrite l w) s = .next t ∧ t.rd (pageReg 0xB4 0x020) = 2 ^ 16 + Err.range ∧
            accessFrame [pageReg 0xB4 0x020, pageReg 0xB4 0x024] [] s t)) ∧
    ∀ (l : Limit) (w : Word), s.b.mot.latched = [(limitReg l, w)] → s.b.mot.y.k = 0 → s.b.mot.x.k = 0 →
      (∀ g, s.limitPlan (limitReg l) w = some g → ∃ t, exec .limitLatchApply s = .next t ∧ t.rd (limitReg l) = w.toNat ∧
        t.b.mot.y = g.1 ∧ t.b.mot.x = g.2 ∧ t.b.mot.latched = [] ∧ t.flag F.MOT_STAT_LATCHED = false ∧ plainFrame [limitReg l, R.MOT_STAT] [.bMot] s t) ∧
      (s.limitPlan (limitReg l) w = none → ∃ t, exec .limitLatchApply s = .next t ∧ plainFrame [] [] s t)

/-- R16, R214, R244 to R247, R253 to R255, R314 to R316: setpoints, run-ins and rackings. Each setpoint period yields one
setpoint, which a launching device queues for its launch instant; a run-in that may start activates the stripe's shots from
its first take point; the dwell of a racking ends once the conditions of re-entry hold, or is given up; a queued frame is
sent at its time, dropped late, or counted without a destination. Of its readings, these are the model's own: log entries 46,
50, 84, 109. -/
def Obligations.SetpointsRunInsRackingsAndLaunchesProceed : Prop :=
  ∀ s : State,
    (s.dev ≠ .off → s.dev ≠ .reset → s.dev ≠ .dormant → s.b.mot.writes = [] → s.b.par.roleAt = none →
      ∃ t, exec .setpointPeriod s = .next t ∧ t.b.mot.period = s.nextPeriod + 1 ∧
        ∃ p, t.b.mot.sps.head? = some p ∧ p.period = s.nextPeriod ∧
        p.seq = ((match s.b.mot.sps with | x :: _ => x.seq | [] => 0) + if s.flag F.MOT_CFG_EN then 1 else 0) % 2 ^ 32 ∧
        (s.launches = true → s.ltqDepth (s.fld F.MOT_CFG_LTQ) < 256 → s.ltqUsed < 1024 → ∃ f ∈ t.b.tim.ltq, f.queue = s.fld F.MOT_CFG_LTQ ∧ f.type = 0x30 ∧
          f.payload = p.bytes ∧ f.entry = none ∧ f.at' = s.nextPeriod * 50000 - s.leadNs) ∧
        (s.b.mot.phase = .idle → s.b.mot.thenY = none → s.b.mot.thenX = none → s.b.job.disarming = false →
          p.y = s.b.mot.y.p ∧ p.x = s.b.mot.x.p)) ∧
    (∀ r, s.run = some r → s.mayRunIn r = true →
      ∃ t, exec .runInStart s = .next t ∧ t.b.mot.phase = .runIn ∧ (t.b.mot.cur.map fun c => c.num) = some r.stripe.num ∧
        t.rd R.JOB_CUR = r.stripe.num % 2 ^ 32 ∧ t.raised E.JOB_STRIPE_START = true ∧ t.b.sht.active = true ∧
        t.b.sht.runStart = 0 ∧ t.b.sht.next = -2 ∧ t.b.sht.armed = true ∧ t.b.sht.frozen = [] ∧ t.rd R.MOT_FE_MAX = 0 ∧
        eventFrame [R.JOB_CUR, R.MOT_FE_MAX, R.SHT_PRED_ERR] [.bMot, .bPos, .bJob, .bSht] s t) ∧
    (∀ n, s.dwelling = some n →
      (s.paired = false → s.fld F.MOT_RACK_DWELL * 1000 ≤ s.b.mot.dwell * 50 → s.rackReady n = true →
        ∃ t, exec .rackDwellEnd s = .next t ∧ t.b.mot.rackPart = 4 ∧ t.b.mot.replan = true ∧ eventFrame [] [.bMot] s t) ∧
      (s.b.mot.dwell * 50 < s.fld F.MOT_RACK_DWELL * 1000 ∨ s.rackReady n = false →
        ∃ t, exec .rackDwellEnd s = .next t ∧ plainFrame [] [] s t) ∧
      (s.fld F.MOT_RACK_WAIT_MS * 1000 ≤ s.b.mot.dwell * 50 → s.rackReady n = false →
        ∃ t, exec .rackAbandon s = .next t ∧ t.b.sht.stopFrom.isSome = true ∧ t.raised E.MOT_RACK_ABANDON = true ∧
          (s.firstUnsigned ≤ s.b.sht.first → t.dev = .draining)) ∧
      (s.rackReady n = true → ∃ t, exec .rackAbandon s = .next t ∧ plainFrame [] [] s t)) ∧
    ∀ (q : Fin 16) f, s.nextFrame = some f → f.queue = q.val → s.pageWorks 0xC3 = true →
      (∃ t, exec (.ltqLaunch q true) s = .next t ∧ t.raised E.MEM_SRAM_UE = true ∧
        t.rd (R.LTQ_Q_LATE q) = (s.rd (R.LTQ_Q_LATE q) + 1) % 2 ^ 32 ∧ t.b.tim.ltq = s.b.tim.ltq.erase f) ∧
      (f.at' ≤ s.timNs → s.timUnits ≤ ((f.at' + s.fld (F.LTQ_Q_CFG_TOL q)) * 2 ^ 32 : Nat) →
        ∃ t, exec (.ltqLaunch q false) s = .next t ∧ t.b.tim.ltq = s.b.tim.ltq.erase f ∧
          (s.frameTo f ≠ [] → t.rd (R.LTQ_Q_SENT q) = (s.rd (R.LTQ_Q_SENT q) + 1) % 2 ^ 32 ∧
            (f.entry = none → t.rd R.MOT_SP_SEQ = setpointSeq f.payload % 2 ^ 32)) ∧
          (s.frameTo f = [] → t.rd R.LTQ_NODEST = (s.rd R.LTQ_NODEST + 1) % 2 ^ 32) ∧
          eventFrame [R.LTQ_Q_SENT q, R.LTQ_ERR_MAX, R.MOT_SP_SEQ, R.LTQ_NODEST] [.bTim] s t) ∧
      (((f.at' + s.fld (F.LTQ_Q_CFG_TOL q)) * 2 ^ 32 : Nat) < s.timUnits → s.flag (F.LTQ_Q_CFG_SEND_LATE q) = false →
        ∃ t, exec (.ltqLaunch q false) s = .next t ∧ t.b.tim.ltq = s.b.tim.ltq.erase f ∧
          t.rd (R.LTQ_Q_LATE q) = (s.rd (R.LTQ_Q_LATE q) + 1) % 2 ^ 32 ∧
          eventFrame [R.LTQ_Q_LATE q, R.MOT_SP_LATE] [.bTim, .bMot] s t)

/-- R265, R267, R270, R281, R282, R459: heartbeats and the mate's status. HB_SEND puts one HB on each lane; an HB that
arrives sets what it reports, and ends LINK_DOWN on a locked lane; the pair link's silence makes the mate LINK_DOWN, and the
network's then LOST, with the ACTIVE role passing to a STANDBY; a lane that loses block lock in a job does not regain it
there; the ACTIVE hands its role back within a turnaround. Of its readings, these are the model's own: log entries 90, 94. -/
def Obligations.HeartbeatsAndTimeoutsFollowTheMate : Prop :=
  ∀ s : State,
    (s.pairLive = true → s.powered 4 = true → s.dev ≠ .reset → s.dev ≠ .dormant → s.pageWorks 0xA8 = true →
      s.injecting 0xA8 = false → s.b.par.swapHeld = [] →
      ∃ t, exec .hbSend s = .next t ∧
        t.out = (List.range 8).map (fun l => Out.pair l (pairMsg 1 0 ((s.b.pos.n - 1) % 2 ^ 32) (hbData s l))) ∧
        plainFrame [] [.bPar] s t) ∧
    (∀ (word : Word) (data : BitVec 128), s.powered 4 = true → s.inJob = true → s.paired = true → s.b.par.mate ≠ .lost →
      s.b.par.joinStep = 0 → s.b.par.hbWord = some word.toNat →
      (let b := leBytes 16 data.toNat
       let live := s.b.par.rxLock.contains (b.getD 2 0 % 8)
       ∃ t, exec (.hb word ⟨data, true⟩) s = .next t ∧ t.b.par.txUp = b.getD 3 0 ∧ t.b.par.mateSeq = leAt b 4 4 ∧
         t.b.par.mateState = b.getD 0 0 / 16 ∧ (live = true → (b.getD 2 0 % 8, s.b.pos.pt) ∈ t.b.par.rxHb) ∧
         (live = true → s.b.par.mate = .linkDown → t.b.par.mate = .up ∧ t.raised E.PAR_LINK_UP = true) ∧
         accessFrame [] [.bPar] s t)) ∧
    (s.b.par.mate = .up → ∃ t, exec .hbTimeout s = .next t ∧ t.b.par.mate = .linkDown ∧ t.b.par.rxHb = s.b.par.rxHb ∧
      t.b.par.txUp = s.b.par.txUp ∧ t.raised E.PAR_LINK_DOWN = true ∧ eventFrame [] [.bPar, .bPos, .bTim, .bAge] s t) ∧
    (s.b.par.mate = .linkDown → s.paired = true → ∃ t, exec .netTimeout s = .next t ∧ t.b.par.mate = .lost ∧
      t.raised E.PAR_MATE_LOST = true ∧ t.role = .active ∧
      (s.role = .standby → t.raised E.PAR_TAKEOVER = true ∧ t.rd R.PAR_TAKEOVER_CNT = (s.rd R.PAR_TAKEOVER_CNT + 1) % 2 ^ 32)) ∧
    (∀ lane : Fin 8,
      (s.b.par.rxLock.contains lane.val = true → ∃ t, exec (.pairLaneBlockLock lane false) s = .next t ∧
        t.b.par.rxLock.contains lane.val = false ∧ lane.val ∉ t.rxLanes ∧
        (s.inJob = true → t.b.par.rxStuck.contains lane.val = true) ∧ plainFrame [] [.bPar] s t) ∧
      (s.b.par.rxStuck.contains lane.val = true → s.dev ≠ .ready →
        ∃ t, exec (.pairLaneBlockLock lane true) s = .next t ∧ plainFrame [] [] s t) ∧
      (s.b.par.rxStuck.contains lane.val = false → s.b.par.joinStep = 0 →
        ∃ t, exec (.pairLaneBlockLock lane true) s = .next t ∧ t.b.par.rxLock.contains lane.val = true ∧
          plainFrame [] [.bPar] s t)) ∧
    (s.role = .active → s.b.par.mate = .up → s.b.par.joined = true → s.flag F.PAR_CFG_COMEBACK = true → 1 ≤ s.b.par.cleanStripes →
      s.b.par.roleAt = none → s.dev = .writing → s.b.mot.phase = .turn →
      max s.periodAhead (s.b.mot.period + 20) < s.b.mot.period + s.turnLeft →
      ∃ t, exec .reclaimSwap s = .next t ∧ t.b.par.roleAt = some (max s.periodAhead (s.b.mot.period + 20), false) ∧
        t.b.par.joined = false ∧ eventFrame [R.PAR_FIJ_CFG, R.PAR_FIJ_DONE] [.bPar] s t)

/-- R266 to R268, R271 to R274, R277: signatures and votes. A SIG message of the wrong length is refused; the copy of its own
lane is kept, and a damaged one is discarded, counted and reported; a vote that agrees settles AGREE once this device has
agreed; signatures that differ without a detected error defer the shot once. Of its readings, these are the model's own: log
entries 91, 102. -/
def Obligations.SignaturesAndVotesSettleAShot : Prop :=
  ∀ (s : State) (shot : Word),
    (∀ (g c : Fin 8) sigs,
      (sigs.length ≠ 8 → ∀ ok, exec (.sig shot g c ⟨sigs, ok⟩) s = .refused (.illFormed "SIG")) ∧
      (sigs.length = 8 → s.paired = true → s.run.isSome = true → s.b.sht.first ≤ shot.toNat → c = g → s.b.par.mate = .up →
        s.b.par.wdMate = false → (s.shotRec shot.toNat).ownVote = none → (s.shotRec shot.toNat).det = none →
        (s.shotRec shot.toNat).allSent = false →
        (∃ t, exec (.sig shot g c ⟨sigs, true⟩) s = .next t ∧ (g.val, sigs.map BitVec.toNat) ∈ (t.shotRec shot.toNat).mateSigs ∧
          plainFrame [] [.bSht] s t) ∧
        (s.pairHears = true → ∃ t, exec (.sig shot g c ⟨sigs, false⟩) s = .next t ∧ g.val ∈ (t.shotRec shot.toNat).sigBad ∧
          t.rd R.PAR_MSG_ERR = (s.rd R.PAR_MSG_ERR + 1) % 2 ^ 32 ∧ t.raised E.PAR_MSG_ERR = true ∧
          eventFrame [R.PAR_MSG_ERR] [.bSht] s t))) ∧
    ∀ (v : BitVec 64) a, s.paired = true → s.run.isSome = true → s.b.sht.first ≤ shot.toNat → s.b.par.mate = .up →
      s.b.par.wdMate = false → (s.shotRec shot.toNat).ownVote = some a → voteBad a = false → voteBad v.toNat = false →
      v.toNat.testBit 8 = (s.shotRec shot.toNat).rexp → (s.shotRec shot.toNat).verdict = none →
      (s.shotRec shot.toNat).sealed = none → s.heldFrom shot.toNat = false → s.stoppedAt shot.toNat = false →
      (voteEq a = true → voteEq v.toNat = true →
        ∃ t, exec (.vote shot ⟨v, true⟩) s = .next t ∧ (t.shotRec shot.toNat).verdict = some 1 ∧ plainFrame [] [.bSht] s t) ∧
      (voteEq a = false → s.b.par.defer ≠ some shot.toNat → s.b.sht.stopFrom = none →
        ∃ t, exec (.vote shot ⟨v, true⟩) s = .next t ∧ t.rd R.PAR_DEFER_CNT = (s.rd R.PAR_DEFER_CNT + 1) % 2 ^ 32 ∧
          t.raised E.PAR_DEFER = true ∧ (t.shotRec shot.toNat).withheld.isSome = true)

/-- R212, R243, R263, R266, R279, R280, R283, R289, R462: messages that name a period or a sample take effect for it, and one
that names what has begun is counted and reported; a STOP withholds from the shot that it names, or waits in ARMED; a FAULT
notice makes the mate LOST and passes the ACTIVE role. R266: a message whose CRC fails, or that a MSG block cuts short, is
discarded, counted and reported, whatever it carries. Of its readings, these are the model's own: log entries 92, 93, 94,
110. -/
def Obligations.PairCommandsActAtThePointTheyName : Prop :=
  (∀ (s : State) (w : Word), s.paired = true →
    (let k := fullIndex s.periodNow w.toNat
     (s.periodNow < k →
      (∀ v, ∃ t, exec (.speed w ⟨v, true⟩) s = .next t ∧ (k % 2 ^ 32, v.toNat) ∈ t.b.mot.mateSpeed ∧ plainFrame [] [.bMot] s t) ∧
      (∀ a, ∃ t, exec (.roleMsg w ⟨a, true⟩) s = .next t ∧ t.b.par.roleAt = some (k, !a) ∧ plainFrame [] [.bPar] s t) ∧
      (∀ shot : Word, s.b.sht.rackN = some shot.toNat →
        ∃ t, exec (.reentry shot ⟨w, true⟩) s = .next t ∧ t.b.mot.reentryMate = some k ∧ plainFrame [] [.bMot] s t) ∧
      (∀ (addr : BitVec 20) (v : Word), addr.toNat / 0x1000 = 0xB4 →
        ∃ t, exec (.regwr w addr ⟨v, true⟩) s = .next t ∧ t.b.mot.writes = s.b.mot.writes ++ [(k, addr.toNat, v)] ∧
          plainFrame [] [.bMot] s t)) ∧
     (k ≤ s.periodNow → ∀ c ∈ [Instr.speed w ⟨0, true⟩, .roleMsg w ⟨true, true⟩, .regwr w (BitVec.ofNat 20 R.MOT_CMD) ⟨1, true⟩],
        ∃ t, exec c s = .next t ∧ t.rd R.PAR_MSG_ERR = (s.rd R.PAR_MSG_ERR + 1) % 2 ^ 32 ∧ t.raised E.PAR_MSG_ERR = true)) ∧
    (let j := fullIndex s.b.pos.n w.toNat
     (s.b.pos.n ≤ j →
      (∀ (axes : BitVec 4) (c : Fin 4), ∃ t, exec (.mateCommit w axes ⟨c, true⟩) s = .next t ∧
        t.b.pos.commits = s.b.pos.commits ++ [(j, axes.toNat, 3)] ∧ plainFrame [] [.bPos] s t) ∧
      (∀ (addr : BitVec 20) (v : Word), addr.toNat / 0x1000 ≠ 7 → addr.toNat / 0x1000 ≠ 0xB4 →
        ∃ t, exec (.regwr w addr ⟨v, true⟩) s = .next t ∧ t.b.pos.writes = s.b.pos.writes ++ [(j, addr.toNat, v)] ∧
          plainFrame [] [.bPos] s t)) ∧
     (j < s.b.pos.n → ∃ t, exec (.mateCommit w 15 ⟨0, true⟩) s = .next t ∧
        t.rd R.PAR_MSG_ERR = (s.rd R.PAR_MSG_ERR + 1) % 2 ^ 32 ∧ t.raised E.PAR_MSG_ERR = true)) ∧
    (∀ seq : Word,
      (s.dev = .writing ∨ s.dev = .racking → s.run.isSome = false ∨ s.b.sht.first ≤ w.toNat → s.b.sht.stopFrom = none →
        ∃ t, exec (.stopMsg w 0 ⟨seq, true⟩) s = .next t ∧ t.b.sht.stopFrom = some (max w.toNat s.b.sht.first) ∧
          t.dev = if w.toNat ≤ s.b.sht.first then .draining else s.dev) ∧
      (s.dev = .armed → s.run.isSome = false ∨ s.b.sht.first ≤ w.toNat →
        ∃ t, exec (.stopMsg w 0 ⟨seq, true⟩) s = .next t ∧ t.dev = .armed ∧ t.b.job.pendSafe = true ∧ plainFrame [] [.bJob] s t) ∧
      (s.b.par.mate ≠ .lost → ∃ t, exec (.stopMsg w 1 ⟨seq, true⟩) s = .next t ∧ t.b.par.mate = .lost ∧ t.b.par.mateFault = true ∧
        t.b.par.mateSeq = seq.toNat ∧ t.raised E.PAR_MATE_LOST = true ∧
        (s.role = .standby → t.role = .active ∧ t.raised E.PAR_TAKEOVER = true)))) ∧
  (∀ (s : State) (w x : Word) (d : BitVec 128) (v : BitVec 64) (addr : BitVec 20) (off : BitVec 40) (axes : BitVec 4) (cause : Fin 4)
    (reason : Fin 8) (data : List Byte) (b : Bool), s.pairHears = true →
    ∀ c ∈ [Instr.hb w ⟨d, false⟩, .vote w ⟨v, false⟩, .speed w ⟨v, false⟩, .mateCommit w axes ⟨cause, false⟩,
        .regwr w addr ⟨x, false⟩,
        .stopMsg w reason ⟨x, false⟩, .digestMsg v ⟨w, false⟩, .sdig w ⟨v, false⟩, .roleMsg w ⟨b, false⟩, .reentry w ⟨x, false⟩,
        .ckpt w ⟨data, false⟩, .xfer w off data ⟨b, false⟩],
      ∃ t, exec c s = .next t ∧ t.rd R.PAR_MSG_ERR = (s.rd R.PAR_MSG_ERR + 1) % 2 ^ 32 ∧ t.raised E.PAR_MSG_ERR = true ∧
        eventFrame [R.PAR_MSG_ERR] [] s t)

/-- R262, R264, R287: digests and what a joiner receives. A digest is shown; a stripe digest is kept until its stripe is
READY, and one that differs from the device's own refuses the stripe; a part of the checkpoint is kept; a pulled part of an
image is stored in the bin that the queue names. Of its readings, these are the model's own: log entry 96. -/
def Obligations.DigestsCheckpointsAndImagesArrive : Prop :=
  ∀ s : State,
    (∀ (d : BitVec 64) (req : Word), s.pairLive = true → s.b.par.joinStep = 0 →
      ∃ t, exec (.digestMsg d ⟨req, true⟩) s = .next t ∧ t.b.par.mateDigest = some (d.toNat, req.toNat) ∧
        t.rd R.PAR_MATE_DIGEST_LO = d.toNat % 2 ^ 32 ∧ t.rd R.PAR_MATE_DIGEST_HI = d.toNat / 2 ^ 32 ∧
        (∀ own, s.b.par.ownDigest = some (own, req.toNat) → s.b.par.digestReq = none → own ≠ d.toNat →
          t.raised E.PAR_DIGEST_MISMATCH = true) ∧
        eventFrame [R.PAR_MATE_DIGEST_LO, R.PAR_MATE_DIGEST_HI] [.bPar] s t) ∧
    (∀ (stripe : Word) (d : BitVec 64), s.pairLive = true → s.b.par.joinStep = 0 →
      ((∀ x ∈ s.b.cel.bins, x.stripe = stripe.toNat → x.sdig = none) →
        ∃ t, exec (.sdig stripe ⟨d, true⟩) s = .next t ∧ (stripe.toNat, d.toNat) ∈ t.b.cel.earlySdig ∧ t.b.cel.bins = s.b.cel.bins ∧
          plainFrame [] [.bCel] s t) ∧
      (∀ x own, s.b.cel.bins = [x] → x.stripe = stripe.toNat → x.sdig = some own → s.paired = true →
        (own = d.toNat → ∃ t, exec (.sdig stripe ⟨d, true⟩) s = .next t ∧ t.b.cel.bins = [{ x with mateSdig := some d.toNat }] ∧
          plainFrame [] [.bCel] s t) ∧
        (own ≠ d.toNat → ∃ t, exec (.sdig stripe ⟨d, true⟩) s = .next t ∧ t.b.cel.bins = [] ∧ t.raised E.PAR_STRIPE_DIGEST = true ∧
          t.rd R.PAR_SDIG_STRIPE = x.stripe % 2 ^ 32 ∧
          eventFrame [R.PAR_SDIG_STRIPE] [.bCel, .bJob, .ledTile, .ledCreditCel] s t))) ∧
    (∀ (o : Word) (data : List Byte), s.role = .joining → s.b.par.joinStep = 3 →
      (let parts := (o.toNat, data.map BitVec.toNat) :: s.b.par.ckpt.filter (fun e => e.1 != o.toNat)
       ckptLen (assembled parts (parts.length + 1) []) = none →
        ∃ t, exec (.ckpt o ⟨data, true⟩) s = .next t ∧ t.b.par.ckpt = parts ∧ plainFrame [] [.bPar] s t)) ∧
    ∀ (stripe : Word) (data : List Byte) e, s.role = .joining → s.b.par.joinStep = 5 → s.b.par.joiner = true →
      s.b.job.queue.find? (fun x => x.stripe == stripe.toNat) = some e → s.bin e.bin = none → 0 < data.length → data.length < 256 → data.length % 64 = 0 →
      ∃ t, exec (.xfer stripe 0 data ⟨false, true⟩) s = .next t ∧
        (∀ i < data.length, cellGet t.mem (e.bin * s.binBytes + i) = data[i]?) ∧
        (∀ a, (a < e.bin * s.binBytes ∨ e.bin * s.binBytes + data.length ≤ a) → cellGet t.mem a = cellGet s.mem a) ∧
        (∃ x ∈ t.b.cel.bins, x.num = e.bin ∧ x.state = .filling ∧ x.stripe = e.stripe ∧
          x.pieces = [⟨0, data.length, data.length, true, false⟩]) ∧
        plainFrame [] [.mem, .bCel, .bRam, .ledCreditDma] s t

/-- R262, R287, R290, R291: the commands of the PAR page. In READY a SOLO device begins PAIR or JOIN at step 1; UNPAIR and
ABORT return to SOLO; DIGEST asks for a digest; a step that takes too long fails with its code; outside READY the commands
are refused. A pair-link injection is armed while injections are, and is ignored with INJECT otherwise. Of its readings,
these are the model's own: log entries 18, 95. -/
def Obligations.PairCommandsStartAndEndPairing : Prop :=
  ∀ s : State,
    (s.reaches 0xA8 = true →
      (s.dev = .ready → s.role = .solo → s.b.par.joinStep = 0 → s.ageBusy = false →
        (∃ t, exec .pair s = .next t ∧ t.b.par.joinStep = 1 ∧ t.b.par.isJoin = false ∧ t.role = .solo ∧
          accessFrame [] [.bPar, .fresh] s t) ∧
        ∃ t, exec .join s = .next t ∧ t.b.par.joinStep = 1 ∧ t.b.par.isJoin = true ∧ t.b.par.joiner = true ∧ t.role = .joining ∧
          t.raised E.PAR_ROLE_CHANGE = true ∧ accessFrame [] [.bPar, .fresh, .role] s t) ∧
      (s.dev = .ready → s.role = .active ∨ s.role = .standby ∨ s.role = .split →
        ∃ t, exec .unpair s = .next t ∧ t.role = .solo ∧ t.b.par.mate = .none ∧ t.raised E.PAR_ROLE_CHANGE = true ∧
          accessFrame [] [.bPar, .fresh, .role] s t) ∧
      (s.dev = .ready → ∃ t, exec .digest s = .next t ∧ t.b.par.digestReq = some 0 ∧ accessFrame [] [.bPar] s t) ∧
      (s.role = .joining → ∃ t, exec .joinAbort s = .next t ∧ t.role = .solo ∧ t.b.par.joinStep = 0 ∧
        accessFrame [] [.bPar, .fresh, .role] s t) ∧
      (s.role ≠ .joining → s.rd (pageReg 0xA8 0x020) / 2 ^ 16 % 2 ^ 15 = 0 → ∃ t, exec .joinAbort s = .next t ∧
        t.rd (pageReg 0xA8 0x020) = 2 ^ 16 + Err.refused ∧ accessFrame [pageReg 0xA8 0x020, pageReg 0xA8 0x024] [] s t) ∧
      (∀ c ∈ [(Instr.pair, 1), (.join, 2), (.unpair, 3), (.digest, 4)], s.dev ≠ .ready →
        ∃ t, exec c.1 s = .next t ∧ t.rd R.TOP_REFUSE = 0xA8 * 2 ^ 24 + c.2 * 2 ^ 16 + 0x10 * 2 ^ 8 + s.dev.code ∧
          t.raised E.TOP_REQ_REFUSED = true ∧ t.role = s.role ∧
          accessFrame [R.TOP_REFUSE, pageReg 0xA8 0x020, pageReg 0xA8 0x024] [] s t) ∧
      ∀ w : Word,
        (s.injecting 0xA8 = true → F.PAR_FIJ_CFG_KIND.get w.toNat = 1 → F.PAR_FIJ_CFG_ALL.get w.toNat = 0 →
          ∃ t, exec (.parFijCfgWrite w) s = .next t ∧ t.fld F.PAR_FIJ_CFG_KIND = 1 ∧
            t.b.par.fijLeft = [(F.PAR_FIJ_CFG_LANE.get w.toNat, max 1 (s.rd R.PAR_FIJ_N))] ∧
            accessFrame [R.PAR_FIJ_CFG] [.bPar] s t) ∧
        (s.injecting 0xA8 = false → F.PAR_FIJ_CFG_KIND.get w.toNat ≠ 0 → s.rd (pageReg 0xA8 0x020) / 2 ^ 16 % 2 ^ 15 = 0 →
          ∃ t, exec (.parFijCfgWrite w) s = .next t ∧ t.rd (pageReg 0xA8 0x020) = 2 ^ 16 + Err.inject ∧
            accessFrame [pageReg 0xA8 0x020, pageReg 0xA8 0x024] [] s t)) ∧
    ∀ n < 7, s.b.par.joinStep = n → n ≠ 0 → n ≠ 5 →
      ∃ t, exec .joinStepTimeout s = .next t ∧ t.fld F.PAR_STAT_JOIN_ERR = n ∧ t.b.par.joinStep = 0 ∧
        t.raised E.PAR_JOIN_FAIL = true ∧ eventFrame [R.PAR_STAT] [.bPar, .fresh, .role, .bTim, .bPos, .bAge] s t

/-- R294 to R297, R303 to R307, R324: a port's link goes up and down with its status and event, reporting the groups that it
listens to; a port answers Neighbour Discovery over IPv6 and ARP over IPv4, and echo over either; ANNOUNCE goes out on both
ports at its moment; an ANNOUNCE received enters its sender in the table, refreshes its entry, or reports a conflict; an
entry whose partner falls silent is removed with its sessions; an injection on a port is armed while injections are. Of its
readings, these are the model's own: log entries 82, 83. -/
def Obligations.LinksAnswerAnnounceAndForgetPartners : Prop :=
  ∀ s : State,
    (∀ port : Fin 2,
      (∀ speed fec : Fin 3, s.dev ≠ .off → s.dev ≠ .dormant ∨ port.val = s.dormantPort → s.flag (F.NET_STAT_LINK port) = false →
        ∃ t, exec (.netLinkChange port true speed fec) s = .next t ∧
          (let rate := s.portSpeed port (speed + 1)
           t.rd (R.NET_STAT port) = 2 ^ 31 + rate * 2 ^ 28 + s.portFec port rate (fec + 1) * 2 ^ 26) ∧
          (s.v6Runs port = true → .report port (s.linkLocal port) groupV6 ∈ t.out) ∧
          t.raised (E.NET_LINK_UP port) = true ∧ eventFrame [R.NET_STAT port] [] s t) ∧
      (∀ speed fec : Fin 3, s.dev ≠ .off → s.flag (F.NET_STAT_LINK port) = true →
        ∃ t, exec (.netLinkChange port false speed fec) s = .next t ∧ t.rd (R.NET_STAT port) = 0 ∧
          t.raised (E.NET_LINK_DOWN port) = true ∧ eventFrame [R.NET_STAT port] [] s t) ∧
      (∀ v6 payload,
        (s.portServes port = true → (if v6 then s.v6Runs port else s.v4Runs port) = true →
          ∃ t, exec (.ndArpEchoRequest port ⟨v6, payload⟩) s = .next t ∧ t.out = [.answer port (payload.map BitVec.toNat)] ∧
            plainFrame [] [] s t) ∧
        ((if v6 then s.v6Runs port else s.v4Runs port) = false →
          ∃ t, exec (.ndArpEchoRequest port ⟨v6, payload⟩) s = .next t ∧ t.out = [] ∧ plainFrame [] [] s t)) ∧
      (∀ w : Word, s.reaches (0xC0 + port) = true →
        ((F.NET_FIJ_CFG_KIND port).get w.toNat = 0 → ∃ t, exec (.netFijCfgWrite port w) s = .next t ∧
          t.fld (F.NET_FIJ_CFG_KIND port) = 0 ∧ (∀ e ∈ t.b.net.fijLeft, e.1 ≠ port.val) ∧ accessFrame [] [] s t) ∧
        (s.injecting (0xC0 + port) = true → 1 ≤ (F.NET_FIJ_CFG_KIND port).get w.toNat → (F.NET_FIJ_CFG_KIND port).get w.toNat ≤ 4 →
          ∃ t, exec (.netFijCfgWrite port w) s = .next t ∧ t.fld (F.NET_FIJ_CFG_KIND port) = (F.NET_FIJ_CFG_KIND port).get w.toNat ∧
            (port.val, max 1 (s.rd (R.NET_FIJ_N port))) ∈ t.b.net.fijLeft ∧ accessFrame [] [] s t) ∧
        (s.injecting (0xC0 + port) = false → (F.NET_FIJ_CFG_KIND port).get w.toNat ≠ 0 →
          s.rd (pageReg (0xC0 + port) 0x020) / 2 ^ 16 % 2 ^ 15 = 0 →
          ∃ t, exec (.netFijCfgWrite port w) s = .next t ∧ t.rd (pageReg (0xC0 + port) 0x020) = 2 ^ 16 + Err.inject ∧
            accessFrame [pageReg (0xC0 + port) 0x020, pageReg (0xC0 + port) 0x024] [] s t))) ∧
    (s.dev ≠ .off → s.dev ≠ .reset → s.pageWorks 0xC5 = true → s.b.bst.cur = none → s.sends 0 → s.sends 1 →
      ∃ t, exec .announceSend s = .next t ∧
        (∃ q, t.out = [.net 0 0 (s.datagram none 1 0 0 (announcePayload s 0)) false, .net 1 0 q false] ∧
          q.getD 3 0 = 1 ∧ q.drop 32 = announcePayload s 1) ∧
        t.b.net.plainSeq = s.b.net.plainSeq + 2 ∧ t.b.net.announced = some s.announceDue ∧
        plainFrame [R.NET_TX_CNT 0, R.NET_TX_CNT 1] [.bNet, .bTim, .bPos, .bAge] s t) ∧
    (∀ m : NetMsg, s.listens m → m.auth = false →
      (let b := msgBytes m
       let id := leAt b 0 8
       (m.payload.length ≠ 88 → ∃ t, exec (.announce m) s = .next t ∧
          t.rd (R.NET_DROP_CNT m.port) = (s.rd (R.NET_DROP_CNT m.port) + 1) % 2 ^ 32 ∧
          plainFrame [R.NET_DROP_CNT m.port] [] s t) ∧
       (m.payload.length = 88 → id = s.devId → ∃ t, exec (.announce m) s = .next t ∧ t.raised E.DSC_ID_CONFLICT = true ∧
          t.b.net.partners = s.b.net.partners ∧ eventFrame [R.NET_RX_CNT m.port] [] s t) ∧
       ∀ role, m.payload.length = 88 → id ≠ s.devId → s.announcedRole id (b.getD 8 0) (leAt b 10 2 % 512) = some role →
        (∀ k, s.partnerBy id = none → freeSlot s.b.net.partners = some k →
          (s.b.net.partners.filter fun p => p.role == role).length < roleLimit role →
          ∃ t p, exec (.announce m) s = .next t ∧ t.partnerBy id = some p ∧ p.slot = k ∧ p.role = role ∧
            p.column = leAt b 10 2 % 512 ∧ p.state = b.getD 12 0 % 16 ∧ p.interval = leAt b 14 2 ∧ p.heard = 2 ^ m.port.val ∧
            p.at' = s.b.tim.ticks ∧ t.raised E.DSC_PARTNER_NEW = true ∧ eventFrame [R.NET_RX_CNT m.port] [] s t) ∧
        (s.partnerBy id = none → roleLimit role ≤ (s.b.net.partners.filter fun p => p.role == role).length →
          ∃ t, exec (.announce m) s = .next t ∧ t.partnerBy id = none ∧ t.rd R.DSC_DROP = (s.rd R.DSC_DROP + 1) % 2 ^ 32 ∧
            (s.b.net.fullRaised = false → t.raised E.DSC_TABLE_FULL = true) ∧
            eventFrame [R.NET_RX_CNT m.port, R.DSC_DROP] [] s t) ∧
        ∀ p, s.partnerBy id = some p → p.role = role →
          ∃ t q, exec (.announce m) s = .next t ∧ t.partnerBy id = some q ∧ q.slot = p.slot ∧ q.role = role ∧
            q.column = leAt b 10 2 % 512 ∧ q.heard.testBit m.port = true ∧ q.at' = s.b.tim.ticks ∧
            (role = 3 → leAt b 10 2 % 512 = s.fld F.DSC_CFG_COLUMN → p.column ≠ s.fld F.DSC_CFG_COLUMN → s.mateTaken id = true →
              t.raised E.DSC_COLUMN_CONFLICT = true) ∧
            eventFrame [R.NET_RX_CNT m.port] [] s t)) ∧
    ∀ (slot : Fin 64) p, s.b.net.partners.find? (fun p => p.slot == slot.val) = some p →
      (p.role ≠ 4 → ∃ t, exec (.partnerLost slot) s = .next t ∧ (∀ q ∈ t.b.net.partners, q.slot ≠ slot.val) ∧
        (p.role ≠ 3 → t.raised E.DSC_PARTNER_LOST = true ∧ ∀ x ∈ t.b.net.sessions, x.partner ≠ p.id) ∧
        eventFrame [] [.bTim, .bAge, .bPos] s t) ∧
      (p.role = 4 → ∃ t, exec (.partnerLost slot) s = .next t ∧ (∀ q ∈ t.b.net.partners, q.slot ≠ slot.val) ∧
        t.fld F.TIM_STAT_STATE = 0 ∧ (s.fld F.TIM_STAT_STATE ≠ 0 → t.raised E.TIM_UNLOCKED = true) ∧
        eventFrame [R.TIM_STAT] [.bTim] s t)

/-- R298 to R300, R302, R317, R321 to R323, R397: a request without the session that it needs is answered AUTH, and one of a
sender that is no host ROLE; a message whose tag fails is dropped, counted and reported, and a repeated one is counted; a
host's register reads and writes, launches and attestations are served and answered with their CORR, and its WAKE starts a
wake or ends an entry. Of its readings, these are the model's own: log entries 82, 84, 87. -/
def Obligations.HostRequestsAreTestedServedAndAnswered : Prop :=
  ∀ (s : State) (m : NetMsg),
    (s.listens m → m.auth = false → s.sends m.port → s.partnerBy m.devId.toNat = none →
      (∀ c ∈ [Instr.regWrite m, .launch m], ∃ t, exec c s = .next t ∧
        t.out = [.net m.port m.devId.toNat (s.datagram none 0x12 10 m.corr.toNat (leBytes 4 1)) false] ∧
        plainFrame [R.NET_RX_CNT m.port, R.NET_TX_CNT m.port] [.bNet] s t) ∧
      (s.flag F.IDN_POLICY_RD_AUTH = false → ∃ t, exec (.regRead m) s = .next t ∧
        t.out = [.net m.port m.devId.toNat (s.datagram none 0x12 10 m.corr.toNat (leBytes 4 2)) false]) ∧
      (s.flag F.IDN_POLICY_ATT_AUTH = false → ∃ t, exec (.attestReq m) s = .next t ∧
        t.out = [.net m.port m.devId.toNat (s.datagram none 0x12 10 m.corr.toNat (leBytes 4 2)) false])) ∧
    (s.listens m → m.auth = true → ∀ c ∈ [Instr.regRead m, .regWrite m, .launch m, .attestReq m],
      (m.tagOk = false ∨ s.sessionBy m.session.toNat m.devId.toNat = none → ∃ t, exec c s = .next t ∧
        t.rd (R.NET_DROP_CNT m.port) = (s.rd (R.NET_DROP_CNT m.port) + 1) % 2 ^ 32 ∧
        t.rd (R.NET_AUTH_FAIL m.port) = (s.rd (R.NET_AUTH_FAIL m.port) + 1) % 2 ^ 32 ∧
        t.raised (E.NET_AUTH_FAIL m.port) = true ∧ eventFrame [R.NET_DROP_CNT m.port, R.NET_AUTH_FAIL m.port] [] s t) ∧
      ∀ x, m.tagOk = true → s.sessionBy m.session.toNat m.devId.toNat = some x → x.replayed m.seq.toNat = true →
        ∃ t, exec c s = .next t ∧ t.rd (R.NET_DUP_CNT m.port) = (s.rd (R.NET_DUP_CNT m.port) + 1) % 2 ^ 32 ∧
          plainFrame [R.NET_DUP_CNT m.port] [] s t) ∧
    (∀ p, s.listens m → s.partnerBy m.devId.toNat = some p → p.role = 0 → s.sends p.pref → s.dev ≠ .dormant →
      (∀ page : BitVec 8, (pageRow page.toNat).isSome = true → s.reaches page.toNat = true → page ≠ 0x0B → m.auth = false →
        s.flag F.IDN_POLICY_RD_AUTH = false → msgBytes m = leBytes 4 (pageReg page.toNat 0x03C) →
        ∃ t, exec (.regRead m) s = .next t ∧
          t.out = [.net p.pref p.id (s.datagram none 0x12 2 m.corr.toNat
            (leBytes 4 0 ++ leBytes 4 (s.rd (pageReg page.toNat 0x03C)))) false] ∧
          plainFrame [R.NET_RX_CNT m.port, R.NET_TX_CNT p.pref] [.bNet] s t) ∧
      ∀ x, s.inSession m x →
        (∀ (page : BitVec 8) (w : Word), (pageRow page.toNat).isSome = true → s.reaches page.toNat = true → page ≠ 0x0B →
          msgBytes m = leBytes 4 (pageReg page.toNat 0x03C) ++ leBytes 4 w.toNat →
          ∃ t, exec (.regWrite m) s = .next t ∧ t.rd (pageReg page.toNat 0x03C) = w.toNat ∧
            .net p.pref p.id (s.datagram (some x) 0x12 2 m.corr.toNat (leBytes 4 0)) false ∈ t.out ∧
            accessFrame [R.NET_RX_CNT m.port, pageReg page.toNat 0x03C] [] s t) ∧
        (let b := msgBytes m
         16 ≤ b.length → b.length ≤ 1040 → b.getD 12 0 < 16 → b.getD 12 0 ≠ s.fld F.MOT_CFG_LTQ →
          s.flag (F.LTQ_Q_CFG_EN (b.getD 12 0)) = true → (∃ q ∈ s.b.net.partners, q.slot = b.getD 13 0) →
          s.b.tim.ltq.length < 256 →
          ∃ t, exec (.launch m) s = .next t ∧
            t.b.tim.ltq = s.b.tim.ltq ++ [⟨b.getD 12 0, leAt b 0 8, leAt b 8 4, some (b.getD 13 0), b.getD 14 0, b.drop 16⟩] ∧
            t.out = [.net p.pref p.id (s.datagram (some x) 0x12 2 m.corr.toNat (leBytes 4 0)) false] ∧
            plainFrame [R.NET_RX_CNT m.port, R.NET_TX_CNT p.pref] [.bNet, .bTim] s t) ∧
        (let b := msgBytes m
         b.length = 40 → leAt b 34 6 = 0 → b.getD 32 0 = 0 →
          ∃ t, exec (.attestReq m) s = .next t ∧ t.raised E.IDN_ATTESTED = true ∧
            .net p.pref p.id (s.datagram (some x) 6 2 m.corr.toNat (attestPayload s (b.take 32) 0 (b.getD 33 0))) false ∈ t.out ∧
            eventFrame [R.NET_RX_CNT m.port] [.fresh] s t)) ∧
    ∀ x, s.listens m → m.payload = [] → s.inSession m x → x.role = 0 → s.flag F.AON_WAKE_CFG_NET = true →
      (s.dev = .dormant → s.flag F.PWR_STAT_ENTERING = false → s.flag F.PWR_STAT_WAKING = false →
        ∃ t, exec (.netWake m) s = .next t ∧ t.rd R.AON_WAKE_SRC = 1 ∧ t.flag F.PWR_STAT_WAKING = true ∧
          plainFrame [R.NET_RX_CNT m.port, R.AON_WAKE_SRC, R.PWR_STAT] [.bNet] s t) ∧
      (s.flag F.PWR_STAT_ENTERING = true → ∃ t, exec (.netWake m) s = .next t ∧ t.flag F.PWR_STAT_ENTERING = false ∧
        t.raised E.PWR_DORMANT_ABORT = true)

/-- R270, R273, R281, R284, R299, R313: MATE_HB and the time map go out on both ports in the mate's session; a MATE_HB that
arrives sets what it says of the mate; WITHDRAWN makes the ACTIVE count its mate out; a STANDBY keeps a map whose tick has
not passed and discards another; none of them counts outside the mate's session. Of its readings, these are the model's own:
log entries 83, 90. -/
def Obligations.MateMessagesAndTimeMapsAreExchanged : Prop :=
  ∀ s : State,
    (∀ p x, s.partners 1 = [p] → s.session p.id = some x → s.sends 0 → s.sends 1 →
      s.dev ≠ .off → s.dev ≠ .reset →
      (s.mated = true → s.dev ≠ .dormant → ∃ t, exec .mateHbSend s = .next t ∧
        (let q := s.datagram (some x) 0x22 0 0 (mateHbPayload s)
         t.out = [.net 0 p.id q false, .net 1 p.id q false]) ∧
        plainFrame [R.NET_TX_CNT 0, R.NET_TX_CNT 1] [.bNet] s t) ∧
      (s.role = .active → s.pageWorks 0xC2 = true → ∃ t, exec .tmapSend s = .next t ∧
        (∃ e, t.b.tim.maps = e :: s.b.tim.maps.take 15 ∧ e.inc = s.timInc ∧
          (let now := s.b.pos.pt.fdiv 65536
           (∀ j, j < 2 ^ 40 → now + 250000 ≤ (s.sampleArrival j).fdiv 65536 →
              (∀ i < j, (s.sampleArrival i).fdiv 65536 < now + 250000) → e.sample = j) ∧
           (e.sec, e.ns) = s.timAfter ((s.sampleArrival e.sample).fdiv 65536 - now).toNat) ∧
          (let q := s.datagram (some x) 0x24 0 0
            (leBytes 4 e.sample ++ [0, 0, 0, 0] ++ leBytes 8 e.sec ++ leBytes 8 e.ns ++ leBytes 8 e.inc)
           t.out = [.net 0 p.id q false, .net 1 p.id q false])) ∧
        plainFrame [R.NET_TX_CNT 0, R.NET_TX_CNT 1] [.bNet, .bTim] s t)) ∧
    ∀ m : NetMsg, s.listens m →
      (∀ c ∈ [(Instr.mateHb m, 16), (.withdrawn m, 8), (.tmap m, 32), (.netWake m, 0)],
        (m.payload.length ≠ c.2 → ∃ t, exec c.1 s = .next t ∧
          t.rd (R.NET_DROP_CNT m.port) = (s.rd (R.NET_DROP_CNT m.port) + 1) % 2 ^ 32 ∧
          plainFrame [R.NET_DROP_CNT m.port] [] s t) ∧
        (m.payload.length = c.2 → m.auth = false → ∃ t, exec c.1 s = .next t ∧
          t.rd (R.NET_AUTH_FAIL m.port) = (s.rd (R.NET_AUTH_FAIL m.port) + 1) % 2 ^ 32 ∧
          t.raised (E.NET_AUTH_FAIL m.port) = true ∧ eventFrame [R.NET_DROP_CNT m.port, R.NET_AUTH_FAIL m.port] [] s t)) ∧
      ∀ x, s.inSession m x → (∃ p ∈ s.partners 1, p.id = m.devId.toNat) →
        (m.payload.length = 16 → s.role ≠ .joining → ∃ t, exec (.mateHb m) s = .next t ∧
          (let b := msgBytes m
           t.b.par.mateState = b.getD 0 0 / 16 ∧ t.b.par.mateRole = b.getD 0 0 % 8 ∧ t.b.par.mateRackOk = (b.getD 1 0).testBit 2 ∧
             t.b.par.mateFault = (b.getD 1 0).testBit 1) ∧
          plainFrame [R.NET_RX_CNT m.port] [.bNet, .bPar] s t) ∧
        (m.payload.length = 8 → s.role = .active → s.b.sht.recs = [] → ∃ t, exec (.withdrawn m) s = .next t ∧
          t.b.par.wdMate = true ∧ plainFrame [R.NET_RX_CNT m.port] [.bNet, .bPar] s t) ∧
        (m.payload.length = 8 → s.role ≠ .active → ∃ t, exec (.withdrawn m) s = .next t ∧
          plainFrame [R.NET_RX_CNT m.port] [.bNet] s t) ∧
        (let b := msgBytes m
         let e : TimeMap := ⟨fullIndex s.b.pos.n (leAt b 0 4), leAt b 8 8, leAt b 16 8, leAt b 24 8⟩
         m.payload.length = 32 → s.role = .standby →
          (s.b.pos.pt ≤ s.mapTick e * 65536 → ∃ t, exec (.tmap m) s = .next t ∧ t.b.tim.maps = e :: s.b.tim.maps.take 15 ∧
            plainFrame [R.NET_RX_CNT m.port] [.bNet, .bTim] s t) ∧
          (s.mapTick e * 65536 < s.b.pos.pt → ∃ t, exec (.tmap m) s = .next t ∧
            plainFrame [R.NET_RX_CNT m.port] [.bNet] s t))

/-- R299, R321: a HELLO is answered STATE in DORMANT, FORMAT for a bad form, ROLE for a partner of another role, and
otherwise, where its certificate is accepted, HELLO_REPLY; a HELLO_REPLY or a KEY_CONFIRM that verifies brings the session
up, and the session that it replaces is accepted until it expires; a bad certificate or signature is counted and ends the
exchange. Of its readings, these are the model's own: log entry 87. -/
def Obligations.SessionExchangesComeUpOrAreRejected : Prop :=
  ∀ s : State,
    (∀ slot : Fin 8, ∃ t, exec (.sessionExpire slot) s = .next t ∧
      t.b.net.sessions = s.b.net.sessions.filter (fun x => !(x.slot == slot.val && x.old)) ∧ plainFrame [] [.bNet] s t) ∧
    ∀ (m : NetMsg) (cert : Cert), s.listens m →
      (let b := msgBytes m
       (∀ p, m.auth = false → s.partnerBy m.devId.toNat = some p → s.sends p.pref →
        (∀ st, (s.dev = .dormant ∧ st = 3) ∨ (s.dev ≠ .dormant ∧ helloForm b = false ∧ st = 4) ∨
            (s.dev ≠ .dormant ∧ helloForm b = true ∧ purposeRole (b.getD 3 0) ≠ some p.role ∧ st = 2) →
          ∃ t, exec (.hello m cert) s = .next t ∧
            t.out = [.net p.pref p.id (s.datagram none 0x12 10 m.corr.toNat (leBytes 4 st)) false] ∧
            plainFrame [R.NET_RX_CNT m.port, R.NET_TX_CNT p.pref] [.bNet] s t) ∧
        (s.dev ≠ .dormant → helloForm b = true → purposeRole (b.getD 3 0) = some p.role → (s.sessionSlot p.id).isSome = true →
          (s.certOk cert p.id (p.role == 1) = true → ∃ t x, exec (.hello m cert) s = .next t ∧ x ∈ t.b.net.exchanges ∧
            x.partner = p.id ∧ x.starter = false ∧ x.purpose = b.getD 3 0 ∧ t.fresh = s.fresh + 1 ∧
            t.out = [.net p.pref p.id (s.datagram none 3 2 m.corr.toNat x.hello) false] ∧
            plainFrame [R.NET_RX_CNT m.port, R.NET_TX_CNT p.pref, R.IDN_STAT] [.bNet, .fresh] s t) ∧
          (s.certOk cert p.id (p.role == 1) = false → ∃ t, exec (.hello m cert) s = .next t ∧
            t.rd R.IDN_AUTH_FAIL = (s.rd R.IDN_AUTH_FAIL + 1) % 2 ^ 32 ∧ t.raised E.IDN_CERT_REJECT = true ∧
            t.b.net.exchanges = s.b.net.exchanges ∧
            eventFrame [R.NET_RX_CNT m.port, R.IDN_STAT, R.IDN_AUTH_FAIL] [] s t))) ∧
       (∀ x, m.auth = false → s.b.net.exchanges.find? (fun x => x.partner == m.devId.toNat && x.starter) = some x →
        s.dev ≠ .dormant → helloForm b = true →
        (∀ k, s.certOk cert x.partner (x.role == 1) = true → s.sessionSlot x.partner = some k → s.b.par.joinStep ≠ 1 →
          ∃ t, exec (.helloReply m cert true) s = .next t ∧
            (∃ y ∈ t.b.net.sessions, y.partner = x.partner ∧ y.slot = k ∧ y.up = true ∧ y.old = false ∧ y.starter = x.starter) ∧
            (∀ e ∈ t.b.net.exchanges, e.partner ≠ x.partner) ∧ t.raised E.IDN_SESSION_UP = true ∧
            (s.sends x.port → ∃ q, .net x.port x.partner q false ∈ t.out ∧ q.getD 3 0 = 4) ∧
            eventFrame [R.NET_RX_CNT m.port, R.IDN_STAT] [.fresh] s t) ∧
        (∀ ok, s.certOk cert x.partner (x.role == 1) = false ∨ ok = false → ∃ t, exec (.helloReply m cert ok) s = .next t ∧
          t.rd R.IDN_AUTH_FAIL = (s.rd R.IDN_AUTH_FAIL + 1) % 2 ^ 32 ∧ (∀ e ∈ t.b.net.exchanges, e.partner ≠ x.partner) ∧
          eventFrame [R.NET_RX_CNT m.port, R.IDN_STAT, R.IDN_AUTH_FAIL] [] s t))) ∧
      ∀ x, m.payload.length = 232 → s.b.net.exchanges.find? (fun x => x.partner == m.devId.toNat && !x.starter) = some x →
        (∀ ok, m.auth = false ∨ m.tagOk = false ∨ m.session.toNat ≠ sessionId x.keys →
          ∃ t, exec (.keyConfirm m ok) s = .next t ∧
            t.rd (R.NET_AUTH_FAIL m.port) = (s.rd (R.NET_AUTH_FAIL m.port) + 1) % 2 ^ 32 ∧
            t.raised (E.NET_AUTH_FAIL m.port) = true ∧ eventFrame [R.NET_DROP_CNT m.port, R.NET_AUTH_FAIL m.port] [] s t) ∧
        (m.auth = true → m.tagOk = true → m.session.toNat = sessionId x.keys →
          (∀ k, s.sessionSlot x.partner = some k → s.b.par.joinStep ≠ 1 → ∃ t, exec (.keyConfirm m true) s = .next t ∧
            (∃ y ∈ t.b.net.sessions, y.partner = x.partner ∧ y.slot = k ∧ y.up = true ∧ y.old = false ∧ y.keys = x.keys) ∧
            (∀ e ∈ t.b.net.exchanges, e.partner ≠ x.partner) ∧ t.raised E.IDN_SESSION_UP = true ∧
            eventFrame [R.NET_RX_CNT m.port] [] s t) ∧
          ∃ t, exec (.keyConfirm m false) s = .next t ∧ t.rd R.IDN_AUTH_FAIL = (s.rd R.IDN_AUTH_FAIL + 1) % 2 ^ 32 ∧
            (∀ e ∈ t.b.net.exchanges, e.partner ≠ x.partner) ∧
            plainFrame [R.NET_RX_CNT m.port, R.IDN_AUTH_FAIL] [.bNet] s t)

/-- R305, R308 to R311, R326: a usable Sync shows its offset, locks after sixteen within the threshold and unlocks after four
beyond four times it, steers TIM_INC within TIM_SLEW, and steps TIM, at once or, in a job, later; the best master heard
becomes the TIMEKEEPER; a path delay is shown; AUTO changes its port; holdover follows a lock; SET loads at the next tick,
and it and STEP act where they are allowed and are refused elsewhere. Of its readings, these are the model's own: log entries
85, 86, 122. -/
def Obligations.TimeFollowsItsTimekeeper : Prop :=
  ∀ s : State,
    (∀ y : PtpSync, s.ptpRuns y.port = true → s.ptpPort = y.port.val → y.domain.toNat = s.fld F.TIM_CFG_DOMAIN →
      s.timekeeper.isSome = true → s.b.tim.parent = some y.source.toNat → s.b.bst.cur = none →
      (let offset := (s.timUnits + s.boardLatency y.port 1 - masterTime y.sec y.ns y.corr.toInt - s.b.tim.path).fdiv (2 ^ 32)
       let thr : Nat := s.fld F.TIM_LOCK_THR_NS
       ∃ t, exec (.ptpSync y) s = .next t ∧
        t.rd R.TIM_OFFSET = ofSigned 32 (max (-(2 ^ 31)) (min (2 ^ 31 - 1) offset)) ∧
        .delayReq y.port ∈ t.out ∧ t.b.tim.reqAt.isSome = true ∧
        (s.fld F.TIM_STAT_STATE = 1 → s.b.tim.inRun = 15 → offset.natAbs ≤ thr →
          t.fld F.TIM_STAT_STATE = 2 ∧ t.raised E.TIM_LOCKED = true) ∧
        (s.fld F.TIM_STAT_STATE = 1 → s.b.tim.inRun < 15 ∨ thr < offset.natAbs → t.fld F.TIM_STAT_STATE = 1) ∧
        (s.fld F.TIM_STAT_STATE = 2 → s.b.tim.outRun = 3 → 4 * thr < offset.natAbs →
          t.fld F.TIM_STAT_STATE = 1 ∧ t.raised E.TIM_UNLOCKED = true) ∧
        (s.fld F.TIM_STAT_STATE = 2 → s.b.tim.outRun < 3 ∨ offset.natAbs ≤ 4 * thr → t.fld F.TIM_STAT_STATE = 2) ∧
        (s.flag F.TIM_CFG_SERVO = false → t.timInc = s.timInc ∧ t.b.tim.sec = s.b.tim.sec ∧ t.b.tim.ns = s.b.tim.ns) ∧
        (s.flag F.TIM_CFG_SERVO = true → offset.natAbs ≤ s.rd R.TIM_STEP_LIM →
          t.b.tim.sec = s.b.tim.sec ∧ t.b.tim.ns = s.b.tim.ns ∧ t.b.tim.integral = s.b.tim.integral + offset ∧
          (t.timInc : Int) = max (nominalInc - s.slew) (min (nominalInc + s.slew)
            (nominalInc - servoAmount offset (s.b.tim.integral + offset)))) ∧
        (s.flag F.TIM_CFG_SERVO = true → s.rd R.TIM_STEP_LIM < offset.natAbs → s.inJob = true →
          t.b.tim.sec = s.b.tim.sec ∧ t.b.tim.ns = s.b.tim.ns ∧ t.b.tim.step = some offset ∧
          t.flag F.TIM_STAT_DEFERRED = true ∧ (s.flag F.TIM_STAT_DEFERRED = false → t.raised E.TIM_STEP_DEFERRED = true) ∧
          (t.timInc : Int) = nominalInc - offset.sign * s.slew) ∧
        (s.flag F.TIM_CFG_SERVO = true → s.rd R.TIM_STEP_LIM < offset.natAbs → s.inJob = false →
          0 ≤ (s.b.tim.sec * secondNs + s.b.tim.ns : Int) - offset * 2 ^ 32 →
          (s.b.tim.sec * secondNs + s.b.tim.ns : Int) - offset * 2 ^ 32 < 2 ^ 64 * secondNs →
          (t.b.tim.sec * secondNs + t.b.tim.ns : Int) = (s.b.tim.sec * secondNs + s.b.tim.ns : Int) - offset * 2 ^ 32 ∧
          t.b.tim.step = none ∧ t.raised E.TIM_STEP = true) ∧
        eventFrame [R.TIM_OFFSET, R.TIM_STAT, R.TIM_INC_LO, R.TIM_INC_HI] [.bTim, .bMot] s t)) ∧
    (∀ a : PtpAnnounce, s.ptpRuns a.port = true → a.domain.toNat = s.fld F.TIM_CFG_DOMAIN →
      s.ptpAuto = true ∨ s.ptpPort = a.port.val →
      (let key := fun m : Master => m.key s.ptpPort
       let others := s.b.tim.masters.filter fun x => x.source != a.source.toNat || x.port != a.port.val
       ((∀ x ∈ others, before (key (masterOf a)) (key x) = true) →
        ((∀ p ∈ s.b.net.partners, p.role ≠ 4) → (∃ k, freeSlot s.b.net.partners = some k) →
          ∃ t, exec (.ptpAnnounce a.port a.gm a.toPtpSource a.utcOff) s = .next t ∧ t.timekeeper.map (fun p => p.id) = some a.gm.toNat ∧
            (s.ptpAuto = true → t.fld F.TIM_STAT_PORT = a.port.val) ∧ t.b.tim.parent = some a.source.toNat ∧
            t.fld F.TIM_STAT_STATE = 1 ∧ t.rd R.TIM_UTC_OFF = a.utcOff.toNat ∧
            t.rd R.TIM_GM_LO = a.gm.toNat % 2 ^ 32 ∧ t.rd R.TIM_GM_HI = a.gm.toNat / 2 ^ 32 ∧ t.raised E.TIM_GM_CHANGE = true ∧
            eventFrame [R.TIM_STAT, R.TIM_UTC_OFF, R.TIM_GM_LO, R.TIM_GM_HI] [.bTim] s t) ∧
        (s.timekeeper.map (fun p => p.id) = some a.gm.toNat →
          ∃ t, exec (.ptpAnnounce a.port a.gm a.toPtpSource a.utcOff) s = .next t ∧ t.timekeeper.map (fun p => p.id) = some a.gm.toNat ∧
            (s.ptpAuto = true → t.fld F.TIM_STAT_PORT = a.port.val) ∧ t.b.tim.parent = some a.source.toNat ∧
            t.rd R.TIM_UTC_OFF = a.utcOff.toNat ∧ plainFrame [R.TIM_STAT, R.TIM_UTC_OFF] [.bNet, .bTim] s t)) ∧
       ((∃ x ∈ others, before (key x) (key (masterOf a)) = true) →
          ∃ t, exec (.ptpAnnounce a.port a.gm a.toPtpSource a.utcOff) s = .next t ∧
          t.b.tim.masters = masterOf a :: others ∧ plainFrame [] [.bTim] s t))) ∧
    (∀ sec ns corr, s.ptpRuns s.ptpPort = true → s.timekeeper.isSome = true →
      (∀ t3, s.b.tim.reqAt = some t3 →
        (let d := (s.b.tim.syncDiff + (masterTime sec ns (-corr.toInt) - t3)).fdiv 2
         ∃ t, exec (.ptpDelayResp ⟨sec, ns, corr⟩) s = .next t ∧ t.b.tim.path = d ∧
          t.rd R.TIM_PATH = (max 0 (min (2 ^ 32 - 1) (d.fdiv (2 ^ 32)))).toNat ∧ plainFrame [R.TIM_PATH] [.bTim] s t)) ∧
      (s.b.tim.reqAt = none → ∃ t, exec (.ptpDelayResp ⟨sec, ns, corr⟩) s = .next t ∧ plainFrame [] [] s t)) ∧
    (s.ptpAuto = true → s.timekeeper.isSome = true → ∃ t, exec .ptpPortMove s = .next t ∧
      t.fld F.TIM_STAT_PORT = 1 - s.fld F.TIM_STAT_PORT ∧ plainFrame [R.TIM_STAT] [.bTim] s t) ∧
    (s.fld F.TIM_STAT_STATE = 2 → ∃ t, exec .holdover s = .next t ∧ t.fld F.TIM_STAT_STATE = 3 ∧ t.raised E.TIM_HOLDOVER = true ∧
      t.timInc = s.timInc ∧ eventFrame [R.TIM_STAT] [.bTim, .bPos, .bAge] s t) ∧
    (s.reaches 0xC2 = true →
      (s.flag F.TIM_CFG_SERVO = false → s.inJob = false → s.rd R.TIM_SET_NS < 1000000000 →
        ∃ t, exec .set s = .next t ∧ t.b.tim.sec = s.b.tim.sec ∧ t.b.tim.ns = s.b.tim.ns ∧
          t.timAfter 1 = (s.rd R.TIM_SET_SEC_LO + s.rd R.TIM_SET_SEC_HI * 2 ^ 32, s.rd R.TIM_SET_NS * 2 ^ 32) ∧
          accessFrame [] [.bTim] s t) ∧
      (s.flag F.TIM_CFG_SERVO = true ∨ s.inJob = true → ∃ t, exec .set s = .next t ∧
        t.rd R.TOP_REFUSE = 0xC2 * 2 ^ 24 + 1 * 2 ^ 16 + 0x10 * 2 ^ 8 + s.dev.code ∧ t.raised E.TOP_REQ_REFUSED = true ∧
        accessFrame [R.TOP_REFUSE, pageReg 0xC2 0x020, pageReg 0xC2 0x024] [] s t) ∧
      (∀ offset, s.dev = .ready → s.b.tim.step = some offset →
        0 ≤ (s.b.tim.sec * secondNs + s.b.tim.ns : Int) - offset * 2 ^ 32 →
        (s.b.tim.sec * secondNs + s.b.tim.ns : Int) - offset * 2 ^ 32 < 2 ^ 64 * secondNs →
        ∃ t, exec .timStep s = .next t ∧
          (t.b.tim.sec * secondNs + t.b.tim.ns : Int) = (s.b.tim.sec * secondNs + s.b.tim.ns : Int) - offset * 2 ^ 32 ∧
          t.b.tim.step = none ∧ t.flag F.TIM_STAT_DEFERRED = false ∧ t.raised E.TIM_STEP = true ∧
          accessFrame [R.TIM_STAT] [.bTim, .bMot] s t) ∧
      (s.dev ≠ .ready → ∃ t, exec .timStep s = .next t ∧
        t.rd R.TOP_REFUSE = 0xC2 * 2 ^ 24 + 2 * 2 ^ 16 + 0x10 * 2 ^ 8 + s.dev.code ∧ t.raised E.TOP_REQ_REFUSED = true ∧
        accessFrame [R.TOP_REFUSE, pageReg 0xC2 0x020, pageReg 0xC2 0x024] [] s t))

/-- R320, R321, R328, R330, R438: OPEN commands open the device window in any state and the other windows in READY; CLOSE
closes; a read answers the word at the index and a write stores it in the owner or the anchor window, and the index moves on;
an anchor counts while it is a curve point and not all zeros; WRITE_OWNER starts burning a certificate that passes its tests,
or names the first that fails; the certificate then stands in OTP. Of its readings, these are the model's own: log entries
68, 88, 113. -/
def Obligations.IdentityWindowsAndTheOwnerCertificate : Prop :=
  ∀ s : State,
    (s.reaches 0xC4 = true →
      (∃ t, exec .openDev s = .next t ∧ t.fld F.IDN_STAT_WINDOW = 1 ∧ accessFrame [R.IDN_STAT] [] s t) ∧
      (s.dev = .ready → ∃ t, exec .openOwner s = .next t ∧ t.fld F.IDN_STAT_WINDOW = 2 ∧ accessFrame [R.IDN_STAT] [] s t) ∧
      (s.dev = .ready → ∃ t, exec .openAnchor s = .next t ∧ t.fld F.IDN_STAT_WINDOW = 3 ∧ accessFrame [R.IDN_STAT] [] s t) ∧
      (∃ t, exec .idnClose s = .next t ∧ t.fld F.IDN_STAT_WINDOW = 0 ∧ accessFrame [R.IDN_STAT] [] s t) ∧
      (∀ cert, ∀ c ∈ [(Instr.openOwner, 2), (.openAnchor, 3), (.writeOwner cert, 4)], s.dev ≠ .ready →
        ∃ t, exec c.1 s = .next t ∧ t.rd R.TOP_REFUSE = 0xC4 * 2 ^ 24 + c.2 * 2 ^ 16 + 0x10 * 2 ^ 8 + s.dev.code ∧
          t.raised E.TOP_REQ_REFUSED = true ∧ accessFrame [R.TOP_REFUSE, pageReg 0xC4 0x020, pageReg 0xC4 0x024] [] s t) ∧
      (∀ curve, ∃ t, exec (.idnDataAccess none curve) s = .next t ∧
        .completion (leBytes 4 s.idnData) false ∈ t.out ∧ t.fld F.IDN_IDX_INDEX = (s.fld F.IDN_IDX_INDEX + 1) % 2 ^ 10 ∧
        accessFrame [R.IDN_IDX] [] s t) ∧
      (∀ (w : Word) curve,
        (s.fld F.IDN_STAT_WINDOW = 0 → s.rd (pageReg 0xC4 0x020) / 2 ^ 16 % 2 ^ 15 = 0 →
          ∃ t, exec (.idnDataAccess (some w) curve) s = .next t ∧ t.rd (pageReg 0xC4 0x020) = 2 ^ 16 + Err.locked ∧
            t.fld F.IDN_IDX_INDEX = (s.fld F.IDN_IDX_INDEX + 1) % 2 ^ 10 ∧
            accessFrame [R.IDN_IDX, pageReg 0xC4 0x020, pageReg 0xC4 0x024] [] s t) ∧
        (s.fld F.IDN_STAT_WINDOW = 1 → ∃ t, exec (.idnDataAccess (some w) curve) s = .next t ∧
          t.b.idn.ownerWin = s.b.idn.ownerWin ∧ t.b.idn.anchors = s.b.idn.anchors ∧ accessFrame [R.IDN_IDX] [.bIdn] s t) ∧
        (s.fld F.IDN_STAT_WINDOW = 2 → s.fld F.IDN_IDX_INDEX < 257 → ∃ t, exec (.idnDataAccess (some w) curve) s = .next t ∧
          (∀ i, spGet (fun _ => 0) t.b.idn.ownerWin i =
            if i = s.fld F.IDN_IDX_INDEX then w else spGet (fun _ => 0) s.b.idn.ownerWin i) ∧
          t.fld F.IDN_IDX_INDEX = s.fld F.IDN_IDX_INDEX + 1 ∧ accessFrame [R.IDN_IDX] [.bIdn] s t) ∧
        (s.fld F.IDN_STAT_WINDOW = 3 → s.fld F.IDN_IDX_INDEX < 96 → ∃ t, exec (.idnDataAccess (some w) curve) s = .next t ∧
          (∀ i, spGet (fun _ => 0) t.b.idn.anchors i =
            if i = s.fld F.IDN_IDX_INDEX then w else spGet (fun _ => 0) s.b.idn.anchors i) ∧
          (let a := s.fld F.IDN_IDX_INDEX / 24
           ((t.fld F.IDN_STAT_ANCHORS).testBit a = true ↔
            curve = true ∧ ∃ k < 24, spGet (fun _ => 0) t.b.idn.anchors (24 * a + k) ≠ 0) ∧
           ∀ b < 4, b ≠ a → (t.fld F.IDN_STAT_ANCHORS).testBit b = (s.fld F.IDN_STAT_ANCHORS).testBit b) ∧
          accessFrame [R.IDN_IDX, R.IDN_STAT] [.bIdn] s t)) ∧
      (∀ cert, s.dev = .ready →
        (s.ownerErr cert = 0 → ∃ t, exec (.writeOwner cert) s = .next t ∧
          (∃ ws, t.b.idn.burning = some ws ∧ ws.length = 257 ∧ ∀ i < 257, ws.getD i 0 = spGet (fun _ => 0) s.b.idn.ownerWin i) ∧
          accessFrame [] [.bIdn] s t) ∧
        (s.ownerErr cert ≠ 0 → s.rd (pageReg 0xC4 0x020) / 2 ^ 16 % 2 ^ 15 = 0 → ∃ t, exec (.writeOwner cert) s = .next t ∧
          t.fld F.IDN_STAT_ERR = s.ownerErr cert ∧ t.rd (pageReg 0xC4 0x020) = 2 ^ 16 + Err.refused ∧
          t.b.idn.burning = s.b.idn.burning ∧
          accessFrame [R.IDN_STAT, pageReg 0xC4 0x020, pageReg 0xC4 0x024] [] s t))) ∧
    ∀ ws, s.b.idn.burning = some ws → ∃ t, exec .ownerWritten s = .next t ∧ t.b.idn.burning = none ∧
      (∀ a, spGet Config.otpWord t.otp a =
        if a = 0x00F then ws.getD 0 0 else if 0x200 ≤ a ∧ a < 0x300 then ws.getD (a - 0x200 + 1) 0 else spGet Config.otpWord s.otp a) ∧
      t.raised E.IDN_OWNER_WRITTEN = true ∧ eventFrame [] [.otp, .bIdn] s t

/-- R336, R339, R352, R355: a refresh changes nothing; a poll stores the rank's rate, sets REF_HIGH with its event and clears
it at the second normal poll in a row, and reports a rank that is too hot, a fault in a job; each second compares the
corrections with CE_RATE. Of its readings, these are the model's own: log entry 70. -/
def Obligations.RefreshPollsAndCorrectionRatesAreWatched : Prop :=
  ∀ (s : State) (mc : Fin 4) (rank : Fin 2),
    (∃ t, exec (.refresh mc rank) s = .next t ∧ plainFrame [] [] s t) ∧
    (s.polls = true → s.fld (rankField mc rank) ≠ 0 →
      (let rateField := if rank.val = 0 then F.MC_MR4_RANK0 mc else F.MC_MR4_RANK1 mc
       let key := 2 * mc.val + rank.val
       (∀ rate : BitVec 3,
        ∃ t, exec (.mr4Poll mc rank rate false) s = .next t ∧ t.fld rateField = rate.toNat ∧ t.b.ram.hot.contains key = false ∧
          (fastRefresh rate.toNat = true → (t.fld (F.MC_STAT_REF_HIGH mc)).testBit rank = true) ∧
          (fastRefresh rate.toNat = true → (s.fld (F.MC_STAT_REF_HIGH mc)).testBit rank = false →
            t.raised (E.MC_REFRESH_HIGH mc) = true) ∧
          (fastRefresh rate.toNat = false → (s.fld (F.MC_STAT_REF_HIGH mc)).testBit rank = true →
            ((t.fld (F.MC_STAT_REF_HIGH mc)).testBit rank = false ↔ spGet (fun _ => 0) s.b.ram.normalPolls key = 1)) ∧
          eventFrame [R.MC_MR4 mc, R.MC_STAT mc] [.bRam] s t) ∧
       ∀ rate : BitVec 3, s.b.ram.hot.contains key = false →
        ∃ t, exec (.mr4Poll mc rank rate true) s = .next t ∧ t.raised (E.MC_DRAM_HOT mc) = true ∧ t.fld rateField = rate.toNat ∧
          t.b.ram.hot.contains key = true ∧ (s.inJob = true → t.dev = .fault) ∧ (s.inJob = false → t.dev = s.dev))) ∧
    ∃ t, exec (.ceRateSecond mc rank) s = .next t ∧
      (let key := 2 * mc.val + rank.val
       let n := spGet (fun _ => 0) s.b.ram.ceSecond key
       let limit := s.fld F.MEM_CFG_CE_RATE
       spGet (fun _ => 0) t.b.ram.ceSecond key = 0 ∧
       (limit ≠ 0 → limit < n → s.b.ram.ceHigh.contains key = false →
        t.raised (E.MC_CE_RATE mc) = true ∧ t.b.ram.ceHigh.contains key = true) ∧
       (2 * n < limit → t.b.ram.ceHigh.contains key = false ∧ t.evt = s.evt)) ∧
      eventFrame [] [.bRam] s t

/-- R342 to R346: a queued migration starts; at its end the rest of the rank has been copied, the spare has taken the place
of the rank, which is OUT, and lines that did not read are reported lost; an uncorrectable line below the copy pointer is the
spare's, and ends the migration with the old rank kept; START of the scrubber takes its registers where it is allowed; a
scrub goes on from its pointer: in INIT it has written zeros, and one over lines that read clean has changed nothing, when it
ends and when it is stopped. Of its readings, these are the model's own: log entries 71, 72, 73. -/
def Obligations.MigrationsAndScrubsRunToTheirEnds : Prop :=
  ∀ s : State,
    (∀ ch rest, s.b.ram.migQueue = ch :: rest → ch < 4 → s.b.ram.mig = none → s.memUp = true → s.pageWorks 0x14 = true →
      ∃ t, exec .migStart s = .next t ∧
        t.b.ram.mig = some { kind := ch, start := channelLine ch 0, lines := s.rankLines, done := 0 } ∧
        t.b.ram.migQueue = rest ∧ t.fld F.MEM_STAT_MIG = 1 ∧
        t.fld F.MEM_STAT_MIG_CH = ch ∧ (t.flag F.MEM_STAT_MIG_QUEUED = false ↔ rest = []) ∧ t.rd R.MEM_MIG_PROG = 0 ∧
        t.raised E.MEM_MIG_START = true ∧ accessFrame [R.MEM_STAT, R.MEM_MIG_PROG] [.bRam] s t) ∧
    (∀ w : Walk, s.b.ram.mig = some w → w.kind < 4 → w.done ≤ w.lines → s.memUp = true → s.pageWorks 0x14 = true →
      (∀ faults, ∃ t, exec (.migDone faults) s = .next t ∧ t.b.ram.mig = none ∧ t.fld F.MEM_STAT_MIG = 0 ∧
        (t.fld F.MEM_STAT_SPARE_USED).testBit w.kind = true ∧ t.fld (F.MC_STAT_RANK0 w.kind) = 3 ∧
        t.fld (F.MC_STAT_RANK1 w.kind) = 1 ∧ t.raised E.MEM_MIG_DONE = true ∧ t.rd R.MEM_MIG_PROG = w.lines % 2 ^ 32 ∧
        ∀ i < w.lines, w.done ≤ i → (s.readLine faults (channelLine w.kind i)).ok = false → t.raised E.MEM_MIG_LOST = true) ∧
      ((∀ i < w.lines, w.done ≤ i → s.soundLine (channelLine w.kind i)) → ∃ t, exec (.migDone []) s = .next t ∧
        eventFrame [R.MEM_MIG_PROG, R.MEM_STAT, R.MC_STAT w.kind] [.bRam] s t)) ∧
    (∀ (off : BitVec 28) (f : LineFault),
      (let la := lineAddr (s.apertureAddr off.toNat)
       let ch := lineChannel la
       s.dev = .ready → s.cellarHas (s.apertureAddr off.toNat) 1 = true → f.parity = false → la ∉ s.b.ram.wb →
        s.belowPointer la = true → s.readLine [f] la = .bad →
        ∃ t, exec (.bar2Read off 1 [f]) s = .next t ∧ t.b.ram.mig = none ∧ t.fld F.MEM_STAT_MIG = 0 ∧
          (t.fld F.MEM_STAT_NO_SPARE).testBit ch = true ∧ t.raised E.MEM_NO_SPARE = true ∧
          t.fld F.MEM_STAT_SPARE_USED = s.fld F.MEM_STAT_SPARE_USED ∧ .completion [0xFF] true ∈ t.out)) ∧
    (s.reaches 0x14 = true →
      (let start := s.rd64 R.MEM_SCRUB_START_LO R.MEM_SCRUB_START_HI
       let len := s.rd64 R.MEM_SCRUB_LEN_LO R.MEM_SCRUB_LEN_HI
       (s.dev = .ready ∨ s.dev = .draining ∨ s.dev = .armed → s.b.ram.scrub = none → start % 64 = 0 → len % 64 = 0 →
        start + len ≤ s.fld F.CEL_CAPACITY_MIB * 2 ^ 20 →
        ∃ t, exec .scrubStart s = .next t ∧ t.b.ram.scrub = some { kind := s.fld F.MEM_SCRUB_CFG_MODE, start := start, lines := len / 64 } ∧
          t.fld F.MEM_SCRUB_STAT_STATE = 1 ∧ t.rd R.MEM_SCRUB_CE = 0 ∧ t.rd R.MEM_SCRUB_UE = 0 ∧
          t.rd64 R.MEM_SCRUB_LINES_LO R.MEM_SCRUB_LINES_HI = 0 ∧
          accessFrame [R.MEM_SCRUB_STAT, R.MEM_SCRUB_LINES_LO, R.MEM_SCRUB_LINES_HI, R.MEM_SCRUB_CE, R.MEM_SCRUB_UE,
            R.MEM_SCRUB_FIRST_LO, R.MEM_SCRUB_FIRST_HI, R.MEM_SCRUB_LAST_LO, R.MEM_SCRUB_LAST_HI] [.bRam] s t) ∧
       (s.dev ≠ .ready → s.dev ≠ .draining → s.dev ≠ .armed → ∃ t, exec .scrubStart s = .next t ∧
          t.rd R.TOP_REFUSE = 0x14 * 2 ^ 24 + 1 * 2 ^ 16 + 0x10 * 2 ^ 8 + s.dev.code ∧ t.raised E.TOP_REQ_REFUSED = true ∧
          accessFrame [R.TOP_REFUSE, pageReg 0x14 0x020, pageReg 0x14 0x024] [] s t) ∧
       (s.dev = .ready → s.b.ram.scrub.isSome = true ∨ start % 64 ≠ 0 ∨ len % 64 ≠ 0 ∨
          s.fld F.CEL_CAPACITY_MIB * 2 ^ 20 < start + len → s.rd (pageReg 0x14 0x020) / 2 ^ 16 % 2 ^ 15 = 0 →
          ∃ t, exec .scrubStart s = .next t ∧ t.rd (pageReg 0x14 0x020) = 2 ^ 16 + Err.refused ∧
            accessFrame [pageReg 0x14 0x020, pageReg 0x14 0x024] [] s t)) ∧
      (∀ n faults, s.b.ram.scrub = none → ∃ t, exec (.scrubStop n faults) s = .next t ∧ accessFrame [] [] s t)) ∧
    ∀ (w : Walk) (n : BitVec 32), s.reaches 0x14 = true → s.memUp = true → s.pageWorks 0x14 = true → s.b.ram.scrub = some w →
      w.start % 64 = 0 → w.done ≤ w.lines → w.lines < 2 ^ 64 →
      (let zeroed := w.kind = 2
       let clean := fun last => ∀ i < last, w.done ≤ i → s.soundLine (w.start + 64 * i)
       let ended := fun (last state : Nat) (t : State) =>
         (∀ a, cellGet t.mem a =
           if zeroed ∧ w.start + 64 * w.done ≤ a ∧ a < w.start + 64 * last then some 0 else cellGet s.mem a) ∧
         t.fld F.MEM_SCRUB_STAT_STATE = state ∧ t.rd64 R.MEM_SCRUB_LINES_LO R.MEM_SCRUB_LINES_HI = last ∧
         t.rd R.MEM_SCRUB_CE = w.ce % 2 ^ 32 ∧ t.rd R.MEM_SCRUB_UE = w.ue % 2 ^ 32 ∧
         t.rd64 R.MEM_SCRUB_FIRST_LO R.MEM_SCRUB_FIRST_HI = w.first.getD 0 % 2 ^ 64 ∧
         t.rd64 R.MEM_SCRUB_LAST_LO R.MEM_SCRUB_LAST_HI = w.last.getD 0 % 2 ^ 64 ∧
         t.b.ram.scrub = none ∧ t.raised E.MEM_SCRUB_DONE = true ∧
         accessFrame [R.MEM_SCRUB_STAT, R.MEM_SCRUB_LINES_LO, R.MEM_SCRUB_LINES_HI, R.MEM_SCRUB_CE, R.MEM_SCRUB_UE,
           R.MEM_SCRUB_FIRST_LO, R.MEM_SCRUB_FIRST_HI, R.MEM_SCRUB_LAST_LO, R.MEM_SCRUB_LAST_HI]
           (.bRam :: if zeroed then [.mem, .bCel] else []) s t
       let stopped := max w.done (min n.toNat w.lines)
       (zeroed ∨ clean w.lines → ∃ t, exec (.scrubDone []) s = .next t ∧ ended w.lines 2 t) ∧
       (zeroed ∨ clean stopped → ∃ t, exec (.scrubStop n []) s = .next t ∧ ended stopped 3 t))

/-- R350, R351: INIT, or a write to CK_CFG, loads the algorithm's initial value and clears CK_CNT; a write to CK_VAL sets the
running register, without the bits above the width; a feed runs 1, 2 or 4 bytes, least significant first, through the
algorithm and counts them. -/
def Obligations.CheckUnitCommandsComputeRunningValue : Prop :=
  ∀ (s : State) (k : Fin 4) (w : Word), s.reaches (0xC8 + k) = true →
    (∃ t, exec (.ckInit k) s = .next t ∧ t.ckVal k = (s.ckAlg k).init % 2 ^ (s.ckAlg k).width ∧ t.rd (R.CK_CNT k) = 0 ∧
      accessFrame [R.CK_VAL_LO k, R.CK_VAL_HI k, R.CK_CNT k] [] s t) ∧
    (∃ t, exec (.ckCfgWrite k w) s = .next t ∧ t.fld (F.CK_CFG_POLY k) = w.toNat % 4 ∧
      t.ckVal k = (Machine.ckAlg (w.toNat % 4)).init % 2 ^ (Machine.ckAlg (w.toNat % 4)).width ∧ t.rd (R.CK_CNT k) = 0 ∧
      accessFrame [R.CK_CFG k, R.CK_VAL_LO k, R.CK_VAL_HI k, R.CK_CNT k] [] s t) ∧
    (∃ t, exec (.ckValWrite k false w) s = .next t ∧
      t.ckVal k = (s.ckVal k / 2 ^ 32 * 2 ^ 32 + w.toNat) % 2 ^ (s.ckAlg k).width ∧
      accessFrame [R.CK_VAL_LO k, R.CK_VAL_HI k] [] s t) ∧
    (∃ t, exec (.ckValWrite k true w) s = .next t ∧
      t.ckVal k = (s.ckVal k % 2 ^ 32 + w.toNat * 2 ^ 32) % 2 ^ (s.ckAlg k).width ∧
      accessFrame [R.CK_VAL_LO k, R.CK_VAL_HI k] [] s t) ∧
    (∃ t, exec (.ckFeed8 k w) s = .next t ∧ t.ckVal k = ckFeed (s.ckAlg k) (s.ckVal k) (leBytes 1 w.toNat) % 2 ^ (s.ckAlg k).width ∧
      t.rd (R.CK_CNT k) = (s.rd (R.CK_CNT k) + 1) % 2 ^ 32 ∧ accessFrame [R.CK_VAL_LO k, R.CK_VAL_HI k, R.CK_CNT k] [] s t) ∧
    (∃ t, exec (.ckFeed16 k w) s = .next t ∧ t.ckVal k = ckFeed (s.ckAlg k) (s.ckVal k) (leBytes 2 w.toNat) % 2 ^ (s.ckAlg k).width ∧
      t.rd (R.CK_CNT k) = (s.rd (R.CK_CNT k) + 2) % 2 ^ 32 ∧ accessFrame [R.CK_VAL_LO k, R.CK_VAL_HI k, R.CK_CNT k] [] s t) ∧
    ∃ t, exec (.ckFeed32 k w) s = .next t ∧ t.ckVal k = ckFeed (s.ckAlg k) (s.ckVal k) (leBytes 4 w.toNat) % 2 ^ (s.ckAlg k).width ∧
      t.rd (R.CK_CNT k) = (s.rd (R.CK_CNT k) + 4) % 2 ^ 32 ∧ t.rd (R.CK_FEED32 k) = w.toNat ∧
      accessFrame [R.CK_VAL_LO k, R.CK_VAL_HI k, R.CK_CNT k, R.CK_FEED32 k] [] s t

/-- R357, R358, R360 to R364, R378, R390: a round of the wrong form is refused; a round stores its readings, excludes sensors
that read in error or out of range, and puts the hottest sensor in use into THM_MAX; one beyond the trip level in a job is a
fault, and a second round at or above 120 °C resets the device; INCLUDE and EXCLUDE act in READY. Of its readings, these are
the model's own: log entries 76, 77, 102. -/
def Obligations.HousekeepingRoundsStoreJudgeAndProtect : Prop :=
  ∀ (s : State) (r : HkRound),
    (roundOk r = false → exec (.hkRound r) s = .refused (.illFormed "HK_ROUND")) ∧
    (roundOk r = true → s.pageWorks 0xD0 = true →
      (s.dev = .ready ∨ s.dev = .fault → s.fld F.CAL_DT_DT = 0 → (∀ i < 28, (r.temps.getD i (0, false)).1.toInt < 1920) →
        ∃ t, exec (.hkRound r) s = .next t ∧ t.rd R.THM_ROUND = (s.rd R.THM_ROUND + 1) % 2 ^ 32 ∧
          (∀ i < 28, t.fld (F.THM_T_TEMP i) = (r.temps.getD i (0, false)).1.toNat) ∧
          (∀ i < 36, t.fld (F.HK_VAL_VAL (28 + i)) = (r.supplies.getD i 0).toNat) ∧
          (∀ i < 28, (r.temps.getD i (0, false)).2 = true ∨ (r.temps.getD i (0, false)).1.toInt < -640 → t.excluded i = true) ∧
          (∀ i, s.excluded i = true → t.excluded i = true) ∧
          (t.sensors ≠ [] → ∃ i ∈ t.sensors, t.rd R.THM_MAX = i * 2 ^ 16 + ofSigned 16 (t.temp i) ∧
            ∀ j ∈ t.sensors, t.temp j ≤ t.temp i) ∧
          pagesFrame [0xD0, 0xD1] [.bThm, .bAge] s t) ∧
      (s.dev = .dormant → (∀ i < 28, (r.temps.getD i (0, false)).1.toInt < 1920) →
        ∃ t, exec (.hkRound r) s = .next t ∧ t.rd R.THM_ROUND = (s.rd R.THM_ROUND + 1) % 2 ^ 32 ∧
          (∀ i < 28, t.fld (F.THM_T_TEMP i) = (r.temps.getD i (0, false)).1.toNat) ∧
          t.fld (F.HK_VAL_VAL 34) = (r.supplies.getD 6 0).toNat ∧ pagesFrame [0xD0] [.bThm] s t) ∧
      ∀ v : BitVec 16, (∀ i < 28, r.temps.getD i (0, false) = (v, false)) → s.fld F.THM_STAT_EXCL = 0 →
        (s.dev = .ready → s.fld F.CAL_DT_DT = 0 → 1 ≤ s.b.thm.hotRun → 1920 ≤ v.toInt → v.toInt ≤ 2400 →
          ∃ t, exec (.hkRound r) s = .next t ∧ resetWith (Nat.lor (s.rd R.AON_RST_CAUSE) 4) s t) ∧
        (s.inJob = true → v.toInt < 1920 → -640 ≤ v.toInt → toSigned 16 (s.fld F.THM_TRIP_TEMP) < v.toInt →
          s.b.thm.trip.above = false → s.dwell ≤ s.b.thm.trip.run + 1 →
          ∃ t, exec (.hkRound r) s = .next t ∧ t.dev = .fault ∧ t.raised E.THM_THM_TRIP = true)) ∧
    ∀ i : Fin 32, s.reaches 0xD0 = true →
      (s.dev = .ready → i.val < 28 →
        (∃ t, exec (.include i) s = .next t ∧ t.excluded i = false ∧ accessFrame [R.THM_STAT] [.bThm] s t) ∧
        ∃ t, exec (.exclude i) s = .next t ∧ t.excluded i = true ∧ (s.excluded i = false → t.raised E.THM_SENSOR_EXCLUDED = true) ∧
          accessFrame [R.THM_STAT] [.bThm] s t) ∧
      (∀ c ∈ [(Instr.include i, 1), (.exclude i, 2)],
        (s.dev = .ready → 28 ≤ i.val → s.rd (pageReg 0xD0 0x020) / 2 ^ 16 % 2 ^ 15 = 0 → ∃ t, exec c.1 s = .next t ∧
          t.rd (pageReg 0xD0 0x020) = 2 ^ 16 + Err.refused ∧ accessFrame [pageReg 0xD0 0x020, pageReg 0xD0 0x024] [] s t) ∧
        (s.dev ≠ .ready → ∃ t, exec c.1 s = .next t ∧
          t.rd R.TOP_REFUSE = 0xD0 * 2 ^ 24 + c.2 * 2 ^ 16 + 0x10 * 2 ^ 8 + s.dev.code ∧ t.raised E.TOP_REQ_REFUSED = true ∧
          accessFrame [R.TOP_REFUSE, pageReg 0xD0 0x020, pageReg 0xD0 0x024] [] s t))

/-- R368 to R371, R380, R386: a plan steps CODE up where the worst margin lies below the target, with the supply limits and
one VoltageWrite; a write that ends shows its voltage or restores the old one; a plan that has ended says how; a log entry
starts, at CODE 10, where one may be written, restores CODE once the ring oscillators are measured, and is then burned with
its ECRC; the windows of the AGE page answer and store. Of its readings, these are the model's own: log entries 79, 80. -/
def Obligations.PlansVoltagesAndTheAgeingLogTakeEffect : Prop :=
  ∀ s : State,
    (s.reaches 0xD1 = true →
      (s.dev = .ready → s.ageBusy = false → s.b.age.avsOld = none →
        (s.fld F.AGE_CAN_MIN_PS < s.fld F.AGE_CFG_TARGET → s.fld F.AGE_AVS_CODE < 20 →
          (let raised := fun t : State => t.fld F.AGE_AVS_CODE = s.fld F.AGE_AVS_CODE + 1 ∧ t.fld F.AGE_STAT_PLAN = 1 ∧
             .avs (coreMv (s.fld F.AGE_AVS_CODE + 1)) ∈ t.out ∧
             (∀ i < 4, t.fld (F.HK_LIM_HIGH (28 + i)) = coreMv (s.fld F.AGE_AVS_CODE + 1) + 30 ∧
               t.fld (F.HK_LIM_LOW (28 + i)) = coreMv (s.fld F.AGE_AVS_CODE + 1) - 30) ∧
             accessFrame [R.AGE_AVS, R.AGE_STAT, R.HK_LIM 28, R.HK_LIM 29, R.HK_LIM 30, R.HK_LIM 31] [.bAge] s t
           (∃ t, exec .planAvs s = .next t ∧ raised t) ∧ (s.bringup = 7 → ∃ t, exec .planAll s = .next t ∧ raised t))) ∧
        (s.bringup = 7 → ∃ t, exec .planLanes s = .next t ∧ t.fld F.AGE_STAT_PLAN = 1 ∧
          (∃ p, t.b.age.plan = some p ∧ p.avs = false ∧ p.lanes = false ∧
            ∀ i, i ∈ p.left ↔ i < 64 ∧ s.fld (F.LQ_STAT_FOM (s.feeds i)) < s.fld F.PLK_FOM_MIN + 16) ∧
          accessFrame [R.AGE_STAT] [.bAge, .bPlk] s t) ∧
        (s.logErr = 0 → ∃ t, exec .log s = .next t ∧ t.b.age.burn = some (s.fld F.AGE_AVS_CODE) ∧ t.flag F.AGE_STAT_BURN = true ∧
          t.fld F.AGE_AVS_CODE = 10 ∧
          accessFrame [R.AGE_AVS, R.AGE_STAT, R.HK_LIM 28, R.HK_LIM 29, R.HK_LIM 30, R.HK_LIM 31] [.bAge] s t) ∧
        (s.logErr ≠ 0 → s.rd (pageReg 0xD1 0x020) / 2 ^ 16 % 2 ^ 15 = 0 → ∃ t, exec .log s = .next t ∧
          t.fld F.AGE_STAT_ERR = s.logErr ∧ t.rd (pageReg 0xD1 0x020) = 2 ^ 16 + Err.refused ∧ t.b.age.burn = none ∧
          accessFrame [R.AGE_STAT, pageReg 0xD1 0x020, pageReg 0xD1 0x024] [.bAge] s t)) ∧
      (∀ c ∈ [(Instr.planAvs, 1), (.planLanes, 2), (.planAll, 3), (.log, 4)],
        (s.dev ≠ .ready → ∃ t, exec c.1 s = .next t ∧
          t.rd R.TOP_REFUSE = 0xD1 * 2 ^ 24 + c.2 * 2 ^ 16 + 0x10 * 2 ^ 8 + s.dev.code ∧ t.raised E.TOP_REQ_REFUSED = true ∧
          accessFrame [R.TOP_REFUSE, pageReg 0xD1 0x020, pageReg 0xD1 0x024] [] s t) ∧
        (s.dev = .ready → s.ageBusy = true → s.rd (pageReg 0xD1 0x020) / 2 ^ 16 % 2 ^ 15 = 0 → ∃ t, exec c.1 s = .next t ∧
          t.rd (pageReg 0xD1 0x020) = 2 ^ 16 + Err.refused ∧ accessFrame [pageReg 0xD1 0x020, pageReg 0xD1 0x024] [] s t)) ∧
      (∃ t, exec (.ageDataAccess none) s = .next t ∧ .completion (leBytes 4 s.ageData) false ∈ t.out ∧
        t.fld F.AGE_IDX_INDEX = (s.fld F.AGE_IDX_INDEX + 1) % 2 ^ F.AGE_IDX_INDEX.width ∧ accessFrame [R.AGE_IDX] [] s t) ∧
      ∀ w : Word, ∃ t, exec (.ageDataAccess (some w)) s = .next t ∧
        (s.dev = .ready → s.fld F.AGE_IDX_WIN = 3 → s.fld F.AGE_IDX_INDEX < 76 →
          spGet (fun _ => 0) t.b.age.foms (s.fld F.AGE_IDX_INDEX) = w.toNat) ∧
        (s.dev = .ready → s.fld F.AGE_IDX_WIN = 4 → s.fld F.AGE_IDX_INDEX < 8 →
          spGet (fun _ => 0) t.b.age.rates (s.fld F.AGE_IDX_INDEX) = w.toNat) ∧
        (s.dev ≠ .ready → t.b.age = s.b.age) ∧ accessFrame [R.AGE_IDX] [.bAge] s t) ∧
    (s.dev = .ready → s.flag F.AGE_CFG_AUTO = true → s.pageWorks 0xD1 = true → s.ageBusy = false → s.b.age.avsOld = none →
      s.logErr = 0 → ∃ t, exec .autoLog s = .next t ∧ t.b.age.burn = some (s.fld F.AGE_AVS_CODE) ∧ t.fld F.AGE_AVS_CODE = 10 ∧
        plainFrame [R.AGE_AVS, R.AGE_STAT, R.HK_LIM 28, R.HK_LIM 29, R.HK_LIM 30, R.HK_LIM 31] [.bAge] s t) ∧
    (∀ old cause (margin : BitVec 16), s.b.age.avsOld = some (old, cause) →
      (s.b.age.plan = none → s.b.age.burn = none → ∃ t, exec (.avsWriteDone true margin) s = .next t ∧ t.b.age.avsOld = none ∧
        t.rd R.PWR_AVS = coreMv (s.fld F.AGE_AVS_CODE) ∧ plainFrame [R.PWR_AVS] [.bAge] s t) ∧
      (∀ code, s.b.age.plan = none → s.b.age.burn = some code → s.b.age.logRings = none → code < 32 → s.fld F.AGE_AVS_CODE ≠ code →
        ∃ t, exec (.avsWriteDone true margin) s = .next t ∧ t.b.age.avsOld = some (s.fld F.AGE_AVS_CODE, 3) ∧
          t.fld F.AGE_AVS_CODE = code ∧ .avs (coreMv code) ∈ t.out ∧ t.b.age.logRings = some s.b.age.rings ∧
          plainFrame [R.PWR_AVS, R.AGE_AVS, R.HK_LIM 28, R.HK_LIM 29, R.HK_LIM 30, R.HK_LIM 31] [.bAge] s t) ∧
      (old < 32 → s.b.age.burn = none → ∃ t, exec (.avsWriteDone false margin) s = .next t ∧ t.b.age.avsOld = none ∧ t.fld F.AGE_AVS_CODE = old ∧
        .avs (coreMv old) ∈ t.out ∧ t.flag F.PWR_AVS_FAIL = true ∧ t.raised E.PWR_AVS_FAIL = true ∧
        (∀ p ∈ t.b.age.plan, p.fail = 1 ∧ p.avs = false ∧ p.lanes = false) ∧
        eventFrame [R.AGE_AVS, R.HK_LIM 28, R.HK_LIM 29, R.HK_LIM 30, R.HK_LIM 31, R.PWR_AVS] [.bAge] s t)) ∧
    (∀ p e, s.b.age.plan = some p → s.planResult p = some e → e < 16 → s.b.age.waiting = [] →
      ∃ t, exec .planDone s = .next t ∧ t.b.age.plan = none ∧ t.fld F.AGE_STAT_ERR = e ∧
        (e = 0 → t.fld F.AGE_STAT_PLAN = 2 ∧ t.raised E.AGE_PLAN_DONE = true) ∧
        (e ≠ 0 → t.fld F.AGE_STAT_PLAN = 3 ∧ t.raised E.AGE_PLAN_FAIL = true) ∧ eventFrame [R.AGE_STAT] [.bAge] s t) ∧
    ∀ code rings, s.b.age.burn = some code → s.b.age.logRings = some rings → s.b.age.avsOld = none → s.b.age.waiting = [] →
      s.logUsed < 320 →
      ∃ t, exec .logWritten s = .next t ∧ t.b.age.burn = none ∧ t.flag F.AGE_STAT_BURN = false ∧ t.fresh = s.fresh + 1 ∧
        t.b.age.logAt = some s.b.tim.sec ∧
        (let b := logBytes s code (s.ringFields rings).1 (s.ringFields rings).2
         (∀ k < 8, spGet Config.otpWord t.otp (0x300 + 8 * s.logUsed + k) =
            BitVec.ofNat 32 (leAt (b ++ leBytes 4 (crcOf crc32c b)) (4 * k) 4)) ∧ b.length = 28 ∧ leAt b 0 4 = s.day % 2 ^ 32) ∧
        (∀ a, a < 0x300 + 8 * s.logUsed ∨ 0x300 + 8 * s.logUsed + 8 ≤ a →
          spGet Config.otpWord t.otp a = spGet Config.otpWord s.otp a) ∧
        t.raised E.AGE_LOG_WRITTEN = true ∧ eventFrame [R.AGE_STAT] [.otp, .fresh, .bAge] s t

/-- R373 to R377, R381: the scheduler at its interval, and RUN_NEXT in READY, start the first eligible slice of the rotation;
a test that passes counts, one that fails is repeated, and one that fails again retires its engine, as does an error in
shadow SRAM, also where the test had given way; a slice idle again resumes; SKIP counts the next slice as skipped; RESTART
begins a new rotation. Of its readings, these are the model's own: log entry 81. -/
def Obligations.SelfTestStartsRepeatsRetiresAndResumes : Prop :=
  ∀ s : State,
    (∀ k, s.flag F.BST_CFG_EN = true → s.pageWorks 0xD2 = true → s.b.bst.cur = none → s.b.bst.cover = none →
      (let begun := fun (now : Nat) (parts : List Part) (t : State) => t.b.bst.cur = some { slice := k, since := now } ∧
         t.b.bst.slotAt = now ∧ t.fld F.BST_STAT_SLICE = k ∧ t.fld F.BST_STAT_STATE = 2 ∧ t.fld F.BST_STAT_GROUP = 0 ∧
         t.fld (pageStat (slicePage k) 10 1) = 1 ∧ t.b.bst.done = s.b.bst.done ∧
         accessFrame ([R.BST_STAT, pageReg (slicePage k) 0x00C] ++ (if k < 68 then [R.TP_STAT k] else []) ++
           (if 68 ≤ k ∧ k < 84 then [R.PE_STAT (k - 68)] else [])) parts s t
       (s.dev = .ready ∨ s.inJob = true ∨ s.dev = .fault →
        (let now := max s.b.tim.ticks (s.b.bst.slotAt + s.fld F.BST_CFG_INTERVAL * 2500000)
         (List.range 104).find? ({ s with b := { s.b with tim := { s.b.tim with ticks := now } } } : State).eligible = some k →
          ∃ t, exec .bistSliceStart s = .next t ∧ begun now [.bTim, .bPos, .bAge] t)) ∧
       (s.dev = .ready → s.reaches 0xD2 = true → (List.range 104).find? s.eligible = some k →
        ∃ t, exec .runNext s = .next t ∧ begun s.b.tim.ticks [] t))) ∧
    (s.reaches 0xD2 = true → s.dev ≠ .ready → ∃ t, exec .runNext s = .next t ∧
      t.rd R.TOP_REFUSE = 0xD2 * 2 ^ 24 + 1 * 2 ^ 16 + 0x10 * 2 ^ 8 + s.dev.code ∧ t.raised E.TOP_REQ_REFUSED = true ∧
      accessFrame [R.TOP_REFUSE, pageReg 0xD2 0x020, pageReg 0xD2 0x024] [] s t) ∧
    (∀ x, s.b.bst.cur = some x → x.slice < 104 → x.yielded = false →
      (∃ t, exec (.bistSliceDone false false) s = .next t ∧ t.b.bst.cur = none ∧ t.fld F.BST_STAT_STATE = 0 ∧
        (t.b.bst.done = [] ∧ t.raised E.BST_ROTATION_DONE = true ∧ t.rd R.BST_ROT_CNT = (s.rd R.BST_ROT_CNT + 1) % 2 ^ 32 ∨
          x.slice ∈ t.b.bst.done) ∧
        t.fld (pageStat (slicePage x.slice) 10 1) = 0 ∧
        eventFrame ([R.BST_STAT, R.BST_ROT_CNT, pageReg (slicePage x.slice) 0x00C] ++
          (if x.slice < 68 then [R.TP_STAT x.slice] else []) ++
          (if 68 ≤ x.slice ∧ x.slice < 84 then [R.PE_STAT (x.slice - 68)] else [])) [.bBst] s t) ∧
      (x.repeated = false → ∃ t, exec (.bistSliceDone true false) s = .next t ∧
        t.b.bst.cur = some { x with repeated := true, since := s.b.tim.ticks, group := 0 } ∧ t.fld F.BST_STAT_GROUP = 0 ∧ plainFrame [R.BST_STAT] [.bBst] s t) ∧
      (x.repeated = true → ∃ t, exec (.bistSliceDone true false) s = .next t ∧ t.b.bst.cur = none ∧
        t.rd R.BST_FAIL_CNT = (s.rd R.BST_FAIL_CNT + 1) % 2 ^ 32 ∧ t.rd R.BST_LAST_FAIL = x.slice * 2 ^ 24 + 1 * 2 ^ 20 ∧
        t.raised E.BST_BIST_FAIL = true ∧
        (68 ≤ x.slice → x.slice < 84 → t.flag (F.PE_STAT_RETIRED (x.slice - 68)) = true)) ∧
      (68 ≤ x.slice → x.slice < 84 → ∃ t, exec (.bistSliceDone false true) s = .next t ∧ t.b.bst.cur = none ∧
        t.rd R.BST_LAST_FAIL = x.slice * 2 ^ 24 + 2 * 2 ^ 20 ∧ t.raised E.BST_SHADOW_UE = true ∧ t.raised E.MEM_SRAM_UE = true ∧
        t.flag (F.PE_STAT_RETIRED (x.slice - 68)) = true)) ∧
    (∀ x, s.b.bst.cur = some x → 84 ≤ x.slice → x.slice < 104 → x.yielded = true → s.b.bst.restoring = some x.slice →
      ∃ t, exec (.bistSliceDone false true) s = .next t ∧ t.b.bst.cur = none ∧ t.raised E.BST_SHADOW_UE = true) ∧
    (∀ x, s.b.bst.cur = some x → 84 ≤ x.slice → x.slice < 104 → x.yielded = true → s.blockEligible x.slice = true →
      s.flag F.BST_CFG_EN = true → s.pageWorks 0xD2 = true →
      ∃ t, exec .bistResume s = .next t ∧ t.b.bst.cur = some { x with yielded := false, since := s.b.tim.ticks } ∧
        t.fld F.BST_STAT_STATE = 2 ∧
        plainFrame [R.BST_STAT, pageReg (slicePage x.slice) 0x00C] [.bBst] s t) ∧
    (s.reaches 0xD2 = true →
      (∀ k, nextSlice s.b.bst.done s.testing = some k → ∃ t, exec .skip s = .next t ∧
        t.rd R.BST_SKIP_CNT = (s.rd R.BST_SKIP_CNT + 1) % 2 ^ 32 ∧ t.raised E.BST_BIST_SKIP = true ∧
        (t.b.bst.done = [] ∨ k ∈ t.b.bst.done) ∧ accessFrame [] [] s t) ∧
      ∃ t, exec .restart s = .next t ∧ t.b.bst.done = [] ∧ t.b.bst.yields = [] ∧ accessFrame [] [] s t)

/-- R427, R428, R431: writing 1s to EVT_PEND clears the events that they name, and no other where no self-test gives way;
EVT_FORCE raises each named event of the page; EVT_EN holds what was written; unmasking an MSI-X vector leaves it unmasked
with no message pending. Of its readings, these are the model's own: log entry 15. -/
def Obligations.EventRegisterWritesClearForceEnableAndUnmask : Prop :=
  ∀ (s : State) (page : BitVec 8) (w : Word), s.reaches page.toNat = true →
    (∃ t, exec (.evtPendClear page w) s = .next t ∧
      (∀ i < 32, (t.evtRaw page.toNat).testBit i = true → w.toNat.testBit i = false) ∧
      (s.b.bst.cur = none → (∀ i < 32, (t.evtRaw page.toNat).testBit i = ((s.evtRaw page.toNat).testBit i && !w.toNat.testBit i)) ∧
        (∀ p, p ≠ page.toNat → t.evtRaw p = s.evtRaw p) ∧ t.evt.en = s.evt.en ∧ t.evt.cnt = s.evt.cnt ∧ t.evt.pba = s.evt.pba) ∧
      accessFrame [] [] s t) ∧
    (∃ t, exec (.evtForce page w) s = .next t ∧
      (∀ i < 32, i < pageEvents page.toNat → w.toNat.testBit i = true → t.raised ⟨page.toNat, i⟩ = true) ∧ accessFrame [] [] s t) ∧
    ((pageRow page.toNat).isSome = true →
      ∃ t, exec (.evtEnWrite page w) s = .next t ∧ t.evtEn page.toNat = w.toNat ∧ accessFrame [] [] s t) ∧
    ∀ v : Fin 64, s.reaches 8 = true →
      ∃ t, exec (.msixUnmask v) s = .next t ∧ t.rd (msixControl v) = 0 ∧ v.val ∉ t.evt.pba ∧ accessFrame [msixControl v] [] s t

/-- R417, R418: outside DORMANT a write of 1 to FIJ_ARM with the key arms injections and raises ARMED; a write of 0, or the
end of the expiry time, disarms armed injections, cancels those of the plate link and the pair link, and raises DISARMED or
EXPIRED. Of its readings, these are the model's own: log entries 16, 17. -/
def Obligations.FaultInjectionIsArmedDisarmedAndExpires : Prop :=
  ∀ s : State,
    (∀ w : Word, s.reaches 6 = true → s.dev ≠ .dormant → w.toNat.testBit 0 = true → w.toNat / 2 ^ 16 = 0x5248 →
      ∃ t, exec (.fijArmWrite w) s = .next t ∧ t.flag F.FIJ_ARM_ARM = true ∧ t.flag F.FIJ_STAT_ARMED = true ∧
        t.raised E.FIJ_ARMED = true ∧ t.b.tim = { s.b.tim with armed := s.b.tim.ticks } ∧
        accessFrame [R.FIJ_ARM, R.FIJ_STAT] [.bTim] s t) ∧
    (∀ w : Word, s.reaches 6 = true → s.dev ≠ .dormant → w.toNat.testBit 0 = false → s.flag F.FIJ_ARM_ARM = true →
      ∃ t, exec (.fijArmWrite w) s = .next t ∧ t.flag F.FIJ_ARM_ARM = false ∧ t.flag F.FIJ_STAT_ARMED = false ∧
        t.fld F.PLK_FIJ_CFG_KIND = 0 ∧ t.fld F.PAR_FIJ_CFG_KIND = 0 ∧ t.raised E.FIJ_DISARMED = true ∧
        accessFrame [R.FIJ_ARM, R.FIJ_STAT, R.PLK_FIJ_CFG, R.PAR_FIJ_CFG] [.bPlk, .bPar] s t) ∧
    (s.fld F.FIJ_EXPIRE_S ≠ 0 → s.flag F.FIJ_ARM_ARM = true →
      ∃ t, exec .expired s = .next t ∧ t.flag F.FIJ_ARM_ARM = false ∧ t.flag F.FIJ_STAT_ARMED = false ∧
        t.fld F.PLK_FIJ_CFG_KIND = 0 ∧ t.fld F.PAR_FIJ_CFG_KIND = 0 ∧ t.raised E.FIJ_EXPIRED = true ∧
        eventFrame [R.FIJ_ARM, R.FIJ_STAT, R.PLK_FIJ_CFG, R.PAR_FIJ_CFG] [.bPlk, .bPar, .bTim, .bPos, .bAge] s t)

/-- R406, R407, R416: from READY on, the ledger checker samples all seven accounts and counts the check; where every test
holds it changes nothing else; an account that fails is marked in LDG_STAT.VIOL, and takes the device to FAULT while shots
are at stake. A write to LDG_SEL shows the selected account of the last sample. Of its readings, these are the model's own:
log entries 19, 100. -/
def Obligations.LedgerCheckSamplesEveryAccountAndReportsFailures : Prop :=
  ∀ s : State,
    (s.dev = .ready ∨ s.dev = .fault → (∀ l, s.ledgerFails l = none) →
      ∃ t, exec .ledgerCheck s = .next t ∧ t.rd R.LDG_CHECKS = (s.rd R.LDG_CHECKS + 1) % 2 ^ 32 ∧ t.b.snap = s.led ∧
        plainFrame [R.LDG_CHECKS, R.LDG_SNAP_IN_LO, R.LDG_SNAP_IN_HI, R.LDG_SNAP_OUT_LO, R.LDG_SNAP_OUT_HI, R.LDG_SNAP_HELD_LO,
          R.LDG_SNAP_HELD_HI] [.bSnap, .bTim, .bPos, .bAge] s t) ∧
    (∀ l, s.dev = .ready ∨ s.inJob = true → s.ledgerFails l ≠ none →
      ∃ t, exec .ledgerCheck s = .next t ∧ (t.fld F.LDG_STAT_VIOL).testBit l.code = true ∧ (s.inJob = true → t.dev = .fault)) ∧
    ∀ w : Word, s.reaches 5 = true →
      ∃ t, exec (.ldgSelWrite w) s = .next t ∧ t.fld F.LDG_SEL_ACCT = w.toNat % 8 ∧
        t.rd R.LDG_SNAP_IN_LO = (s.b.snap.get t.selected).inn.toNat % 2 ^ 32 ∧
        t.rd R.LDG_SNAP_OUT_LO = (s.b.snap.get t.selected).out.toNat % 2 ^ 32 ∧
        t.rd R.LDG_SNAP_HELD_LO = (s.b.snap.get t.selected).held.toNat % 2 ^ 32 ∧
        accessFrame [R.LDG_SEL, R.LDG_SNAP_IN_LO, R.LDG_SNAP_IN_HI, R.LDG_SNAP_OUT_LO, R.LDG_SNAP_OUT_HI, R.LDG_SNAP_HELD_LO,
          R.LDG_SNAP_HELD_HI] [] s t

/-- R422 to R424: the page controls. EN and FREEZE are stored on a page that has them, outside a job; a stopped page without
work under way becomes quiescent; ERR_CLR clears the page's error registers; INJ_EN is stored, and clearing it cancels the
plate link's injection; SRST in READY returns every block-specific register of a page outside the taps and the engines to its
reset value. Of its readings, these are the model's own: log entries 11, 12, 22. -/
def Obligations.PageControlsTakeEffect : Prop :=
  ∀ (s : State) (page : BitVec 8) (v : Bool), s.reaches page.toNat = true → (pageRow page.toNat).isSome = true →
    (fixedPage page.toNat = false → s.inJob = false →
      (∃ t, exec (.en page v) s = .next t ∧ t.flag (pageCtrl page.toNat 0) = v ∧
        t.flag (pageCtrl page.toNat 2) = s.flag (pageCtrl page.toNat 2) ∧
        accessFrame [pageReg page.toNat 0x008, pageReg page.toNat 0x00C] [] s t) ∧
      ∃ t, exec (.freeze page v) s = .next t ∧ t.flag (pageCtrl page.toNat 2) = v ∧
        t.flag (pageCtrl page.toNat 0) = s.flag (pageCtrl page.toNat 0) ∧
        accessFrame [pageReg page.toNat 0x008, pageReg page.toNat 0x00C] [] s t) ∧
    (s.pageWorks page.toNat = false → s.working page.toNat = false →
      ∃ t, exec (.pageQuiescent page) s = .next t ∧ t.fld (pageStat page.toNat 8 1) = 1 ∧
        plainFrame [pageReg page.toNat 0x00C] [] s t) ∧
    (∃ t, exec (.errClr page) s = .next t ∧ (∀ o ∈ [0x020, 0x024, 0x028, 0x02C], t.rd (pageReg page.toNat o) = 0) ∧
      accessFrame ([0x020, 0x024, 0x028, 0x02C].map (pageReg page.toNat)) [] s t) ∧
    (injPages.contains page.toNat = true → ∃ t, exec (.injEn page v) s = .next t ∧ t.flag (pageCtrl page.toNat 3) = v ∧
      (page.toNat = 0x90 → v = false → s.flag (pageCtrl 0x90 3) = true → t.fld F.PLK_FIJ_CFG_KIND = 0) ∧
      accessFrame [pageReg page.toNat 0x008, R.PLK_FIJ_CFG, R.PAR_FIJ_CFG] [.bPlk, .bPar] s t) ∧
    (s.dev = .ready → fixedPage page.toNat = false → (page.toNat < 0x20 ∨ 0x84 ≤ page.toNat) →
      ∃ t, exec (.srst page) s = .next t ∧ t.dev = .ready ∧
        ∀ a, blockRegs page.toNat a = true → t.rd a = (resetValue a).toNat)

/-- R11, R228, R420, R438: a write to a register stores its writable bits: an RW register and every page's scratch register
always, an RWL register outside ARMED, WRITING and RACKING, where it is ignored with LOCKED; a write to a read-only register
changes nothing; a write of fewer than 4 bytes is dropped with RANGE. A read of OTP_DATA answers the word at the index, or 0
beyond the readable region, and moves the index on; a read of a wide register's low word answers it and holds the high words.
Of its readings, these are the model's own: log entries 9, 21, 23, 24. -/
def Obligations.RegisterBusStoresAndAnswersWords : Prop :=
  ∀ (s : State) (w : Word),
    (s.reaches 0x18 = true → ∃ t, exec (.registerWrite (BitVec.ofNat 20 R.PRS_ERR_RING) w 15) s = .next t ∧
      t.fld F.PRS_ERR_RING_EN = w.toNat / 2 ^ 8 % 2 ∧ t.fld F.PRS_ERR_RING_RING = w.toNat % 16 ∧
      accessFrame [R.PRS_ERR_RING] [] s t) ∧
    (∀ page : BitVec 8, s.reaches page.toNat = true → (pageRow page.toNat).isSome = true → page ≠ 0x0B →
      ∃ t, exec (.registerWrite (BitVec.ofNat 20 (pageReg page.toNat 0x03C)) w 15) s = .next t ∧
        t.rd (pageReg page.toNat 0x03C) = w.toNat ∧ accessFrame [pageReg page.toNat 0x03C] [] s t) ∧
    (s.reaches 0xB1 = true → s.locked = false →
      ∃ t, exec (.registerWrite (BitVec.ofNat 20 R.SHT_MIN_PERIOD) w 15) s = .next t ∧
        t.rd R.SHT_MIN_PERIOD % 2 ^ 16 = w.toNat % 2 ^ 16 ∧ accessFrame [R.SHT_MIN_PERIOD] [] s t) ∧
    (s.locked = true → s.rd (pageReg 0xB1 0x020) / 2 ^ 16 % 2 ^ 15 = 0 →
      ∃ t, exec (.registerWrite (BitVec.ofNat 20 R.SHT_MIN_PERIOD) w 15) s = .next t ∧
        t.rd (pageReg 0xB1 0x020) = 2 ^ 16 + Err.locked ∧
        accessFrame [pageReg 0xB1 0x020, pageReg 0xB1 0x024] [] s t) ∧
    (s.reaches 0x31 = true → ∃ t, exec (.registerWrite (BitVec.ofNat 20 R.LAT_DYMAX) w 15) s = .next t ∧
      t.rd R.LAT_DYMAX = s.rd R.LAT_DYMAX ∧ accessFrame [R.LAT_DYMAX] [] s t) ∧
    (∀ (page : BitVec 8) (off : Nat) (bytes : BitVec 4), bytes ≠ 15 → off < 0x1000 → s.reaches page.toNat = true →
      (pageRow page.toNat).isSome = true → s.rd (pageReg page.toNat 0x020) / 2 ^ 16 % 2 ^ 15 = 0 →
      ∃ t, exec (.registerWrite (BitVec.ofNat 20 (pageReg page.toNat off)) w bytes) s = .next t ∧
        t.rd (pageReg page.toNat 0x020) = 2 ^ 16 + Err.range ∧
        accessFrame [pageReg page.toNat 0x020, pageReg page.toNat 0x024] [] s t) ∧
    (s.reaches 0xF0 = true → ∃ t, exec .otpDataRead s = .next t ∧
      .completion (leBytes 4 (s.otpData (s.fld F.OTP_IDX_INDEX))) false ∈ t.out ∧
      t.fld F.OTP_IDX_INDEX = (s.fld F.OTP_IDX_INDEX + 1) % 2 ^ 14 ∧ accessFrame [R.OTP_IDX] [] s t) ∧
    (s.reaches 0xB0 = true → ∃ t, exec (.latchedRead (BitVec.ofNat 20 R.POS_Y_LO)) s = .next t ∧
      .completion (leBytes 4 (ofSigned 48 s.b.pos.yc % 2 ^ 32)) false ∈ t.out ∧
      (R.POS_Y_HI, BitVec.ofNat 32 (ofSigned 48 s.b.pos.yc / 2 ^ 32 % 65536)) ∈ t.b.pos.latched ∧ accessFrame [] [.bPos] s t) ∧
    (s.reaches 0xC2 = true → ∃ t, exec (.latchedRead (BitVec.ofNat 20 R.TIM_NS)) s = .next t ∧
      .completion (leBytes 4 (s.b.tim.ns / 2 ^ 32)) false ∈ t.out ∧
      (R.TIM_SEC_LO, BitVec.ofNat 32 (s.b.tim.sec % 2 ^ 32)) ∈ t.b.pos.latched ∧
      (R.TIM_SEC_HI, BitVec.ofNat 32 (s.b.tim.sec / 2 ^ 32 % 2 ^ 32)) ∈ t.b.pos.latched ∧ accessFrame [] [.bPos] s t)
end

