-- ==== Sys2Proof/Laws/Sparse.lean ====
section
/-! SUPPORT. Laws of the sparse tables and of the cellar: a read after a write, and that every write keeps the canonical
form. -/

namespace Sys2Proof.Machine

section
variable {α : Type}

/-- The keys of a table are all above a bound. -/
def keysAbove (k : Nat) (t : List (Nat × α)) : Prop := ∀ e ∈ t, k < e.1

theorem spSorted_cons (a : Nat × α) (t : List (Nat × α)) :
    spSorted (a :: t) = true ↔ keysAbove a.1 t ∧ spSorted t = true := by
  induction t generalizing a with
  | nil => simp [spSorted, keysAbove]
  | cons b es ih =>
    simp only [spSorted, Bool.and_eq_true, decide_eq_true_eq]
    constructor
    · rintro ⟨h, hb⟩
      refine ⟨?_, hb⟩
      intro e he
      rcases List.mem_cons.mp he with rfl | he
      · exact h
      · exact h.trans (((ih b).mp hb).1 e he)
    · rintro ⟨h, hb⟩
      exact ⟨h b (by simp), hb⟩

theorem spSorted_filter (p : Nat × α → Bool) (t : List (Nat × α)) (h : spSorted t = true) :
    spSorted (t.filter p) = true := by
  induction t with
  | nil => simpa using h
  | cons a es ih =>
    obtain ⟨ha, hs⟩ := (spSorted_cons a es).mp h
    by_cases hp : p a
    · rw [List.filter_cons_of_pos hp, spSorted_cons]
      exact ⟨fun e he => ha e (List.mem_of_mem_filter he), ih hs⟩
    · rw [List.filter_cons_of_neg hp]
      exact ih hs

theorem mem_spInsert (k : Nat) (v : α) (t : List (Nat × α)) (e : Nat × α) :
    e ∈ spInsert k v t ↔ e = (k, v) ∨ e ∈ t := by
  induction t with
  | nil => simp [spInsert]
  | cons a es ih =>
    unfold spInsert
    split
    · simp
    · simp only [List.mem_cons, ih]
      tauto

theorem spSorted_spInsert (k : Nat) (v : α) (t : List (Nat × α)) (h : spSorted t = true) (hk : ∀ e ∈ t, e.1 ≠ k) :
    spSorted (spInsert k v t) = true := by
  induction t with
  | nil => simp [spInsert, spSorted]
  | cons a es ih =>
    obtain ⟨ha, hs⟩ := (spSorted_cons a es).mp h
    unfold spInsert
    split
    · rename_i hlt
      rw [spSorted_cons]
      refine ⟨fun e he => ?_, h⟩
      rcases List.mem_cons.mp he with rfl | he
      · exact hlt
      · exact hlt.trans (ha e he)
    · rename_i hge
      have hne := hk a (by simp)
      rw [spSorted_cons]
      refine ⟨fun e he => ?_, ih hs fun e he => hk e (by simp [he])⟩
      rcases (mem_spInsert k v es e).mp he with rfl | he
      · show a.1 < k
        omega
      · exact ha e he

theorem find_spInsert_same (k : Nat) (v : α) (t : List (Nat × α)) (hk : ∀ e ∈ t, e.1 ≠ k) :
    (spInsert k v t).find? (fun e => e.1 == k) = some (k, v) := by
  induction t with
  | nil => simp [spInsert]
  | cons a es ih =>
    unfold spInsert
    split
    · simp
    · have := hk a (by simp)
      rw [List.find?_cons_of_neg (by simpa using this)]
      exact ih fun e he => hk e (by simp [he])

theorem find_spInsert_ne (k j : Nat) (v : α) (t : List (Nat × α)) (h : k ≠ j) :
    (spInsert k v t).find? (fun e => e.1 == j) = t.find? (fun e => e.1 == j) := by
  induction t with
  | nil => simp [spInsert, h]
  | cons a es ih =>
    unfold spInsert
    split
    · simp [h]
    · by_cases ha : a.1 = j <;> simp [ha, ih]

theorem find_filter_ne (k j : Nat) (t : List (Nat × α)) (h : k ≠ j) :
    (t.filter fun e => e.1 != k).find? (fun e => e.1 == j) = t.find? (fun e => e.1 == j) := by
  induction t with
  | nil => rfl
  | cons a es ih =>
    by_cases ha : a.1 = k
    · rw [List.filter_cons_of_neg (by simp [ha]), ih, List.find?_cons_of_neg (by simp [ha, h])]
    · rw [List.filter_cons_of_pos (by simp [ha])]
      by_cases hj : a.1 = j <;> simp [hj, ih]

theorem filter_ne_key (k : Nat) (t : List (Nat × α)) : ∀ e ∈ t.filter (fun e => e.1 != k), e.1 ≠ k := by
  intro e he
  simpa using (List.mem_filter.mp he).2

variable [DecidableEq α]

@[simp] theorem spGet_spPut_same (d : Nat → α) (t : List (Nat × α)) (k : Nat) (v : α) : spGet d (spPut d t k v) k = v := by
  unfold spPut
  simp only []
  split
  · rename_i h
    have : (t.filter fun e => e.1 != k).find? (fun e => e.1 == k) = none := by
      rw [List.find?_eq_none]
      intro e he
      simpa using filter_ne_key k t e he
    simp [spGet, this, h]
  · simp [spGet, find_spInsert_same k v _ (filter_ne_key k t)]

theorem spGet_spPut_ne (d : Nat → α) (t : List (Nat × α)) (k j : Nat) (v : α) (h : k ≠ j) :
    spGet d (spPut d t k v) j = spGet d t j := by
  unfold spPut
  simp only []
  split <;> simp only [spGet, find_spInsert_ne k j v _ h, find_filter_ne k j t h]

theorem spWf_nil (d : Nat → α) : spWf d [] = true := by simp [spWf, spSorted]

theorem spWf_spPut (d : Nat → α) (t : List (Nat × α)) (k : Nat) (v : α) (h : spWf d t = true) :
    spWf d (spPut d t k v) = true := by
  simp only [spWf, Bool.and_eq_true, List.all_eq_true] at h ⊢
  unfold spPut
  simp only []
  split
  · exact ⟨spSorted_filter _ _ h.1, fun e he => h.2 e (List.mem_of_mem_filter he)⟩
  · rename_i hv
    refine ⟨spSorted_spInsert k v _ (spSorted_filter _ _ h.1) (filter_ne_key k t), fun e he => ?_⟩
    rcases (mem_spInsert k v _ e).mp he with rfl | he
    · simpa using hv
    · exact h.2 e (List.mem_of_mem_filter he)

theorem spWf_filter (d : Nat → α) (p : Nat × α → Bool) (t : List (Nat × α)) (h : spWf d t = true) :
    spWf d (t.filter p) = true := by
  simp only [spWf, Bool.and_eq_true, List.all_eq_true] at h ⊢
  exact ⟨spSorted_filter _ _ h.1, fun e he => h.2 e (List.mem_of_mem_filter he)⟩

end

/-! ### The cellar -/

@[simp] theorem cellGet_cellPut_same (m : List Host.Cell) (a : Nat) (v : Byte) : cellGet (cellPut m a v) a = some v := by
  simp [cellGet, cellPut, find_spInsert_same a v _ (filter_ne_key a m)]

theorem cellGet_cellPut_ne (m : List Host.Cell) (a b : Nat) (v : Byte) (h : a ≠ b) :
    cellGet (cellPut m a v) b = cellGet m b := by
  simp only [cellGet, cellPut, find_spInsert_ne a b v _ h, find_filter_ne a b m h]

/-- A store keeps the cellar's canonical form. -/
theorem cellPut_wf (m : List Host.Cell) (a : Nat) (v : Byte) (h : Memory.wf m = true) : Memory.wf (cellPut m a v) = true :=
  spSorted_spInsert a v _ (spSorted_filter _ _ h) (filter_ne_key a m)

end Sys2Proof.Machine
end

