-- ==== Sys2Proof/Laws/State.lean ====
section
/-! SUPPORT. One lemma for each field and each update of the state, and what each primitive effect does. -/

namespace Sys2Proof.Machine

variable (s : State)

/-! ### The combinators -/

@[simp] theorem run_nop : Act.nop.run s = s := rfl
@[simp] theorem run_seq (a b : Act) : (Act.seq a b).run s = b.run (a.run s) := rfl
@[simp] theorem run_dyn (f : State → Act) : (Act.dyn f).run s = (f s).run s := rfl
@[simp] theorem run_acts_nil : (acts []).run s = s := rfl
@[simp] theorem run_acts_cons (a : Act) (as : List Act) : (acts (a :: as)).run s = (acts as).run (a.run s) := rfl
@[simp] theorem each_nil {α : Type} (f : α → Act) : (each [] f).run s = s := rfl
@[simp] theorem each_cons {α : Type} (x : α) (l : List α) (f : α → Act) :
    (each (x :: l) f).run s = (each l f).run ((f x).run s) := rfl
@[simp] theorem on_true (a : Act) : on true a = a := rfl
@[simp] theorem on_false (a : Act) : on false a = .nop := rfl
theorem on_pos {c : Bool} (h : c = true) (a : Act) : on c a = a := by simp [h]
theorem on_neg {c : Bool} (h : c = false) (a : Act) : on c a = .nop := by simp [h]
@[simp] theorem run_ite (c : Prop) [Decidable c] (a b : Act) : (if c then a else b).run s = if c then a.run s else b.run s := by
  split <;> rfl

/-! ### The primitives -/

@[simp] theorem run_emit (o : Out) : (Act.emit o).run s = { s with out := s.out ++ [o] } := rfl
@[simp] theorem run_draw : Act.draw.run s = { s with fresh := s.fresh + 1 } := rfl
@[simp] theorem run_evt (f : EvtBlk → EvtBlk) : (Act.evt f).run s = { s with evt := f s.evt } := rfl
@[simp] theorem run_otp (i : Nat) (w : Word) : (Act.otp i w).run s = { s with otp := spPut Config.otpWord s.otp i w } := rfl
@[simp] theorem run_index (k v : Nat) : (Act.index k v).run s = { s with rings := spPut (fun _ => 0) s.rings k v } := rfl
@[simp] theorem run_book (l : Ledger) (k : Booking) :
    (Act.book l k).run s = { s with led := s.led.set l ((s.led.get l).book k) } := rfl
@[simp] theorem run_cell (a : Nat) (v : Byte) : (Act.cell a v).run s = { s with mem := cellPut s.mem a v } := rfl
@[simp] theorem run_wipe : Act.wipe.run s = { s with mem := [] } := rfl
@[simp] theorem run_bookIn (l : Ledger) (n : Nat) :
    (bookIn l n).run s = { s with led := s.led.set l ((s.led.get l).book (.come n)) } := rfl
@[simp] theorem run_bookOut (l : Ledger) (n : Nat) :
    (bookOut l n).run s = { s with led := s.led.set l ((s.led.get l).book (.leave n)) } := rfl
theorem run_goto (d : DevState) (h : s.dev.edge d = true) : (Act.goto d).run s = { s with dev := d, prevDev := s.dev } := by
  simp [Act.run, h]
theorem run_role (r : Role) (h : s.role.edge r = true) : (Act.role r).run s = { s with role := r } := by simp [Act.run, h]
theorem perform_eq (a : Act) : perform a s = .next (a.run { s with out := [] }) := rfl

/-! ### The blocks -/

@[simp] theorem run_onLat (f : LatBlk → LatBlk) : (onLat f).run s = { s with b := { s.b with lat := f s.b.lat } } := rfl
@[simp] theorem run_onCask (f : CaskBlk → CaskBlk) : (onCask f).run s = { s with b := { s.b with cask := f s.b.cask } } := rfl
@[simp] theorem run_onPress (f : PressBlk → PressBlk) : (onPress f).run s = { s with b := { s.b with press := f s.b.press } } := rfl
@[simp] theorem run_onCel (f : CellarBlk → CellarBlk) : (onCel f).run s = { s with b := { s.b with cel := f s.b.cel } } := rfl
@[simp] theorem run_onDma (f : DmaBlk → DmaBlk) : (onDma f).run s = { s with b := { s.b with dma := f s.b.dma } } := rfl
@[simp] theorem run_onJob (f : JobBlk → JobBlk) : (onJob f).run s = { s with b := { s.b with job := f s.b.job } } := rfl
@[simp] theorem run_onPlk (f : PlateBlk → PlateBlk) : (onPlk f).run s = { s with b := { s.b with plk := f s.b.plk } } := rfl
@[simp] theorem run_onSht (f : ShotBlk → ShotBlk) : (onSht f).run s = { s with b := { s.b with sht := f s.b.sht } } := rfl
@[simp] theorem run_onPos (f : PosBlk → PosBlk) : (onPos f).run s = { s with b := { s.b with pos := f s.b.pos } } := rfl
@[simp] theorem run_onMot (f : MotBlk → MotBlk) : (onMot f).run s = { s with b := { s.b with mot := f s.b.mot } } := rfl
@[simp] theorem run_onPar (f : PairBlk → PairBlk) : (onPar f).run s = { s with b := { s.b with par := f s.b.par } } := rfl
@[simp] theorem run_onNet (f : NetBlk → NetBlk) : (onNet f).run s = { s with b := { s.b with net := f s.b.net } } := rfl
@[simp] theorem run_onTim (f : TimBlk → TimBlk) : (onTim f).run s = { s with b := { s.b with tim := f s.b.tim } } := rfl
@[simp] theorem run_onIdn (f : IdnBlk → IdnBlk) : (onIdn f).run s = { s with b := { s.b with idn := f s.b.idn } } := rfl
@[simp] theorem run_onRam (f : MemBlk → MemBlk) : (onRam f).run s = { s with b := { s.b with ram := f s.b.ram } } := rfl
@[simp] theorem run_onThm (f : ThmBlk → ThmBlk) : (onThm f).run s = { s with b := { s.b with thm := f s.b.thm } } := rfl
@[simp] theorem run_onAge (f : AgeBlk → AgeBlk) : (onAge f).run s = { s with b := { s.b with age := f s.b.age } } := rfl
@[simp] theorem run_onBst (f : BstBlk → BstBlk) : (onBst f).run s = { s with b := { s.b with bst := f s.b.bst } } := rfl
@[simp] theorem run_onPwr (f : PwrBlk → PwrBlk) : (onPwr f).run s = { s with b := { s.b with pwr := f s.b.pwr } } := rfl

/-! ### Writes of registers, field by field -/

@[simp] theorem wr_pending (a : Nat) (w : Word) : ((Act.wr a w).run s).pending = s.pending := rfl
@[simp] theorem wr_fresh (a : Nat) (w : Word) : ((Act.wr a w).run s).fresh = s.fresh := rfl
@[simp] theorem wr_out (a : Nat) (w : Word) : ((Act.wr a w).run s).out = s.out := rfl
@[simp] theorem wr_dev (a : Nat) (w : Word) : ((Act.wr a w).run s).dev = s.dev := rfl
@[simp] theorem wr_prevDev (a : Nat) (w : Word) : ((Act.wr a w).run s).prevDev = s.prevDev := rfl
@[simp] theorem wr_role (a : Nat) (w : Word) : ((Act.wr a w).run s).role = s.role := rfl
@[simp] theorem wr_led (a : Nat) (w : Word) : ((Act.wr a w).run s).led = s.led := rfl
@[simp] theorem wr_evt (a : Nat) (w : Word) : ((Act.wr a w).run s).evt = s.evt := rfl
@[simp] theorem wr_rings (a : Nat) (w : Word) : ((Act.wr a w).run s).rings = s.rings := rfl
@[simp] theorem wr_mem (a : Nat) (w : Word) : ((Act.wr a w).run s).mem = s.mem := rfl
@[simp] theorem wr_otp (a : Nat) (w : Word) : ((Act.wr a w).run s).otp = s.otp := rfl
@[simp] theorem wr_b (a : Nat) (w : Word) : ((Act.wr a w).run s).b = s.b := rfl
@[simp] theorem setR_pending (a v : Nat) : ((setR a v).run s).pending = s.pending := rfl
@[simp] theorem setR_fresh (a v : Nat) : ((setR a v).run s).fresh = s.fresh := rfl
@[simp] theorem setR_out (a v : Nat) : ((setR a v).run s).out = s.out := rfl
@[simp] theorem setR_dev (a v : Nat) : ((setR a v).run s).dev = s.dev := rfl
@[simp] theorem setR_prevDev (a v : Nat) : ((setR a v).run s).prevDev = s.prevDev := rfl
@[simp] theorem setR_role (a v : Nat) : ((setR a v).run s).role = s.role := rfl
@[simp] theorem setR_led (a v : Nat) : ((setR a v).run s).led = s.led := rfl
@[simp] theorem setR_evt (a v : Nat) : ((setR a v).run s).evt = s.evt := rfl
@[simp] theorem setR_rings (a v : Nat) : ((setR a v).run s).rings = s.rings := rfl
@[simp] theorem setR_mem (a v : Nat) : ((setR a v).run s).mem = s.mem := rfl
@[simp] theorem setR_otp (a v : Nat) : ((setR a v).run s).otp = s.otp := rfl
@[simp] theorem setR_b (a v : Nat) : ((setR a v).run s).b = s.b := rfl
@[simp] theorem setF_pending (g : Fld) (v : Nat) : ((setF g v).run s).pending = s.pending := rfl
@[simp] theorem setF_fresh (g : Fld) (v : Nat) : ((setF g v).run s).fresh = s.fresh := rfl
@[simp] theorem setF_out (g : Fld) (v : Nat) : ((setF g v).run s).out = s.out := rfl
@[simp] theorem setF_dev (g : Fld) (v : Nat) : ((setF g v).run s).dev = s.dev := rfl
@[simp] theorem setF_prevDev (g : Fld) (v : Nat) : ((setF g v).run s).prevDev = s.prevDev := rfl
@[simp] theorem setF_role (g : Fld) (v : Nat) : ((setF g v).run s).role = s.role := rfl
@[simp] theorem setF_led (g : Fld) (v : Nat) : ((setF g v).run s).led = s.led := rfl
@[simp] theorem setF_evt (g : Fld) (v : Nat) : ((setF g v).run s).evt = s.evt := rfl
@[simp] theorem setF_rings (g : Fld) (v : Nat) : ((setF g v).run s).rings = s.rings := rfl
@[simp] theorem setF_mem (g : Fld) (v : Nat) : ((setF g v).run s).mem = s.mem := rfl
@[simp] theorem setF_otp (g : Fld) (v : Nat) : ((setF g v).run s).otp = s.otp := rfl
@[simp] theorem setF_b (g : Fld) (v : Nat) : ((setF g v).run s).b = s.b := rfl
@[simp] theorem setB_pending (g : Fld) (v : Bool) : ((setB g v).run s).pending = s.pending := rfl
@[simp] theorem setB_fresh (g : Fld) (v : Bool) : ((setB g v).run s).fresh = s.fresh := rfl
@[simp] theorem setB_out (g : Fld) (v : Bool) : ((setB g v).run s).out = s.out := rfl
@[simp] theorem setB_dev (g : Fld) (v : Bool) : ((setB g v).run s).dev = s.dev := rfl
@[simp] theorem setB_prevDev (g : Fld) (v : Bool) : ((setB g v).run s).prevDev = s.prevDev := rfl
@[simp] theorem setB_role (g : Fld) (v : Bool) : ((setB g v).run s).role = s.role := rfl
@[simp] theorem setB_led (g : Fld) (v : Bool) : ((setB g v).run s).led = s.led := rfl
@[simp] theorem setB_evt (g : Fld) (v : Bool) : ((setB g v).run s).evt = s.evt := rfl
@[simp] theorem setB_rings (g : Fld) (v : Bool) : ((setB g v).run s).rings = s.rings := rfl
@[simp] theorem setB_mem (g : Fld) (v : Bool) : ((setB g v).run s).mem = s.mem := rfl
@[simp] theorem setB_otp (g : Fld) (v : Bool) : ((setB g v).run s).otp = s.otp := rfl
@[simp] theorem setB_b (g : Fld) (v : Bool) : ((setB g v).run s).b = s.b := rfl
@[simp] theorem addR_pending (a v : Nat) : ((addR a v).run s).pending = s.pending := rfl
@[simp] theorem addR_fresh (a v : Nat) : ((addR a v).run s).fresh = s.fresh := rfl
@[simp] theorem addR_out (a v : Nat) : ((addR a v).run s).out = s.out := rfl
@[simp] theorem addR_dev (a v : Nat) : ((addR a v).run s).dev = s.dev := rfl
@[simp] theorem addR_prevDev (a v : Nat) : ((addR a v).run s).prevDev = s.prevDev := rfl
@[simp] theorem addR_role (a v : Nat) : ((addR a v).run s).role = s.role := rfl
@[simp] theorem addR_led (a v : Nat) : ((addR a v).run s).led = s.led := rfl
@[simp] theorem addR_evt (a v : Nat) : ((addR a v).run s).evt = s.evt := rfl
@[simp] theorem addR_rings (a v : Nat) : ((addR a v).run s).rings = s.rings := rfl
@[simp] theorem addR_mem (a v : Nat) : ((addR a v).run s).mem = s.mem := rfl
@[simp] theorem addR_otp (a v : Nat) : ((addR a v).run s).otp = s.otp := rfl
@[simp] theorem addR_b (a v : Nat) : ((addR a v).run s).b = s.b := rfl
@[simp] theorem satR_pending (a v : Nat) : ((satR a v).run s).pending = s.pending := rfl
@[simp] theorem satR_fresh (a v : Nat) : ((satR a v).run s).fresh = s.fresh := rfl
@[simp] theorem satR_out (a v : Nat) : ((satR a v).run s).out = s.out := rfl
@[simp] theorem satR_dev (a v : Nat) : ((satR a v).run s).dev = s.dev := rfl
@[simp] theorem satR_prevDev (a v : Nat) : ((satR a v).run s).prevDev = s.prevDev := rfl
@[simp] theorem satR_role (a v : Nat) : ((satR a v).run s).role = s.role := rfl
@[simp] theorem satR_led (a v : Nat) : ((satR a v).run s).led = s.led := rfl
@[simp] theorem satR_evt (a v : Nat) : ((satR a v).run s).evt = s.evt := rfl
@[simp] theorem satR_rings (a v : Nat) : ((satR a v).run s).rings = s.rings := rfl
@[simp] theorem satR_mem (a v : Nat) : ((satR a v).run s).mem = s.mem := rfl
@[simp] theorem satR_otp (a v : Nat) : ((satR a v).run s).otp = s.otp := rfl
@[simp] theorem satR_b (a v : Nat) : ((satR a v).run s).b = s.b := rfl

/-! ### Registers after a write -/

theorem rd_congr (t : State) (h : t.regs = s.regs) (a : Nat) : t.rd a = s.rd a := by simp [State.rd, h]

@[simp] theorem rd_wr_same (a : Nat) (w : Word) : ((Act.wr a w).run s).rd a = w.toNat := by simp [State.rd, Act.run]
theorem rd_wr_ne (a b : Nat) (w : Word) (h : a ≠ b) : ((Act.wr a w).run s).rd b = s.rd b := by
  simp [State.rd, Act.run, spGet_spPut_ne _ _ a b w h]
@[simp] theorem rd_setR_same (a v : Nat) : ((setR a v).run s).rd a = v % 2 ^ 32 := by simp [setR]
theorem rd_setR_ne (a b v : Nat) (h : a ≠ b) : ((setR a v).run s).rd b = s.rd b := rd_wr_ne s a b _ h
@[simp] theorem rd_setF_same (g : Fld) (v : Nat) : ((setF g v).run s).rd g.addr = g.put (s.rd g.addr) v % 2 ^ 32 := by
  simp [setF]
theorem rd_setF_ne (g : Fld) (b v : Nat) (h : g.addr ≠ b) : ((setF g v).run s).rd b = s.rd b := by
  simp [setF, rd_setR_ne s g.addr b _ h]
theorem rd_setB_ne (g : Fld) (b : Nat) (v : Bool) (h : g.addr ≠ b) : ((setB g v).run s).rd b = s.rd b := rd_setF_ne s g b _ h
@[simp] theorem rd_addR_same (a v : Nat) : ((addR a v).run s).rd a = (s.rd a + v) % 2 ^ 32 := by simp [addR]
theorem rd_addR_ne (a b v : Nat) (h : a ≠ b) : ((addR a v).run s).rd b = s.rd b := by simp [addR, rd_setR_ne s a b _ h]
theorem rd_satR_ne (a b v : Nat) (h : a ≠ b) : ((satR a v).run s).rd b = s.rd b := by simp [satR, rd_setR_ne s a b _ h]

theorem rd_lt (a : Nat) : s.rd a < 2 ^ 32 := (spGet resetValue s.regs a).isLt

/-! ### Fields after a write -/

/-- A field of a word into which it has been put. -/
theorem Fld.get_put (f : Fld) (w v : Nat) : f.get (f.put w v) = v % 2 ^ f.width := by
  unfold Fld.get Fld.put
  have h0 : 0 < 2 ^ f.lo := Nat.two_pow_pos _
  have hlo : w % 2 ^ f.lo < 2 ^ f.lo := Nat.mod_lt _ h0
  have e : w % 2 ^ f.lo + v % 2 ^ f.width * 2 ^ f.lo + w / 2 ^ (f.lo + f.width) * 2 ^ (f.lo + f.width) =
      w % 2 ^ f.lo + 2 ^ f.lo * (v % 2 ^ f.width + 2 ^ f.width * (w / 2 ^ (f.lo + f.width))) := by
    rw [pow_add]; ring
  rw [e, Nat.add_mul_div_left _ _ h0, Nat.div_eq_of_lt hlo, Nat.zero_add, Nat.add_mul_mod_self_left, Nat.mod_mod]

/-- Another field of the word, above or below the one that is put, keeps its value. -/
theorem Fld.get_put_other (f g : Fld) (w v : Nat) (h : f.lo + f.width ≤ g.lo ∨ g.lo + g.width ≤ f.lo) :
    g.get (f.put w v) = g.get w := by
  unfold Fld.get Fld.put
  have h0 : 0 < 2 ^ f.lo := Nat.two_pow_pos _
  have hlo : w % 2 ^ f.lo < 2 ^ f.lo := Nat.mod_lt _ h0
  have hv : v % 2 ^ f.width < 2 ^ f.width := Nat.mod_lt _ (Nat.two_pow_pos _)
  rcases h with h | h
  · obtain ⟨k, hk⟩ := Nat.exists_eq_add_of_le h
    have lt : w % 2 ^ f.lo + v % 2 ^ f.width * 2 ^ f.lo < 2 ^ (f.lo + f.width) := by
      rw [pow_add]; nlinarith
    have e : ∀ x, x / 2 ^ g.lo = x / 2 ^ (f.lo + f.width) / 2 ^ k := by
      intro x; rw [hk, pow_add, Nat.div_div_eq_div_mul]
    rw [e, e w, Nat.add_mul_div_right _ _ (Nat.two_pow_pos _), Nat.div_eq_of_lt lt, Nat.zero_add]
  · have e : ∀ x, x / 2 ^ g.lo % 2 ^ g.width = x % 2 ^ f.lo / 2 ^ g.lo % 2 ^ g.width := by
      intro x
      obtain ⟨k, hk⟩ := Nat.exists_eq_add_of_le h
      rw [hk, pow_add, pow_add, mul_assoc, Nat.mod_mul_right_div_self, Nat.mod_mul_right_mod]
    rw [e, e w]
    congr 2
    rw [pow_add]
    have : w % 2 ^ f.lo + v % 2 ^ f.width * 2 ^ f.lo + w / (2 ^ f.lo * 2 ^ f.width) * (2 ^ f.lo * 2 ^ f.width) =
        w % 2 ^ f.lo + 2 ^ f.lo * (v % 2 ^ f.width + w / (2 ^ f.lo * 2 ^ f.width) * 2 ^ f.width) := by ring
    rw [this, Nat.add_mul_mod_self_left, Nat.mod_mod]

/-- A put keeps a word within 32 bits. -/
theorem Fld.put_lt (f : Fld) (w v : Nat) (hw : w < 2 ^ 32) (hf : f.lo + f.width ≤ 32) : f.put w v < 2 ^ 32 := by
  unfold Fld.put
  obtain ⟨k, hk⟩ := Nat.exists_eq_add_of_le hf
  have h0 : 0 < 2 ^ f.lo := Nat.two_pow_pos _
  have hlo : w % 2 ^ f.lo < 2 ^ f.lo := Nat.mod_lt _ h0
  have hv : v % 2 ^ f.width < 2 ^ f.width := Nat.mod_lt _ (Nat.two_pow_pos _)
  have lt : w % 2 ^ f.lo + v % 2 ^ f.width * 2 ^ f.lo < 2 ^ (f.lo + f.width) := by rw [pow_add]; nlinarith
  have hi : w / 2 ^ (f.lo + f.width) < 2 ^ k := by
    rw [Nat.div_lt_iff_lt_mul (Nat.two_pow_pos _), ← pow_add, Nat.add_comm k, ← hk]; exact hw
  have top := Nat.mul_le_mul_right (2 ^ (f.lo + f.width)) (Nat.succ_le_of_lt hi)
  rw [Nat.succ_mul, ← pow_add, Nat.add_comm k, ← hk] at top
  omega

theorem fld_setF_same (g : Fld) (v : Nat) (hf : g.lo + g.width ≤ 32) : ((setF g v).run s).fld g = v % 2 ^ g.width := by
  rw [State.fld, rd_setF_same, Nat.mod_eq_of_lt (g.put_lt _ _ (rd_lt s _) hf), Fld.get_put]

theorem fld_setF_addr (g f : Fld) (v : Nat) (h : g.addr ≠ f.addr) : ((setF g v).run s).fld f = s.fld f := by
  simp [State.fld, rd_setF_ne s g f.addr v h]

theorem fld_setF_bits (g f : Fld) (v : Nat) (ha : g.addr = f.addr) (hf : g.lo + g.width ≤ 32)
    (h : g.lo + g.width ≤ f.lo ∨ f.lo + f.width ≤ g.lo) : ((setF g v).run s).fld f = s.fld f := by
  rw [State.fld, ← ha, rd_setF_same, Nat.mod_eq_of_lt (g.put_lt _ _ (rd_lt s _) hf), Fld.get_put_other _ _ _ _ h, State.fld, ha]

theorem fld_setB_same (g : Fld) (v : Bool) (hf : g.lo + g.width ≤ 32) (hw : 0 < g.width) :
    ((setB g v).run s).fld g = if v then 1 else 0 := by
  rw [setB, fld_setF_same s g _ hf]
  have : 1 < 2 ^ g.width := Nat.one_lt_two_pow (by omega)
  cases v <;> simp [Nat.mod_eq_of_lt this]

theorem flag_setB_same (g : Fld) (v : Bool) (hf : g.lo + g.width ≤ 32) (hw : 0 < g.width) :
    ((setB g v).run s).flag g = v := by
  rw [State.flag, fld_setB_same s g v hf hw]
  cases v <;> rfl

end Sys2Proof.Machine
end

