-- ==== Sys2Proof/Laws/Frame.lean ====
section
/-! SUPPORT. Frames: an effect stays within a set of registers and parts. The primitives, the combinators, and the shared
operations that many commands call. -/

namespace Sys2Proof.Machine

/-- Every run of an effect leaves alone all but the named registers and parts. -/
def Act.Within (rg : Nat → Bool) (ps : List Part) (a : Act) : Prop := ∀ s, framed rg ps s (a.run s)

variable {rg : Nat → Bool} {ps : List Part} {s t u : State}

/-! ### Frames compose -/

theorem framed_refl (rg : Nat → Bool) (ps : List Part) (s : State) : framed rg ps s s :=
  ⟨rfl, fun _ _ => rfl, fun p _ => by cases p <;> rfl⟩

theorem Part.same_trans (p : Part) (h : p.same s t) (k : p.same t u) : p.same s u := by
  cases p <;> exact Eq.trans k h

theorem framed_trans (h : framed rg ps s t) (k : framed rg ps t u) : framed rg ps s u :=
  ⟨k.1.trans h.1, fun a ha => (k.2.1 a ha).trans (h.2.1 a ha), fun p hp => p.same_trans (h.2.2 p hp) (k.2.2 p hp)⟩

theorem framed_mono {rg' : Nat → Bool} {ps' : List Part} (hr : ∀ a, rg a = true → rg' a = true) (hp : ∀ p ∈ ps, p ∈ ps')
    (h : framed rg ps s t) : framed rg' ps' s t :=
  ⟨h.1, fun a ha => h.2.1 a (by
      by_contra hc
      simp only [Bool.not_eq_false] at hc
      simp [hr a hc] at ha),
    fun p hn => h.2.2 p fun hm => hn (hp p hm)⟩

theorem Act.Within.mono {rg' : Nat → Bool} {ps' : List Part} {a : Act} (h : a.Within rg ps)
    (hr : ∀ a, rg a = true → rg' a = true) (hp : ∀ p ∈ ps, p ∈ ps') : a.Within rg' ps' :=
  fun s => framed_mono hr hp (h s)

/-! ### The combinators -/

theorem within_nop : Act.nop.Within rg ps := fun s => framed_refl rg ps s
theorem within_seq {a b : Act} (h : a.Within rg ps) (k : b.Within rg ps) : (Act.seq a b).Within rg ps :=
  fun s => framed_trans (h s) (k _)
theorem within_dyn {f : State → Act} (h : ∀ s, (f s).Within rg ps) : (Act.dyn f).Within rg ps := fun s => h s s
theorem within_nil : (acts []).Within rg ps := within_nop
theorem within_cons {a : Act} {as : List Act} (h : a.Within rg ps) (k : (acts as).Within rg ps) :
    (acts (a :: as)).Within rg ps := within_seq h k
theorem within_on {c : Bool} {a : Act} (h : a.Within rg ps) : (on c a).Within rg ps := by
  cases c
  · exact within_nop
  · exact h
theorem within_ite {c : Prop} [Decidable c] {a b : Act} (h : a.Within rg ps) (k : b.Within rg ps) :
    (if c then a else b).Within rg ps := by
  split
  · exact h
  · exact k
theorem within_each {α : Type} {l : List α} {f : α → Act} (h : ∀ x, (f x).Within rg ps) : (each l f).Within rg ps := by
  induction l with
  | nil => exact within_nop
  | cons x l ih => exact within_seq (h x) ih

theorem within_eachMem {α : Type} {l : List α} {f : α → Act} (h : ∀ x ∈ l, (f x).Within rg ps) : (each l f).Within rg ps := by
  induction l with
  | nil => exact within_nop
  | cons x l ih => exact within_seq (h x (by simp)) (ih fun y hy => h y (by simp [hy]))

/-! ### The primitives -/

theorem within_wr {a : Nat} {w : Word} (h : rg a = true) : (Act.wr a w).Within rg ps := fun s =>
  ⟨rfl, fun b hb => rd_wr_ne s a b w (by rintro rfl; simp [h] at hb), fun p _ => by cases p <;> rfl⟩
theorem within_setR {a v : Nat} (h : rg a = true) : (setR a v).Within rg ps := within_wr h
theorem within_setF {g : Fld} {v : Nat} (h : rg g.addr = true) : (setF g v).Within rg ps := within_dyn fun _ => within_setR h
theorem within_setB {g : Fld} {v : Bool} (h : rg g.addr = true) : (setB g v).Within rg ps := within_setF h
theorem within_addR {a v : Nat} (h : rg a = true) : (addR a v).Within rg ps := within_dyn fun _ => within_setR h
theorem within_satR {a v : Nat} (h : rg a = true) : (satR a v).Within rg ps := within_dyn fun _ => within_setR h
theorem within_writeBits {a m : Nat} {w : Word} (h : rg a = true) : (writeBits a m w).Within rg ps :=
  within_dyn fun _ => within_setR h

theorem within_emit {o : Out} (h : .out ∈ ps) : (Act.emit o).Within rg ps := fun s =>
  ⟨rfl, fun _ _ => rfl, fun p hp => by cases p <;> first | rfl | exact absurd h hp⟩
theorem within_evt {f : EvtBlk → EvtBlk} (h : .evt ∈ ps) : (Act.evt f).Within rg ps := fun s =>
  ⟨rfl, fun _ _ => rfl, fun p hp => by cases p <;> first | rfl | exact absurd h hp⟩
theorem within_index {k v : Nat} (h : .rings ∈ ps) : (Act.index k v).Within rg ps := fun s =>
  ⟨rfl, fun _ _ => rfl, fun p hp => by cases p <;> first | rfl | exact absurd h hp⟩
theorem within_draw (h : .fresh ∈ ps) : Act.draw.Within rg ps := fun s =>
  ⟨rfl, fun _ _ => rfl, fun p hp => by cases p <;> first | rfl | exact absurd h hp⟩
theorem within_cell {a : Nat} {v : Byte} (h : .mem ∈ ps) : (Act.cell a v).Within rg ps := fun s =>
  ⟨rfl, fun _ _ => rfl, fun p hp => by cases p <;> first | rfl | exact absurd h hp⟩
theorem within_goto {d : DevState} (h : .dev ∈ ps) (h' : .prevDev ∈ ps) : (Act.goto d).Within rg ps := fun s => by
  by_cases e : s.dev.edge d = true
  · rw [run_goto s d e]
    exact ⟨rfl, fun _ _ => rfl, fun p hp => by cases p <;> first | rfl | exact absurd h hp | exact absurd h' hp⟩
  · have : (Act.goto d).run s = s := by simp [Act.run, e]
    rw [this]
    exact framed_refl _ _ _
theorem within_role {r : Role} (h : .role ∈ ps) : (Act.role r).Within rg ps := fun s => by
  by_cases e : s.role.edge r = true
  · rw [run_role s r e]
    exact ⟨rfl, fun _ _ => rfl, fun p hp => by cases p <;> first | rfl | exact absurd h hp⟩
  · have : (Act.role r).run s = s := by simp [Act.run, e]
    rw [this]
    exact framed_refl _ _ _

/-- The part of an account. -/
def Ledger.part : Ledger → Part
  | .tile => .ledTile | .creditDma => .ledCreditDma | .creditCel => .ledCreditCel | .frame => .ledFrame
  | .shot => .ledShot | .dose => .ledDose | .ring => .ledRing

theorem within_book {l : Ledger} {k : Booking} (h : l.part ∈ ps) : (Act.book l k).Within rg ps := fun s =>
  ⟨rfl, fun _ _ => rfl, fun p hp => by cases l <;> cases p <;> first | rfl | exact absurd h hp⟩
theorem within_bookIn {l : Ledger} {n : Nat} (h : l.part ∈ ps) : (bookIn l n).Within rg ps := within_book h
theorem within_bookOut {l : Ledger} {n : Nat} (h : l.part ∈ ps) : (bookOut l n).Within rg ps := within_book h

/-! ### The blocks -/

theorem within_onLat {f : LatBlk → LatBlk} (h : .bLat ∈ ps) : (onLat f).Within rg ps := fun s =>
  ⟨rfl, fun _ _ => rfl, fun p hp => by cases p <;> first | rfl | exact absurd h hp⟩
theorem within_onCask {f : CaskBlk → CaskBlk} (h : .bCask ∈ ps) : (onCask f).Within rg ps := fun s =>
  ⟨rfl, fun _ _ => rfl, fun p hp => by cases p <;> first | rfl | exact absurd h hp⟩
theorem within_onPress {f : PressBlk → PressBlk} (h : .bPress ∈ ps) : (onPress f).Within rg ps := fun s =>
  ⟨rfl, fun _ _ => rfl, fun p hp => by cases p <;> first | rfl | exact absurd h hp⟩
theorem within_onCel {f : CellarBlk → CellarBlk} (h : .bCel ∈ ps) : (onCel f).Within rg ps := fun s =>
  ⟨rfl, fun _ _ => rfl, fun p hp => by cases p <;> first | rfl | exact absurd h hp⟩
theorem within_onDma {f : DmaBlk → DmaBlk} (h : .bDma ∈ ps) : (onDma f).Within rg ps := fun s =>
  ⟨rfl, fun _ _ => rfl, fun p hp => by cases p <;> first | rfl | exact absurd h hp⟩
theorem within_onJob {f : JobBlk → JobBlk} (h : .bJob ∈ ps) : (onJob f).Within rg ps := fun s =>
  ⟨rfl, fun _ _ => rfl, fun p hp => by cases p <;> first | rfl | exact absurd h hp⟩
theorem within_onPlk {f : PlateBlk → PlateBlk} (h : .bPlk ∈ ps) : (onPlk f).Within rg ps := fun s =>
  ⟨rfl, fun _ _ => rfl, fun p hp => by cases p <;> first | rfl | exact absurd h hp⟩
theorem within_onSht {f : ShotBlk → ShotBlk} (h : .bSht ∈ ps) : (onSht f).Within rg ps := fun s =>
  ⟨rfl, fun _ _ => rfl, fun p hp => by cases p <;> first | rfl | exact absurd h hp⟩
theorem within_onPos {f : PosBlk → PosBlk} (h : .bPos ∈ ps) : (onPos f).Within rg ps := fun s =>
  ⟨rfl, fun _ _ => rfl, fun p hp => by cases p <;> first | rfl | exact absurd h hp⟩
theorem within_onMot {f : MotBlk → MotBlk} (h : .bMot ∈ ps) : (onMot f).Within rg ps := fun s =>
  ⟨rfl, fun _ _ => rfl, fun p hp => by cases p <;> first | rfl | exact absurd h hp⟩
theorem within_onPar {f : PairBlk → PairBlk} (h : .bPar ∈ ps) : (onPar f).Within rg ps := fun s =>
  ⟨rfl, fun _ _ => rfl, fun p hp => by cases p <;> first | rfl | exact absurd h hp⟩
theorem within_onNet {f : NetBlk → NetBlk} (h : .bNet ∈ ps) : (onNet f).Within rg ps := fun s =>
  ⟨rfl, fun _ _ => rfl, fun p hp => by cases p <;> first | rfl | exact absurd h hp⟩
theorem within_onTim {f : TimBlk → TimBlk} (h : .bTim ∈ ps) : (onTim f).Within rg ps := fun s =>
  ⟨rfl, fun _ _ => rfl, fun p hp => by cases p <;> first | rfl | exact absurd h hp⟩
theorem within_onIdn {f : IdnBlk → IdnBlk} (h : .bIdn ∈ ps) : (onIdn f).Within rg ps := fun s =>
  ⟨rfl, fun _ _ => rfl, fun p hp => by cases p <;> first | rfl | exact absurd h hp⟩
theorem within_onRam {f : MemBlk → MemBlk} (h : .bRam ∈ ps) : (onRam f).Within rg ps := fun s =>
  ⟨rfl, fun _ _ => rfl, fun p hp => by cases p <;> first | rfl | exact absurd h hp⟩
theorem within_onThm {f : ThmBlk → ThmBlk} (h : .bThm ∈ ps) : (onThm f).Within rg ps := fun s =>
  ⟨rfl, fun _ _ => rfl, fun p hp => by cases p <;> first | rfl | exact absurd h hp⟩
theorem within_onAge {f : AgeBlk → AgeBlk} (h : .bAge ∈ ps) : (onAge f).Within rg ps := fun s =>
  ⟨rfl, fun _ _ => rfl, fun p hp => by cases p <;> first | rfl | exact absurd h hp⟩
theorem within_onBst {f : BstBlk → BstBlk} (h : .bBst ∈ ps) : (onBst f).Within rg ps := fun s =>
  ⟨rfl, fun _ _ => rfl, fun p hp => by cases p <;> first | rfl | exact absurd h hp⟩
theorem within_onPwr {f : PwrBlk → PwrBlk} (h : .bPwr ∈ ps) : (onPwr f).Within rg ps := fun s =>
  ⟨rfl, fun _ _ => rfl, fun p hp => by cases p <;> first | rfl | exact absurd h hp⟩

/-! ### Errors recorded on a page (R424) -/

/-- An error touches two header registers of its page. -/
theorem within_errD {reg code detail page : Nat} (hp : (if reg / 0x1000 = 0x00B then 0x00A else reg / 0x1000) = page)
    (h0 : rg (pageReg page 0x020) = true) (h1 : rg (pageReg page 0x024) = true) : (errD reg code detail).Within rg ps := by
  subst hp
  exact within_dyn fun _ => within_ite (within_cons (within_setR h0) (within_cons (within_setR h1) within_nil)) (within_setR h0)

/-! ### Events (R427, R431) -/

theorem pref_port (p : Partner) : p.pref = 0 ∨ p.pref = 1 := by
  unfold Partner.pref
  split
  · exact .inl rfl
  · omega

/-- A set of registers and parts allows for events. -/
def AllowsEvents (rg : Nat → Bool) (ps : List Part) : Prop :=
  (∀ a, eventRegs a = true → rg a = true) ∧ ∀ p ∈ eventParts, p ∈ ps

variable (ok : AllowsEvents rg ps)
include ok

theorem within_ringWrite {ring : Nat} {bytes : List Nat} : (ringWrite ring bytes).Within rg ps :=
  within_dyn fun _ => within_cons (within_emit (ok.2 _ (by decide))) (within_cons (within_index (ok.2 _ (by decide)))
    (within_cons (within_bookIn (ok.2 _ (by decide))) within_nil))

theorem within_msixSend {v : Nat} : (msixSend v).Within rg ps :=
  within_dyn fun _ => within_ite (within_evt (ok.2 _ (by decide))) (within_emit (ok.2 _ (by decide)))

theorem within_netEmit {done : Nat → Act} (hd : ∀ p, p = 0 ∨ p = 1 → (done p).Within rg ps) {port partner type : Nat} {bytes : List Nat}
    (hp : port = 0 ∨ port = 1) : (netEmit done port partner type bytes).Within rg ps := by
  have hcnt : rg (R.NET_TX_CNT port) = true := ok.1 _ (by rcases hp with rfl | rfl <;> decide)
  have hout : Part.out ∈ ps := ok.2 _ (by decide)
  have hnet : Part.bNet ∈ ps := ok.2 _ (by decide)
  refine within_dyn fun _ => ?_
  refine within_ite within_nop (within_ite ?_ ?_)
  · exact within_cons (within_addR hcnt) (within_cons (within_onNet hnet) (within_cons (hd port hp) within_nil))
  · exact within_cons (within_on (within_addR hcnt)) (within_cons (within_on (within_emit hout))
      (within_cons (within_on (within_emit hout)) (within_cons (within_on (within_emit hout))
      (within_cons (within_each fun _ => within_emit hout) (within_cons (within_onNet hnet)
      (within_cons (within_on (within_onNet hnet)) (within_cons (within_on (hd port hp)) within_nil)))))))

theorem within_bumpSeq {sess : Option Session} : (bumpSeq sess).Within rg ps := by
  unfold bumpSeq
  split <;> exact within_onNet (ok.2 _ (by decide))

theorem within_netSendWith {done : Nat → Act} (hd : ∀ p, p = 0 ∨ p = 1 → (done p).Within rg ps) {ports : List Nat}
    (hp : ∀ p ∈ ports, p = 0 ∨ p = 1) {partner : Nat} {sess : Option Session} {type flags corr : Nat} {payload : List Nat} :
    (netSendWith done ports partner sess type flags corr payload).Within rg ps :=
  within_dyn fun _ => within_seq (within_bumpSeq ok) (within_eachMem fun p h => within_netEmit ok hd (hp p h))

theorem within_routeEvent {done : Nat → Act} (hd : ∀ p, p = 0 ∨ p = 1 → (done p).Within rg ps) {lost : Act}
    (hl : lost.Within rg ps) {src page bit : Nat} {forced msix msgs : Bool} :
    (routeEvent done lost src page bit forced msix msgs).Within rg ps := by
  refine within_dyn fun s => within_cons (within_on (within_msixSend ok)) (within_cons (within_on ?_)
    (within_cons (within_on (within_dyn fun t => ?_)) within_nil))
  · exact within_ite hl (within_each fun p => within_dyn fun _ =>
      within_netSendWith ok hd (by simpa using pref_port p))
  · split
    · exact within_ite (within_seq (within_bumpSeq ok) (within_ringWrite ok)) hl
    · exact hl

theorem within_deliverWith {done : Nat → Act} (hd : ∀ p, p = 0 ∨ p = 1 → (done p).Within rg ps) {lost : Act}
    (hl : lost.Within rg ps) {src page bit : Nat} {forced : Bool} : (deliverWith done lost src page bit forced).Within rg ps :=
  within_dyn fun _ => within_ite (within_evt (ok.2 _ (by decide))) (within_routeEvent ok hd hl)

theorem within_recordRaise {page bit : Nat} : (recordRaise page bit).Within rg ps :=
  within_dyn fun _ => within_evt (ok.2 _ (by decide))

theorem within_raiseWith {done : Nat → Act} (hd : ∀ p, p = 0 ∨ p = 1 → (done p).Within rg ps) {lost : Act}
    (hl : lost.Within rg ps) {page bit : Nat} {forced : Bool} : (raiseWith done lost page bit forced).Within rg ps :=
  within_dyn fun _ => within_seq (within_recordRaise ok) (within_dyn fun _ => within_on (within_deliverWith ok hd hl))

theorem within_countLost : countLost.Within rg ps := within_evt (ok.2 _ (by decide))

theorem within_loseMessage : loseMessage.Within rg ps :=
  within_seq (within_countLost ok) (within_raiseWith ok (fun _ _ => within_nop) (within_countLost ok))

theorem within_netFijDone {port : Nat} (hp : port = 0 ∨ port = 1) : (netFijDone port).Within rg ps := by
  have h1 : rg (F.NET_FIJ_CFG_KIND port).addr = true := ok.1 _ (by rcases hp with rfl | rfl <;> decide)
  have h2 : rg (R.NET_FIJ_DONE port) = true := ok.1 _ (by rcases hp with rfl | rfl <;> decide)
  have h3 : rg R.FIJ_DONE = true := ok.1 _ (by decide)
  exact within_cons (within_setF h1) (within_cons (within_addR h2) (within_cons (within_addR h3)
    (within_cons (within_raiseWith ok (fun _ _ => within_nop) (within_loseMessage ok)) within_nil)))

/-- A message sent: the network's counts, and the events of an injection. -/
theorem within_netSend {ports : List Nat} (hp : ∀ p ∈ ports, p = 0 ∨ p = 1) {partner : Nat} {sess : Option Session}
    {type flags corr : Nat} {payload : List Nat} : (netSend ports partner sess type flags corr payload).Within rg ps :=
  within_netSendWith ok (fun _ h => within_netFijDone ok h) hp

theorem within_netTo {p : Partner} {type : Nat} {payload : List Nat} : (netTo p type payload).Within rg ps :=
  within_dyn fun _ => within_netSend ok (by simpa using pref_port p)

/-- Raising an event: the event registers, what is put out, and what carrying the message takes. -/
theorem within_raise {e : Evt} : (raise e).Within rg ps :=
  within_raiseWith ok (fun _ h => within_netFijDone ok h) (within_loseMessage ok)

theorem within_raiseForced {page bit : Nat} : (raiseForced page bit).Within rg ps :=
  within_raiseWith ok (fun _ h => within_netFijDone ok h) (within_loseMessage ok)

theorem within_deliver {src page bit : Nat} {forced : Bool} : (deliver src page bit forced).Within rg ps :=
  within_deliverWith ok (fun _ h => within_netFijDone ok h) (within_loseMessage ok)

/-! ### Refusals and changes of state (R19, R21, R437) -/

theorem within_refuse {page cmd cond detail : Nat} (h : rg R.TOP_REFUSE = true) : (refuse page cmd cond detail).Within rg ps :=
  within_cons (within_setR h) (within_cons (within_raise ok) within_nil)

theorem within_refuseState {page cmd : Nat} (h : rg R.TOP_REFUSE = true) : (refuseState page cmd).Within rg ps :=
  within_dyn fun _ => within_refuse ok h

theorem within_enter {d : DevState} (h : rg R.TOP_TRANS_CNT = true) (hd : .dev ∈ ps) (hp : .prevDev ∈ ps) :
    (enter d).Within rg ps :=
  within_dyn fun _ => within_on (within_cons (within_goto hd hp) (within_cons (within_addR h)
    (within_cons (within_raise ok) within_nil)))

end Sys2Proof.Machine
end

