-- ==== Sys2Proof/Laws/Access.lean ====
section
/-! SUPPORT. What a host access does before its command has its effect: it brings the link to L0, and a self-test of the
page's slice gives way. -/

namespace Sys2Proof.Machine

variable {rg : Nat → Bool} {ps : List Part}

/-- The state in which a host access that reaches its page finds it. -/
def State.entered (s : State) (page : Nat) : State := (bistPage page).run (linkToL0.run s)

/-- The parts that some host access may change before it reaches its page. -/
def servedParts : List Part := .bBst :: .bPwr :: eventParts

theorem accessAllows : AllowsEvents accessRegs servedParts :=
  ⟨fun a h => by simp [accessRegs, h], fun p h => by simp [servedParts, h]⟩

theorem accessParts_sub (s : State) : ∀ p ∈ accessParts s, p ∈ servedParts := by
  intro p h
  simp only [accessParts, servedParts, List.mem_append, List.mem_cons] at *
  split at h <;> simp_all
  all_goals tauto

theorem bistAllows : AllowsEvents accessRegs (.bBst :: eventParts) :=
  ⟨fun a h => by simp [accessRegs, h], fun p h => by simp [h]⟩

theorem within_linkToL0 : linkToL0.Within accessRegs servedParts :=
  within_dyn fun _ => within_seq (within_on (within_onPwr (by decide)))
    (within_on (within_seq (within_setB (by decide)) (within_emit (by decide))))

/-- Outside DORMANT the link comes to L0 with nothing else noted. -/
theorem linkToL0_framed (s : State) (ps : List Part) (ho : .out ∈ ps) (h : s.dev = .dormant → .bPwr ∈ ps) :
    framed accessRegs ps s (linkToL0.run s) := by
  by_cases hd : s.dev = .dormant
  · exact within_dyn (rg := accessRegs) (ps := ps) (fun _ => within_seq (within_on (within_onPwr (h hd)))
      (within_on (within_seq (within_setB (by decide)) (within_emit ho)))) s
  · have : linkToL0.run s = (on (s.flag F.HIF_LINK_L12) (.seq (setB F.HIF_LINK_L12 false) (.emit (.link 0)))).run s := by
      have hb : (s.dev == DevState.dormant) = false := by simp [hd]
      simp [linkToL0, hb]
    rw [this]
    exact within_on (within_seq (within_setB (by decide)) (within_emit ho)) s

theorem within_sliceCounted {k : Nat} : (sliceCounted k).Within accessRegs (.bBst :: eventParts) :=
  within_dyn fun _ => within_cons (within_onBst (by decide)) (within_cons (within_setF (by decide))
    (within_cons (within_on (within_cons (within_addR (by decide)) (within_cons (within_raise bistAllows) within_nil))) within_nil))

theorem access_pageStat {i : Nat} (h : i < 20) : accessRegs (pageReg (slicePage (84 + i)) 0x00C) = true := by
  have : ∀ i < 20, accessRegs (pageReg (slicePage (84 + i)) 0x00C) = true := by decide
  exact this i h

theorem within_bistRequest {i : Nat} (h : i < 20) : (bistRequest (84 + i)).Within accessRegs (.bBst :: eventParts) := by
  refine within_dyn fun s => within_seq (within_onBst (by decide)) ?_
  split
  · exact within_ite (within_cons (within_addR (by decide)) (within_cons (within_setF (access_pageStat h))
      (within_cons (within_setF (by decide)) (within_cons (within_setF (by decide)) (within_cons (within_onBst (by decide))
        (within_cons (within_on (within_cons (within_addR (by decide)) (within_cons (within_raise bistAllows)
          (within_cons within_sliceCounted within_nil)))) within_nil)))))) within_nop
  · exact within_nop

theorem within_bistPage {page : Nat} : (bistPage page).Within accessRegs (.bBst :: eventParts) := by
  refine within_eachMem fun k hk => ?_
  obtain ⟨i, hi, rfl⟩ := List.mem_map.mp (List.mem_of_mem_filter hk)
  exact within_bistRequest (List.mem_range.mp hi)

/-- Before its command, an access changes only what `accessRegs` and `accessParts` name. -/
theorem entered_framed (s : State) (page : Nat) : framed accessRegs (accessParts s) s (s.entered page) :=
  framed_trans (linkToL0_framed s _ (by simp [accessParts, eventParts]) (fun h => by simp [accessParts, h]))
    (framed_mono (fun _ h => h) (fun p h => by
      simp only [List.mem_cons] at h
      rcases h with rfl | h
      · simp [accessParts]
      · simp [accessParts, h]) (within_bistPage _))

theorem entered_within (s : State) (page : Nat) : framed accessRegs servedParts s (s.entered page) :=
  framed_mono (fun _ h => h) (accessParts_sub s) (entered_framed s page)

/-- A write that reaches its page has its effect from there. -/
theorem toPage_run (s : State) (page : Nat) (a : Act) (h : s.reaches page = true) :
    (toPage page a).run s = a.run (s.entered page) := by
  simp [toPage, h, State.entered]

/-- A read that reaches its page has its effect from there. -/
theorem fromPage_run (s : State) (page : Nat) (a : Act) (h : s.reaches page = true) :
    (fromPage page a).run s = a.run (s.entered page) := by
  simp [fromPage, h, State.entered]

theorem toPage_within (page : Nat) (a : Act) (hr : ∀ a, accessRegs a = true → rg a = true) (hp : ∀ p ∈ servedParts, p ∈ ps)
    (hs : rg F.PWR_STAT_DORM_ACCESS.addr = true) (h : a.Within rg ps) : (toPage page a).Within rg ps :=
  within_dyn fun _ => within_ite
    (within_seq (within_linkToL0.mono hr hp) (within_seq (within_bistPage.mono hr fun p h => hp p (by
      simp only [List.mem_cons] at h
      rcases h with rfl | h <;> simp [servedParts, *])) h))
    (within_on (within_seq (within_linkToL0.mono hr hp) (within_setB hs)))

/-! ### What an access leaves as it was -/

section
variable (s : State) (page : Nat)

@[simp] theorem entered_pending : (s.entered page).pending = s.pending := (entered_framed s page).1
@[simp] theorem entered_dev : (s.entered page).dev = s.dev := (entered_within s page).2.2 .dev (by decide)
@[simp] theorem entered_prevDev : (s.entered page).prevDev = s.prevDev := (entered_within s page).2.2 .prevDev (by decide)
@[simp] theorem entered_role : (s.entered page).role = s.role := (entered_within s page).2.2 .role (by decide)
@[simp] theorem entered_mem : (s.entered page).mem = s.mem := (entered_within s page).2.2 .mem (by decide)
@[simp] theorem entered_otp : (s.entered page).otp = s.otp := (entered_within s page).2.2 .otp (by decide)
@[simp] theorem entered_fresh : (s.entered page).fresh = s.fresh := (entered_within s page).2.2 .fresh (by decide)
@[simp] theorem entered_led_tile : (s.entered page).led.tile = s.led.tile := (entered_within s page).2.2 .ledTile (by decide)
@[simp] theorem entered_led_creditDma : (s.entered page).led.creditDma = s.led.creditDma := (entered_within s page).2.2 .ledCreditDma (by decide)
@[simp] theorem entered_led_creditCel : (s.entered page).led.creditCel = s.led.creditCel := (entered_within s page).2.2 .ledCreditCel (by decide)
@[simp] theorem entered_led_frame : (s.entered page).led.frame = s.led.frame := (entered_within s page).2.2 .ledFrame (by decide)
@[simp] theorem entered_led_shot : (s.entered page).led.shot = s.led.shot := (entered_within s page).2.2 .ledShot (by decide)
@[simp] theorem entered_led_dose : (s.entered page).led.dose = s.led.dose := (entered_within s page).2.2 .ledDose (by decide)
@[simp] theorem entered_lat : (s.entered page).b.lat = s.b.lat := (entered_within s page).2.2 .bLat (by decide)
@[simp] theorem entered_cask : (s.entered page).b.cask = s.b.cask := (entered_within s page).2.2 .bCask (by decide)
@[simp] theorem entered_press : (s.entered page).b.press = s.b.press := (entered_within s page).2.2 .bPress (by decide)
@[simp] theorem entered_cel : (s.entered page).b.cel = s.b.cel := (entered_within s page).2.2 .bCel (by decide)
@[simp] theorem entered_dma : (s.entered page).b.dma = s.b.dma := (entered_within s page).2.2 .bDma (by decide)
@[simp] theorem entered_job : (s.entered page).b.job = s.b.job := (entered_within s page).2.2 .bJob (by decide)
@[simp] theorem entered_plk : (s.entered page).b.plk = s.b.plk := (entered_within s page).2.2 .bPlk (by decide)
@[simp] theorem entered_sht : (s.entered page).b.sht = s.b.sht := (entered_within s page).2.2 .bSht (by decide)
@[simp] theorem entered_pos : (s.entered page).b.pos = s.b.pos := (entered_within s page).2.2 .bPos (by decide)
@[simp] theorem entered_mot : (s.entered page).b.mot = s.b.mot := (entered_within s page).2.2 .bMot (by decide)
@[simp] theorem entered_par : (s.entered page).b.par = s.b.par := (entered_within s page).2.2 .bPar (by decide)
@[simp] theorem entered_tim : (s.entered page).b.tim = s.b.tim := (entered_within s page).2.2 .bTim (by decide)
@[simp] theorem entered_idn : (s.entered page).b.idn = s.b.idn := (entered_within s page).2.2 .bIdn (by decide)
@[simp] theorem entered_ram : (s.entered page).b.ram = s.b.ram := (entered_within s page).2.2 .bRam (by decide)
@[simp] theorem entered_thm : (s.entered page).b.thm = s.b.thm := (entered_within s page).2.2 .bThm (by decide)
@[simp] theorem entered_age : (s.entered page).b.age = s.b.age := (entered_within s page).2.2 .bAge (by decide)
theorem entered_pwr (h : s.dev ≠ .dormant) : (s.entered page).b.pwr = s.b.pwr :=
  (entered_framed s page).2.2 .bPwr (by simp [accessParts, eventParts, h])
@[simp] theorem entered_snap : (s.entered page).b.snap = s.b.snap := (entered_within s page).2.2 .bSnap (by decide)
theorem entered_rd (a : Nat) (h : accessRegs a = false) : (s.entered page).rd a = s.rd a := (entered_framed s page).2.1 a h
theorem entered_fld (f : Fld) (h : accessRegs f.addr = false) : (s.entered page).fld f = s.fld f := by
  simp [State.fld, entered_rd s page f.addr h]
theorem entered_flag (f : Fld) (h : accessRegs f.addr = false) : (s.entered page).flag f = s.flag f := by
  simp [State.flag, entered_fld s page f h]

end

/-! ### The state in which a host command finds its page -/

/-- The state in which a command that reaches its page has its effect: nothing put out yet, the access taken. -/
def State.served (s : State) (page : Nat) : State := State.entered { s with out := [] } page

section
variable (s : State) (page : Nat)

@[simp] theorem served_pending : (s.served page).pending = s.pending := by simp [State.served]
@[simp] theorem served_dev : (s.served page).dev = s.dev := by simp [State.served]
@[simp] theorem served_prevDev : (s.served page).prevDev = s.prevDev := by simp [State.served]
@[simp] theorem served_role : (s.served page).role = s.role := by simp [State.served]
@[simp] theorem served_mem : (s.served page).mem = s.mem := by simp [State.served]
@[simp] theorem served_otp : (s.served page).otp = s.otp := by simp [State.served]
@[simp] theorem served_fresh : (s.served page).fresh = s.fresh := by simp [State.served]
@[simp] theorem served_led_tile : (s.served page).led.tile = s.led.tile := by simp [State.served]
@[simp] theorem served_led_creditDma : (s.served page).led.creditDma = s.led.creditDma := by simp [State.served]
@[simp] theorem served_led_creditCel : (s.served page).led.creditCel = s.led.creditCel := by simp [State.served]
@[simp] theorem served_led_frame : (s.served page).led.frame = s.led.frame := by simp [State.served]
@[simp] theorem served_led_shot : (s.served page).led.shot = s.led.shot := by simp [State.served]
@[simp] theorem served_led_dose : (s.served page).led.dose = s.led.dose := by simp [State.served]
@[simp] theorem served_lat : (s.served page).b.lat = s.b.lat := by simp [State.served]
@[simp] theorem served_cask : (s.served page).b.cask = s.b.cask := by simp [State.served]
@[simp] theorem served_press : (s.served page).b.press = s.b.press := by simp [State.served]
@[simp] theorem served_cel : (s.served page).b.cel = s.b.cel := by simp [State.served]
@[simp] theorem served_dma : (s.served page).b.dma = s.b.dma := by simp [State.served]
@[simp] theorem served_job : (s.served page).b.job = s.b.job := by simp [State.served]
@[simp] theorem served_plk : (s.served page).b.plk = s.b.plk := by simp [State.served]
@[simp] theorem served_sht : (s.served page).b.sht = s.b.sht := by simp [State.served]
@[simp] theorem served_pos : (s.served page).b.pos = s.b.pos := by simp [State.served]
@[simp] theorem served_mot : (s.served page).b.mot = s.b.mot := by simp [State.served]
@[simp] theorem served_par : (s.served page).b.par = s.b.par := by simp [State.served]
@[simp] theorem served_tim : (s.served page).b.tim = s.b.tim := by simp [State.served]
@[simp] theorem served_idn : (s.served page).b.idn = s.b.idn := by simp [State.served]
@[simp] theorem served_ram : (s.served page).b.ram = s.b.ram := by simp [State.served]
@[simp] theorem served_thm : (s.served page).b.thm = s.b.thm := by simp [State.served]
@[simp] theorem served_age : (s.served page).b.age = s.b.age := by simp [State.served]
theorem served_pwr (h : s.dev ≠ .dormant) : (s.served page).b.pwr = s.b.pwr := entered_pwr { s with out := [] } page h
@[simp] theorem served_snap : (s.served page).b.snap = s.b.snap := by simp [State.served]
theorem served_rd (a : Nat) (h : accessRegs a = false) : (s.served page).rd a = s.rd a := entered_rd _ page a h
theorem served_fld (f : Fld) (h : accessRegs f.addr = false) : (s.served page).fld f = s.fld f := entered_fld _ page f h
theorem served_flag (f : Fld) (h : accessRegs f.addr = false) : (s.served page).flag f = s.flag f := entered_flag _ page f h

/-- A write command of a page that is reached answers its effect on the served state. -/
theorem perform_toPage (a : Act) (h : s.reaches page = true) : perform (toPage page a) s = .next (a.run (s.served page)) := by
  rw [perform_eq, toPage_run _ _ _ (by exact h)]; rfl

/-- A read command of a page that is reached answers its effect on the served state. -/
theorem perform_fromPage (a : Act) (h : s.reaches page = true) :
    perform (fromPage page a) s = .next (a.run (s.served page)) := by
  rw [perform_eq, fromPage_run _ _ _ (by exact h)]; rfl

/-- What serving a command changes lies within every access frame. -/
theorem served_framed : framed accessRegs (accessParts s) s (s.served page) :=
  framed_trans (t := { s with out := [] }) ⟨rfl, fun _ _ => rfl, fun p hp => by
    cases p <;> first | rfl | exact absurd (by simp [accessParts, eventParts]) hp⟩ (entered_framed _ page)

/-- In READY, and in every other state from ARMED on, every page is reached. -/
theorem reaches_ready (h : s.dev = .ready) : s.reaches page = true := by simp [State.reaches, h]
theorem reaches_locked (h : s.locked = true) : s.reaches page = true := by
  simp only [State.locked, Bool.or_eq_true, beq_iff_eq] at h
  rcases h with (h | h) | h <;> simp [State.reaches, h]

end

end Sys2Proof.Machine
end

