-- ==== Sys2Proof/Laws/Invariant.lean ====
section
/-! SUPPORT. What no effect can break, by induction over the effects: the accounts balance, the sparse tables stay
canonical, the device moves along the edges of its state table, and the queue of commands stays as it is. -/

namespace Sys2Proof.Machine

theorem Account.book_balanced (a : Account) (k : Booking) (h : a.balanced = true) : (a.book k).balanced = true := by
  simp only [Account.balanced, beq_iff_eq] at h ⊢
  cases k with
  | come n => simp only [Account.book, h]; rw [BitVec.add_assoc]
  | leave n => simp only [Account.book, h]; bv_omega
  | clear => rfl

theorem Ledgers.get_set_same (l : Ledgers) (k : Ledger) (a : Account) : (l.set k a).get k = a := by cases k <;> rfl
theorem Ledgers.get_set_ne (l : Ledgers) (k j : Ledger) (a : Account) (h : k ≠ j) : (l.set k a).get j = l.get j := by
  cases k <;> cases j <;> first | rfl | exact absurd rfl h

theorem balanced_iff (s : State) : s.ledgersBalanced = true ↔ ∀ k, (s.led.get k).balanced = true := by
  simp only [State.ledgersBalanced, List.all_eq_true]
  refine ⟨fun h k => h k (by cases k <;> decide), fun h k _ => h k⟩

/-- Every effect keeps every account balanced (R406). -/
theorem run_balanced (a : Act) (s : State) (h : s.ledgersBalanced = true) : (a.run s).ledgersBalanced = true := by
  induction a generalizing s with
  | book l k =>
    rw [balanced_iff] at h ⊢
    intro j
    by_cases e : l = j
    · subst e
      simpa [Ledgers.get_set_same] using Account.book_balanced _ k (h l)
    · simpa [Ledgers.get_set_ne _ _ _ _ e] using h j
  | goto d => simp only [Act.run]; split <;> exact h
  | role r => simp only [Act.run]; split <;> exact h
  | restart c => rfl
  | seq a b iha ihb => exact ihb _ (iha _ h)
  | dyn f ih => exact ih s s h
  | _ => exact h

theorem canonical_iff (s : State) : s.canonical = true ↔ spWf resetValue s.regs = true ∧ Memory.wf s.mem = true ∧
    spWf (fun _ => 0) s.rings = true ∧ spWf Config.otpWord s.otp = true := by
  simp [State.canonical, and_assoc]

/-- Every effect keeps the sparse tables canonical. -/
theorem run_canonical (a : Act) (s : State) (h : s.canonical = true) : (a.run s).canonical = true := by
  induction a generalizing s with
  | seq a b iha ihb => exact ihb _ (iha _ h)
  | dyn f ih => exact ih s s h
  | wr addr w => rw [canonical_iff] at h ⊢; exact ⟨spWf_spPut _ _ _ _ h.1, h.2⟩
  | clear keep => rw [canonical_iff] at h ⊢; exact ⟨spWf_filter _ _ _ h.1, h.2⟩
  | cell addr v => rw [canonical_iff] at h ⊢; exact ⟨h.1, cellPut_wf _ _ _ h.2.1, h.2.2⟩
  | wipe => rw [canonical_iff] at h ⊢; exact ⟨h.1, rfl, h.2.2⟩
  | index k v => rw [canonical_iff] at h ⊢; exact ⟨h.1, h.2.1, spWf_spPut _ _ _ _ h.2.2.1, h.2.2.2⟩
  | otp i w => rw [canonical_iff] at h ⊢; exact ⟨h.1, h.2.1, h.2.2.1, spWf_spPut _ _ _ _ h.2.2.2⟩
  | goto d => simp only [Act.run]; split <;> exact h
  | role r => simp only [Act.run]; split <;> exact h
  | restart c =>
    rw [canonical_iff] at h ⊢
    exact ⟨spWf_spPut _ _ _ _ (spWf_nil _), rfl, spWf_nil _, h.2.2.2⟩
  | _ => exact h

/-- Every effect moves the device along edges of the state table only (R19, R22). -/
theorem run_leads (a : Act) (s : State) : Leads s.dev (a.run s).dev := by
  induction a generalizing s with
  | seq a b iha ihb =>
    have trans : ∀ {x y z : DevState}, Leads x y → Leads y z → Leads x z := by
      intro x y z h k
      induction k with
      | here => exact h
      | via b c _ e ih => exact .via _ b c ih e
    exact trans (iha s) (ihb _)
  | dyn f ih => exact ih s s
  | goto d =>
    simp only [Act.run]
    split
    · exact .via _ _ _ (.here _) (by assumption)
    · exact .here _
  | role r => simp only [Act.run]; split <;> exact .here _
  | restart c =>
    show Leads s.dev .reset
    cases h : s.dev <;> exact .via _ _ _ (.here _) (by decide)
  | _ => exact .here _

/-- After every effect the device has come to its state along an edge. -/
theorem run_cameLegally (a : Act) (s : State) (h : s.cameLegally = true) : (a.run s).cameLegally = true := by
  induction a generalizing s with
  | seq a b iha ihb => exact ihb _ (iha _ h)
  | dyn f ih => exact ih s s h
  | goto d =>
    simp only [Act.run]
    split
    · assumption
    · exact h
  | role r => simp only [Act.run]; split <;> exact h
  | restart c => rfl
  | _ => exact h

/-- No effect touches the queue of waiting commands. -/
theorem run_pending (a : Act) (s : State) : (a.run s).pending = s.pending := by
  induction a generalizing s with
  | seq a b iha ihb => exact (ihb _).trans (iha _)
  | dyn f ih => exact ih s s
  | goto d => simp only [Act.run]; split <;> rfl
  | role r => simp only [Act.run]; split <;> rfl
  | _ => rfl

/-- A command's effect keeps a sound state sound. -/
theorem perform_inv (a : Act) (s t : State) (h : s.Inv) (e : perform a s = .next t) : t.Inv := by
  simp only [perform_eq, Host.Outcome.next.injEq] at e
  subst e
  exact ⟨run_balanced _ _ h.1, run_canonical _ _ h.2.1, run_cameLegally _ _ h.2.2⟩

end Sys2Proof.Machine
end

