-- ==== Sys2Proof/Laws/Raised.lean ====
section
/-! SUPPORT. A raised event stays recorded through every later effect of its command, and the frames in which statements
say what a command leaves alone. -/

namespace Sys2Proof.Machine

variable {e : Evt} {s : State}

/-- An effect takes no recorded event away. -/
def Act.Keeps (e : Evt) (a : Act) : Prop := ∀ s : State, s.raised e = true → (a.run s).raised e = true

theorem raised_congr (t : State) (h : t.evt.raw = s.evt.raw) : t.raised e = s.raised e := by
  simp [State.raised, State.evtRaw, h]

theorem keeps_of_evt {a : Act} (h : ∀ s, (a.run s).evt = s.evt) : a.Keeps e := fun s k => by
  rw [raised_congr (s := s) _ (by rw [h])]; exact k

theorem keeps_nop : Act.nop.Keeps e := fun _ h => h
theorem keeps_seq {a b : Act} (h : a.Keeps e) (k : b.Keeps e) : (Act.seq a b).Keeps e := fun s r => k _ (h s r)
theorem keeps_dyn {f : State → Act} (h : ∀ s, (f s).Keeps e) : (Act.dyn f).Keeps e := fun s r => h s s r
theorem keeps_nil : (acts []).Keeps e := keeps_nop
theorem keeps_cons {a : Act} {as : List Act} (h : a.Keeps e) (k : (acts as).Keeps e) : (acts (a :: as)).Keeps e := keeps_seq h k
theorem keeps_on {c : Bool} {a : Act} (h : a.Keeps e) : (on c a).Keeps e := by cases c <;> first | exact keeps_nop | exact h
theorem keeps_ite {c : Prop} [Decidable c] {a b : Act} (h : a.Keeps e) (k : b.Keeps e) : (if c then a else b).Keeps e := by
  split
  · exact h
  · exact k
theorem keeps_each {α : Type} {l : List α} {f : α → Act} (h : ∀ x, (f x).Keeps e) : (each l f).Keeps e := by
  induction l with
  | nil => exact keeps_nop
  | cons x l ih => exact keeps_seq (h x) ih

theorem keeps_wr {a : Nat} {w : Word} : (Act.wr a w).Keeps e := keeps_of_evt fun _ => rfl
theorem keeps_setR {a v : Nat} : (setR a v).Keeps e := keeps_wr
theorem keeps_setF {g : Fld} {v : Nat} : (setF g v).Keeps e := keeps_of_evt fun _ => rfl
theorem keeps_setB {g : Fld} {v : Bool} : (setB g v).Keeps e := keeps_of_evt fun _ => rfl
theorem keeps_addR {a v : Nat} : (addR a v).Keeps e := keeps_of_evt fun _ => rfl
theorem keeps_satR {a v : Nat} : (satR a v).Keeps e := keeps_of_evt fun _ => rfl
theorem keeps_emit {o : Out} : (Act.emit o).Keeps e := keeps_of_evt fun _ => rfl
theorem keeps_draw : Act.draw.Keeps e := keeps_of_evt fun _ => rfl
theorem keeps_index {k v : Nat} : (Act.index k v).Keeps e := keeps_of_evt fun _ => rfl
theorem keeps_cell {a : Nat} {v : Byte} : (Act.cell a v).Keeps e := keeps_of_evt fun _ => rfl
theorem keeps_book {l : Ledger} {k : Booking} : (Act.book l k).Keeps e := keeps_of_evt fun _ => rfl
theorem keeps_bookIn {l : Ledger} {n : Nat} : (bookIn l n).Keeps e := keeps_book
theorem keeps_bookOut {l : Ledger} {n : Nat} : (bookOut l n).Keeps e := keeps_book
theorem keeps_blk {f : Blocks → Blocks} : (Act.blk f).Keeps e := keeps_of_evt fun _ => rfl
theorem keeps_otp {i : Nat} {w : Word} : (Act.otp i w).Keeps e := keeps_of_evt fun _ => rfl
theorem keeps_goto {d : DevState} : (Act.goto d).Keeps e := keeps_of_evt fun s => by simp only [Act.run]; split <;> rfl
theorem keeps_role {r : Role} : (Act.role r).Keeps e := keeps_of_evt fun s => by simp only [Act.run]; split <;> rfl
theorem keeps_evt {f : EvtBlk → EvtBlk} (h : ∀ x, (f x).raw = x.raw) : (Act.evt f).Keeps e := fun s k => by
  rw [raised_congr (s := s) _ (h s.evt)]; exact k
theorem keeps_errD {reg code detail : Nat} : (errD reg code detail).Keeps e :=
  keeps_dyn fun _ => keeps_ite (keeps_cons keeps_setR (keeps_cons keeps_setR keeps_nil)) keeps_setR

/-- Recording a raise sets the bit, and takes none away. -/
theorem recordRaise_raised (s : State) (he : e.bit < 32) : ((recordRaise e.page e.bit).run s).raised e = true := by
  simp only [recordRaise, run_dyn, run_evt, State.raised, State.evtRaw, spGet_spPut_same, BitVec.toNat_ofNat]
  rw [Nat.testBit_mod_two_pow]
  simp [he, Nat.testBit_two_pow_self]

theorem keeps_recordRaise {page bit : Nat} (hb : e.bit < 32) : (recordRaise page bit).Keeps e := fun s h => by
  simp only [recordRaise, run_dyn, run_evt, State.raised, State.evtRaw] at h ⊢
  by_cases hp : page = e.page
  · subst hp
    simp only [spGet_spPut_same, BitVec.toNat_ofNat]
    rw [Nat.testBit_mod_two_pow]
    simp only [hb, decide_true, Bool.true_and]
    show (_ ||| _ : Nat).testBit _ = true
    rw [Nat.testBit_lor, Bool.or_eq_true]
    exact Or.inl h
  · rw [spGet_spPut_ne _ _ _ _ _ hp]; exact h

theorem keeps_ringWrite {ring : Nat} {bytes : List Nat} : (ringWrite ring bytes).Keeps e :=
  keeps_dyn fun _ => keeps_cons keeps_emit (keeps_cons keeps_index (keeps_cons keeps_bookIn keeps_nil))
theorem keeps_msixSend {v : Nat} : (msixSend v).Keeps e :=
  keeps_dyn fun _ => keeps_ite (keeps_evt fun _ => rfl) keeps_emit
theorem keeps_netEmit {done : Nat → Act} (hd : ∀ p, (done p).Keeps e) {port partner type : Nat} {bytes : List Nat} :
    (netEmit done port partner type bytes).Keeps e := by
  refine keeps_dyn fun s => ?_
  refine keeps_ite keeps_nop (keeps_ite ?_ ?_)
  · exact keeps_cons keeps_addR (keeps_cons keeps_blk (keeps_cons (hd _) keeps_nil))
  · exact keeps_cons (keeps_on keeps_addR) (keeps_cons (keeps_on keeps_emit) (keeps_cons (keeps_on keeps_emit)
      (keeps_cons (keeps_on keeps_emit) (keeps_cons (keeps_each fun _ => keeps_emit) (keeps_cons keeps_blk
        (keeps_cons (keeps_on keeps_blk) (keeps_cons (keeps_on (hd _)) keeps_nil)))))))
theorem keeps_bumpSeq {x : Option Session} : (bumpSeq x).Keeps e := by cases x <;> exact keeps_blk
theorem keeps_netSendWith {done : Nat → Act} (hd : ∀ p, (done p).Keeps e) {ports : List Nat} {partner : Nat} {x : Option Session}
    {type flags corr : Nat} {payload : List Nat} : (netSendWith done ports partner x type flags corr payload).Keeps e :=
  keeps_dyn fun _ => keeps_seq keeps_bumpSeq (keeps_each fun _ => keeps_netEmit hd)
theorem keeps_routeEvent {done : Nat → Act} (hd : ∀ p, (done p).Keeps e) {lost : Act} (hl : lost.Keeps e) {src page bit : Nat}
    {forced m1 m2 : Bool} : (routeEvent done lost src page bit forced m1 m2).Keeps e := by
  refine keeps_dyn fun s => keeps_cons (keeps_on keeps_msixSend) (keeps_cons (keeps_on (keeps_ite hl
    (keeps_each fun _ => keeps_dyn fun _ => keeps_netSendWith hd))) (keeps_cons (keeps_on (keeps_dyn fun s' => ?_)) keeps_nil))
  split
  · exact keeps_ite (keeps_seq keeps_bumpSeq keeps_ringWrite) hl
  · exact hl
theorem keeps_deliverWith {done : Nat → Act} (hd : ∀ p, (done p).Keeps e) {lost : Act} (hl : lost.Keeps e) {src page bit : Nat}
    {forced : Bool} : (deliverWith done lost src page bit forced).Keeps e :=
  keeps_dyn fun _ => keeps_ite (keeps_evt fun _ => rfl) (keeps_routeEvent hd hl)

section
variable (hb : e.bit < 32)
include hb

theorem keeps_raiseWith {done : Nat → Act} (hd : ∀ p, (done p).Keeps e) {lost : Act} (hl : lost.Keeps e) {page bit : Nat}
    {forced : Bool} : (raiseWith done lost page bit forced).Keeps e :=
  keeps_dyn fun _ => keeps_seq (keeps_recordRaise hb) (keeps_dyn fun _ => keeps_on (keeps_deliverWith hd hl))
omit hb in
theorem keeps_countLost : countLost.Keeps e := keeps_evt fun _ => rfl
theorem keeps_loseMessage : loseMessage.Keeps e := by
  unfold loseMessage
  exact keeps_seq (keeps_countLost) (keeps_raiseWith hb (fun _ => keeps_nop) (keeps_countLost))
theorem keeps_netFijDone {port : Nat} : (netFijDone port).Keeps e :=
  keeps_cons keeps_setF (keeps_cons keeps_addR (keeps_cons keeps_addR (keeps_cons
    (keeps_raiseWith hb (fun _ => keeps_nop) (keeps_loseMessage hb)) keeps_nil)))
/-- Raising any event takes no recorded event away. -/
theorem keeps_raise {x : Evt} : (raise x).Keeps e := keeps_raiseWith hb (fun _ => keeps_netFijDone hb) (keeps_loseMessage hb)
theorem keeps_raiseForced {page bit : Nat} : (raiseForced page bit).Keeps e :=
  keeps_raiseWith hb (fun _ => keeps_netFijDone hb) (keeps_loseMessage hb)
theorem keeps_netSend {ports : List Nat} {partner : Nat} {x : Option Session} {type flags corr : Nat} {payload : List Nat} :
    (netSend ports partner x type flags corr payload).Keeps e := keeps_netSendWith fun _ => keeps_netFijDone hb
theorem keeps_refuse {page cmd cond detail : Nat} : (refuse page cmd cond detail).Keeps e :=
  keeps_cons keeps_setR (keeps_cons (keeps_raise hb) keeps_nil)
theorem keeps_enter {d : DevState} : (enter d).Keeps e :=
  keeps_dyn fun _ => keeps_on (keeps_cons keeps_goto (keeps_cons keeps_addR (keeps_cons (keeps_raise hb) keeps_nil)))

/-- A raised event is recorded (R427). -/
theorem raise_raised (s : State) : ((raise e).run s).raised e = true := by
  have k : (Act.dyn fun s' => on (!s.srcPending (evtSource e.page e.bit) && s'.srcPending (evtSource e.page e.bit))
      (deliverWith netFijDone loseMessage (evtSource e.page e.bit) e.page e.bit false)).Keeps e :=
    keeps_dyn fun _ => keeps_on (keeps_deliverWith (fun _ => keeps_netFijDone hb) (keeps_loseMessage hb))
  simpa only [raise, raiseWith, run_dyn, run_seq] using k _ (recordRaise_raised s hb)

end

/-! ### Frames -/

section
variable {regs : List Nat} {parts : List Part}

theorem eventFrame_allows : AllowsEvents (fun a => eventRegs a || regs.contains a) (eventParts ++ parts) :=
  ⟨fun a h => by simp [h], fun p h => by simp [h]⟩

theorem accessFrame_allows (s : State) : AllowsEvents (fun a => accessRegs a || regs.contains a) (accessParts s ++ parts) :=
  ⟨fun a h => by simp [accessRegs, h], fun p h => by simp [accessParts, h]⟩

/-- A command's own effects, from where its access has reached its page. -/
theorem accessFrame_run {a : Act} (s : State) (page : Nat)
    (h : a.Within (fun a => accessRegs a || regs.contains a) (accessParts s ++ parts)) :
    accessFrame regs parts s (a.run (s.served page)) :=
  framed_trans (framed_mono (fun a h => by simp [h]) (fun p h => by simp [h]) (served_framed s page)) (h _)

/-- What was put out before does not matter to a frame that lets the output change. -/
theorem framed_clear (s : State) {rg : Nat → Bool} {ps : List Part} {t : State} (h : .out ∈ ps)
    (k : framed rg ps { s with out := [] } t) : framed rg ps s t :=
  framed_trans (t := { s with out := [] }) ⟨rfl, fun _ _ => rfl, fun p hp => by
    cases p <;> first | rfl | exact absurd h hp⟩ k

/-- An occurrence's own effects. -/
theorem eventFrame_run {a : Act} (s : State) (h : a.Within (fun a => eventRegs a || regs.contains a) (eventParts ++ parts)) :
    eventFrame regs parts s (a.run { s with out := [] }) := framed_clear s (by simp [eventParts]) (h _)

theorem plainFrame_run {a : Act} (s : State) (h : a.Within (fun a => regs.contains a) (.out :: parts)) :
    plainFrame regs parts s (a.run { s with out := [] }) := framed_clear s (by simp) (h _)

theorem within_bistPage_accessFrame {page : Nat} (s : State) :
    (bistPage page).Within (fun a => accessRegs a || regs.contains a) (accessParts s ++ parts) :=
  within_bistPage.mono (fun a h => by simp [h]) fun p h => by
    simp only [List.mem_cons] at h
    rcases h with rfl | h
    · simp [accessParts]
    · simp [accessParts, h]

/-- A field that a frame leaves alone. -/
theorem framed_fld {rg : Nat → Bool} {ps : List Part} {s t : State} (h : framed rg ps s t) (f : Fld) (hf : rg f.addr = false) :
    t.fld f = s.fld f := by simp [State.fld, h.2.1 _ hf]

end

end Sys2Proof.Machine
end

