-- ==== Sys2Proof/Tests/Slice0.lean ====
section
/-! SUPPORT. Small states that meet the hypotheses of every statement (`wit_…`), and tests of the model on figures that the
spec works out (`test_…`). -/

open Sys2Proof Sys2Proof.Machine

set_option Elab.async false

namespace Sys2Proof.Tests

/-! ### Small states -/

/-- The state after reset, in a given device state. -/
def at' (d : DevState) : State := { State.reset with dev := d }

/-- Fields of registers set. -/
def put (s : State) (l : List (Fld × Nat)) : State := l.foldl (fun s f => (setF f.1 f.2).run s) s

/-- Registers set. -/
def regs (s : State) (l : List (Nat × Word)) : State := l.foldl (fun s f => (Act.wr f.1 f.2).run s) s

/-- Blocks changed. -/
def blk (s : State) (f : Blocks → Blocks) : State := { s with b := f s.b }

/-- The state after a command, or the state after reset where it was refused. -/
def after (c : Instr) (s : State) : State := match exec c s with | .next t => t | _ => State.reset

/-- READY, ARMED, WRITING, DORMANT, OFF. -/
def ready : State := at' .ready
def armed : State := at' .armed
def writing : State := at' .writing
def dormant : State := at' .dormant
def off : State := at' .off

/-- A round in which every sensor reads 25 °C, sensor `i` the temperature `v`. -/
def round (i : Nat) (v : BitVec 16) : HkRound where
  temps := (List.range 28).map fun k => (if k = i then v else 400, false)
  supplies := List.replicate 36 900
  canaries := List.replicate 48 100
  rings := List.replicate 16 1000
  foms := List.replicate 12 200

/-! ### Witnesses: device and power -/

theorem wit_step : ((at' .ready).pending = [] ∧ (at' .ready).dev ≠ .off) ∧ (off.pending = [] ∧ off.dev = .off) := by decide +kernel

theorem wit_step_next : State.reset.ledgersBalanced = true ∧ State.reset.canonical = true ∧ State.reset.cameLegally = true ∧
    (match step State.reset with | .next t => decide (t.b.pos.pt = 65536) | _ => false) = true := by
  decide +kernel

theorem wit_thm_max : roundOk (round 3 500) = true ∧ ready.pageWorks 0xD0 = true ∧ ready.dev = .ready ∧
    (∀ i < 28, ((round 3 500).temps.getD i (0, false)).1.toInt < 1920) ∧ ready.sensors ≠ [] := by
  decide +kernel

theorem wit_unlisted_pages : pageRow 0x0C = none ∧ (0x0C : BitVec 8) ≠ 0x0B ∧ (0xFFC : Nat) < 0x1000 ∧ dormant.dev = .dormant := by decide +kernel

/-- A device that meets every arm condition: tables checked, gains written, the plate link locked, one job entry, limits set. -/
def armable : State :=
  blk (regs (put ready [(F.LAT_STAT_CHK_STATE, 2), (F.POS_STAT_JRX_UP, 1), (F.POS_STAT_SYSREF_OK, 1)])
      [(R.MOT_VMAX, 1), (R.MOT_AMAX, 1), (R.MOT_JMAX, 1)])
    fun b => { b with lat := { b.lat with gainWritten := true }, plk := { b.plk with locked := List.range 64 },
                      job := { b.job with queue := [{ stripe := 1, bin := 0, rev := false, last := true, y0 := 0, x := 0, tag := 0, bytes := [] }] } }

theorem wit_arm : armable.dev = .ready ∧ armable.role = .solo ∧ armable.ageBusy = false ∧ armable.armRefusal = none ∧
    armable.fld F.CSK_FIT_CODE = 0 ∧ (put armable [(F.CSK_FIT_CODE, 1)]).armRefusal = none ∧
    (put armable [(F.CSK_FIT_CODE, 1)]).fld F.CSK_FIT_CODE ≠ 0 ∧ ready.armRefusal = some (1, 0) := by decide +kernel

theorem wit_reset_sources : ready.dev ≠ .off ∧ ready.reaches 2 = true ∧ off.b.pwr.aonLost = false ∧
    (blk off fun b => { b with pwr := { b.pwr with aonLost := true } }).b.pwr.aonLost = true := by decide +kernel

/-- A device whose memory trains. -/
def training : State :=
  blk (put State.reset [(F.OTP_STAT_LOADED, 1)]) fun b => { b with ram := { b.ram with locked := true } }

theorem wit_training : State.reset.dev = .reset ∧ State.reset.flag F.OTP_STAT_LOADED = false ∧
    (put State.reset [(F.MEM_TRAIN_WAIT, 1)]).reaches 0x14 = true ∧ (put State.reset [(F.MEM_TRAIN_WAIT, 1)]).flag F.MEM_TRAIN_WAIT = true ∧
    training.dev = .reset ∧ training.b.ram.locked = true ∧ training.flag F.MEM_TRAIN_DONE = false ∧
    training.flag F.MEM_TRAIN_FAIL = false ∧
    (∀ c < 4, training.flag (F.MC_CFG_SOLDERED c) = false ∧ training.fld (F.MC_CFG_RATE c) = training.fld (F.MC_CFG_RATE 0)) ∧
    training.ranksFit 1 = true ∧ training.ranksFit 2 = true := by decide +kernel

/-- READY with every PLL locked. -/
def clocked : State := put ready [(F.CLK_STAT_LOCKED, 0xFF), (F.PWR_STAT_ON, 0xFF)]

theorem wit_link_and_clock : clocked.powered 3 = true ∧ clocked.dev = .ready ∧
    (∀ d : Fin 8, d ≠ 0 → d ≠ 5 → clocked.powered d = true ∧ (clocked.fld F.CLK_STAT_LOCKED).testBit d = true) ∧
    (after (.pllUnlock 3) clocked).b.pwr.unlocked.contains 3 = true ∧ (after (.pllUnlock 3) clocked).dev = .ready ∧
    (put dormant [(F.HIF_LINK_UP, 1)]).flag F.HIF_LINK_UP = true ∧ (put dormant [(F.HIF_LINK_UP, 1)]).flag F.HIF_LINK_L12 = false := by
  decide +kernel

theorem wit_dormant : ready.flag F.PWR_STAT_ENTERING = false ∧ ready.ageBusy = false ∧ ready.dormantRefusal true = 0 ∧
    clocked.dormantRefusal false = 4 ∧ (put ready [(F.PWR_STAT_ENTERING, 1)]).flag F.PWR_STAT_ENTERING = true ∧
    (let s := put dormant [(F.AON_WAKE_CFG_HOST, 1), (F.AON_WAKE_CFG_PIN, 1)]
     s.dev = .dormant ∧ s.flag F.PWR_STAT_ENTERING = false ∧ s.flag F.PWR_STAT_WAKING = false ∧
       s.flag F.AON_WAKE_CFG_HOST = true ∧ s.flag F.AON_WAKE_CFG_PIN = true) ∧
    (let s := put ready [(F.PWR_STAT_ENTERING, 1), (F.AON_WAKE_CFG_PIN, 1)]
     s.dev = .ready ∧ s.flag F.PWR_STAT_ENTERING = true ∧ s.flag F.AON_WAKE_CFG_PIN = true) ∧
    (put dormant [(F.PWR_STAT_WAKING, 1)]).flag F.PWR_STAT_WAKING = true := by decide +kernel

theorem wit_domains : ready.dev = .ready ∧ ready.alone = true ∧ (0x3E : Byte) &&& 0xC1 = 0 ∧
    dormant.dev = .dormant ∧ dormant.reaches ((0x30100 : BitVec 20).toNat / 0x1000) = false := by decide +kernel

/-! ### Witnesses: the job -/

theorem wit_refused_requests : writing.reaches 7 = true ∧ (writing.dev == .ready) = false ∧ (writing.dev == .armed) = false ∧
    ready.locked = false ∧ writing.reaches 4 = true ∧ writing.dev ≠ .ready ∧ writing.flag F.PWR_STAT_ENTERING = false ∧
    writing.ageBusy = false := by decide +kernel

/-- ARMED with the stage moving. -/
def moving : State := blk armed fun b => { b with mot := { b.mot with y := { b.mot.y with v := 1 } } }

theorem wit_job_end : armed.role = .solo ∧ armed.stageStill = true ∧ moving.stageStill = false ∧ armed.locked = true ∧
    armed.b.job.turnWait = false ∧ (blk writing fun b => { b with job := { b.job with turnWait := true } }).b.job.turnWait = true ∧
    (at' .racking).dev = .racking ∧ (at' .draining).drained = true := by decide +kernel

/-- READY with eight bins and seven words of a descriptor of stripe 1 written. -/
def sevenWords : State :=
  blk (put ready [(F.CEL_BIN_CFG_NBINS, 8)]) fun b => { b with job := { b.job with words := [1, 2, 0, 0, 0, 0, 0] } }

/-- The bytes of that descriptor with its last word. -/
def descBytes (w : Word) : List Nat := (sevenWords.b.job.words ++ [w]).flatMap fun x => leBytes 4 x.toNat

theorem wit_job_data : ready.reaches 7 = true ∧ ready.b.job.words.length < 7 ∧ sevenWords.b.job.words.length = 7 ∧
    sevenWords.descCode (descBytes (BitVec.ofNat 32 (crcOf crc32c ((descBytes 0).take 28)))) = 0 ∧
    sevenWords.descCode (descBytes 0) ≠ 0 ∧
    (blk ready fun b => { b with par := { b.par with digestReq := some 0 } }).b.par.digestReq = some 0 := by decide +kernel

/-! ### Witnesses: the lattice -/

/-- READY, and READY with a check that runs. -/
def checking : State := put ready [(F.LAT_STAT_CHK_STATE, 1)]

theorem wit_lattice_commands : ready.reaches 0x31 = true ∧ ready.checking = false ∧ ready.locked = false ∧ checking.reaches 0x31 = true ∧
    checking.checking = true ∧ checking.rd (pageReg 0x31 0x020) / 2 ^ 16 % 2 ^ 15 = 0 ∧ checking.powered 1 = true ∧
    checking.latIn.check = some ⟨2, 0, 0⟩ := by decide +kernel

theorem wit_lat_data : (put ready [(F.LAT_STAT_WINDOW, 1), (F.LAT_IDX_INDEX, 1023)]).fld F.LAT_IDX_INDEX < 1024 ∧
    (put ready [(F.LAT_STAT_WINDOW, 1), (F.LAT_IDX_INDEX, 1023)]).fld F.LAT_STAT_WINDOW = 1 ∧
    (put ready [(F.LAT_STAT_WINDOW, 2), (F.LAT_IDX_INDEX, 524287)]).fld F.LAT_IDX_INDEX < 524288 ∧
    (put ready [(F.LAT_STAT_WINDOW, 2), (F.LAT_IDX_INDEX, 524287)]).fld F.LAT_STAT_WINDOW = 2 := by decide +kernel

/-! ### Witnesses: the taps and the press -/

/-- Tables of which every row lies in one oneLine. -/
def flat : LatIn := ⟨[], [], 8, 0, 0⟩

/-- The header of a stripe of 16 rows in slots of 16 bytes. -/
def hdr16 : StripeHdr :=
  { magic := 0, format := 1, hdrLen := 256, stripe := 1, len := 16, tbl := false, ratio := 3, spillRecs := 0, primaryLen := 2048,
    saffronLen := 64, spillLen := 0, spillBudget := 0, imageLen := 2368, hostTag := 0, melrisVer := 0, hdrCrc := 0 }

/-- That stripe, its run with every row released, its bin and its queue entry. -/
def stripe16 : Stripe := ⟨1, 0, false, true, 16, 0, 0, 0, 2⟩
def run16 : Run := { stripe := stripe16, hdr := hdr16, dispatched := 0, released := 1 }
def bin16 (st : BinState) : Bin := { num := 0, state := st, stripe := 1, sring := none, hdr := some hdr16 }
def entry16 : JobEntry := { stripe := 1, bin := 0, rev := false, last := true, y0 := 0, x := 0, tag := 0, bytes := [] }

/-- A SOLO job that writes that stripe. -/
def job16 (d : DevState) : State :=
  blk (put (at' d) [(F.CEL_BIN_CFG_NBINS, 8), (F.CEL_BIN_CFG_BIN_MIB, 1), (F.CEL_CAPACITY_MIB, 64)]) fun b =>
    { b with lat := { b.lat with cap := some flat }, press := { b.press with runs := [run16] },
             cel := { b.cel with bins := [bin16 .current] }, job := { b.job with queue := [entry16] } }

/-- Shot 0 in a tap slot. -/
def slotted (done : Bool) (s : State) : State :=
  blk s fun b => { b with cask := { b.cask with slots := [{ shot := 0, complete := done }], nextShot := 1 } }

/-- Shot 0 in a slot that drains. -/
def drainingSlot : State :=
  blk (job16 .writing) fun b => { b with cask := { b.cask with draining := [{ shot := 0, complete := true, lees := [(0, 3)] }] } }

theorem wit_taps : (job16 .armed).run = some run16 ∧ (job16 .armed).b.lat.cap = some flat ∧ (job16 .armed).tapsMayStart run16 = true ∧
    rowsReady flat run16 (job16 .armed).b.cask.nextShot = true ∧ (slotted false (job16 .armed)).role = .solo ∧
    ((slotted false (job16 .armed)).b.cask.slots.find? fun y => !y.complete) = some { shot := 0 } ∧
    ready.reaches 0x30 = true ∧ ready.flag (F.CSK_STEER_AUTO 3) = false ∧
    (∀ j < 4, j ≠ 3 → ready.flag (F.CSK_STEER_EN j) = true → ready.fld (F.CSK_STEER_LANE j) ≠ 63) ∧
    (after (.cskSteerWrite 3 0x8000003F) ready).steerBoundary = true ∧ (after (.cskSteerWrite 3 0x8000003F) ready).b.cask.steerPending = [3] ∧
    drainingSlot.b.cask.draining = [{ shot := 0, complete := true, lees := [(0, 3)] }] := by decide +kernel

/-- A job whose stripe is READY and has not been started. -/
def toStart : State :=
  blk (job16 .armed) fun b => { b with press := {}, cel := { b.cel with bins := [bin16 .ready] } }

theorem wit_press : toStart.nextStripe = some (entry16, bin16 .ready, hdr16) ∧ toStart.b.lat.cap = some flat ∧
    toStart.pressing = true ∧ toStart.mayStart = true ∧ toStart.b.press.runs = [] ∧
    (job16 .armed).nextRetry = none ∧ (job16 .armed).nextCluster = some (1, 0) ∧
    (List.range 16).find? (job16 .armed).engineIdle = some 0 ∧
    (∀ r ∈ (job16 .armed).b.press.runs, ((job16 .armed).bin r.stripe.bin).isSome = true) := by decide +kernel

/-! ### Witnesses: rings, descriptors and transfers -/

/-- Ring 63 of 64 entries with two descriptors waiting, ring 64 its completion ring, ring 96 with an entry of the device. -/
def ringed : State :=
  { regs (put ready [(F.RNG_CFG_EN 63, 1), (F.RNG_CFG_SIZE 63, 11), (F.RNG_CFG_LINK 63, 64), (F.RNG_CFG_EN 64, 1), (F.RNG_CFG_SIZE 64, 10),
      (F.DMA_CH_CFG_EN 31, 1), (F.RNG_CFG_EN 96, 1), (F.RNG_CFG_SIZE 96, 10), (F.CEL_BIN_CFG_NBINS, 8), (F.CEL_BIN_CFG_BIN_MIB, 1), (F.CEL_CAPACITY_MIB, 64)]) [(R.RNG_CHMASK 63, 0x80000000)]
    with rings := [(126, 2), (192, 5)] }

theorem wit_ring_indexes : ready.reaches 0xA = true ∧ ringed.hostWritten 63 = true ∧ ringed.doorbellOk 63 64 = true ∧
    ringed.doorbellOk 63 65 = false ∧ ringed.rd (pageReg 0xA 0x020) / 2 ^ 16 % 2 ^ 15 = 0 ∧ ringed.hostWritten 96 = false ∧
    ringed.b.dma.replies = [] ∧ ringed.b.bst.cur = none ∧ (5 + 2 ^ 32 - ringed.ci 96) % 2 ^ 32 ≤ ringed.ringUsed 96 ∧
    ringed.ringUsed 96 < (6 + 2 ^ 32 - ringed.ci 96) % 2 ^ 32 := by decide +kernel

/-- Descriptors: an operation, a destination, a length, flags, a bin. -/
def desc (op : BitVec 8) (dst : BitVec 64) (len : Word) (flags : BitVec 8) (bin : BitVec 16) : Desc :=
  { src := 0x1000, dst := dst, len := len, progress := 0, tag := 9, op := op, flags := flags, bin := bin, wrap := 0 }

/-- That device with a queue entry for bin 7. -/
def queued : State := blk ringed fun b => { b with job := { b.job with queue := [{ entry16 with bin := 7 }] } }

theorem wit_descriptor_take : queued.mayTake 63 = true ∧ queued.idleChannel 63 = some 31 ∧ queued.descBad (desc 3 0x2000 4 1 0) = false ∧
    queued.descBad (desc 3 0x2000 5 1 0) = true ∧ queued.flight 63 0 = none ∧ queued.descBad (desc 1 0 512 3 7) = false ∧
    queued.dev ≠ .fault ∧ queued.binRefuses 63 (desc 1 0 512 3 7) = false := by decide +kernel

/-- A descriptor in flight on ring 63, and channel 31 at work on it. -/
def flying (d : Desc) : State :=
  blk queued fun b => { b with dma := { b.dma with inflight := [⟨63, 0, d, 0, 0, none, false⟩], chans := [⟨31, 63, 0, false, false, false⟩] } }

theorem wit_fence_and_stall : (flying (desc 4 0 0 1 0)).b.dma.inflight = [⟨63, 0, desc 4 0 0 1 0, 0, 0, none, false⟩] ∧
    (flying (desc 4 0 0 1 0)).cqRoom ((flying (desc 4 0 0 1 0)).fld (F.RNG_CFG_LINK 63)) = true ∧
    (flying (desc 4 0 0 1 0)).b.dma.stalled = [] ∧ ringed.flag (F.RNG_CFG_EN (64 + (0 : Fin 32))) = true ∧
    ringed.ringRoom (64 + (0 : Fin 32)) 1 = true ∧
    (let s := blk ringed fun b => { b with dma := { b.dma with owed := [(64, [0], false)] } }
     s.b.dma.owed = [(64, [0], false)] ∧ s.b.dma.stalled = [] ∧ s.flag (F.RNG_CFG_EN 64) = true ∧ s.ringRoom 64 1 = true) ∧
    (let s := blk ringed fun b => { b with dma := { b.dma with stalled := [63], inflight := [⟨63, 0, desc 3 0 4 1 0, 0, 4, some 0, false⟩] } }
     s.b.dma.owed = [] ∧ s.b.dma.stalled = [63] ∧ s.fld (F.RNG_CFG_LINK 63) = 64 ∧ s.flag (F.RNG_CFG_EN 64) = true ∧
       s.ringRoom 64 1 = true) := by decide +kernel

/-- Stripe data of 512 bytes under way to bin 7. -/
def fillingBin : State :=
  blk (flying (desc 1 0 512 2 7)) fun b =>
    { b with cel := { b.cel with bins := [{ num := 7, state := .filling, stripe := 1, sring := some 63, pieces := [⟨0, 512, 0, false, true⟩] }] } }

theorem wit_transfer : (flying (desc 3 0x2000 4 1 0)).chan 31 = some ⟨31, 63, 0, false, false, false⟩ ∧
    (flying (desc 3 0x2000 4 1 0)).flight 63 0 = some ⟨63, 0, desc 3 0x2000 4 1 0, 0, 0, none, false⟩ ∧
    (0 : Nat) < (desc 3 0x2000 4 1 0).len.toNat - 0 ∧
    (desc 2 (BitVec.ofNat 64 (R.CK_FEED32 3)) 8 1 0).dst.toNat = R.CK_FEED32 3 ∧
    (desc 2 (BitVec.ofNat 64 (R.CK_FEED32 3)) 8 1 0).len.toNat % 4 = 0 ∧
    fillingBin.chan 31 = some ⟨31, 63, 0, false, false, false⟩ ∧ fillingBin.dev ≠ .fault ∧
    fillingBin.flightBin ⟨63, 0, desc 1 0 512 2 7, 0, 0, none, false⟩ =
      some { num := 7, state := .filling, stripe := 1, sring := some 63, pieces := [⟨0, 512, 0, false, true⟩] } ∧
    ([1, 2, 3] : List Byte).length < 256 ∧ ([1, 2, 3] : List Byte).length ≤ (desc 1 0 512 2 7).len.toNat := by decide +kernel

/-- A bin whose reservation of two buffers waits, the pool holding two. -/
def binOfTwo : Bin :=
  { num := 7, state := .filling, stripe := 1, sring := none, hdr := some { hdr16 with spillBudget := 2 * 1048512 } }
def reserving : State :=
  blk (put queued [(F.CEL_POOL_UNITS_UNITS, 2)]) fun b => { b with cel := { b.cel with waits := [7], bins := [binOfTwo] } }

theorem wit_cellar_layout : ready.reaches 0x15 = true ∧ ringed.dev = .ready ∧ ringed.b.cel.bins = [] ∧
    F.CEL_BIN_CFG_NBINS.get (0x00010040 : Word).toNat * F.CEL_BIN_CFG_BIN_MIB.get (0x00010040 : Word).toNat +
      ringed.fld F.CEL_POOL_UNITS_UNITS ≤ ringed.fld F.CEL_CAPACITY_MIB ∧
    ringed.fld F.CEL_CAPACITY_MIB < 8 * 1 + F.CEL_POOL_UNITS_UNITS.get (0xFFFF : Word).toNat ∧
    ringed.rd (pageReg 0x15 0x020) / 2 ^ 16 % 2 ^ 15 = 0 ∧ armed.dev ≠ .ready ∧ fillingBin.b.cel.bins ≠ [] ∧
    ((put fillingBin [(F.CEL_BIN_SEL_BIN, 7)]).bin ((put fillingBin [(F.CEL_BIN_SEL_BIN, 7)]).fld F.CEL_BIN_SEL_BIN)).isSome = true ∧
    ready.bin (ready.fld F.CEL_BIN_SEL_BIN) = none ∧ reserving.b.cel.waits = [7] ∧ (reserving.bin 7).isSome = true ∧
    ({ hdr16 with spillBudget := 2 * 1048512 } : StripeHdr).units ≤ reserving.poolFree := by decide +kernel

/-- A cellar line written. -/
def oneLine : State := { ringed with mem := (List.range 64).map fun i => (i, 7) }

theorem wit_aperture : oneLine.dev ≠ .off ∧ oneLine.dev ≠ .dormant ∧ oneLine.apertureAddr 60 = 60 ∧ oneLine.cellarHas (oneLine.apertureAddr 60) 4 = true ∧
    (∀ i < 4, (oneLine.readByte [] (oneLine.apertureAddr 60 + i)).isSome = true) ∧
    (∀ la ∈ linesOf (oneLine.apertureAddr 60) 4, oneLine.soundLine la) ∧
    ringed.cellarHas (ringed.apertureAddr 0x3FFFFFF) 1 = true ∧ ringed.cellarHas (ringed.apertureAddr 0x4000000) 1 = false ∧
    armed.rd (pageReg 0x15 0x020) / 2 ^ 16 % 2 ^ 15 = 0 := by
  unfold State.soundLine
  decide +kernel

theorem wit_resets_of_rings : ready.reaches 0xA = true ∧ (63 : Fin 128).val < 64 ∧ 64 ≤ (96 : Fin 128).val ∧
    ringed.b.dma.inflight = [] ∧ ringed.b.bst.cur = none ∧ fillingBin.dev ≠ .off ∧ (fillingBin.b.cel.bins.map (·.num)).Nodup := by
  decide +kernel

/-! ### A cluster that decodes -/

theorem fold_bits_lt (x : Nat) : ∀ (l : List Nat) (acc n : Nat), acc < n →
    l.foldl (fun acc i => acc * 2 + (if Nat.testBit x i then 1 else 0)) acc < n * 2 ^ l.length
  | [], acc, n, h => by simpa using h
  | i :: l, acc, n, h => by
    have := fold_bits_lt x l (acc * 2 + (if Nat.testBit x i then 1 else 0)) (n * 2) (by split <;> omega)
    simpa [Nat.pow_succ, Nat.mul_assoc, Nat.mul_comm 2] using this

theorem crc32c_lt (bs : List Nat) : crcOf crc32c bs < 2 ^ 32 := by
  refine Nat.xor_lt_two_pow ?_ (by decide)
  simpa [crc32c, reflect] using fold_bits_lt (bs.foldl (crcByte crc32c) crc32c.init) (List.range 32) 0 1 (by decide)

theorem decodeCluster_pass {rd : Nat → Option Nat} {h : StripeHdr} {q : Nat} {slots : List (Nat × List Nat)} {w px : List Nat}
    (h0 : h.tbl = false)
    (h1 : ((clusterBlocks q).mapM fun m => (slotOf rd h m).map fun s => (m, s)) = some slots)
    (h2 : (slots.filter fun e => isEscape e.2 && escapeOk h (escapeOffset e.2)) = [])
    (h3 : ((List.range 4).mapM fun i => rd (h.saffronOff + 4 * q + i)) = some w)
    (h4 : blocksPixels rd h (imageTable rd h) slots = .ok px) (h5 : crcOf crc32c px = leNat w) :
    decodeCluster rd h q = .pass px := by
  simp [decodeCluster, usesTable, h0, h1, h2, h3, h4, h5]

/-- The pixels of eight flat blocks of target 0, and their saffron word. -/
def zeros : List Nat := (clusterBlocks 0).flatMap fun _ => List.replicate 256 0
def zerosCrc : Nat := crcOf crc32c zeros

/-- Those blocks and their word stored in bin 0. -/
def stored (w : Nat) (s : State) : State :=
  { s with mem := (List.range 128).map (fun i => (256 + i, 0)) ++
      [(2304, BitVec.ofNat 8 (w % 256)), (2305, BitVec.ofNat 8 (w / 256 % 256)),
       (2306, BitVec.ofNat 8 (w / 65536 % 256)), (2307, BitVec.ofNat 8 (w / 16777216 % 256))] ++
      (List.range 60).map fun i => (2308 + i, 0) }

/-- Cluster 0 on engine 15, at its given attempt. -/
def onEngine (w attempt : Nat) : State :=
  stored w (blk (job16 .armed) fun b =>
    { b with press := { b.press with runs := [{ run16 with released := 0, dispatched := 1, busy := [⟨0, 15, attempt, false⟩] }] } })

theorem blocksPixels_same {rd : Nat → Option Nat} {h : StripeHdr} {dyn : Option (List Nat)} {r : List Nat} :
    ∀ {l : List (Nat × List Nat)}, (∀ e ∈ l, blockPixels rd h dyn e.1 e.2 = .ok r) → blocksPixels rd h dyn l = .ok (l.flatMap fun _ => r)
  | [], _ => rfl
  | (m, x) :: l, he => by
    have hh := he (m, x) (by simp)
    simp only at hh
    simp [blocksPixels, hh, blocksPixels_same (l := l) fun e h => he e (by simp [h])]

theorem flat_block (rd : Nat → Option Nat) (dyn : Option (List Nat)) (m : Nat) :
    blockPixels rd hdr16 dyn m ((List.range 16).map fun _ => 0) = .ok (List.replicate 256 0) := by
  rfl

theorem leNat_leBytes (w : Nat) (h : w < 2 ^ 32) : w = leNat (leBytes 4 w) := by
  simp only [leBytes, leNat]
  omega

theorem mapM_some {α β : Type} {f : α → Option β} {g : α → β} : ∀ {l : List α}, (∀ x ∈ l, f x = some (g x)) → l.mapM f = some (l.map g)
  | [], _ => rfl
  | a :: l, h => by
    simp [List.mapM_cons, h a (by simp), mapM_some (l := l) fun x hx => h x (by simp [hx])]

theorem stored_byte (w n a : Nat) (v : Byte) (hl : (onEngine w n).readLine [] (lineAddr a) = .clean) (hc : cellGet (onEngine w n).mem a = some v) :
    (onEngine w n).readByte [] a = some v.toNat := by
  have he : (onEngine w n).lineErr [] (lineAddr a) = [] := rfl
  simp [State.readByte, hl, hc, he, LineRead.ok]

theorem stored_zero (w n : Nat) (i : Nat) (hi : i < 128) : cellGet (onEngine w n).mem (256 + i) = some 0 := by
  show cellGet (stored w State.reset).mem (256 + i) = some 0
  have h : ((List.range 128).map (fun i => ((256 + i, 0) : Nat × Byte))).find? (fun e => e.1 == 256 + i) = some (256 + i, 0) := by
    revert i
    decide +kernel
  simp only [cellGet, stored, List.append_assoc, List.find?_append, h]
  rfl

theorem stored_lines (w n : Nat) : (∀ la ∈ [256, 320, 2304], (onEngine w n).readLine [] la = .clean) := by
  intro la h
  have he : (onEngine w n).lineErr [] la = [] := rfl
  have hb : (onEngine w n).belowPointer la = false := rfl
  have hm : ∀ la ∈ [256, 320, 2304], ((List.range 64).all fun i => (cellGet (stored w State.reset).mem (la + i)).isSome) = true := by
    intro la h
    simp only [List.mem_cons, List.not_mem_nil, or_false] at h
    rcases h with rfl | rfl | rfl <;> rfl
  have hc : ((List.range 64).all fun i => (cellGet (onEngine w n).mem (la + i)).isSome) = true := hm la h
  have hs : ((onEngine w n).lineBytes la).isSome = true := by simp [State.lineBytes, hc]
  have hp : (onEngine w n).poisoned la = false := by
    rw [State.poisoned, hb]
    have : ((onEngine w n).lineBytes la).isNone = false := by simpa using hs
    rw [this]; rfl
  simp [State.readLine, he, hp, hs]

theorem stored_image (w n i : Nat) (hi : i < 128) : (onEngine w n).imageByte [] (bin16 .current) (256 + i) = some 0 := by
  have ha : (onEngine w n).imageAddr (bin16 .current) (256 + i) = 256 + i := by
    simp [State.imageAddr, bin16, StripeHdr.spillOff, StripeHdr.saffronOff, StripeHdr.p0, StripeHdr.nb, slotBytes, hdr16]
    omega
  rw [State.imageByte, ha]
  refine stored_byte w n (256 + i) 0 (stored_lines w n _ ?_) (stored_zero w n i hi)
  simp [lineAddr]; omega

theorem stored_word (w n : Nat) : ((List.range 4).mapM fun i => (onEngine w n).imageByte [] (bin16 .current) (hdr16.saffronOff + 4 * 0 + i)) =
    some (leBytes 4 w) := by
  have hb : ∀ i < 4, (onEngine w n).imageByte [] (bin16 .current) (2304 + i) = some (w / 256 ^ i % 256) := by
    intro i hi
    have ha : (onEngine w n).imageAddr (bin16 .current) (2304 + i) = 2304 + i := by
      simp [State.imageAddr, bin16, StripeHdr.spillOff, StripeHdr.saffronOff, StripeHdr.p0, StripeHdr.nb, slotBytes, hdr16]
      omega
    have hl := stored_lines w n (lineAddr (2304 + i)) (by simp [lineAddr]; omega)
    have hc : cellGet (onEngine w n).mem (2304 + i) = some (BitVec.ofNat 8 (w / 256 ^ i % 256)) := by
      show cellGet (stored w State.reset).mem (2304 + i) = _
      have : ∀ (v : Nat → Byte), ∀ i < 4, cellGet ((List.range 128).map (fun i => (256 + i, 0)) ++
          [(2304, v 0), (2305, v 1), (2306, v 2), (2307, v 3)] ++ (List.range 60).map fun i => (2308 + i, 0)) (2304 + i) = some (v i) := by
        intro v i hi
        have h0 : ((List.range 128).map (fun i => ((256 + i, 0) : Nat × Byte))).find? (fun e => e.1 == 2304 + i) = none := by
          simp [List.find?_eq_none]; omega
        rw [cellGet, List.append_assoc, List.find?_append, h0]
        rcases (by omega : i = 0 ∨ i = 1 ∨ i = 2 ∨ i = 3) with rfl | rfl | rfl | rfl <;> rfl
      have := this (fun i => BitVec.ofNat 8 (w / 256 ^ i % 256)) i hi
      simpa [stored] using this
    rw [State.imageByte, ha, stored_byte w n _ _ hl hc]
    simp
  have := mapM_some (l := List.range 4) (g := fun i => w / 256 ^ i % 256) fun i hi => hb i (List.mem_range.mp hi)
  have e : hdr16.saffronOff + 4 * 0 = 2304 := by decide
  rw [e, this]
  simp [leBytes, List.range, List.range.loop, Nat.div_div_eq_div_mul]

theorem onEngine_decodes (w n : Nat) (hw : w = crcOf crc32c zeros) : (onEngine w n).decodeOn { run16 with released := 0, dispatched := 1, busy := [⟨0, 15, n, false⟩] }
    ⟨0, 15, n, false⟩ = .pass zeros := by
  have hb : (onEngine w n).bin 0 = some (bin16 .current) := rfl
  have hs : ∀ m < 8, slotOf ((onEngine w n).imageByte [] (bin16 .current)) hdr16 m = some ((List.range 16).map fun _ => 0) := by
    intro m hm
    refine mapM_some (l := List.range 16) fun i hi => ?_
    have := stored_image w n (m * 16 + i) (by have := List.mem_range.mp hi; omega)
    simpa [StripeHdr.p0, hdr16, slotBytes, Nat.add_assoc] using this
  have h1 : ((clusterBlocks 0).mapM fun m => (slotOf ((onEngine w n).imageByte [] (bin16 .current)) hdr16 m).map fun s => (m, s)) =
      some ((clusterBlocks 0).map fun m => (m, (List.range 16).map fun _ => 0)) :=
    mapM_some fun m hm => by rw [hs m (by simp [clusterBlocks] at hm; omega)]; rfl
  have h4 : blocksPixels ((onEngine w n).imageByte [] (bin16 .current)) hdr16 (imageTable ((onEngine w n).imageByte [] (bin16 .current)) hdr16)
      ((clusterBlocks 0).map fun m => (m, (List.range 16).map fun _ => 0)) = .ok zeros := by
    rw [blocksPixels_same (r := List.replicate 256 0)]
    · simp only [zeros, List.flatMap_map]
    · intro e he
      obtain ⟨m, _, rfl⟩ := List.mem_map.mp he
      exact flat_block _ _ m
  have h2 : (((clusterBlocks 0).map fun m => (m, (List.range 16).map fun _ => 0)).filter fun e =>
      isEscape e.2 && escapeOk hdr16 (escapeOffset e.2)) = [] := by decide +kernel
  have h5 : crcOf crc32c zeros = leNat (leBytes 4 w) := by
    rw [← hw]
    exact leNat_leBytes w (lt_of_eq_of_lt hw (crc32c_lt zeros))
  have hd := decodeCluster_pass rfl h1 h2 (stored_word w n) h4 h5
  unfold State.decodeOn
  rw [show (onEngine w n).bin ({ run16 with released := 0, dispatched := 1, busy := [⟨0, 15, n, false⟩] } : Run).stripe.bin =
    some (bin16 .current) from hb]
  dsimp only
  rw [if_neg (by decide)]
  exact hd

theorem wit_cluster : (onEngine zerosCrc 0).onEngine 15 = some ({ run16 with released := 0, dispatched := 1, busy := [⟨0, 15, 0, false⟩] }, ⟨0, 15, 0, false⟩) ∧
    (onEngine zerosCrc 0).decodeOn { run16 with released := 0, dispatched := 1, busy := [⟨0, 15, 0, false⟩] } ⟨0, 15, 0, false⟩ = .pass zeros ∧
    0 < (onEngine zerosCrc 0).fld F.PRS_CFG_RETRY := ⟨rfl, onEngine_decodes _ 0 rfl, by decide +kernel⟩

theorem wit_cluster_last : (onEngine zerosCrc 7).onEngine 15 = some ({ run16 with released := 0, dispatched := 1, busy := [⟨0, 15, 7, false⟩] }, ⟨0, 15, 7, false⟩) ∧
    (onEngine zerosCrc 7).decodeOn { run16 with released := 0, dispatched := 1, busy := [⟨0, 15, 7, false⟩] } ⟨0, 15, 7, false⟩ = .pass zeros ∧
    (onEngine zerosCrc 7).fld F.PRS_CFG_RETRY ≤ 7 := ⟨rfl, onEngine_decodes _ 7 rfl, by decide +kernel⟩

/-! ### Tables that pass the check -/

/-- DX = row mod 4 and DY = row / 4, so that with S = 8 every class holds 32 rows. -/
def goodRow (r : Nat) : Nat :=
  r / 4 + r % 4 * 65536 + (if 248 ≤ r / 4 then 16777216 else 0) + if r / 4 < 8 then 33554432 else 0
def goodTables : LatIn :=
  ⟨(List.range 1024).map fun r => (r, BitVec.ofNat 32 (goodRow r)), (List.range 524288).map fun b => (b, 0x800), 8, 0, 0⟩

theorem tableWord_range (n : Nat) (f : Nat → Word) (k : Nat) (hk : k < n) :
    tableWord ((List.range n).map fun i => (i, f i)) k = (f k).toNat := by
  have : ((List.range n).map fun i => (i, f i)).find? (fun e => e.1 == k) = some (k, f k) := by
    rw [List.find?_map]
    have : (List.range n).find? ((fun e : Nat × Word => e.1 == k) ∘ fun i => (i, f i)) = some k := by
      rw [List.find?_eq_some_iff_append]
      refine ⟨by simp, List.range k, (List.range (n - k - 1)).map (k + 1 + ·), ?_, by
        intro a ha; simp at ha; simp; omega⟩
      have e : n = k + (1 + (n - k - 1)) := by omega
      conv_lhs => rw [e, List.range_add, List.range_add]
      simp [Function.comp_def, Nat.add_assoc]
    rw [this]; rfl
  simp [tableWord, this]

theorem goodRow_word {r : Nat} (h : r < 1024) : tableWord goodTables.lattice r = goodRow r := by
  rw [goodTables, tableWord_range 1024 (fun r => BitVec.ofNat 32 (goodRow r)) r h]
  have : goodRow r < 2 ^ 32 := by unfold goodRow; split <;> split <;> omega
  simpa using this

theorem goodRow_fields : ∀ r < 1024, goodRow r % 8192 = r / 4 ∧ goodRow r / 65536 % 4 = r % 4 ∧
    (goodRow r).testBit 24 = decide (248 ≤ r / 4) ∧ (goodRow r).testBit 25 = decide (r / 4 < 8) := by decide +kernel

theorem good_dy {r : Nat} (h : r < 1024) : goodTables.dy r = r / 4 := by
  rw [LatIn.dy, goodRow_word h, (goodRow_fields r h).1]
theorem good_dx {r : Nat} (h : r < 1024) : goodTables.dx r = r % 4 := by
  rw [LatIn.dx, goodRow_word h, (goodRow_fields r h).2.1]
theorem good_fclose {r : Nat} (h : r < 1024) : goodTables.fclose r = decide (248 ≤ r / 4) := by
  rw [LatIn.fclose, goodRow_word h, (goodRow_fields r h).2.2.1]
theorem good_rclose {r : Nat} (h : r < 1024) : goodTables.rclose r = decide (r / 4 < 8) := by
  rw [LatIn.rclose, goodRow_word h, (goodRow_fields r h).2.2.2]
theorem good_g {b : Nat} (h : b < 524288) : goodTables.g b = 0x800 := by
  rw [LatIn.g, goodTables, tableWord_range 524288 (fun _ => 0x800) b h]; rfl
theorem good_cls {r : Nat} (h : r < 1024) : goodTables.cls r = 64 * (r % 4) + r / 4 % 8 := by
  rw [LatIn.cls, good_dx h, good_dy h]; rfl

/-- The rows of a class. -/
def goodClass (k : Nat) : List Nat := (List.range 1024).filter fun r => 64 * (r % 4) + r / 4 % 8 == k

theorem good_rows (k : Nat) : goodTables.classRows k = goodClass k := by
  unfold LatIn.classRows goodClass beamRows
  exact List.filter_congr fun r h => by rw [good_cls (List.mem_range.mp h)]

theorem goodClass_lt {k r : Nat} (h : r ∈ goodClass k) : r < 1024 := List.mem_range.mp (List.mem_filter.mp h).1

theorem good_classes : ∀ k ∈ goodTables.classes, (goodClass k).length = 32 ∧ ((goodClass k).map (· / 4)).foldl max 0 = 248 + k % 64 ∧
    ((goodClass k).map (· / 4)).foldl min 8191 = k % 64 ∧ ∀ r ∈ goodClass k, r / 4 % 8 = k % 64 := by
  decide +kernel

theorem good_check : goodTables.check = none := by
  have hd : ∀ k, (goodTables.classRows k).map goodTables.dy = (goodClass k).map (· / 4) := fun k => by
    rw [good_rows]; exact List.map_congr_left fun r h => good_dy (goodClass_lt h)
  have h1 : goodTables.badDxGroup = none := by
    simp only [LatIn.badDxGroup, Option.map_eq_none_iff, List.find?_eq_none, List.mem_range]
    intro m hm
    have : ∀ d < 4, ∃ i < 4, goodTables.dx (4 * m + i) = d := fun d hd => ⟨d, hd, by rw [good_dx (by omega)]; omega⟩
    simpa using this
  have h2 : goodTables.badCollide = none := by
    simp only [LatIn.badCollide, Option.map_eq_none_iff, List.find?_eq_none, beamRows, List.mem_range]
    intro r hr
    simp only [List.any_eq_true, List.mem_range, Bool.and_eq_true, beq_iff_eq, not_exists, not_and]
    intro x hx e
    rw [good_dx (by omega), good_dx hr] at e
    rw [good_dy (by omega), good_dy hr]
    omega
  have h3 : goodTables.badEmpty = none := by
    simp only [LatIn.badEmpty, Option.map_eq_none_iff, List.find?_eq_none]
    intro k hk
    have := (good_classes k hk).1
    rw [good_rows]
    intro he
    rw [List.isEmpty_iff.mp he] at this
    simp at this
  have h4 : goodTables.badOver = none := by
    simp only [LatIn.badOver, Option.map_eq_none_iff, List.find?_eq_none]
    intro k hk
    rw [good_rows, (good_classes k hk).1]
    decide
  have h5 : goodTables.badFlag = none := by
    simp only [LatIn.badFlag, List.findSome?_eq_none_iff, Option.map_eq_none_iff, List.find?_eq_none]
    intro k hk r hr
    obtain ⟨-, hmax, hmin, hmod⟩ := good_classes k hk
    rw [good_rows] at hr
    have hl := goodClass_lt hr
    have := hmod r hr
    simp only [LatIn.flagsWrong, LatIn.maxDy, LatIn.minDy, hd, hmax, hmin, good_fclose hl, good_rclose hl, good_dy hl]
    have e1 : decide (248 ≤ r / 4) = (r / 4 == 248 + k % 64) := by rw [Bool.eq_iff_iff]; simp; omega
    have e2 : decide (r / 4 < 8) = (r / 4 == k % 64) := by rw [Bool.eq_iff_iff]; simp; omega
    simp [e1, e2]
  have h6 : goodTables.badGain = none := by
    simp only [LatIn.badGain, Option.map_eq_none_iff, List.find?_eq_none, beams, List.mem_range]
    intro b hb
    rw [good_g hb]
    decide
  have h7 : goodTables.badDead = none := by
    simp only [LatIn.badDead, List.findSome?_eq_none_iff, Option.map_eq_none_iff, List.find?_eq_none, List.mem_range]
    intro k hk c hc ha
    have hn := (good_classes k hk).1
    rw [good_rows] at ha
    obtain ⟨r, hr⟩ : ∃ r, r ∈ goodClass k := List.exists_mem_of_length_pos (by omega)
    have := List.all_eq_true.mp ha r hr
    have hl := goodClass_lt hr
    rw [good_g (by omega)] at this
    simp at this
  simp [LatIn.check, h1, h2, h3, h4, h5, h6, h7]
  decide

/-- A check of tables that runs. -/
def checkingOf (lattice gain : List (Nat × Word)) : State :=
  blk (put checking [(F.LAT_STEP_STEP, 8), (F.LAT_DSCALE_W, 0), (F.LAT_CFG_DEPTH, 0)]) fun b =>
    { b with lat := { b.lat with lattice := lattice, gain := gain } }

theorem checkingOf_latIn (lattice gain : List (Nat × Word)) : (checkingOf lattice gain).latIn = ⟨lattice, gain, 8, 0, 0⟩ := by
  have h : (checkingOf [] []).fld F.LAT_STEP_STEP = 8 ∧ (checkingOf [] []).fld F.LAT_DSCALE_W = 0 ∧
      (checkingOf [] []).fld F.LAT_CFG_DEPTH = 0 := by decide +kernel
  show LatIn.mk lattice gain ((checkingOf [] []).fld F.LAT_STEP_STEP) ((checkingOf [] []).fld F.LAT_DSCALE_W)
    ((checkingOf [] []).fld F.LAT_CFG_DEPTH) = _
  rw [h.1, h.2.1, h.2.2]

theorem checkingOf_checks (lattice gain : List (Nat × Word)) : (checkingOf lattice gain).checking = true ∧ (checkingOf lattice gain).powered 1 = true := by
  show (checkingOf [] []).checking = true ∧ (checkingOf [] []).powered 1 = true
  decide +kernel

theorem latIn_eta (t : LatIn) (h1 : t.s = 8) (h2 : t.w = 0) (h3 : t.depth = 0) : (⟨t.lattice, t.gain, 8, 0, 0⟩ : LatIn) = t := by
  obtain ⟨_, _, _, _, _⟩ := t
  simp only at h1 h2 h3
  rw [h1, h2, h3]

theorem wit_check_passes : (checkingOf goodTables.lattice goodTables.gain).checking = true ∧
    (checkingOf goodTables.lattice goodTables.gain).powered 1 = true ∧
    (checkingOf goodTables.lattice goodTables.gain).latIn.check = none :=
  ⟨(checkingOf_checks _ _).1, (checkingOf_checks _ _).2, by
    rw [checkingOf_latIn, latIn_eta goodTables rfl rfl rfl]; exact good_check⟩

/-! ### Witnesses: the shot path -/

/-- A take point of shot 1 at hand, of a stripe of two shots. -/
def atTake (s : State) : State := blk s fun b => { b with sht := { b.sht with frozen := [(-1, 0)], runStart := 0 } }

/-- A frame of lane 63 in its queue, and shot 0 with only that frame unsent. -/
def lastFrame : TxFrame :=
  { lane := 63, shot := 0, count := 5, vintage := 1, stripe := 1, hold := false, rexp := false, first := true, last := false, rev := false,
    depth := 0, codes := [], sig := 0 }
def sending : State :=
  blk (job16 .writing) fun b => { b with plk := { b.plk with txq := [lastFrame] },
                                         sht := { b.sht with recs := [{ shot := 0, taken := true, count := 5, unsent := [63] }] } }

theorem wit_frames : (let s := atTake (blk (job16 .writing) fun b => { b with cask := { b.cask with slots := [{ shot := 1, complete := true }] } })
     s.b.sht.frozen = [(-1, 0)] ∧ (-1 : Int) < s.b.sht.runStart ∧ s.dev ≠ .racking ∧ s.run = some run16 ∧ s.b.lat.cap = some flat ∧
       1 < run16.stripe.shots ∧ s.stoppedAt 1 = false ∧ s.injecting 0x90 = false ∧ s.b.plk.swapHeld = [] ∧ s.nextCount ≠ 0xFFFFFFFF ∧
       s.slot 1 = some { shot := 1, complete := true } ∧ s.heldFrom 1 = false ∧ s.b.par.wdSelf = false ∧ (s.shotRec 1).det = none) ∧
    (let s := atTake (job16 .writing)
     s.slot 1 = none ∧ s.b.sht.first ≤ 1 ∧ s.heldFrom 1 = false ∧ s.b.par.wdSelf = false ∧ (s.shotRec 1).det = none) ∧
    (sending.b.plk.txq.find? fun x => x.lane == (63 : Fin 64).val) = some lastFrame ∧ sending.paired = false ∧ lastFrame.inj.1 = 0 ∧
    ({ lastFrame with hold := true } : TxFrame).hold = true ∧ lastFrame.hold = false ∧ lastFrame.shot ≠ 0xFFFFFFFF ∧ (sending.shotRec 0).taken = true ∧
    (sending.shotRec 0).count = lastFrame.count ∧ (sending.shotRec 0).unsent = [63] ∧ (sending.shotRec 0).det = none ∧
    (sending.shotRec 0).verdict = none ∧ (sending.shotRec 0).sealed = none ∧ sending.heldFrom 0 = false ∧
    sending.stoppedAt 0 = false := by decide +kernel

/-- Shot 0 settled and sent; shot 0 sealed and its edge at hand, as the first and as the last shot of the stripe. -/
def settled : State :=
  blk (job16 .writing) fun b => { b with sht := { b.sht with recs := [{ shot := 0, taken := true, verdict := some 3 }] } }
def atEdge (shots : Nat) (s : Option (Nat × Int)) (d : DevState) : State :=
  blk (slotted true (job16 d)) fun b =>
    { b with press := { b.press with runs := [{ run16 with stripe := { stripe16 with shots := shots } }] },
             sht := { b.sht with frozen := [(0, 6553600)], recs := [{ shot := 0, taken := true, sealed := s }] } }
def armedShot : State :=
  blk (job16 .writing) fun b => { b with sht := { b.sht with pred := some 6553600, armed := true, active := true } }

theorem wit_seals : (settled.shotRec settled.b.sht.first).verdict = some 3 ∧ drives 3 = true ∧ (settled.shotRec 0).allSent = true ∧
    settled.unsealed 0 = true ∧ settled.injecting 0x90 = false ∧ armedShot.b.sht.pred = some 6553600 ∧ armedShot.b.sht.armed = true ∧
    (armedShot.b.sht.runStart : Int) ≤ armedShot.b.sht.next ∧ armedShot.unsealed 0 = true ∧ armedShot.b.sht.first ≤ 0 ∧
    armedShot.role = .solo ∧ armedShot.dev = .writing ∧ armedShot.b.sht.rackN ≠ some 0 := by decide +kernel

theorem wit_strobes : (let s := atEdge 2 (some (3, 0)) .writing
     s.b.sht.frozen = [(0, 6553600)] ∧ s.run = some { run16 with stripe := { stripe16 with shots := 2 } } ∧ (s.b.sht.runStart : Int) ≤ 0 ∧
       s.dev = .writing ∧ (s.shotRec 0).sealed = some (3, 0) ∧ drives 3 = true ∧ s.heldFrom 0 = false ∧ s.stoppedAt 0 = false ∧
       s.slot 0 = some { shot := 0, complete := true } ∧ s.b.sht.rackN ≠ some 2) ∧
    (let s := atEdge 1 (some (3, 0)) .writing
     s.run = some { run16 with stripe := { stripe16 with shots := 1 } } ∧ 0 + 1 = ({ stripe16 with shots := 1 } : Stripe).shots ∧
       ({ stripe16 with shots := 1 } : Stripe).last = true) ∧
    ((atEdge 2 none .writing).shotRec 0).sealed = none ∧ (atEdge 2 none .armed).dev = .armed ∧
    (atEdge 2 none .armed).b.job.disarming = false := by decide +kernel

/-- Records with their CRC-8: of a kind, with given other bits. -/
def record (bits : Nat) : BitVec 64 := BitVec.ofNat 64 (bits + crcOf crc8 ((leBytes 8 bits).drop 1))

/-- WRITING with an ACK due on half 1, input 63 locked and the link UP, return lane 3 locked. -/
def acking : State :=
  blk (put writing [(F.PLK_STAT_BRINGUP, 7)]) fun b =>
    { b with plk := { b.plk with acks := [⟨1, 4, 1, true, 0⟩], locked := [63], retLock := [3] } }

theorem wit_records : acking.powered 4 = true ∧ recordOk (1 : BitVec 64).toNat = false ∧
    (let r := record (2 ^ 60 + 2 ^ 59 + 4 * 2 ^ 8)
     recordOk r.toNat = true ∧ recKind r.toNat = 1 ∧ recBits r.toNat 56 3 = 0 ∧
       acking.ackFor (recBits r.toNat 59 1) (recBits r.toNat 8 32) = some ⟨1, 4, 1, true, 0⟩) ∧
    (let r := record (2 ^ 60 + 2 ^ 59 + 2 ^ 56 + 4 * 2 ^ 8)
     recordOk r.toNat = true ∧ recKind r.toNat = 1 ∧ recBits r.toNat 56 3 ≠ 0 ∧
       acking.ackFor (recBits r.toNat 59 1) (recBits r.toNat 8 32) = some ⟨1, 4, 1, true, 0⟩) ∧
    (let r := record (2 * 2 ^ 60 + 63 * 2 ^ 54)
     recordOk r.toNat = true ∧ recKind r.toNat = 2 ∧ recBits r.toNat 54 6 = 63) ∧
    (put acking [(F.PLK_CFG_BLANK_STOP, 0)]).flag F.PLK_CFG_BLANK_STOP = false ∧ (acking.b.plk.acks.find? fun x => x.half == if true then 1 else 0) = some ⟨1, 4, 1, true, 0⟩ ∧
    (put acking [(F.PRT_CFG_ACK_REQ, 1)]).flag F.PRT_CFG_ACK_REQ = true ∧ (put acking [(F.PRT_CFG_ACK_REQ, 0)]).flag F.PRT_CFG_ACK_REQ = false ∧
    acking.b.plk.locked.contains (63 : Fin 64).val = true ∧ acking.bringup = 7 ∧ acking.role = .solo ∧ acking.dev = .writing ∧
    acking.b.plk.steps = [] ∧ acking.b.plk.retLock.contains (3 : Fin 4).val = true := by decide +kernel

/-- READY with injections armed on every page. -/
def injectable : State :=
  regs (put ready [(F.FIJ_ARM_ARM, 1), (F.FIJ_STAT_ARMED, 1)]) [(pageReg 0x90 8, 9), (pageReg 0xA8 8, 9), (pageReg 0xC0 8, 9), (pageReg 0xC1 8, 9)]

theorem wit_bringup : ready.reaches 0x90 = true ∧ ready.b.plk.steps = [] ∧ writing.reaches 0x90 = true ∧ writing.dev ≠ .ready ∧
    injectable.injecting 0x90 = true ∧ F.PLK_FIJ_CFG_KIND.get (0x30000000 : Word).toNat = 3 ∧ F.PLK_FIJ_CFG_ALL.get (0x30000000 : Word).toNat = 0 ∧
    ready.injecting 0x90 = false ∧ ready.rd (pageReg 0x90 0x020) / 2 ^ 16 % 2 ^ 15 = 0 := by
  decide +kernel

/-! ### Witnesses: position -/

/-- JRX up, an axis at its fourth bad sample in a row, a phase on axis 0. -/
def sampled (d : DevState) : State :=
  blk (put (at' d) [(F.POS_STAT_JRX_UP, 1), (F.POS_STAT_SYSREF_OK, 1)]) fun b =>
    { b with pos := { b.pos with ax0 := { b.pos.ax0 with phi := some 0 }, ax3 := { b.pos.ax3 with badRun := 3 } } }

/-- A sample of full amplitude along I on every axis, and one of no amplitude. -/
def fullI : Sample := ⟨16384, 0, 16384, 0, 16384, 0, 16384, 0⟩
def noI : Sample := ⟨0, 0, 0, 0, 0, 0, 0, 0⟩

theorem wit_samples : (sampled .writing).flag F.POS_STAT_JRX_UP = true ∧ (sampled .writing).powered 5 = true ∧
    (sampled .writing).b.pos.writes = [] ∧ (sampled .writing).b.pos.commits = [] ∧ (∀ i < 4, ((sampled .writing).b.pos.axis i).lost = false) ∧
    ((sampled .writing).judge 0 ((sampled .writing).rawIQ fullI 0) false).1 = true ∧
    ((sampled .writing).judge 1 ((sampled .writing).rawIQ fullI 1) false).1 = true ∧
    ((sampled .writing).judge 3 ((sampled .writing).rawIQ noI 3) false).1 = false ∧ 3 ≤ ((sampled .writing).b.pos.axis 3).badRun ∧
    (sampled .writing).axisValid 3 = true ∧ (sampled .writing).inJob = true ∧ (sampled .ready).inJob = false ∧
    (∃ i < 4, (sampled .writing).axisValid i = true) ∧
    (put ready [(F.TRK_STAT_JTX_UP, 1)]).flag F.TRK_STAT_JTX_UP = true ∧
    (blk ready fun b => { b with pos := { b.pos with realign := true } }).b.pos.realign = true ∧ ready.b.pos.realign = false ∧
    ready.flag F.POS_STAT_SYSREF_MOVED = false ∧ ready.reaches 0xB0 = true ∧ writing.reaches 0xB0 = true ∧
    (0x8 : BitVec 4).toNat.testBit 3 = true ∧ (0x8 : BitVec 4).toNat.testBit 0 = false := by decide +kernel

/-- The next index armed at an edge: a take point; a shot sealed in time; a shot too soon after the last edge. -/
def freezing (next : Int) (last : Option Int) : State :=
  blk (job16 .writing) fun b =>
    { b with sht := { b.sht with pred := some 655360000, active := true, armed := true, next := next, lastEdge := last,
                                 recs := [{ shot := 0, sealed := some (3, 0) }, { shot := 1, sealed := some (3, 0) }] } }

/-- The deflection runs. -/
def deflecting : State := put writing [(F.TRK_STAT_JTX_UP, 1), (F.TRK_CFG_EN, 1), (F.TRK_CFG_FF, 0), (F.TRK_CFG_FEC, 0)]

theorem wit_freeze : (freezing (-2) none).b.sht.pred = some 655360000 ∧ (freezing (-2) none).b.sht.active = true ∧
    (freezing (-2) none).b.sht.armed = true ∧ (-2 : Int) < ((freezing (-2) none).b.sht.runStart : Int) ∧
    ((freezing 0 none).b.sht.runStart : Int) ≤ 0 ∧ (freezing 0 none).stoppedAt 0 = false ∧
    ((freezing 0 none).shotRec 0).sealed = some (3, 0) ∧ (freezing 0 none).sealLead ≤ 655360000 - 0 ∧
    (freezing 0 none).heldFrom 0 = false ∧ (freezing 0 none).b.sht.rackWait = none ∧
    ((freezing 1 (some 655359999)).b.sht.runStart : Int) < 1 ∧ (655360000 : Int) - 655359999 < (freezing 1 (some 655359999)).tMinUnits ∧
    deflecting.powered 5 = true ∧ deflecting.flag F.TRK_STAT_JTX_UP = true ∧ deflecting.tracking = true ∧
    deflecting.flag F.TRK_CFG_FF = false ∧ deflecting.flag F.TRK_CFG_FEC = false ∧
    (put ready [(F.TRK_STAT_JTX_UP, 1)]).tracking = false ∧ ready.reaches 0xB2 = true ∧ ready.locked = false ∧ writing.locked = true ∧
    writing.rd (pageReg 0xB2 0x020) / 2 ^ 16 % 2 ^ 15 = 0 := by decide +kernel

/-- A candidate on axis 3; a step that waits; a ramp that has run. -/
def calibrated : State := put ready [(F.AX_STAT_CAND_VALID 3, 1)]
def stepping : State := blk ready fun b => { b with pos := { b.pos with stepWait := [(3, {})] } }
def ramped : State := blk ready fun b => { b with pos := { b.pos with ax3 := { b.pos.ax3 with ramp := some ⟨{}, {}, 8, 8⟩ } } }

theorem wit_calibration : calibrated.reaches 0xD3 = true ∧ calibrated.role = .solo ∧ calibrated.flag (F.AX_STAT_CAND_VALID 3) = true ∧
    calibrated.flag (F.AX_STAT_CAND_VALID 0) = false ∧ (put calibrated [(F.CAL_CFG_RAMP, 0)]).locked = false ∧
    ((put calibrated [(F.CAL_CFG_RAMP, 0)]).fld F.CAL_CFG_RAMP).testBit 3 = false ∧ writing.reaches 0xD3 = true ∧
    stepping.stripeBoundary = true ∧ stepping.b.pos.stepWait = [(3, {})] ∧
    (ramped.b.pos.axis (3 : Fin 4)).ramp = some ⟨{}, {}, 8, 8⟩ := by decide +kernel

/-! ### Witnesses: motion -/

/-- Limits set, and both axes within travel. -/
def movable (d : DevState) : State :=
  regs (at' d) [(R.MOT_VMAX, 1000), (R.MOT_AMAX, 1000), (R.MOT_JMAX, 1000), (R.MOT_YLIM_HI, 1000), (R.MOT_XLIM_HI, 1000)]

/-- A segment under way that a velocity limit of 5 does not keep. -/
def gliding : State :=
  blk (movable .writing) fun b => { b with mot := { b.mot with y := { b.mot.y with v := 6, k := 1, segs := [⟨10, 0, none, 60, 6, 0⟩] } } }
def latched (v : Rat) : State :=
  blk (movable .ready) fun b =>
    { b with mot := { b.mot with latched := [(limitReg .vmax, 5)], y := { b.mot.y with v := v, segs := [⟨10, 0, none, 60, v, 0⟩] } } }

theorem wit_motion : (movable .ready).reaches 0xB4 = true ∧ (movable .ready).paired = false ∧ (movable .ready).canMove = true ∧
    (movable .ready).inTravelY ((movable .ready).signedReg R.MOT_TGT_Y : Int) = true ∧
    (movable .ready).inTravelX ((movable .ready).signedReg R.MOT_TGT_X : Int) = true ∧
    (regs (movable .ready) [(R.MOT_TGT_Y, 2000)]).inTravelY ((regs (movable .ready) [(R.MOT_TGT_Y, 2000)]).signedReg R.MOT_TGT_Y : Int) = false ∧
    (regs ready [(R.MOT_VMAX, 0)]).canMove = false ∧ (movable .ready).stageStill = true ∧ (movable .ready).atRest = true ∧ gliding.atRest = false ∧
    ({ movable .ready with role := .active } : State).paired = true ∧ ({ movable .ready with role := .active } : State).b.par.mate ≠ .lost ∧
    (1 : Word) ≠ 0 ∧ (movable .ready).limitFits (limitReg .vmax) 1 = true ∧
    ((movable .ready).limitPlan (limitReg .vmax) 1).isSome = true ∧
    gliding.limitFits (limitReg .vmax) 5 = true ∧ gliding.limitPlan (limitReg .vmax) 5 = none ∧
    writing.dev ≠ .ready ∧ writing.rd (pageReg 0xB4 0x020) / 2 ^ 16 % 2 ^ 15 = 0 ∧
    (latched 1).b.mot.latched = [(limitReg .vmax, 5)] ∧ (latched 1).b.mot.y.k = 0 ∧ (latched 1).b.mot.x.k = 0 ∧
    ((latched 1).limitPlan (limitReg .vmax) 5).isSome = true ∧
    (latched 6).limitPlan (limitReg .vmax) 5 = none := by decide +kernel

/-- A racking dwells at shot 0, whose slots stand; one whose slot does not; both over their waits. -/
def dwells (ok : Bool) (n : Nat) : State :=
  blk (put (job16 .racking) [(F.MOT_RACK_DWELL, 1), (F.MOT_RACK_WAIT_MS, 1)]) fun b =>
    { b with sht := { b.sht with rackN := some 0 }, mot := { b.mot with rackPart := 3, dwell := n },
             cask := { b.cask with slots := if ok then [{ shot := 0, complete := true }, { shot := 1, complete := true }] else [] } }

/-- A frame for a partner's entry in queue 15, due now. -/
def dueFrame (now : Nat) (entry : Option Nat) : State :=
  blk (put ready [(F.LTQ_Q_CFG_EN 15, 1), (F.LTQ_Q_CFG_TOL 15, 100)]) fun b =>
    { b with tim := { b.tim with ns := now * 2 ^ 32, ltq := [⟨15, 0, 1000, entry, 0x30, []⟩] } }

theorem wit_setpoints : ready.dev ≠ .off ∧ ready.dev ≠ .reset ∧ ready.dev ≠ .dormant ∧ ready.b.mot.writes = [] ∧
    ready.b.par.roleAt = none ∧ (put ready [(F.MOT_CFG_EN, 1)]).launches = true ∧ (put ready [(F.MOT_CFG_EN, 1)]).b.tim.ltq.length < 256 ∧
    ready.b.mot.phase = .idle ∧ ready.b.mot.thenY = none ∧ ready.b.mot.thenX = none ∧ ready.b.job.disarming = false ∧
    (let s := blk (job16 .armed) fun b => { b with mot := { b.mot with stripe := 1 } }
     s.run = some run16 ∧ s.mayRunIn run16 = true) ∧
    (dwells true 20).dwelling = some 0 ∧ (dwells true 20).paired = false ∧
    (dwells true 20).fld F.MOT_RACK_DWELL * 1000 ≤ (dwells true 20).b.mot.dwell * 50 ∧ (dwells true 20).rackReady 0 = true ∧
    (dwells true 19).b.mot.dwell * 50 < (dwells true 19).fld F.MOT_RACK_DWELL * 1000 ∧ (dwells false 20).rackReady 0 = false ∧
    (dwells false 20).fld F.MOT_RACK_WAIT_MS * 1000 ≤ (dwells false 20).b.mot.dwell * 50 := by decide +kernel

theorem wit_launches : (dueFrame 1000 (some 5)).nextFrame = some ⟨15, 0, 1000, some 5, 0x30, []⟩ ∧
    (dueFrame 1000 (some 5)).pageWorks 0xC3 = true ∧ (⟨15, 0, 1000, some 5, 0x30, []⟩ : LtqFrame).at' ≤ (dueFrame 1000 none).timNs ∧
    (dueFrame 1100 none).timNs ≤ (⟨15, 0, 1000, none, 0x30, []⟩ : LtqFrame).at' + (dueFrame 1100 none).fld (F.LTQ_Q_CFG_TOL 15) ∧
    (⟨15, 0, 1000, none, 0x30, []⟩ : LtqFrame).at' + (dueFrame 1101 none).fld (F.LTQ_Q_CFG_TOL 15) < (dueFrame 1101 none).timNs ∧
    (dueFrame 1101 none).flag (F.LTQ_Q_CFG_SEND_LATE 15) = false ∧ (dueFrame 1000 (some 5)).frameTo ⟨15, 0, 1000, some 5, 0x30, []⟩ = [] ∧
    (blk (dueFrame 1000 (some 5)) fun b => { b with net := { b.net with partners := [⟨5, 0, 9, 0, 1, 0, 0, 0, 0, 0⟩] } }).frameTo
      ⟨15, 0, 1000, some 5, 0x30, []⟩ ≠ [] := by decide +kernel

/-! ### Witnesses: the pair -/

/-- A device of a pair, by device state, role and the mate's status. -/
def mates (d : DevState) (r : Role) (m : Mate) : State :=
  { blk (at' d) fun b => { b with par := { b.par with mate := m } } with role := r }
/-- One that writes stripe 1 as ACTIVE, shot 0 unsettled, with its own vote. -/
def voting (own : Nat) : State :=
  { blk (job16 .writing) fun b => { b with par := { b.par with mate := .up }, sht := { b.sht with recs := [{ shot := 0, ownVote := some own }] } }
    with role := .active }

theorem wit_heartbeats : (mates .writing .active .up).pairLive = true ∧ (mates .writing .active .up).powered 4 = true ∧
    (mates .writing .active .up).pageWorks 0xA8 = true ∧ (mates .writing .active .up).injecting 0xA8 = false ∧
    (mates .writing .active .up).b.par.swapHeld = [] ∧
    (let s := blk (mates .writing .active .linkDown) fun b => { b with par := { b.par with hbWord := some 7, rxLock := [7] } }
     s.powered 4 = true ∧ s.inJob = true ∧ s.paired = true ∧ s.b.par.mate ≠ .lost ∧ s.b.par.joinStep = 0 ∧
       s.b.par.hbWord = some (7 : Word).toNat ∧ s.b.par.rxLock.contains ((leBytes 16 (0x070000 : BitVec 128).toNat).getD 2 0 % 8) = true ∧
       s.b.par.mate = .linkDown) ∧
    (mates .writing .active .up).b.par.mate = .up ∧ (mates .writing .standby .linkDown).paired = true ∧
    (mates .writing .standby .linkDown).role = .standby ∧
    (blk (mates .writing .active .up) fun b => { b with par := { b.par with rxLock := [7] } }).b.par.rxLock.contains (7 : Fin 8).val = true ∧
    (blk (mates .writing .active .up) fun b => { b with par := { b.par with rxStuck := [7] } }).b.par.rxStuck.contains (7 : Fin 8).val = true ∧
    ready.b.par.rxStuck.contains (7 : Fin 8).val = false ∧ ready.b.par.joinStep = 0 ∧
    (let s := blk (put (mates .writing .active .up) [(F.PAR_CFG_COMEBACK, 1)]) fun b =>
       { b with par := { b.par with joined := true, cleanStripes := 1 }, mot := { b.mot with phase := .turn } }
     s.role = .active ∧ s.b.par.mate = .up ∧ s.b.par.joined = true ∧ s.flag F.PAR_CFG_COMEBACK = true ∧ 1 ≤ s.b.par.cleanStripes ∧
       s.b.par.roleAt = none ∧ s.dev = .writing ∧ s.b.mot.phase = .turn) := by decide +kernel

theorem wit_votes : ([] : List (BitVec 64)).length ≠ 8 ∧ (List.replicate 8 (0 : BitVec 64)).length = 8 ∧
    (let s : State := { job16 .writing with role := .active }
     s.paired = true ∧ s.run.isSome = true ∧ s.b.sht.first ≤ (0 : Word).toNat ∧ s.b.par.mate ≠ .lost ∧ s.b.par.wdMate = false ∧
       (s.shotRec 0).ownVote = none ∧ (s.shotRec 0).det = none ∧ (s.shotRec 0).allSent = false) ∧
    ((voting 8).shotRec 0).ownVote = some 8 ∧ (voting 8).paired = true ∧ (voting 8).run.isSome = true ∧ (voting 8).b.par.mate ≠ .lost ∧
    voteBad 8 = false ∧ voteBad (8 : BitVec 64).toNat = false ∧ (8 : BitVec 64).toNat.testBit 8 = ((voting 8).shotRec 0).rexp ∧
    ((voting 8).shotRec 0).verdict = none ∧ ((voting 8).shotRec 0).sealed = none ∧ (voting 8).heldFrom 0 = false ∧
    (voting 8).stoppedAt 0 = false ∧ voteEq 8 = true ∧ voteEq (8 : BitVec 64).toNat = true ∧ voteEq 0 = false ∧
    (voting 0).b.par.defer ≠ some (0 : Word).toNat := by decide +kernel

theorem wit_pair_messages : (mates .writing .active .up).paired = true ∧
    (mates .writing .active .up).periodNow < fullIndex (mates .writing .active .up).periodNow ((1 : Word).toNat) ∧
    fullIndex (mates .writing .active .up).periodNow (0 : Word).toNat ≤ (mates .writing .active .up).periodNow ∧
    (mates .writing .active .up).b.pos.n ≤ fullIndex (mates .writing .active .up).b.pos.n (0 : Word).toNat ∧
    (let s := blk (mates .writing .active .up) fun b => { b with pos := { b.pos with n := 5 } }
     fullIndex s.b.pos.n (4 : Word).toNat < s.b.pos.n) ∧
    (blk (mates .racking .active .up) fun b => { b with sht := { b.sht with rackN := some 4 } }).b.sht.rackN = some (4 : Word).toNat ∧
    (0xB4100 : BitVec 20).toNat / 0x1000 = 0xB4 ∧ (0xB0100 : BitVec 20).toNat / 0x1000 ≠ 7 ∧ (0xB0100 : BitVec 20).toNat / 0x1000 ≠ 0xB4 ∧
    (mates .writing .active .up).run.isSome = false ∧ (voting 0).b.sht.first ≤ (0 : Word).toNat ∧
    (mates .armed .active .up).dev = .armed ∧ (mates .writing .standby .up).b.par.mate ≠ .lost ∧
    (mates .writing .standby .up).role = .standby := by decide +kernel

/-- A joiner at a step of its join; a bin of stripe 3 with the device's own digest. -/
def joining (n : Nat) : State :=
  { blk (put ready [(F.CEL_BIN_CFG_NBINS, 8), (F.CEL_BIN_CFG_BIN_MIB, 1)]) fun b =>
      { b with par := { b.par with joinStep := n, joiner := true, isJoin := true }, job := { b.job with queue := [{ entry16 with bin := 7 }] } }
    with role := .joining }
def digested : State :=
  blk (mates .ready .active .up) fun b =>
    { b with cel := { b.cel with bins := [{ bin16 .ready with stripe := 3, sdig := some 77 }] }, par := { b.par with mate := .up, ownDigest := some (5, 9) } }

theorem wit_digests : digested.pairLive = true ∧ digested.b.par.joinStep = 0 ∧ digested.b.par.ownDigest = some (5, (9 : Word).toNat) ∧
    digested.b.par.digestReq = none ∧ (5 : Nat) ≠ (6 : BitVec 64).toNat ∧
    (∀ x ∈ digested.b.cel.bins, x.stripe = (4 : Word).toNat → x.sdig = none) ∧
    digested.b.cel.bins = [{ bin16 .ready with stripe := 3, sdig := some 77 }] ∧ digested.paired = true ∧ (77 : Nat) = (77 : BitVec 64).toNat ∧
    (77 : Nat) ≠ (78 : BitVec 64).toNat ∧ (joining 3).role = .joining ∧ (joining 3).b.par.joinStep = 3 ∧
    ckptLen (assembled [(0, [1, 2])] 2 []) = none ∧ (joining 5).b.par.joinStep = 5 ∧ (joining 5).b.par.joiner = true ∧
    ((joining 5).b.job.queue.find? fun x => x.stripe == (1 : Word).toNat) = some { entry16 with bin := 7 } ∧ (joining 5).bin 7 = none := by
  decide +kernel

theorem wit_pairing : ready.reaches 0xA8 = true ∧ ready.role = .solo ∧ ready.b.par.joinStep = 0 ∧ ready.ageBusy = false ∧
    (mates .ready .split .lost).role = .split ∧ (joining 1).role = .joining ∧ (joining 1).reaches 0xA8 = true ∧ ready.role ≠ .joining ∧
    ready.rd (pageReg 0xA8 0x020) / 2 ^ 16 % 2 ^ 15 = 0 ∧ writing.reaches 0xA8 = true ∧ injectable.injecting 0xA8 = true ∧
    F.PAR_FIJ_CFG_KIND.get (0x10000000 : Word).toNat = 1 ∧ F.PAR_FIJ_CFG_ALL.get (0x10000000 : Word).toNat = 0 ∧
    ready.injecting 0xA8 = false ∧ (joining 6).b.par.joinStep = 6 ∧ (joining 1).b.par.joinStep = 1 := by decide +kernel

/-! ### Witnesses: the network -/

/-- Both ports up, with IP addresses; DEV_ID 1; partners: a host 9, a mate 8, a timekeeper 7, a stage 6; sessions with the first two. -/
def online (d : DevState) : State :=
  { blk (regs (put (at' d) [(F.NET_STAT_LINK 0, 1), (F.NET_STAT_LINK 1, 1), (F.DSC_CFG_COLUMN, 3), (F.IDN_POLICY_RD_AUTH, 0),
        (F.IDN_POLICY_ATT_AUTH, 0), (F.NET_CFG_V4 0, 1), (F.AON_WAKE_CFG_NET, 1), (F.LTQ_Q_CFG_EN 15, 1), (F.IDN_STAT_ANCHORS, 8)])
      [(R.NET_IP4 0, 1)]) fun b =>
      { b with net := { b.net with
          partners := [⟨0, 0, 9, 3, 1, 0, 0, 0, 0, 0⟩, ⟨1, 1, 8, 3, 1, 0, 0, 0, 0, 1⟩, ⟨2, 4, 7, 3, 1, 0, 0, 0, 0, 2⟩, ⟨63, 2, 6, 3, 1, 0, 0, 0, 0, 3⟩]
          sessions := [{ slot := 0, partner := 9, role := 0, id := 90, keys := 0, high := 5, up := true },
            { slot := 1, partner := 8, role := 1, id := 80, keys := 0, high := 5, up := true }] } }
    with otp := [(0, 1), (1, 0)] }

/-- A message of a sender, in a session or in none, with a payload. -/
def msg (id : BitVec 64) (session : Word) (auth : Bool) (seq : BitVec 64) (payload : List Nat) : NetMsg :=
  { port := 1, devId := id, seq := seq, session := session, corr := 4, auth := auth, tagOk := true, payload := payload.map (BitVec.ofNat 8) }

/-- An ANNOUNCE of a device: id, class, column 3. -/
def announce (id : Nat) (cls : Nat) : NetMsg :=
  msg 0 0 false 0 (leBytes 8 id ++ [cls, 0, 3, 0, 2, 0, 232, 3] ++ List.replicate 72 0)

theorem wit_links : State.flag ready (F.NET_STAT_LINK 1) = false ∧ ready.dev ≠ .off ∧ (online .ready).flag (F.NET_STAT_LINK 1) = true ∧
    (online .ready).hears 0 = true ∧ (online .ready).ipRuns 0 = true ∧ ready.reaches (0xC0 + (1 : Fin 2)) = true ∧
    (F.NET_FIJ_CFG_KIND 1).get (0 : Word).toNat = 0 ∧ injectable.injecting (0xC0 + (1 : Fin 2)) = true ∧
    1 ≤ (F.NET_FIJ_CFG_KIND 1).get (0x40000000 : Word).toNat ∧ (F.NET_FIJ_CFG_KIND 1).get (0x40000000 : Word).toNat ≤ 4 ∧
    ready.injecting (0xC0 + (1 : Fin 2)) = false ∧ ready.rd (pageReg (0xC0 + (1 : Fin 2)) 0x020) / 2 ^ 16 % 2 ^ 15 = 0 ∧
    (online .ready).pageWorks 0xC5 = true ∧ (online .ready).b.bst.cur = none := by decide +kernel

theorem wit_announce : (online .ready).sends 0 ∧ (online .ready).sends 1 ∧ (online .ready).listens (announce 5 2) ∧
    (online .ready).listens (msg 0 0 false 0 []) ∧ (msg 0 0 false 0 []).payload.length ≠ 88 ∧ (announce 5 2).payload.length = 88 ∧
    leAt (msgBytes (announce 1 2)) 0 8 = (online .ready).devId ∧
    leAt (msgBytes (announce 5 2)) 0 8 ≠ (online .ready).devId ∧
    (online .ready).announcedRole 5 ((msgBytes (announce 5 2)).getD 8 0) (leAt (msgBytes (announce 5 2)) 10 2 % 512) = some 0 ∧
    (online .ready).partnerBy 5 = none ∧ freeSlot (online .ready).b.net.partners = some 3 ∧
    ((online .ready).b.net.partners.filter fun p => p.role == 0).length < roleLimit 0 ∧
    (let s := blk (online .ready) fun b => { b with net := { b.net with partners := List.replicate 4 ⟨0, 0, 9, 3, 1, 0, 0, 0, 0, 0⟩ } }
     s.partnerBy 5 = none ∧ roleLimit 0 ≤ (s.b.net.partners.filter fun p => p.role == 0).length ∧ s.b.net.fullRaised = false) ∧
    (online .ready).announcedRole 9 ((msgBytes (announce 9 2)).getD 8 0) (leAt (msgBytes (announce 9 2)) 10 2 % 512) = some 0 ∧
    (online .ready).partnerBy 9 = some ⟨0, 0, 9, 3, 1, 0, 0, 0, 0, 0⟩ ∧
    ((online .ready).b.net.partners.find? fun p => p.slot == (63 : Fin 64).val) = some ⟨63, 2, 6, 3, 1, 0, 0, 0, 0, 3⟩ ∧
    ((online .ready).b.net.partners.find? fun p => p.slot == (2 : Fin 64).val) = some ⟨2, 4, 7, 3, 1, 0, 0, 0, 0, 2⟩ := by
  unfold State.sends State.listens
  decide +kernel

theorem wit_host_requests : (online .ready).listens (msg 5 0 false 0 []) ∧ (online .ready).sends 1 ∧ (online .ready).partnerBy 5 = none ∧
    (online .ready).flag F.IDN_POLICY_RD_AUTH = false ∧ (online .ready).flag F.IDN_POLICY_ATT_AUTH = false ∧
    (online .ready).sessionBy (91 : Word).toNat (9 : BitVec 64).toNat = none ∧
    (online .ready).sessionBy (90 : Word).toNat (9 : BitVec 64).toNat =
      some { slot := 0, partner := 9, role := 0, id := 90, keys := 0, high := 5, up := true } ∧
    ({ slot := 0, partner := 9, role := 0, id := 90, keys := 0, high := 5, up := true } : Session).replayed (5 : BitVec 64).toNat = true ∧
    (online .ready).inSession (msg 9 90 true 6 []) { slot := 0, partner := 9, role := 0, id := 90, keys := 0, high := 5, up := true } ∧
    (online .ready).partnerBy 9 = some ⟨0, 0, 9, 3, 1, 0, 0, 0, 0, 0⟩ ∧ (online .ready).sends 0 ∧ (pageRow (0x90 : BitVec 8).toNat).isSome = true ∧
    (online .ready).reaches (0x90 : BitVec 8).toNat = true ∧
    msgBytes (msg 9 0 false 0 (leBytes 4 (pageReg 0x90 0x03C))) = leBytes 4 (pageReg (0x90 : BitVec 8).toNat 0x03C) ∧
    msgBytes (msg 9 90 true 6 (leBytes 4 (pageReg 0x90 0x03C) ++ leBytes 4 7)) =
      leBytes 4 (pageReg (0x90 : BitVec 8).toNat 0x03C) ++ leBytes 4 (7 : Word).toNat ∧
    (let b := msgBytes (msg 9 90 true 6 (List.replicate 12 0 ++ [15, 63, 0x30, 0]))
     16 ≤ b.length ∧ b.length ≤ 1040 ∧ b.getD 12 0 < 16 ∧ b.getD 12 0 ≠ (online .ready).fld F.MOT_CFG_LTQ ∧
       (online .ready).flag (F.LTQ_Q_CFG_EN (b.getD 12 0)) = true ∧ (∃ q ∈ (online .ready).b.net.partners, q.slot = b.getD 13 0)) ∧
    (online .ready).b.tim.ltq.length < 256 ∧
    (let b := msgBytes (msg 9 90 true 6 (List.replicate 40 0))
     b.length = 40 ∧ leAt b 34 6 = 0 ∧ b.getD 32 0 = 0) := by
  unfold State.sends State.listens State.inSession
  decide +kernel

theorem wit_wakes : (online .dormant).listens (msg 9 90 true 6 []) ∧ (msg 9 90 true 6 []).payload = [] ∧
    (online .dormant).inSession (msg 9 90 true 6 []) { slot := 0, partner := 9, role := 0, id := 90, keys := 0, high := 5, up := true } ∧
    (online .dormant).flag F.AON_WAKE_CFG_NET = true ∧ (online .dormant).dev = .dormant ∧
    (online .dormant).flag F.PWR_STAT_ENTERING = false ∧ (online .dormant).flag F.PWR_STAT_WAKING = false ∧
    (put (online .ready) [(F.PWR_STAT_ENTERING, 1)]).flag F.PWR_STAT_ENTERING = true ∧
    (put (online .ready) [(F.PWR_STAT_ENTERING, 1)]).listens (msg 9 90 true 6 []) := by
  unfold State.listens State.inSession
  decide +kernel

/-- That device in a role. -/
def onlineAs (r : Role) : State := { online .ready with role := r }

theorem wit_mate_messages : (online .ready).partners 1 = [⟨1, 1, 8, 3, 1, 0, 0, 0, 0, 1⟩] ∧
    (online .ready).session 8 = some { slot := 1, partner := 8, role := 1, id := 80, keys := 0, high := 5, up := true } ∧
    (online .ready).sends 0 ∧ (online .ready).sends 1 ∧ (onlineAs .active).mated = true ∧ (onlineAs .active).role = .active ∧
    (onlineAs .active).pageWorks 0xC2 = true ∧ (onlineAs .active).listens (msg 8 80 true 6 (List.replicate 16 0)) ∧
    (msg 8 80 false 6 (List.replicate 16 0)).payload.length = 16 ∧ (msg 8 80 true 6 [1]).payload.length ≠ 16 ∧
    (onlineAs .active).inSession (msg 8 80 true 6 (List.replicate 16 0)) { slot := 1, partner := 8, role := 1, id := 80, keys := 0, high := 5, up := true } ∧
    (∃ p ∈ (onlineAs .active).partners 1, p.id = (8 : BitVec 64).toNat) ∧ (onlineAs .active).role ≠ .joining ∧
    (onlineAs .active).b.sht.recs = [] ∧ (msg 8 80 true 6 (List.replicate 8 0)).payload.length = 8 ∧ (onlineAs .standby).role ≠ .active ∧
    (msg 8 80 true 6 (List.replicate 32 0)).payload.length = 32 ∧ (onlineAs .standby).role = .standby ∧
    (onlineAs .standby).b.pos.pt ≤ (onlineAs .standby).mapTick ⟨0, 0, 0, 0⟩ * 65536 ∧
    (let s := blk (onlineAs .standby) fun b => { b with pos := { b.pos with pt := 2 ^ 40 } }
     s.mapTick ⟨0, 0, 0, 0⟩ * 65536 < s.b.pos.pt) := by
  unfold State.sends State.listens State.inSession
  decide +kernel

/-- A HELLO of a purpose, without a certificate; one cut short; a certificate under anchor 3; exchanges this device started, or answered. -/
def hello (purpose : Nat) : NetMsg := msg 9 0 false 0 ([0, 0, 0, purpose] ++ List.replicate 228 0)
def cert3 : Cert := { signedBy := [3], usage := true, serial := 9, notBefore := 0, notAfter := 100, ownKey := true }
def exchanging (starter : Bool) : State :=
  blk (online .ready) fun b => { b with net := { b.net with exchanges := [{ partner := 9, role := 0, port := 0, purpose := 2, starter := starter }] } }

theorem wit_sessions : (online .ready).listens (hello 2) ∧ (online .ready).partnerBy (9 : BitVec 64).toNat = some ⟨0, 0, 9, 3, 1, 0, 0, 0, 0, 0⟩ ∧
    (online .ready).sends 0 ∧ (online .dormant).listens (hello 2) ∧ helloForm (msgBytes (hello 2)) = true ∧
    helloForm (msgBytes (msg 9 0 false 0 [])) = false ∧ purposeRole ((msgBytes (hello 2)).getD 3 0) = some 0 ∧
    purposeRole ((msgBytes (hello 1)).getD 3 0) ≠ some 0 ∧ ((online .ready).sessionSlot 9).isSome = true ∧
    (online .ready).certOk cert3 9 false = true ∧ (online .ready).certOk { cert3 with signedBy := [0] } 9 false = false ∧
    ((exchanging true).b.net.exchanges.find? fun x => x.partner == (9 : BitVec 64).toNat && x.starter) =
      some { partner := 9, role := 0, port := 0, purpose := 2, starter := true } ∧
    (exchanging true).sessionSlot 9 = some 0 ∧ (exchanging true).b.par.joinStep ≠ 1 ∧ (exchanging true).sends 0 ∧
    ((exchanging false).b.net.exchanges.find? fun x => x.partner == (9 : BitVec 64).toNat && !x.starter) =
      some { partner := 9, role := 0, port := 0, purpose := 2, starter := false } ∧
    (exchanging false).listens (msg 9 0 true 0 (List.replicate 232 0)) ∧ (msg 9 0 true 0 (List.replicate 232 0)).payload.length = 232 ∧
    (0 : Word).toNat = sessionId 0 ∧ (1 : Word).toNat ≠ sessionId 0 := by
  unfold State.sends State.listens
  decide +kernel

/-! ### Witnesses: time and identity -/

/-- TIM in a state, with the runs of Syncs near and far, servo on or off. -/
def timed (d : DevState) (st near far servo : Nat) : State :=
  blk (put (online d) [(F.TIM_STAT_STATE, st), (F.TIM_CFG_SERVO, servo), (F.TIM_CFG_PORT, 2)]) fun b =>
    { b with tim := { b.tim with sec := 100, inRun := near, outRun := far } }

theorem wit_sync : (timed .ready 1 15 0 1).hears 0 = true ∧ (timed .ready 1 15 0 1).pageWorks 0xC2 = true ∧ (timed .ready 1 15 0 1).ptpPort = 0 ∧
    (timed .ready 1 15 0 1).timekeeper.isSome = true ∧ (timed .ready 1 15 0 1).b.bst.cur = none ∧
    (timed .ready 1 15 0 1).fld F.TIM_STAT_STATE = 1 ∧ (timed .ready 1 15 0 1).b.tim.inRun = 15 ∧
    ((timed .ready 1 15 0 1).fld F.TIM_LOCK_THR_NS : Int) = (BitVec.ofNat 64 ((timed .ready 1 15 0 1).fld F.TIM_LOCK_THR_NS)).toInt ∧
    (timed .ready 1 14 0 1).b.tim.inRun < 15 ∧ (timed .ready 2 0 3 1).fld F.TIM_STAT_STATE = 2 ∧ (timed .ready 2 0 3 1).b.tim.outRun = 3 ∧
    (timed .ready 2 0 2 1).b.tim.outRun < 3 ∧ (timed .ready 2 0 0 0).flag F.TIM_CFG_SERVO = false ∧ (timed .ready 2 0 0 1).flag F.TIM_CFG_SERVO = true ∧
    (timed .ready 2 0 0 1).rd R.TIM_STEP_LIM < 2000000 ∧ (timed .writing 2 0 0 1).inJob = true ∧ (timed .ready 2 0 0 1).inJob = false ∧
    (0 : Int) ≤ (100 * secondNs + 0 : Int) - 2000000 * 2 ^ 32 ∧ (100 * secondNs + 0 : Int) - 2000000 * 2 ^ 32 < 2 ^ 64 * secondNs := by
  decide +kernel

theorem wit_clock : (let s := blk (timed .ready 0 0 0 1) fun b => { b with net := { b.net with partners := [] } }
     s.hears (1 : Fin 2) = true ∧ s.pageWorks 0xC2 = true ∧ s.ptpAuto = true ∧ (∀ p ∈ s.b.net.partners, p.role ≠ 4) ∧
       freeSlot s.b.net.partners = some 0) ∧
    (timed .ready 2 0 0 1).timekeeper.map (fun p => p.id) = some (7 : BitVec 64).toNat ∧ (timed .ready 2 0 0 1).ptpAuto = true ∧
    (timed .ready 2 0 0 1).hears (timed .ready 2 0 0 1).ptpPort = true ∧ (timed .ready 2 0 0 1).fld F.TIM_STAT_STATE = 2 ∧
    ready.reaches 0xC2 = true ∧ (timed .ready 0 0 0 0).flag F.TIM_CFG_SERVO = false ∧ (timed .ready 0 0 0 0).inJob = false ∧
    (timed .ready 0 0 0 0).rd R.TIM_SET_NS < 1000000000 ∧ (timed .ready 0 0 0 1).flag F.TIM_CFG_SERVO = true ∧
    (blk (timed .ready 0 0 0 1) fun b => { b with tim := { b.tim with step := some 5 } }).b.tim.step = some 5 ∧
    (0 : Int) ≤ (100 * secondNs + 0 : Int) - 5 * 2 ^ 32 ∧ writing.dev ≠ .ready ∧ writing.reaches 0xC2 = true := by decide +kernel

/-- An open identity window at an index, in READY; OTP with DEV_ID 9 and no owner certificate. -/
def identity (win idx : Nat) : State :=
  { put ready [(F.IDN_STAT_WINDOW, win), (F.IDN_IDX_INDEX, idx), (F.IDN_STAT_ANCHORS, 8)] with otp := [(0, 9), (1, 0), (15, 0)] }

theorem wit_identity : ready.reaches 0xC4 = true ∧ writing.reaches 0xC4 = true ∧ writing.dev ≠ .ready ∧ (identity 1 0).fld F.IDN_STAT_WINDOW ≠ 0 ∧
    ready.fld F.IDN_STAT_WINDOW = 0 ∧ ready.rd (pageReg 0xC4 0x020) / 2 ^ 16 % 2 ^ 15 = 0 ∧ (identity 1 0).fld F.IDN_STAT_WINDOW = 1 ∧
    (identity 2 256).fld F.IDN_STAT_WINDOW = 2 ∧ (identity 2 256).fld F.IDN_IDX_INDEX < 257 ∧ (identity 3 95).fld F.IDN_STAT_WINDOW = 3 ∧
    (identity 3 95).fld F.IDN_IDX_INDEX < 96 ∧ (identity 0 0).ownerErr cert3 = 0 ∧ (identity 0 0).ownerErr { cert3 with ownKey := false } ≠ 0 ∧
    (blk ready fun b => { b with idn := { b.idn with burning := some (List.replicate 257 0) } }).b.idn.burning = some (List.replicate 257 0) := by
  decide +kernel

/-! ### Witnesses: memory -/

theorem wit_refresh : ready.memUp = true ∧ (put ready [(F.MC_STAT_RANK1 3, 1)]).fld (rankField (3 : Fin 4) (1 : Fin 2)) ≠ 0 ∧
    fastRefresh (3 : BitVec 3).toNat = true ∧ fastRefresh (2 : BitVec 3).toNat = false ∧
    (ready.fld (F.MC_STAT_REF_HIGH 3)).testBit 1 = false ∧
    ((put ready [(F.MC_STAT_REF_HIGH 3, 2)]).fld (F.MC_STAT_REF_HIGH 3)).testBit 1 = true ∧
    spGet (fun _ => 0) (blk ready fun b => { b with ram := { b.ram with normalPolls := [(7, 1)] } }).b.ram.normalPolls 7 = 1 ∧
    ready.b.ram.hot.contains 7 = false ∧ writing.inJob = true ∧ ready.inJob = false ∧
    (put ready [(F.MEM_CFG_CE_RATE, 9)]).fld F.MEM_CFG_CE_RATE = 9 ∧
    9 < spGet (fun _ => 0) (blk ready fun b => { b with ram := { b.ram with ceSecond := [(7, 10)] } }).b.ram.ceSecond 7 ∧
    ready.b.ram.ceHigh.contains 7 = false ∧ 2 * spGet (fun _ => 0) ready.b.ram.ceSecond 7 < 9 := by decide +kernel

/-- A migration of channel 3 queued, or at work from its pointer; a scrub of two lines, the first done, of lines that are written. -/
def migrating (q : List Nat) (m : Option Walk) (mib : Nat) : State :=
  blk (put ready [(F.CEL_CAPACITY_MIB, mib)]) fun b => { b with ram := { b.ram with migQueue := q, mig := m } }
def scrubbing (kind : Nat) : State :=
  { blk (put ready [(F.CEL_CAPACITY_MIB, 64)]) fun b => { b with ram := { b.ram with scrub := some ⟨kind, 0, 2, 1, 0, 0, 0, none, none⟩ } }
    with mem := (List.range 128).map fun i => (i, 1) }

theorem wit_migration : (migrating [3, 2] none 64).b.ram.migQueue = [3, 2] ∧ (migrating [3, 2] none 64).b.ram.mig = none ∧
    (migrating [3, 2] none 64).memUp = true ∧ (migrating [3, 2] none 64).pageWorks 0x14 = true ∧
    (let w : Walk := ⟨3, channelLine 3 0, 5, 2, 0, 0, 0, none, none⟩
     (migrating [] (some w) 64).b.ram.mig = some w ∧ w.kind < 4 ∧ w.done ≤ w.lines ∧ 4 < w.lines ∧ w.done ≤ 4 ∧
       ((migrating [] (some w) 64).readLine [] (channelLine 3 4)).ok = false) ∧
    (let w : Walk := ⟨0, 0, 1, 0, 0, 0, 0, none, none⟩
     let s : State := { migrating [] (some w) 64 with mem := (List.range 64).map fun i => (i, 1) }
     s.b.ram.mig = some w ∧ s.memUp = true ∧ s.pageWorks 0x14 = true ∧
       ∀ i < w.lines, w.done ≤ i → s.soundLine (channelLine w.kind i)) := by
  unfold State.soundLine
  decide +kernel

theorem wit_scrub : ready.reaches 0x14 = true ∧ ready.b.ram.scrub = none ∧
    (let s := regs (migrating [] none 1) [(R.MEM_SCRUB_LEN_LO, 0x100000)]
     s.rd64 R.MEM_SCRUB_START_LO R.MEM_SCRUB_START_HI % 64 = 0 ∧ s.rd64 R.MEM_SCRUB_LEN_LO R.MEM_SCRUB_LEN_HI % 64 = 0 ∧
       s.rd64 R.MEM_SCRUB_START_LO R.MEM_SCRUB_START_HI + s.rd64 R.MEM_SCRUB_LEN_LO R.MEM_SCRUB_LEN_HI = s.fld F.CEL_CAPACITY_MIB * 2 ^ 20) ∧
    (let s := regs (migrating [] none 1) [(R.MEM_SCRUB_LEN_LO, 0x100040)]
     s.fld F.CEL_CAPACITY_MIB * 2 ^ 20 <
       s.rd64 R.MEM_SCRUB_START_LO R.MEM_SCRUB_START_HI + s.rd64 R.MEM_SCRUB_LEN_LO R.MEM_SCRUB_LEN_HI) ∧
    writing.dev ≠ .ready ∧ writing.dev ≠ .draining ∧ writing.dev ≠ .armed ∧ writing.reaches 0x14 = true ∧
    ready.rd (pageReg 0x14 0x020) / 2 ^ 16 % 2 ^ 15 = 0 ∧ (scrubbing 2).reaches 0x14 = true ∧ (scrubbing 2).memUp = true ∧
    (scrubbing 2).pageWorks 0x14 = true ∧ (scrubbing 2).b.ram.scrub = some ⟨2, 0, 2, 1, 0, 0, 0, none, none⟩ ∧
    (scrubbing 0).b.ram.scrub = some ⟨0, 0, 2, 1, 0, 0, 0, none, none⟩ ∧
    (∀ i < 2, 1 ≤ i → (scrubbing 0).soundLine (0 + 64 * i)) := by
  unfold State.soundLine
  decide +kernel

/-! ### Witnesses: health, ageing and self-test -/

/-- A round in which every sensor reads `v`. -/
def even (v : BitVec 16) : HkRound := { round 0 0 with temps := List.replicate 28 (v, false) }

theorem wit_rounds : roundOk { round 0 0 with temps := [] } = false ∧ roundOk (even 400) = true ∧ ready.pageWorks 0xD0 = true ∧
    (put ready [(F.CAL_DT_DT, 0)]).fld F.CAL_DT_DT = 0 ∧ (∀ i < 28, ((even 400).temps.getD i (0, false)).1.toInt < 1920) ∧
    ((round 27 (BitVec.ofInt 16 (-641))).temps.getD 27 (0, false)).1.toInt < -640 ∧ dormant.pageWorks 0xD0 = true ∧
    (∀ i < 28, (even 1920).temps.getD i (0, false) = (1920, false)) ∧ ready.fld F.THM_STAT_EXCL = 0 ∧
    1 ≤ (blk ready fun b => { b with thm := { b.thm with hotRun := 1 } }).b.thm.hotRun ∧ 1920 ≤ (1920 : BitVec 16).toInt ∧
    (1920 : BitVec 16).toInt ≤ 2400 ∧ writing.inJob = true ∧ (1681 : BitVec 16).toInt < 1920 ∧ -640 ≤ (1681 : BitVec 16).toInt ∧
    toSigned 16 (writing.fld F.THM_TRIP_TEMP) < (1681 : BitVec 16).toInt ∧
    (let s := blk writing fun b => { b with thm := { b.thm with trip := { b.thm.trip with run := 7 } } }
     s.b.thm.trip.above = false ∧ s.dwell ≤ s.b.thm.trip.run + 1) ∧
    ready.reaches 0xD0 = true ∧ (27 : Fin 32).val < 28 ∧ 28 ≤ (28 : Fin 32).val ∧ ready.excluded 27 = false ∧
    ready.rd (pageReg 0xD0 0x020) / 2 ^ 16 % 2 ^ 15 = 0 ∧ writing.reaches 0xD0 = true := by decide +kernel

/-- TIM LOCKED, nothing logged; a plan at work; a log entry being burned. -/
def loggable : State :=
  { put ready [(F.TIM_STAT_STATE, 2), (F.AGE_CFG_AUTO, 1), (F.PLK_STAT_BRINGUP, 7), (F.AGE_CAN_MIN_PS, 20), (F.AGE_CFG_TARGET, 40)]
    with otp := (List.range 2560).map fun i => (0x300 + i, 0) }
def planned (p : Plan) : State := blk loggable fun b => { b with age := { b.age with plan := some p } }
def burning (code : Nat) : State := blk loggable fun b => { b with age := { b.age with burn := some code } }
def avsWriting : State := blk loggable fun b => { b with age := { b.age with avsOld := some (31, 2) } }

theorem wit_ageing : ready.reaches 0xD1 = true ∧ loggable.dev = .ready ∧ loggable.ageBusy = false ∧ loggable.b.age.avsOld = none ∧
    loggable.fld F.AGE_CAN_MIN_PS < loggable.fld F.AGE_CFG_TARGET ∧ loggable.fld F.AGE_AVS_CODE < 20 ∧ loggable.bringup = 7 ∧
    ready.rd (pageReg 0xD1 0x020) / 2 ^ 16 % 2 ^ 15 = 0 ∧ (planned { avs := true, lanes := false }).ageBusy = true ∧
    writing.reaches 0xD1 = true ∧ loggable.flag F.AGE_CFG_AUTO = true ∧ loggable.pageWorks 0xD1 = true ∧
    avsWriting.b.age.avsOld = some (31, 2) ∧ avsWriting.b.age.plan = none ∧
    (put ready [(F.AGE_IDX_WIN, 3), (F.AGE_IDX_INDEX, 75)]).fld F.AGE_IDX_WIN = 3 ∧ (put ready [(F.AGE_IDX_WIN, 3), (F.AGE_IDX_INDEX, 75)]).fld F.AGE_IDX_INDEX < 76 ∧
    (put ready [(F.AGE_IDX_WIN, 4), (F.AGE_IDX_INDEX, 7)]).fld F.AGE_IDX_WIN = 4 ∧ (put ready [(F.AGE_IDX_WIN, 4), (F.AGE_IDX_INDEX, 7)]).fld F.AGE_IDX_INDEX < 8 ∧
    (planned { avs := false, lanes := false }).planResult { avs := false, lanes := false } = some 0 ∧
    (planned { avs := false, lanes := false, fail := 1 }).planResult { avs := false, lanes := false, fail := 1 } = some 1 ∧
    (planned { avs := false, lanes := false }).b.age.waiting = [] ∧ (burning 10).b.age.burn = some 10 ∧ (burning 10).b.age.avsOld = none ∧
    (burning 10).b.age.waiting = [] := by decide +kernel

theorem wit_log : loggable.logUsed = 0 ∧ loggable.logErr = 0 ∧ (put loggable [(F.TIM_STAT_STATE, 1)]).logErr ≠ 0 ∧ (burning 10).logUsed < 320 := by
  decide +kernel

/-- A slice under test, its block idle for long. -/
def testing (x : SliceTest) : State :=
  blk (put ready [(F.BST_CFG_EN, 1)]) fun b =>
    { b with bst := { b.bst with cur := some x, restoring := some 84 }, tim := { b.tim with ticks := 10 ^ 9 } }

theorem wit_self_test : (let s := put ready [(F.BST_CFG_EN, 1)]
     s.flag F.BST_CFG_EN = true ∧ s.pageWorks 0xD2 = true ∧ s.b.bst.cur = none ∧ s.b.bst.cover = none ∧ s.dev = .ready ∧
       (let now := max s.b.tim.ticks (s.b.bst.slotAt + s.fld F.BST_CFG_INTERVAL * 2500000)
        ((List.range 104).find? ({ s with b := { s.b with tim := { s.b.tim with ticks := now } } } : State).eligible).isSome = true) ∧
       ((List.range 104).find? s.eligible).isSome = true ∧ s.reaches 0xD2 = true) ∧
    writing.reaches 0xD2 = true ∧ writing.dev ≠ .ready ∧
    (∀ x ∈ [({ slice := 103 } : SliceTest), { slice := 83, repeated := true }, { slice := 68 }, { slice := 84, yielded := true }],
      (testing x).b.bst.cur = some x) ∧
    (testing { slice := 84, yielded := true }).blockEligible 84 = true ∧ (testing { slice := 84, yielded := true }).flag F.BST_CFG_EN = true ∧
    (testing { slice := 84, yielded := true }).pageWorks 0xD2 = true ∧ (testing { slice := 84, yielded := true }).b.bst.restoring = some 84 ∧
    nextSlice ready.b.bst.done ready.testing = some 0 := by decide +kernel

/-! ### Witnesses: events, pages and registers -/

theorem wit_events : ready.reaches (0x07 : BitVec 8).toNat = true ∧ ready.b.bst.cur = none ∧ 0 < pageEvents (0x07 : BitVec 8).toNat ∧
    (0x1 : Word).toNat.testBit 0 = true ∧ (pageRow (0x07 : BitVec 8).toNat).isSome = true ∧ ready.reaches 8 = true := by decide +kernel

theorem wit_injections : ready.reaches 6 = true ∧ ready.dev ≠ .dormant ∧ (0x52480001 : Word).toNat.testBit 0 = true ∧
    (0x52480001 : Word).toNat / 2 ^ 16 = 0x5248 ∧ injectable.reaches 6 = true ∧ (0 : Word).toNat.testBit 0 = false ∧
    injectable.flag F.FIJ_ARM_ARM = true ∧ injectable.fld F.FIJ_EXPIRE_S ≠ 0 := by decide +kernel

theorem wit_ledgers : (∀ l ∈ Ledger.all, ready.ledgerFails l = none) ∧ ready.reaches 5 = true ∧
    (blk writing fun b => { b with sht := { b.sht with resolved := 1 } }).ledgerFails .shot ≠ none ∧ writing.inJob = true := by decide +kernel

theorem wit_pages : ready.reaches (0x90 : BitVec 8).toNat = true ∧ (pageRow (0x90 : BitVec 8).toNat).isSome = true ∧
    fixedPage (0x90 : BitVec 8).toNat = false ∧ ready.inJob = false ∧ (regs ready [(pageReg 0x90 8, 0)]).pageWorks (0x90 : BitVec 8).toNat = false ∧
    (regs ready [(pageReg 0x90 8, 0)]).working (0x90 : BitVec 8).toNat = false ∧ injPages.contains (0x90 : BitVec 8).toNat = true ∧
    injectable.flag (pageCtrl 0x90 3) = true ∧ 0x84 ≤ (0x90 : BitVec 8).toNat ∧ (0x18 : BitVec 8).toNat < 0x20 ∧
    fixedPage (0x18 : BitVec 8).toNat = false ∧ (pageRow (0x18 : BitVec 8).toNat).isSome = true := by decide +kernel

theorem wit_registers : ready.reaches 0x18 = true ∧ ready.reaches 0xB1 = true ∧ ready.locked = false ∧ writing.locked = true ∧
    writing.rd (pageReg 0xB1 0x020) / 2 ^ 16 % 2 ^ 15 = 0 ∧ ready.reaches 0x31 = true ∧ ready.reaches 0xF0 = true ∧ ready.reaches 0xB0 = true ∧
    ready.reaches 0xC2 = true ∧ (∀ k : Fin 4, ready.reaches (0xC8 + k) = true) ∧ (0x90 : BitVec 8) ≠ 0x0B := by decide +kernel

/-! ### Ill-formed commands are refused by name -/

/-- Whether an outcome is the refusal of an ill-formed command. -/
def illFormed (o : Host.Outcome State Fault Refusal) (m : String) : Bool :=
  match o with
  | .refused (.illFormed n) => n == m
  | _ => false

theorem test_sig_of_no_lanes_is_ill_formed : (Instr.sig 0 0 0 ⟨[], true⟩).wf = false ∧
    illFormed (exec (.sig 0 0 0 ⟨[], true⟩) ready) "SIG" = true := by decide +kernel

theorem test_round_without_canaries_is_ill_formed : (Instr.hkRound { round 0 0 with canaries := [] }).wf = false ∧
    illFormed (exec (.hkRound { round 0 0 with canaries := [] }) ready) "HK_ROUND" = true := by decide +kernel

theorem test_control_entry_of_four_bytes_is_ill_formed : (Instr.doorbell 0 4 [[1, 0, 0, 0]]).wf = false := by decide

/-! ### The block and its queue -/

theorem test_reset_queue_is_empty : State.reset.pending = [] ∧ State.reset.dev = .reset := by decide +kernel

theorem test_step_runs_the_front_command :
    illFormed (step { ready with pending := [.sig 0 0 0 ⟨[], true⟩, .arm] }) "SIG" = true := by decide +kernel

/-- R21 and the layout of TOP_REFUSE: ARM in READY with nothing prepared is refused with its condition and state. -/
theorem test_arm_without_a_checked_lattice_is_refused : (after .arm ready).dev = .ready ∧
    (after .arm ready).rd R.TOP_REFUSE = 0x07010100 := by decide +kernel

/-! ### Worked figures of the spec -/

def digits : List Nat := [0x31, 0x32, 0x33, 0x34, 0x35, 0x36, 0x37, 0x38, 0x39]

/-- The check values of R349. -/
theorem test_check_values : crcOf crc32c digits = 0xE3069283 ∧ crcOf crc32 digits = 0xCBF43926 ∧
    crcOf (ckAlg 2) digits = 0x29B1 ∧ crcOf crc64 digits = 0x6C40DF5F0B497347 := by decide +kernel

/-- The example after R351: CK_RES of a CRC-16 over "123456789" fed as two words and a byte. -/
theorem test_check_unit_example :
    (after (.ckFeed8 1 0x39) (after (.ckFeed32 1 0x38373635) (after (.ckFeed32 1 0x34333231)
      (after (.ckInit 1) (after (.ckCfgWrite 1 2) ready))))).ckRes 1 = 0x29B1 := by decide +kernel

/-- The example of chapter 15: TP17 is page 0x51. -/
theorem test_tp17_is_page_0x51 : R.TP_STAT 17 = 0x51100 := by decide

/-- The example of chapter 2: the share of T = 200 at the defaults with eight visits. -/
theorem test_share_example : classFactor 0x400 8 = 2048 ∧ share 200 2048 = 1600 := by decide

/-- The example of chapter 2: visits 4 and 8. -/
theorem test_visit_examples : visit 1600 0 2176 1928 2 false 255 = ⟨188, 0b0010, true, false, false, 4⟩ ∧
    visit 1600 0b0010 2032 2064 1 true 255 = ⟨101, 0b0010, false, true, true, 1⟩ := by decide

/-- The example of chapter 2: visit 5 leaves −5 sixteenths, which encodes as −4. -/
theorem test_lees_example : visit 1600 0b0010 2080 2016 1 false 255 = ⟨99, 0b1010, true, false, false, -5⟩ ∧
    leesDecode 0b1010 = -4 := by decide

/-- The example of chapter 3: the first row of an edge block. -/
theorem test_edge_block_example :
    (match decodeBlock none 0x22 ([0x00, 0xC8, 0xA5, 0x94, 0x52, 0x4A, 0x29, 0xC6, 0x18, 0x63, 0x8C, 0x31] ++
        List.replicate 8 0x78 ++ List.replicate 8 0x28) with
      | .ok ps => ps.take 16 ++ ps.drop 240
      | .error _ => []) =
      List.replicate 5 0 ++ [120] ++ List.replicate 10 200 ++ List.replicate 6 0 ++ [40] ++ List.replicate 9 200 := by
  decide +kernel

/-- The example of chapter 6: the header of shot 15,651's frame on lane 12. -/
theorem test_frame_header_example :
    (TxFrame.mk 12 0x3D23 0x3D24 7 0 false false false false false 0 [] 0 (0, 0, 0)).header =
      [0xA5, 0x0C, 0, 0, 0, 0, 0x24, 0x3D, 0, 0, 7, 0, 0x23, 0x3D, 0, 0] := by decide +kernel

/-- The example of chapter 6: the seal of shot 15,651. -/
theorem test_seal_example : sealWord 15651 1 15652 0x6B1E = 0x00003D231D246B1E := by decide

/-- The example of chapter 11: address 0x0012_3456_7840 with two ranks of 8 Gb devices. -/
theorem test_address_example : lineChannel 0x001234567840 = 0 ∧ lineSub 0x001234567840 = 1 ∧
    (put ready [(F.MC_GEOM_RANKS 0, 2)]).lineRank 0x001234567840 = 1 := by decide +kernel

/-- In DORMANT the PWR page is reached and the page of a press engine is not. -/
theorem test_dormant_reaches_only_the_on_pages : dormant.reaches 0x30 = false ∧ dormant.reaches 2 = true := by decide +kernel

/-! ### Parity, the spare, and partial writes -/

theorem wit_parity : (∀ x ∈ linesOf (oneLine.apertureAddr 60) 4, oneLine.soundLine x) ∧ linesOf (oneLine.apertureAddr 60) 4 = [0] ∧
    oneLine.flag (F.MC_CFG_CAPAR 0) = true ∧ oneLine.lineRank 0 = 0 ∧ oneLine.belowPointer 0 = false ∧
    (after (.bar2Read 60 4 [{ addr := 3, err := [], parity := true }]) oneLine).rd (R.MC_CAPAR_CNT 0) = 1 := by
  unfold State.soundLine
  decide +kernel

/-- A state in which channel 0 migrates, its first line copied. -/
def copying : State :=
  blk (put oneLine [(F.MEM_STAT_MIG, 1)]) fun b => { b with ram := { b.ram with mig := some ⟨0, 0, 5, 1, 0, 0, 0, none, none⟩ } }

/-- A line with errors in two devices. -/
def twoDevices : LineFault := { addr := 3, err := [(0, 1), (8, 1)] }

theorem wit_spare : copying.dev = .ready ∧ copying.cellarHas (copying.apertureAddr 60) 1 = true ∧
    copying.belowPointer (lineAddr (copying.apertureAddr 60)) = true ∧ lineAddr (copying.apertureAddr 60) ∉ copying.b.ram.wb ∧
    copying.readLine [twoDevices] (lineAddr (copying.apertureAddr 60)) = .bad ∧
    (after (.bar2Read 60 1 [twoDevices]) copying).b.ram.mig = none := by
  decide +kernel

/-- A line of which half is written, in READY: a partial write to it poisons it. -/
def halfLine : State := { ringed with mem := (List.range 32).map fun i => (i, 7) }

theorem wit_merge : halfLine.dev = .ready ∧ halfLine.cellarHas (halfLine.apertureAddr 8) ([1, 2] : List Byte).length = true ∧
    linesOf (halfLine.apertureAddr 8) ([1, 2] : List Byte).length = [0] ∧ halfLine.readLine [] 0 = .bad ∧ 0 ∉ halfLine.b.ram.wb ∧
    (∀ la ∈ linesOf (halfLine.apertureAddr 0) 64, la < halfLine.apertureAddr 0 ∨ halfLine.apertureAddr 0 + 64 < la + 64 →
      halfLine.soundLine la) := by
  unfold State.soundLine
  decide +kernel

theorem wit_partial : ready.reaches 0x31 = true ∧ (pageRow 0x31).isSome = true ∧ ready.rd (pageReg 0x31 0x020) = 0 ∧
    (after (.registerWrite 0x3103C 7 3) ready).rd (pageReg 0x31 0x020) = 2 ^ 16 + Err.range ∧
    (after (.registerWrite 0x3103C 7 3) ready).rd 0x3103C = 0 := by decide +kernel

/-! ### Errors in SRAMs -/

theorem wit_sram : ready.reaches 0x31 = true ∧ ready.locked = false ∧
    (after (.latDataAccess none [⟨8, 5, true⟩]) (put ready [(F.LAT_STAT_CHK_STATE, 2)])).fld F.LAT_STAT_CHK_STATE = 0 ∧
    (after (.latDataAccess none [⟨8, 5, true⟩]) ready).rd R.MEM_SRAM_LOC = 0x08800005 ∧
    (after (.latDataAccess none [⟨8, 5, false⟩]) ready).rd R.MEM_SRAM_CE_CNT = 1 := by decide +kernel

/-- A corrected cask error on a commit's read is counted (R147). -/
theorem test_commit_corrected : (after (.commitWritesDone [(5, 1, 2)] none) drainingSlot).rd R.CSK_CE_CNT = 1 ∧
    (after (.commitWritesDone [(5, 1, 2)] none) drainingSlot).rd R.CSK_ECC_LOC = 5 * 2 ^ 16 + 2 ^ 5 + 2 := by decide +kernel

/-- An uncorrectable one withholds the first shot that has not been strobed, and retires the tap (R145, R148). -/
theorem test_commit_poisons : (after (.commitWritesDone [] (some ⟨3, 4, 0, 0, 2, 5, 1⟩)) drainingSlot).rd R.CSK_UE_CNT = 1 ∧
    (after (.commitWritesDone [] (some ⟨3, 4, 0, 0, 2, 5, 1⟩)) drainingSlot).b.sht.rackWait = some (0, 6) ∧
    (after (.commitWritesDone [] (some ⟨3, 4, 0, 0, 2, 5, 1⟩)) drainingSlot).fld (F.TP_STAT_STATE 3) = 3 := by decide +kernel

/-- An uncorrectable error in the tables while they are locked is a FAULT (R347). -/
theorem test_sram_fault : (after (.latDataAccess none [⟨8, 5, true⟩]) (job16 .armed)).dev = .fault ∧
    (after (.latDataAccess none [⟨8, 5, true⟩]) (job16 .armed)).fld F.TOP_FAULT_CAUSE = 7 := by decide +kernel

/-! ### Further clauses: each hypothesis, or the value where two clauses meet -/

theorem wit_idle : ready.pending = [] ∧ ready.dev ≠ .off ∧ ready.b.ram.mig = none ∧ ready.b.ram.scrub = none ∧ ready.b.ram.wb = [] := by
  decide +kernel

/-- Whether a command answers a next state. -/
def goesOn (c : Instr) (s : State) : Bool := match exec c s with | .next _ => true | _ => false

theorem wit_wide_commands : goesOn .ledgerCheck ready = true ∧ goesOn .stopSafe writing = true ∧
    accessRegs (pageReg 0xD3 0x100) = false ∧ otpSpare 0 = false := by decide +kernel

/-- An arm request whose digest is being computed, with the lattice's fit code. -/
def requested (fit : Nat) : State :=
  blk (put armable [(F.CSK_FIT_CODE, fit)]) fun b =>
    { b with job := { b.job with armReq := some 0 }, par := { b.par with digestReq := some 0 } }

theorem wit_requested : ∀ fit ∈ [0, 1], (requested fit).dev = .ready ∧ (requested fit).role = .solo ∧
    (requested fit).b.job.armReq = some 0 ∧ (requested fit).b.par.digestReq.isSome = true ∧ (requested fit).armRefusal = none ∧
    (requested fit).fld F.CSK_FIT_CODE = fit ∧ (requested fit).deadLane = none := by decide +kernel

theorem wit_wake_time : (let s := put dormant [(F.PWR_STAT_WAKING, 1)]
     s.dev = .dormant ∧ s.flag F.PWR_STAT_WAKING = true ∧ s.b.tim.ticks ≤ s.b.pwr.wakeAt + (0 : Word).toNat * 250) := by decide +kernel

/-- ARMED, at rest itself, a setpoint that still moves the stage to come; between two stripes; draining with nothing held. -/
def coming : State :=
  blk armed fun b => { b with mot := { b.mot with sps := [⟨5, 0, [], 0, 1, 0, 0, 0, 0, 0, 0⟩] } }
def betweenStripes : State := blk writing fun b => { b with mot := { b.mot with cur := some ⟨1, false, 0, false⟩ } }

theorem wit_stops : armed.b.cask.retireAtEnd = [] ∧ armed.atRest = true ∧ coming.atRest = true ∧ coming.stageStill = false ∧
    coming.b.cask.retireAtEnd = [] ∧ moving.atRest = false ∧ armed.between = false ∧ betweenStripes.between = true ∧ betweenStripes.role = .solo ∧
    writing.b.sht.stopFrom = none ∧ max writing.firstUnsigned writing.b.sht.first ≤ writing.b.sht.first ∧
    (let s := atEdge 2 (some (3, 0)) .writing
     s.b.sht.stopFrom = none ∧ s.b.sht.first < max s.firstUnsigned s.b.sht.first) ∧
    (at' .draining).drained = true ∧ (∀ k < 68, (at' .draining).fld (F.TP_STAT_RETRIES k) ≤ 16) := by decide +kernel

theorem wit_digest_done : (let s := blk ready fun b => { b with par := { b.par with digestReq := some 3 } }
     s.b.par.digestReq = some 3 ∧ s.b.job.armReq ≠ some 0) ∧
    (let s : State := { blk ready fun b => { b with par := { b.par with digestReq := some 0, mate := .up }, job := { b.job with armReq := some 0 } }
       with role := .active }
     s.b.par.digestReq = some 0 ∧ s.passes = true) := by decide +kernel

theorem wit_cluster_fails : ((onEngine zerosCrc 0).decodeOn { run16 with released := 0, dispatched := 1, busy := [⟨0, 15, 0, false⟩] }
    ⟨0, 15, 0, false⟩).failure (.saffron 5) = some (1, 0, 5) := by
  have h := wit_cluster.2.1
  rw [h]; rfl

/-- The 32 bytes of a descriptor as one number. -/
def descWord (d : Desc) : BitVec 256 :=
  BitVec.ofNat 256 (d.src.toNat + d.dst.toNat * 2 ^ 64 + d.len.toNat * 2 ^ 128 + d.progress.toNat * 2 ^ 160 + d.tag.toNat * 2 ^ 192 +
    d.op.toNat * 2 ^ 208 + d.flags.toNat * 2 ^ 216 + d.bin.toNat * 2 ^ 224 + d.wrap.toNat * 2 ^ 240)

theorem wit_descriptor_bytes : ∀ d ∈ [desc 3 0x2000 4 1 0, desc 3 0x2000 5 1 0, desc 1 0 512 3 7], parseDesc (descWord d) = d := by
  decide +kernel

theorem wit_transfer_ends : (flying (desc 3 0x2000 4 1 0)).b.ram.wb = [] ∧ (desc 3 0x2000 4 1 0).wrap = 0 ∧
    (∀ c ∈ (flying (desc 3 0x2000 4 1 0)).b.dma.chans, c.parked = false ∧ c.poolWait = false) ∧
    (8 : Nat) - 0 ≤ (List.replicate 8 (0 : Byte)).length ∧ (desc 1 0 512 2 7).op.toNat % 16 = 1 ∧ (desc 1 0 512 2 7).dst = 0 ∧
    (∀ data ∈ [[], List.replicate 192 (1 : Byte)], data.length < 256 ∧ data.length % 64 = 0 ∧ data.length ≤ (desc 1 0 512 2 7).len.toNat) ∧
    (∀ r < 64, 64 ≤ (put ready ((List.range 64).map fun r => (F.RNG_CFG_LINK r, 64))).fld (F.RNG_CFG_LINK r)) ∧
    fillingBin.between = false := by decide +kernel

/-- A lane's frame whose signature is as the lane's. -/
def signedFrame (sig : Nat) : TxFrame := { lastFrame with sig := sig }

theorem signedFrame_linkSig (sig : Nat) : (signedFrame sig).linkSig = lastFrame.linkSig := rfl

theorem signedFrame_in (sig : Nat) (h : sig = lastFrame.linkSig) : (signedFrame sig).hold = false ∧
    (signedFrame sig).linkSig = (signedFrame sig).sig ∧ (signedFrame sig).inj.1 = 0 ∧
    ((blk sending fun b => { b with plk := { b.plk with txq := [signedFrame sig] } }).b.plk.txq.find? fun x => x.lane == (63 : Fin 64).val) =
      some (signedFrame sig) := ⟨rfl, by rw [signedFrame_linkSig, ← h]; rfl, rfl, rfl⟩

theorem wit_signed_frame : ∃ sig, (signedFrame sig).hold = false ∧ (signedFrame sig).linkSig = (signedFrame sig).sig ∧
    (signedFrame sig).inj.1 = 0 ∧
    ((blk sending fun b => { b with plk := { b.plk with txq := [signedFrame sig] } }).b.plk.txq.find? fun x => x.lane == (63 : Fin 64).val) =
      some (signedFrame sig) := ⟨_, signedFrame_in _ rfl⟩

theorem wit_rack_waits : (let s := atEdge 2 (some (3, 0)) .writing
     s.b.sht.rackWait = none ∧ s.b.job.pendSafe = false ∧ (s.shotRec 2).triggered = false ∧ s.b.cask.retireAtEnd = [] ∧
       ∀ i < 68, s.fld (F.TP_STAT_RETRIES i) ≤ 16) ∧
    (atEdge 2 (some (3, 0)) .draining).dev = .draining ∧ armedShot.b.sht.stopFrom = none ∧ armedShot.b.sht.rackWait = none ∧
    (armedShot.shotRec 0).triggered = false := by decide +kernel

theorem wit_lanes : (let r := record (2 * 2 ^ 60 + 63 * 2 ^ 54 + 2 ^ 44)
     recordOk r.toNat = true ∧ recKind r.toNat = 2 ∧ r.toNat.testBit 44 = true) ∧
    (let r := record (2 * 2 ^ 60 + 63 * 2 ^ 54)
     r.toNat.testBit 44 = false ∧ acking.b.plk.down.contains (recBits r.toNat 54 6) = false) ∧
    acking.b.plk.down.contains (63 : Fin 64).val = false ∧ acking.receiversSettling = false ∧
    (blk acking fun b => { b with pwr := { b.pwr with wokenAt := some 0 } }).receiversSettling = true ∧
    (blk ready fun b => { b with plk := { b.plk with steps := [3, 4] } }).b.plk.steps = [3, 4] := by decide +kernel

theorem wit_sample_crc : (sampled .writing).crcFailed (sampled .writing).b.pos.n true = false ∧
    (sampled .writing).crcFailed (sampled .writing).b.pos.n false = true ∧ (sampled .writing).b.pos.crcBlock = none := by decide +kernel

/-- A racking trigger that waits for shot 0, which is frozen next; a sample due in the freeze's tick. -/
def racksNext : State :=
  blk (freezing 0 none) fun b =>
    { b with sht := { b.sht with rackWait := some (0, 1), recs := [{ shot := 0, withheld := some 1 }], floor := some 0 } }
def sampleDue : State :=
  blk (put (freezing 0 none) [(F.POS_STAT_JRX_UP, 1)]) fun b =>
    { b with sht := { b.sht with pred := some ((freezing 0 none).sampleArrival 0 + freezeLead) } }

theorem wit_freezes : (freezing 0 none).sampleIn (freezeTick 655360000) = false ∧ (freezing 0 none).b.sht.freezeWait = false ∧
    sampleDue.b.sht.active = true ∧ sampleDue.b.sht.armed = true ∧ sampleDue.b.sht.freezeWait = false ∧
    sampleDue.sampleIn (freezeTick ((freezing 0 none).sampleArrival 0 + freezeLead)) = true ∧
    racksNext.b.sht.pred = some 655360000 ∧ racksNext.b.sht.active = true ∧ racksNext.b.sht.armed = true ∧
    racksNext.sampleIn (freezeTick 655360000) = false ∧ racksNext.stoppedAt 0 = false ∧ racksNext.heldFrom 0 = true ∧
    racksNext.dev = .writing ∧ racksNext.b.sht.rackWait = some (0, 1) ∧ racksNext.b.sht.rackN ≠ some 0 ∧ racksNext.edgesPast 0 = true := by
  decide +kernel

theorem wit_commit_met : calibrated.commitMet 2 = false ∧
    (blk calibrated fun b => { b with pos := { b.pos with calAt := some (0, 1) } }).commitMet 2 = true ∧
    (blk calibrated fun b => { b with pos := { b.pos with calAt := some (0, 2) } }).commitMet 2 = false := by decide +kernel

theorem wit_queue_room : (put ready [(F.MOT_CFG_EN, 1)]).ltqDepth ((put ready [(F.MOT_CFG_EN, 1)]).fld F.MOT_CFG_LTQ) < 256 ∧
    (put ready [(F.MOT_CFG_EN, 1)]).ltqUsed < 1024 ∧
    (dueFrame 1100 none).timUnits = ((1000 + (dueFrame 1100 none).fld (F.LTQ_Q_CFG_TOL 15)) * 2 ^ 32 : Nat) ∧
    (let s := blk (dueFrame 1100 none) fun b => { b with tim := { b.tim with ns := b.tim.ns + 1 } }
     ((1000 + s.fld (F.LTQ_Q_CFG_TOL 15)) * 2 ^ 32 : Nat) < s.timUnits ∧ s.nextFrame = some ⟨15, 0, 1000, none, 0x30, []⟩) := by
  decide +kernel

/-- A device that may hand its role back, and whose stage turns for 1,000 periods yet. -/
def handsBack : State :=
  blk (put (mates .writing .active .up) [(F.PAR_CFG_COMEBACK, 1)]) fun b =>
    { b with par := { b.par with joined := true, cleanStripes := 1 },
             mot := { b.mot with phase := .turn, y := { b.mot.y with segs := [⟨1000, 0, none, 0, 0, 0⟩] } } }

theorem wit_hands_back : handsBack.role = .active ∧ handsBack.b.par.mate = .up ∧ handsBack.b.par.joined = true ∧
    handsBack.flag F.PAR_CFG_COMEBACK = true ∧ 1 ≤ handsBack.b.par.cleanStripes ∧ handsBack.b.par.roleAt = none ∧ handsBack.dev = .writing ∧
    handsBack.b.mot.phase = .turn ∧
    max handsBack.periodAhead (handsBack.b.mot.period + 20) < handsBack.b.mot.period + handsBack.turnLeft := by decide +kernel

theorem wit_signatures : (let s : State := { blk (job16 .writing) fun b => { b with par := { b.par with mate := .up } } with role := .active }
     s.paired = true ∧ s.run.isSome = true ∧ s.b.sht.first ≤ (0 : Word).toNat ∧ s.b.par.mate = .up ∧ s.b.par.wdMate = false ∧
       (s.shotRec 0).ownVote = none ∧ (s.shotRec 0).det = none ∧ (s.shotRec 0).allSent = false ∧ s.pairHears = true) ∧
    (voting 8).b.par.mate = .up ∧ (voting 8).b.par.wdMate = false ∧ (voting 0).b.sht.stopFrom = none := by decide +kernel

theorem wit_stop_messages : (mates .writing .active .up).b.sht.stopFrom = none ∧ (0 : Word).toNat ≤ (mates .writing .active .up).b.sht.first ∧
    (mates .writing .active .up).b.sht.first < (7 : Word).toNat ∧ (mates .armed .active .up).run.isSome = false ∧
    ready.pairHears = true ∧ (mates .writing .standby .up).pairHears = true := by decide +kernel

theorem wit_images : (joining 5).role = .joining ∧ 0 < (List.replicate 64 (1 : Byte)).length ∧ (List.replicate 192 (1 : Byte)).length < 256 ∧
    (List.replicate 192 (1 : Byte)).length % 64 = 0 ∧ digested.b.par.mate = .up := by decide +kernel

/-- The device in no column's company: a mate held, a peer of another column in the table. -/
def withPeer : State :=
  blk (online .ready) fun b => { b with net := { b.net with partners := b.net.partners ++ [⟨5, 3, 20, 4, 1, 0, 0, 0, 0, 4⟩] } }

/-- Port 1 runs neither protocol, or IPv6 alone. -/
def silentPort (v6 : Nat) : State := put (online .ready) [(F.NET_CFG_V6 1, v6), (F.NET_CFG_V4 1, 0)]

theorem wit_ports : (silentPort 1).portServes 1 = true ∧ (silentPort 1).v6Runs 1 = true ∧ (silentPort 1).v4Runs 1 = false ∧
    (silentPort 0).v6Runs 1 = false ∧ (silentPort 0).v4Runs 1 = false ∧ (online .ready).v4Runs 0 = true ∧
    (1 : Fin 2).val ≠ ready.dormantPort ∧ (0 : Fin 2).val = dormant.dormantPort ∧ dormant.flag (F.NET_STAT_LINK 0) = false ∧
    withPeer.announcedRole 20 ((msgBytes (announce 20 1)).getD 8 0) (leAt (msgBytes (announce 20 1)) 10 2 % 512) = some 3 ∧
    withPeer.partnerBy 20 = some ⟨5, 3, 20, 4, 1, 0, 0, 0, 0, 4⟩ ∧
    leAt (msgBytes (announce 20 1)) 10 2 % 512 = withPeer.fld F.DSC_CFG_COLUMN ∧ 4 ≠ withPeer.fld F.DSC_CFG_COLUMN ∧
    withPeer.mateTaken 20 = true ∧ (⟨0, 0, 9, 3, 1, 0, 0, 0, 0, 0⟩ : Partner).pref = 0 := by decide +kernel

/-- A Sync of the master that the clock follows; an Announce of a master better than the one heard, and of one worse. -/
def sync0 : PtpSync := { port := 0, domain := 0, source := 70, sec := 100, ns := 0, corr := 0 }
def master (prio : Byte) (gm : BitVec 64) : PtpAnnounce :=
  { port := 0, domain := 0, source := 71, prio1 := prio, quality := 0, prio2 := 0, gm := gm, steps := 1, utcOff := 37 }
def following (s : State) : State :=
  blk s fun b => { b with tim := { b.tim with parent := some 70, masters := [⟨0, 70, 100, 0, 0, 7, 1⟩], reqAt := some 0 } }

theorem wit_masters : (let s := following (timed .ready 1 15 0 1)
     s.ptpRuns sync0.port = true ∧ s.ptpPort = sync0.port.val ∧ sync0.domain.toNat = s.fld F.TIM_CFG_DOMAIN ∧
       s.timekeeper.isSome = true ∧ s.b.tim.parent = some sync0.source.toNat ∧ s.b.bst.cur = none ∧
       s.ptpAuto = true ∧ s.ptpRuns s.ptpPort = true ∧ s.b.tim.reqAt = some 0 ∧
       (let others := s.b.tim.masters.filter fun x => x.source != (master 5 7).source.toNat || x.port != (master 5 7).port.val
        others ≠ [] ∧ (∀ x ∈ others, before ((masterOf (master 5 7)).key s.ptpPort) (x.key s.ptpPort) = true) ∧
          (∃ x ∈ others, before (x.key s.ptpPort) ((masterOf (master 200 7)).key s.ptpPort) = true)) ∧
       s.timekeeper.map (fun p => p.id) = some (master 5 7).gm.toNat) ∧
    (let s := blk (timed .ready 0 0 0 1) fun b => { b with net := { b.net with partners := [] } }
     s.ptpRuns 0 = true ∧ (∀ x ∈ s.b.tim.masters, False) ∧ (∀ p ∈ s.b.net.partners, p.role ≠ 4) ∧ (freeSlot s.b.net.partners).isSome = true) ∧
    (timed .ready 1 15 0 1).b.tim.reqAt = none := by decide +kernel

theorem wit_polls : ready.polls = true ∧ (put dormant [(F.PWR_STAT_WAKING, 1)]).polls = true := by decide +kernel

/-- A log entry whose ring oscillators are to be measured, and are measured; a write under way for a plan. -/
def atLog (rings : Option (List (Nat × Nat))) (w : Option (Nat × Nat)) : State :=
  blk loggable fun b => { b with age := { b.age with burn := some 11, logRings := rings, avsOld := w } }

theorem wit_log_entry : (atLog none (some (11, 3))).b.age.plan = none ∧ (atLog none (some (11, 3))).b.age.burn = some 11 ∧
    (atLog none (some (11, 3))).b.age.logRings = none ∧ (11 : Nat) < 32 ∧ (atLog none (some (11, 3))).fld F.AGE_AVS_CODE ≠ 11 ∧
    (atLog (some []) none).b.age.burn = some 11 ∧ (atLog (some []) none).b.age.logRings = some [] ∧ (atLog (some []) none).b.age.avsOld = none ∧
    (atLog (some []) none).b.age.waiting = [] ∧ (atLog (some []) none).logUsed < 320 ∧ avsWriting.b.age.burn = none ∧
    avsWriting.b.age.plan = none := by decide +kernel

end Sys2Proof.Tests
end

section
/-! SUPPORT. What raising an event and a change of the device state leave as they were, field by field. -/

namespace Sys2Proof.Machine

section
variable (s : State) (e : Evt)

theorem eventAllows : AllowsEvents eventRegs eventParts := ⟨fun _ h => h, fun _ h => h⟩

theorem raise_framed : framed eventRegs eventParts s ((raise e).run s) := within_raise eventAllows s

@[simp] theorem raise_dev : ((raise e).run s).dev = s.dev := (raise_framed s e).2.2 .dev (by decide)
@[simp] theorem raise_prevDev : ((raise e).run s).prevDev = s.prevDev := (raise_framed s e).2.2 .prevDev (by decide)
@[simp] theorem raise_sht : ((raise e).run s).b.sht = s.b.sht := (raise_framed s e).2.2 .bSht (by decide)
@[simp] theorem raise_mot : ((raise e).run s).b.mot = s.b.mot := (raise_framed s e).2.2 .bMot (by decide)
theorem raise_rd (a : Nat) (h : eventRegs a = false) : ((raise e).run s).rd a = s.rd a := (raise_framed s e).2.1 a h

end

/-! ### A change of the device state (R19) -/

theorem enter_run (s : State) {d : DevState} (h : s.dev.edge d = true) : (enter d).run s =
    (raise E.TOP_STATE_CHANGE).run ((addR R.TOP_TRANS_CNT 1).run { s with dev := d, prevDev := s.dev }) := by
  simp [enter, h, run_goto]

end Sys2Proof.Machine
end

section
/-! SUPPORT. O17 fails for a stop at stripe end: the flag of R248 alone makes it take effect at once. -/

namespace Sys2Proof.Machine

/-- A stop at stripe end in WRITING takes effect at once wherever the flag of R248 is set, whether or not a stripe was
written before. -/
theorem stopEnd_drains_of_turnWait (s : State) (hd : s.dev = .writing) (hr : s.role = .solo)
    (hw : s.b.job.turnWait = true) : ∃ t, exec .stopEnd s = .next t ∧ t.dev = .draining := by
  have hl : s.locked = true := by simp [State.locked, hd]
  refine ⟨_, perform_toPage s 7 stopEndCmd (reaches_locked s 7 hl), ?_⟩
  have hp : (s.served 7).passes = false := by simp [State.passes, State.paired, hr]
  have he : (s.served 7).dev.edge .draining = true := by simp [hd, DevState.edge]
  simp [stopEndCmd, State.locked, hd, passStopEnd, hp, stopEndNow, hw, enter_run _ he]

/-- A WRITING device whose flag of R248 is set before any run-in has come, so that it is not between two stripes. -/
def waitingBeforeRunIn : State :=
  { State.reset with dev := .writing, prevDev := .armed, b := { job := { turnWait := true } } }

/-- The counterexample keeps the invariant that every step keeps. -/
theorem waitingBeforeRunIn_inv : waitingBeforeRunIn.Inv := ⟨rfl, rfl, rfl⟩

/-- Refutes O17: in WRITING with the flag of R248 set and no stripe written, STOP_END passes to DRAINING although the
device is not between two stripes, where the statement has the stop noted only. -/
theorem not_disarmStopsAndDrainLeaveTheShotStates : ¬ Obligations.DisarmStopsAndDrainLeaveTheShotStates := by
  intro h
  obtain ⟨-, noted, -⟩ := h waitingBeforeRunIn
  obtain ⟨t, ht, hdev, -⟩ := noted rfl rfl rfl
  obtain ⟨u, hu, drained⟩ := stopEnd_drains_of_turnWait waitingBeforeRunIn rfl rfl rfl
  obtain rfl : t = u := by simpa [ht] using hu
  rw [hdev] at drained
  exact absurd drained (by decide)

end Sys2Proof.Machine
end

section
/-! SUPPORT. Scopes: a bound on what an effect may touch, read off its text once. Every effect within a scope keeps what
the scope keeps, takes no recorded event away, only adds to what is put out, drives no strobe unless the
scope says so, and never enters ARMED. -/

namespace Sys2Proof.Machine

/-- What an effect may touch besides what events touch: the registers and parts that it may change, whether it may drive a
strobe, and how the blocks after it stand to those before. -/
structure Scope where
  regs : Nat → Bool
  parts : List Part
  strobes : Bool := false
  blocks : Blocks → Blocks → Prop
  refl : ∀ b, blocks b b
  trans : ∀ {b c d}, blocks b c → blocks c d → blocks b d
  net : ∀ b n, blocks b { b with net := n }

/-- A strobe edge (R170). -/
def Out.isStrobe : Out → Bool
  | .strobe .. => true
  | _ => false

/-- Every recorded event of one state is recorded in another. -/
def State.keepsRaised (s t : State) : Prop := ∀ e : Evt, e.bit < 32 → s.raised e = true → t.raised e = true

/-- Each primitive of an effect that starts in a state lies within the scope. -/
def Scope.Allows (A : Scope) : Act → State → Prop
  | .nop, _ => True
  | .wr a _, _ => (eventRegs a || A.regs a) = true
  | .book l _, _ => l.part ∈ eventParts ++ A.parts
  | .goto d, _ => d ≠ .armed ∧ .dev ∈ A.parts ∧ .prevDev ∈ A.parts
  | .role _, _ => .role ∈ A.parts
  | .draw, _ => .fresh ∈ A.parts
  | .emit o, _ => (o.isStrobe && !A.strobes) = false
  | .index _ _, _ => True
  | .evt f, s => s.keepsRaised { s with evt := f s.evt }
  | .blk f, s => A.blocks s.b (f s.b)
  | .seq a b, s => A.Allows a s ∧ ∀ t, A.Allows b t
  | .dyn f, s => A.Allows (f s) s
  | .clear _, _ => False
  | .cell _ _, _ => False
  | .wipe, _ => False
  | .otp _ _, _ => False
  | .restart _, _ => False

/-- What an effect within a scope does to the state. -/
structure Scope.Rel (A : Scope) (s t : State) : Prop where
  rd : ∀ a, (eventRegs a || A.regs a) = false → t.rd a = s.rd a
  part : ∀ p ∈ [Part.dev, .prevDev, .role, .mem, .otp, .fresh, .ledTile, .ledCreditDma, .ledCreditCel, .ledFrame, .ledShot,
    .ledDose], p ∉ eventParts ++ A.parts → p.same s t
  blocks : A.blocks s.b t.b
  raised : s.keepsRaised t
  out : ∃ o, t.out = s.out ++ o ∧ ∀ x ∈ o, (x.isStrobe && !A.strobes) = false
  armed : s.dev ≠ .armed → t.dev ≠ .armed

variable {A B : Scope} {s t u : State}

theorem Scope.rel_refl (A : Scope) (s : State) : A.Rel s s where
  rd _ _ := rfl
  part p _ _ := by cases p <;> rfl
  blocks := A.refl _
  raised _ _ h := h
  out := ⟨[], by simp, by simp⟩
  armed h := h

theorem Scope.Rel.trans (h : A.Rel s t) (k : A.Rel t u) : A.Rel s u where
  rd a ha := (k.rd a ha).trans (h.rd a ha)
  part p hp hn := p.same_trans (h.part p hp hn) (k.part p hp hn)
  blocks := A.trans h.blocks k.blocks
  raised e he hs := k.raised e he (h.raised e he hs)
  out := by
    obtain ⟨o, ho, hs⟩ := h.out
    obtain ⟨q, hq, ht⟩ := k.out
    refine ⟨o ++ q, by rw [hq, ho, List.append_assoc], fun x hx => ?_⟩
    rcases List.mem_append.mp hx with hx | hx
    · exact hs x hx
    · exact ht x hx
  armed hs := k.armed (h.armed hs)

/-- An effect within a scope keeps what the scope keeps. -/
theorem Scope.Allows.rel {a : Act} (h : A.Allows a s) : A.Rel s (a.run s) := by
  induction a generalizing s with
  | nop => exact A.rel_refl s
  | seq a b iha ihb => exact (iha h.1).trans (ihb (h.2 _))
  | dyn f ih => exact ih s h
  | wr addr w =>
    refine { A.rel_refl s with rd := fun b hb => rd_wr_ne s addr b w ?_, part := fun p _ _ => by cases p <;> rfl }
    rintro rfl
    simp only [Scope.Allows] at h
    simp [h] at hb
  | book l k =>
    refine { A.rel_refl s with part := fun p hp hn => ?_ }
    simp only [Scope.Allows] at h
    cases l <;> cases p <;> first | rfl | exact absurd h hn
  | goto d =>
    obtain ⟨hd, h1, h2⟩ := h
    by_cases e : s.dev.edge d = true
    · rw [run_goto s d e]
      refine { A.rel_refl s with part := fun p hp hn => ?_, armed := fun _ => hd }
      cases p <;> first | rfl | exact absurd (List.mem_append_right _ h1) hn | exact absurd (List.mem_append_right _ h2) hn
    · have : (Act.goto d).run s = s := by simp [Act.run, e]
      rw [this]
      exact A.rel_refl s
  | role r =>
    by_cases e : s.role.edge r = true
    · rw [run_role s r e]
      refine { A.rel_refl s with part := fun p hp hn => ?_ }
      cases p <;> first | rfl | exact absurd (List.mem_append_right _ h) hn
    · have : (Act.role r).run s = s := by simp [Act.run, e]
      rw [this]
      exact A.rel_refl s
  | draw =>
    refine { A.rel_refl s with part := fun p hp hn => ?_ }
    cases p <;> first | rfl | exact absurd (List.mem_append_right _ h) hn
  | emit o =>
    refine { A.rel_refl s with part := fun p hp _ => ?_, out := ⟨[o], rfl, fun x hx => by rw [List.mem_singleton.mp hx]; exact h⟩ }
    cases p <;> first | rfl | simp at hp
  | index k v =>
    refine { A.rel_refl s with part := fun p hp _ => ?_ }
    cases p <;> first | rfl | simp at hp
  | evt f =>
    refine { A.rel_refl s with part := fun p hp _ => ?_, raised := h }
    cases p <;> first | rfl | simp at hp
  | blk f =>
    refine { A.rel_refl s with part := fun p hp _ => ?_, blocks := h }
    cases p <;> first | rfl | simp at hp
  | clear _ => exact h.elim
  | cell _ _ => exact h.elim
  | wipe => exact h.elim
  | otp _ _ => exact h.elim
  | restart _ => exact h.elim

/-- One scope lies within another. -/
structure Scope.Le (A B : Scope) : Prop where
  regs : ∀ a, A.regs a = true → B.regs a = true
  parts : A.parts ⊆ B.parts
  strobes : A.strobes = true → B.strobes = true
  blocks : ∀ b c, A.blocks b c → B.blocks b c

theorem Scope.Allows.mono (l : A.Le B) {a : Act} (h : A.Allows a s) : B.Allows a s := by
  induction a generalizing s with
  | seq a b iha ihb => exact ⟨iha h.1, fun t => ihb (h.2 t)⟩
  | dyn f ih => exact ih s h
  | wr addr w =>
    simp only [Scope.Allows, Bool.or_eq_true] at h ⊢
    exact h.imp_right (l.regs addr)
  | book lg k =>
    simp only [Scope.Allows, List.mem_append] at h ⊢
    exact h.imp_right fun hp => l.parts hp
  | goto d => exact ⟨h.1, l.parts h.2.1, l.parts h.2.2⟩
  | role r => exact l.parts h
  | draw => exact l.parts h
  | blk f => exact l.blocks _ _ h
  | emit o =>
    simp only [Scope.Allows, Bool.and_eq_false_iff, Bool.not_eq_false'] at h ⊢
    exact h.imp_right l.strobes
  | _ => exact h

/-! ### Reading a scope off an effect's text -/

section
variable (A : Scope) (s : State)

@[simp] theorem allows_nop : A.Allows .nop s := trivial
@[simp] theorem allows_seq (a b : Act) : A.Allows (.seq a b) s ↔ A.Allows a s ∧ ∀ t, A.Allows b t := Iff.rfl
@[simp] theorem allows_dyn (f : State → Act) : A.Allows (.dyn f) s ↔ A.Allows (f s) s := Iff.rfl
@[simp] theorem allows_nil : A.Allows (acts []) s := trivial
@[simp] theorem allows_cons (a : Act) (as : List Act) :
    A.Allows (acts (a :: as)) s ↔ A.Allows a s ∧ ∀ t, A.Allows (acts as) t := Iff.rfl
@[simp] theorem allows_on (c : Bool) (a : Act) : A.Allows (on c a) s ↔ (c = true → A.Allows a s) := by
  cases c <;> simp
@[simp] theorem allows_ite (c : Prop) [Decidable c] (a b : Act) :
    A.Allows (if c then a else b) s ↔ (c → A.Allows a s) ∧ (¬ c → A.Allows b s) := by
  split <;> simp [*]
theorem allows_each {α : Type} {l : List α} {f : α → Act} (h : ∀ x ∈ l, ∀ t, A.Allows (f x) t) : A.Allows (each l f) s := by
  induction l generalizing s with
  | nil => trivial
  | cons x l ih => exact ⟨h x (by simp) s, fun t => ih t fun y hy => h y (by simp [hy])⟩

@[simp] theorem allows_setR (a v : Nat) : A.Allows (setR a v) s ↔ (eventRegs a || A.regs a) = true := Iff.rfl
@[simp] theorem allows_setF (f : Fld) (v : Nat) : A.Allows (setF f v) s ↔ (eventRegs f.addr || A.regs f.addr) = true := Iff.rfl
@[simp] theorem allows_setB (f : Fld) (v : Bool) : A.Allows (setB f v) s ↔ (eventRegs f.addr || A.regs f.addr) = true := Iff.rfl
@[simp] theorem allows_addR (a v : Nat) : A.Allows (addR a v) s ↔ (eventRegs a || A.regs a) = true := Iff.rfl
@[simp] theorem allows_bookIn (l : Ledger) (n : Nat) : A.Allows (bookIn l n) s ↔ l.part ∈ eventParts ++ A.parts := Iff.rfl
@[simp] theorem allows_bookOut (l : Ledger) (n : Nat) : A.Allows (bookOut l n) s ↔ l.part ∈ eventParts ++ A.parts := Iff.rfl
@[simp] theorem allows_goto (d : DevState) :
    A.Allows (.goto d) s ↔ d ≠ .armed ∧ .dev ∈ A.parts ∧ .prevDev ∈ A.parts := Iff.rfl
@[simp] theorem allows_role (r : Role) : A.Allows (.role r) s ↔ .role ∈ A.parts := Iff.rfl
@[simp] theorem allows_draw : A.Allows .draw s ↔ .fresh ∈ A.parts := Iff.rfl
@[simp] theorem allows_emit (o : Out) : A.Allows (.emit o) s ↔ (o.isStrobe && !A.strobes) = false := Iff.rfl
@[simp] theorem allows_index (k v : Nat) : A.Allows (.index k v) s := trivial
@[simp] theorem allows_onCask (f) : A.Allows (onCask f) s ↔ A.blocks s.b { s.b with cask := f s.b.cask } := Iff.rfl
@[simp] theorem allows_onPress (f) : A.Allows (onPress f) s ↔ A.blocks s.b { s.b with press := f s.b.press } := Iff.rfl
@[simp] theorem allows_onCel (f) : A.Allows (onCel f) s ↔ A.blocks s.b { s.b with cel := f s.b.cel } := Iff.rfl
@[simp] theorem allows_onJob (f) : A.Allows (onJob f) s ↔ A.blocks s.b { s.b with job := f s.b.job } := Iff.rfl
@[simp] theorem allows_onPlk (f) : A.Allows (onPlk f) s ↔ A.blocks s.b { s.b with plk := f s.b.plk } := Iff.rfl
@[simp] theorem allows_onSht (f) : A.Allows (onSht f) s ↔ A.blocks s.b { s.b with sht := f s.b.sht } := Iff.rfl
@[simp] theorem allows_onPos (f) : A.Allows (onPos f) s ↔ A.blocks s.b { s.b with pos := f s.b.pos } := Iff.rfl
@[simp] theorem allows_onMot (f) : A.Allows (onMot f) s ↔ A.blocks s.b { s.b with mot := f s.b.mot } := Iff.rfl
@[simp] theorem allows_onPar (f) : A.Allows (onPar f) s ↔ A.blocks s.b { s.b with par := f s.b.par } := Iff.rfl
@[simp] theorem allows_onTim (f) : A.Allows (onTim f) s ↔ A.blocks s.b { s.b with tim := f s.b.tim } := Iff.rfl
@[simp] theorem allows_onAge (f) : A.Allows (onAge f) s ↔ A.blocks s.b { s.b with age := f s.b.age } := Iff.rfl
@[simp] theorem allows_onBst (f) : A.Allows (onBst f) s ↔ A.blocks s.b { s.b with bst := f s.b.bst } := Iff.rfl
@[simp] theorem allows_onNet (f : NetBlk → NetBlk) : A.Allows (onNet f) s := A.net s.b (f s.b.net)

/-! ### Events -/

theorem allows_evt {f : EvtBlk → EvtBlk} (h : (f s.evt).raw = s.evt.raw) : A.Allows (.evt f) s :=
  fun e _ k => by rw [raised_congr (s := s) { s with evt := f s.evt } h]; exact k

@[simp] theorem allows_ringWrite (ring : Nat) (bytes : List Nat) : A.Allows (ringWrite ring bytes) s := by
  simp [ringWrite, Out.isStrobe, Bool.false_and, Ledger.part, eventParts]

@[simp] theorem allows_recordRaise (page bit : Nat) : A.Allows (recordRaise page bit) s :=
  fun _ he k => keeps_recordRaise he s k

@[simp] theorem allows_bumpSeq (x : Option Session) : A.Allows (bumpSeq x) s := by
  cases x <;> exact A.net _ _

@[simp] theorem allows_countLost : A.Allows countLost s := allows_evt A s rfl

theorem allows_msixSend (v : Nat) : A.Allows (msixSend v) s := by
  simp only [msixSend, allows_dyn, allows_ite, allows_emit, Out.isStrobe, Bool.false_and]
  exact ⟨fun _ => allows_evt A s rfl, fun _ => trivial⟩

theorem allows_netEmit {done : Nat → Act} {port : Nat} (hp : port = 0 ∨ port = 1) (hd : ∀ t, A.Allows (done port) t)
    (partner type : Nat) (bytes : List Nat) : A.Allows (netEmit done port partner type bytes) s := by
  have hr : eventRegs (R.NET_TX_CNT port) = true := by rcases hp with rfl | rfl <;> decide
  simp only [netEmit, allows_dyn, allows_ite, allows_cons, allows_on, allows_addR, allows_onNet, allows_emit, hr,
    Bool.true_or, Out.isStrobe, Bool.false_and, allows_nop, allows_nil, implies_true, true_and, and_true]
  exact fun _ => ⟨fun _ _ => hd, fun _ _ _ _ t => ⟨allows_each A t fun _ _ _ => rfl, fun _ _ t _ => hd t⟩⟩

theorem allows_netSendWith {done : Nat → Act} (hd : ∀ p, p = 0 ∨ p = 1 → ∀ t, A.Allows (done p) t) {ports : List Nat}
    (hp : ∀ p ∈ ports, p = 0 ∨ p = 1) (partner : Nat) (x : Option Session) (type flags corr : Nat) (payload : List Nat) :
    A.Allows (netSendWith done ports partner x type flags corr payload) s :=
  ⟨allows_bumpSeq A _ _, fun t => allows_each A t fun p h u => allows_netEmit A u (hp p h) (hd p (hp p h)) _ _ _⟩

theorem allows_routeEvent {done : Nat → Act} (hd : ∀ p, p = 0 ∨ p = 1 → ∀ t, A.Allows (done p) t) {lost : Act}
    (hl : ∀ t, A.Allows lost t) (src page bit : Nat) (forced m1 m2 : Bool) :
    A.Allows (routeEvent done lost src page bit forced m1 m2) s := by
  simp only [routeEvent, allows_dyn, allows_cons, allows_on, allows_ite, allows_nil, implies_true, and_true]
  refine ⟨fun _ => allows_msixSend A s _, fun t => ⟨fun _ => ⟨fun _ => hl t, fun _ => allows_each A t fun p _ u =>
    allows_netSendWith A u hd (by simpa using pref_port p) _ _ _ _ _ _⟩, fun u _ => ?_⟩⟩
  split
  · split
    · exact ⟨allows_bumpSeq A _ _, fun _ => allows_ringWrite A _ _ _⟩
    · exact hl u
  · exact hl u

theorem allows_raiseWith {done : Nat → Act} (hd : ∀ p, p = 0 ∨ p = 1 → ∀ t, A.Allows (done p) t) {lost : Act}
    (hl : ∀ t, A.Allows lost t) (page bit : Nat) (forced : Bool) : A.Allows (raiseWith done lost page bit forced) s := by
  simp only [raiseWith, deliverWith, allows_dyn, allows_seq, allows_on, allows_ite, allows_recordRaise, true_and]
  exact fun t _ => ⟨fun _ => allows_evt A t rfl, fun _ => allows_routeEvent A t hd hl _ _ _ _ _ _⟩

theorem allows_loseMessage : A.Allows loseMessage s :=
  ⟨allows_countLost A s, fun t => allows_raiseWith A t (fun _ _ t => allows_nop A t) (allows_countLost A) _ _ _⟩

theorem allows_netFijDone {port : Nat} (hp : port = 0 ∨ port = 1) : A.Allows (netFijDone port) s := by
  have h1 : eventRegs (F.NET_FIJ_CFG_KIND port).addr = true := by rcases hp with rfl | rfl <;> decide
  have h2 : eventRegs (R.NET_FIJ_DONE port) = true := by rcases hp with rfl | rfl <;> decide
  have h3 : eventRegs R.FIJ_DONE = true := by decide
  simp only [netFijDone, allows_cons, allows_setF, allows_addR, h1, h2, h3, Bool.true_or, allows_nil, implies_true, and_true,
    true_and]
  exact fun _ _ t => allows_raiseWith A t (fun _ _ t => allows_nop A t) (allows_loseMessage A) _ _ _

/-- Raising an event lies within every scope. -/
@[simp] theorem allows_raise (e : Evt) : A.Allows (raise e) s :=
  allows_raiseWith A s (fun _ h t => allows_netFijDone A t h) (allows_loseMessage A) _ _ _

theorem allows_netSend {ports : List Nat} (hp : ∀ p ∈ ports, p = 0 ∨ p = 1) (partner : Nat) (x : Option Session)
    (type flags corr : Nat) (payload : List Nat) : A.Allows (netSend ports partner x type flags corr payload) s :=
  allows_netSendWith A s (fun _ h t => allows_netFijDone A t h) hp _ _ _ _ _ _

/-- A message to a partner lies within every scope. -/
@[simp] theorem allows_netTo (p : Partner) (type : Nat) (payload : List Nat) : A.Allows (netTo p type payload) s :=
  allows_netSend A s (by simpa using pref_port p) _ _ _ _ _ _

@[simp] theorem allows_enter (d : DevState) (h : d ≠ .armed) (hr : A.regs R.TOP_TRANS_CNT = true) (hd : .dev ∈ A.parts)
    (hp : .prevDev ∈ A.parts) : A.Allows (enter d) s := by
  simp [enter, h, hr, hd, hp]

end

end Sys2Proof.Machine
end

section
/-! SUPPORT. The scopes of the shot path: what frames and seals, stops and rackings, and withheld shots and faults leave as it
was. -/

namespace Sys2Proof.Machine

/-! ### Records of shots -/

/-- The record of a shot in the shot unit. -/
def ShotBlk.rec' (b : ShotBlk) (k : Nat) : ShotRec := (b.recs.find? fun x => x.shot == k).getD { shot := k }

/-- The shot unit with one record changed. -/
def ShotBlk.put (b : ShotBlk) (k : Nat) (f : ShotRec → ShotRec) : ShotBlk :=
  { b with recs := if b.recs.any fun x => x.shot == k then b.recs.map fun x => if x.shot == k then f x else x
    else b.recs ++ [f { shot := k }] }

theorem shotRec_eq (s : State) (k : Nat) : s.shotRec k = s.b.sht.rec' k := rfl

@[simp] theorem run_putRec (s : State) (k : Nat) (f : ShotRec → ShotRec) :
    (putRec k f).run s = { s with b := { s.b with sht := s.b.sht.put k f } } := by
  simp only [putRec, ShotBlk.put, run_dyn, run_ite, run_onSht]
  split <;> rfl

/-- A changed record reads as changed, every other one as before. -/
theorem ShotBlk.rec_put (b : ShotBlk) (k j : Nat) {f : ShotRec → ShotRec} (hf : ∀ x, (f x).shot = x.shot) :
    (b.put k f).rec' j = if j = k then f (b.rec' k) else b.rec' j := by
  have hmap : ∀ l : List ShotRec, (l.map fun x => if x.shot == k then f x else x).find? (fun x => x.shot == j) =
      (l.find? fun x => x.shot == j).map fun x => if x.shot == k then f x else x := by
    intro l
    rw [List.find?_map]
    congr 2
    funext x
    by_cases hx : x.shot = k <;> simp [hx, hf]
  unfold ShotBlk.put ShotBlk.rec'
  dsimp only
  by_cases ha : (b.recs.any fun x => x.shot == k) = true
  · rw [if_pos ha, hmap]
    cases hz : b.recs.find? fun x => x.shot == j with
    | none =>
      have hj : j ≠ k := by
        rintro rfl
        obtain ⟨y, hy, hyk⟩ := List.any_eq_true.mp ha
        exact absurd hyk (List.find?_eq_none.mp hz y hy)
      simp [hj]
    | some z =>
      have hzj : z.shot = j := by simpa using List.find?_some hz
      by_cases hj : j = k
      · subst hj
        simp [hz, hzj]
      · simp [hzj, hj]
  · rw [if_neg ha]
    have hn : ∀ x ∈ b.recs, x.shot ≠ k := by simpa using ha
    have hk : b.recs.find? (fun x => x.shot == k) = none := by simpa using hn
    rw [List.find?_append]
    by_cases hj : j = k
    · subst hj
      simp [hk, hf]
    · have hz : [f { shot := k }].find? (fun x => x.shot == j) = none := by simp [hf, Ne.symm hj]
      rw [hz, if_neg hj, Option.or_none]

@[simp] theorem allows_putRec (A : Scope) (s : State) (k : Nat) (f : ShotRec → ShotRec) :
    A.Allows (putRec k f) s ↔ A.blocks s.b { s.b with sht := s.b.sht.put k f } := by
  simp only [putRec, ShotBlk.put, allows_dyn, allows_ite, allows_onSht]
  split <;> simp [*]

/-! ### Frames and seals -/

/-- The same shots stand strobed, stopped, withheld and triggered. -/
structure ShotBlk.SameShots (b c : ShotBlk) : Prop where
  first : c.first = b.first
  stopFrom : c.stopFrom = b.stopFrom
  floor : c.floor = b.floor
  rackWait : c.rackWait = b.rackWait
  withheld : ∀ k, (c.rec' k).withheld = (b.rec' k).withheld
  triggered : ∀ k, (c.rec' k).triggered = (b.rec' k).triggered

theorem ShotBlk.SameShots.refl (b : ShotBlk) : b.SameShots b := ⟨rfl, rfl, rfl, rfl, fun _ => rfl, fun _ => rfl⟩

theorem ShotBlk.SameShots.trans {b c d : ShotBlk} (h : b.SameShots c) (k : c.SameShots d) : b.SameShots d :=
  ⟨k.first.trans h.first, k.stopFrom.trans h.stopFrom, k.floor.trans h.floor, k.rackWait.trans h.rackWait,
    fun n => (k.withheld n).trans (h.withheld n), fun n => (k.triggered n).trans (h.triggered n)⟩

theorem ShotBlk.sameShots_put (b : ShotBlk) (k : Nat) {f : ShotRec → ShotRec} (hs : ∀ x, (f x).shot = x.shot)
    (hw : ∀ x, (f x).withheld = x.withheld) (ht : ∀ x, (f x).triggered = x.triggered) : b.SameShots (b.put k f) := by
  refine ⟨rfl, rfl, rfl, rfl, fun j => ?_, fun j => ?_⟩
  · rw [rec_put b k j hs]; split <;> simp [*]
  · rw [rec_put b k j hs]; split <;> simp [*]

/-- What building, queueing and sealing frames leaves as it was. -/
structure sealKeeps (b c : Blocks) : Prop where
  lat : c.lat = b.lat
  press : c.press = b.press
  cel : c.cel = b.cel
  job : c.job = b.job
  pos : c.pos = b.pos
  mot : c.mot = b.mot
  tim : c.tim = b.tim
  thm : c.thm = b.thm
  bst : c.bst = b.bst
  serve : c.cask.serve = b.cask.serve
  retire : c.cask.retireAtEnd = b.cask.retireAtEnd
  mate : c.par.mate = b.par.mate
  digest : c.par.digestReq = b.par.digestReq
  sht : b.sht.SameShots c.sht

theorem sealKeeps.refl (b : Blocks) : sealKeeps b b :=
  ⟨rfl, rfl, rfl, rfl, rfl, rfl, rfl, rfl, rfl, rfl, rfl, rfl, rfl, .refl _⟩

theorem sealKeeps.trans {b c d : Blocks} (h : sealKeeps b c) (k : sealKeeps c d) : sealKeeps b d :=
  ⟨k.lat.trans h.lat, k.press.trans h.press, k.cel.trans h.cel, k.job.trans h.job, k.pos.trans h.pos, k.mot.trans h.mot,
    k.tim.trans h.tim, k.thm.trans h.thm, k.bst.trans h.bst, k.serve.trans h.serve, k.retire.trans h.retire, k.mate.trans h.mate,
    k.digest.trans h.digest, h.sht.trans k.sht⟩

/-- The scope of frames and seals. -/
def sealScope : Scope where
  regs := [R.PLK_FIJ_CFG, R.PLK_FIJ_DONE, R.PLK_VINTAGE, R.PLK_SEAL_LO, R.PLK_SEAL_HI, R.PAR_SOLE_CNT, R.PAR_WD_CNT,
    R.PAR_DEFER_CNT, R.PAR_FIJ_CFG, R.PAR_FIJ_DONE].contains
  parts := [.ledFrame]
  blocks := sealKeeps
  refl := sealKeeps.refl
  trans := sealKeeps.trans
  net _ _ := ⟨rfl, rfl, rfl, rfl, rfl, rfl, rfl, rfl, rfl, rfl, rfl, rfl, rfl, .refl _⟩

section
variable (b : Blocks)

theorem sealScope_plk (x : PlateBlk) : sealScope.blocks b { b with plk := x } :=
  ⟨rfl, rfl, rfl, rfl, rfl, rfl, rfl, rfl, rfl, rfl, rfl, rfl, rfl, .refl _⟩
theorem sealScope_par (x : PairBlk) (hm : x.mate = b.par.mate) (hd : x.digestReq = b.par.digestReq) :
    sealScope.blocks b { b with par := x } :=
  ⟨rfl, rfl, rfl, rfl, rfl, rfl, rfl, rfl, rfl, rfl, rfl, hm, hd, .refl _⟩
theorem sealScope_cask (x : CaskBlk) (hs : x.serve = b.cask.serve) (hr : x.retireAtEnd = b.cask.retireAtEnd) :
    sealScope.blocks b { b with cask := x } :=
  ⟨rfl, rfl, rfl, rfl, rfl, rfl, rfl, rfl, rfl, hs, hr, rfl, rfl, .refl _⟩
theorem sealScope_sht (x : ShotBlk) (h : b.sht.SameShots x) : sealScope.blocks b { b with sht := x } :=
  ⟨rfl, rfl, rfl, rfl, rfl, rfl, rfl, rfl, rfl, rfl, rfl, rfl, rfl, h⟩

end

section
variable (s : State)

theorem allows_parFijDone : sealScope.Allows parFijDone s := by
  simp only [parFijDone, allows_cons, allows_setF, allows_addR, allows_raise, allows_nil]
  exact ⟨by decide, fun _ => ⟨by decide, fun _ => ⟨by decide, by simp⟩⟩⟩

theorem allows_pairEmit (lane kind group word : Nat) (data : List Nat) :
    sealScope.Allows (pairEmit lane kind group word data) s := by
  simp only [pairEmit, allows_dyn, allows_cons, allows_on, allows_ite, allows_nop, allows_emit, Out.isStrobe, Bool.false_and, allows_onPar,
    allows_nil, implies_true, and_true, true_and]
  refine ⟨fun _ _ _ => ⟨fun _ => sealScope_par _ _ rfl rfl, fun _ t => ?_⟩, fun t => ⟨fun _ => sealScope_par _ _ rfl rfl, fun t =>
    ⟨fun _ => sealScope_par _ _ rfl rfl, fun t _ => allows_parFijDone t⟩⟩⟩
  exact ⟨allows_each _ _ fun _ _ _ => rfl, fun t => sealScope_par _ _ rfl rfl⟩

/-- A message on the pair link lies within the scope of frames and seals. -/
@[simp] theorem allows_pairSend (kind word : Nat) (data : List Nat) : sealScope.Allows (pairSend kind word data) s := by
  simp only [pairSend, allows_dyn, allows_on]
  exact fun _ => allows_each _ _ fun _ _ t => allows_pairEmit t _ _ _ _ _

theorem allows_plkFijDone : sealScope.Allows plkFijDone s := by
  simp only [plkFijDone, allows_cons, allows_setF, allows_addR, allows_raise, allows_nil]
  exact ⟨by decide, fun _ => ⟨by decide, fun _ => ⟨by decide, by simp⟩⟩⟩

theorem allows_plkFijCount (lane : Nat) (counted acting : Bool) : sealScope.Allows (plkFijCount lane counted acting) s := by
  simp only [plkFijCount, allows_dyn, allows_cons, allows_on, allows_onPlk, allows_nil, implies_true, and_true]
  exact ⟨fun _ => sealScope_plk _ _, fun t => ⟨fun _ => sealScope_plk _ _, fun t _ => allows_plkFijDone t⟩⟩

@[simp] theorem allows_queueFrame (f : TxFrame) : sealScope.Allows (queueFrame f) s := by
  simp only [queueFrame, allows_dyn, allows_seq, allows_ite, allows_onPlk]
  exact ⟨⟨fun _ => sealScope_plk _ _, fun _ => sealScope_plk _ _⟩, fun t => allows_plkFijCount t _ _ _⟩

theorem allows_stepCounts : sealScope.Allows stepCounts s := by
  simp only [stepCounts, allows_dyn, allows_ite, allows_cons, allows_setF, allows_onPlk, allows_nil, implies_true, and_true]
  exact ⟨fun _ => ⟨by decide, fun _ => ⟨by decide, fun _ => sealScope_plk _ _⟩⟩, fun _ => sealScope_plk _ _⟩

/-- Taking a shot's frames lies within the scope of frames and seals. -/
@[simp] theorem allows_takeFrames (m : Nat) (hold : Bool) : sealScope.Allows (takeFrames m hold) s := by
  simp only [takeFrames, allows_dyn]
  split
  · simp only [allows_cons, allows_putRec, allows_on, allows_bookIn, allows_onSht, allows_nil, implies_true, and_true]
    exact ⟨sealScope_sht _ _ (ShotBlk.sameShots_put _ _ (fun _ => rfl) (fun _ => rfl) fun _ => rfl),
      fun t => ⟨fun _ => by decide, fun t => ⟨allows_each _ _ fun _ _ t => allows_queueFrame t _, fun t => ⟨allows_stepCounts t,
        fun t => sealScope_sht _ _ ⟨rfl, rfl, rfl, rfl, fun _ => rfl, fun _ => rfl⟩⟩⟩⟩⟩
  · trivial

theorem allows_emitSeal (lane word : Nat) : sealScope.Allows (emitSeal lane word) s := by
  simp only [emitSeal, allows_dyn, allows_seq, allows_on, allows_emit, Out.isStrobe, Bool.false_and, implies_true, true_and]
  exact fun t => allows_plkFijCount t _ _ _

theorem allows_issueSeal (k verdict : Nat) : sealScope.Allows (issueSeal k verdict) s := by
  simp only [issueSeal, allows_dyn, allows_cons, allows_setR, allows_putRec, allows_on, allows_addR, allows_onPar, allows_raise,
    allows_nil, implies_true, and_true]
  exact ⟨by decide, fun _ => ⟨by decide, fun t => ⟨allows_each _ _ fun _ _ t => allows_emitSeal t _ _, fun t =>
    ⟨sealScope_sht _ _ (ShotBlk.sameShots_put _ _ (fun _ => rfl) (fun _ => rfl) fun _ => rfl), fun _ => ⟨fun _ => by decide, fun _ =>
      ⟨fun _ => by decide, fun _ _ => ⟨by decide, fun t => sealScope_par _ _ rfl rfl⟩⟩⟩⟩⟩⟩⟩

/-- HOLD seals lie within the scope of frames and seals. -/
@[simp] theorem allows_holdSeals (fuel m : Nat) : sealScope.Allows (holdSeals fuel m) s := by
  induction fuel generalizing m s with
  | zero => trivial
  | succ fuel ih =>
    simp only [holdSeals, allows_dyn, allows_ite, allows_seq, allows_nop, implies_true, and_true]
    exact fun _ => ⟨allows_issueSeal s _ _, fun t => ih t _⟩

/-- Dropping what the taps hold lies within the scope of frames and seals. -/
@[simp] theorem allows_dropTaps (k : Nat) : sealScope.Allows (dropTaps k) s := by
  simp only [dropTaps, allows_dyn, allows_cons, allows_onCask, allows_nil, implies_true, and_true]
  exact ⟨allows_each _ _ fun _ _ t => by simp [Ledger.part, sealScope], fun t => sealScope_cask _ _ rfl rfl⟩

theorem allows_jobStartFrames (stripe : Nat) (rev : Bool) : sealScope.Allows (jobStartFrames stripe rev) s := by
  simp only [jobStartFrames, allows_dyn, allows_cons, allows_bookIn, allows_nil, implies_true, and_true]
  exact ⟨by decide, fun t => ⟨allows_each _ _ fun _ _ t => allows_queueFrame t _, fun t => allows_stepCounts t⟩⟩

end

end Sys2Proof.Machine
end

section
/-! SUPPORT. The scopes of stops and rackings, and of withheld shots, retired taps and faults. -/

namespace Sys2Proof.Machine

/-! ### Stops and rackings -/

/-- The generator's period, its setpoints, and where the axes stand. -/
structure MotBlk.SamePlace (b c : MotBlk) : Prop where
  period : c.period = b.period
  sps : c.sps = b.sps
  y : c.y.p = b.y.p
  x : c.x.p = b.x.p

theorem MotBlk.SamePlace.refl (b : MotBlk) : b.SamePlace b := ⟨rfl, rfl, rfl, rfl⟩
theorem MotBlk.SamePlace.trans {b c d : MotBlk} (h : b.SamePlace c) (k : c.SamePlace d) : b.SamePlace d :=
  ⟨k.period.trans h.period, k.sps.trans h.sps, k.y.trans h.y, k.x.trans h.x⟩

/-- No shot is strobed, and a withheld shot stays withheld. -/
structure ShotBlk.StillWithheld (b c : ShotBlk) : Prop where
  first : c.first = b.first
  withheld : ∀ k, (b.rec' k).withheld.isSome = true → (c.rec' k).withheld.isSome = true

theorem ShotBlk.StillWithheld.refl (b : ShotBlk) : b.StillWithheld b := ⟨rfl, fun _ h => h⟩
theorem ShotBlk.StillWithheld.trans {b c d : ShotBlk} (h : b.StillWithheld c) (k : c.StillWithheld d) : b.StillWithheld d :=
  ⟨k.first.trans h.first, fun n hn => k.withheld n (h.withheld n hn)⟩

/-- What stops at a safe point and racking triggers leave as it was. -/
structure stopKeeps (b c : Blocks) : Prop where
  lat : c.lat = b.lat
  press : c.press = b.press
  cel : c.cel = b.cel
  pos : c.pos = b.pos
  tim : c.tim = b.tim
  queue : c.job.queue = b.job.queue
  mot : b.mot.SamePlace c.mot
  sht : b.sht.StillWithheld c.sht

/-- The scope of stops and rackings. -/
def stopScope : Scope where
  regs a := sealScope.regs a || [R.TOP_TRANS_CNT, R.MOT_RACK_INFO, R.MOT_RACK_SHOT, R.MOT_RACK_CNT].contains a
  parts := [.ledFrame, .ledShot, .dev, .prevDev]
  blocks := stopKeeps
  refl _ := ⟨rfl, rfl, rfl, rfl, rfl, rfl, .refl _, .refl _⟩
  trans h k := ⟨k.lat.trans h.lat, k.press.trans h.press, k.cel.trans h.cel, k.pos.trans h.pos, k.tim.trans h.tim,
    k.queue.trans h.queue, h.mot.trans k.mot, h.sht.trans k.sht⟩
  net _ _ := ⟨rfl, rfl, rfl, rfl, rfl, rfl, .refl _, .refl _⟩

theorem sealScope_le_stopScope : sealScope.Le stopScope where
  regs a h := by simp [stopScope, h]
  parts := by decide
  strobes := by decide
  blocks b c h := ⟨h.lat, h.press, h.cel, h.pos, h.tim, by rw [h.job], by rw [h.mot]; exact .refl _,
    h.sht.first, fun k hk => by rwa [h.sht.withheld k]⟩

section
variable (b : Blocks)

theorem stopScope_job (x : JobBlk) (h : x.queue = b.job.queue) : stopScope.blocks b { b with job := x } :=
  ⟨rfl, rfl, rfl, rfl, rfl, h, .refl _, .refl _⟩
theorem stopScope_mot (x : MotBlk) (h : b.mot.SamePlace x) : stopScope.blocks b { b with mot := x } :=
  ⟨rfl, rfl, rfl, rfl, rfl, rfl, h, .refl _⟩
theorem stopScope_par (x : PairBlk) : stopScope.blocks b { b with par := x } :=
  ⟨rfl, rfl, rfl, rfl, rfl, rfl, .refl _, .refl _⟩
theorem stopScope_sht (x : ShotBlk) (h : b.sht.StillWithheld x) : stopScope.blocks b { b with sht := x } :=
  ⟨rfl, rfl, rfl, rfl, rfl, rfl, .refl _, h⟩
theorem stopScope_shtOf (x : ShotBlk) (hf : x.first = b.sht.first) (hr : x.recs = b.sht.recs) :
    stopScope.blocks b { b with sht := x } :=
  stopScope_sht b x ⟨hf, fun k h => by unfold ShotBlk.rec' at *; rwa [hr]⟩

end

theorem ShotBlk.stillWithheld_put (b : ShotBlk) (k : Nat) {f : ShotRec → ShotRec} (hs : ∀ x, (f x).shot = x.shot)
    (hw : ∀ x, (f x).withheld.isSome = true) : b.StillWithheld (b.put k f) := by
  refine ⟨rfl, fun j h => ?_⟩
  rw [rec_put b k j hs]
  split
  · exact hw _
  · exact h

section
variable (s : State)

theorem allows_stopMotion (p : Phase) : stopScope.Allows (stopMotion p) s := stopScope_mot _ _ ⟨rfl, rfl, rfl, rfl⟩

theorem allows_noteUnresolved (k : Nat) : stopScope.Allows (noteUnresolved k) s := stopScope_shtOf _ _ rfl rfl

theorem allows_abandonShots : stopScope.Allows abandonShots s := by
  simp only [abandonShots, allows_dyn, allows_cons, allows_bookOut, allows_onSht, allows_on, allows_onPar, allows_nil,
    implies_true, and_true]
  exact ⟨by decide, fun t => ⟨stopScope_shtOf _ _ rfl rfl, fun t _ => stopScope_par _ _⟩⟩

theorem allows_safePoint : stopScope.Allows safePoint s := by
  simp only [safePoint, allows_dyn]
  split
  · simp only [allows_on, allows_seq, allows_onSht]
    exact fun _ => ⟨stopScope_shtOf _ _ rfl rfl, fun t => allows_enter _ t _ (by decide) (by decide) (by decide) (by decide)⟩
  · trivial

/-- Cutting the shots from one on lies within the scope of stops. -/
theorem allows_cutShots (n : Nat) : stopScope.Allows (cutShots n) s := by
  simp only [cutShots, allows_dyn, allows_cons, allows_onSht, allows_nil, implies_true, and_true]
  refine ⟨stopScope_shtOf _ _ rfl rfl, fun t => ⟨(allows_dropTaps t _).mono sealScope_le_stopScope, fun t => ⟨?_, fun t =>
    ⟨(allows_holdSeals t _ _).mono sealScope_le_stopScope, fun t => ⟨allows_abandonShots t, fun t => allows_safePoint t⟩⟩⟩⟩⟩
  refine allows_each _ _ fun x _ t => ?_
  simp only [allows_cons, allows_putRec, allows_on, allows_nil, implies_true, and_true]
  exact ⟨stopScope_sht _ _ (ShotBlk.stillWithheld_put _ _ (fun _ => rfl) fun _ => rfl), fun t _ => allows_noteUnresolved t _⟩

theorem allows_stopSafeFrom (n : Nat) : stopScope.Allows (stopSafeFrom n) s := by
  simp only [stopSafeFrom, allows_dyn, allows_ite, allows_cons, allows_on, allows_onJob, allows_nop, allows_nil, implies_true,
    and_true]
  exact ⟨fun _ => stopScope_job _ _ rfl, fun _ _ => ⟨fun _ => allows_stopMotion s _, fun t => ⟨stopScope_job _ _ rfl, fun t =>
    allows_cutShots t _⟩⟩⟩

/-- A stop at a safe point lies within the scope of stops. -/
theorem allows_stopSafe : stopScope.Allows stopSafe s := by
  simp only [stopSafe, allows_dyn, allows_ite, allows_seq, allows_on, allows_nop, implies_true, and_true]
  exact fun _ => ⟨fun _ => (allows_pairSend s _ _ _).mono sealScope_le_stopScope, fun t => allows_stopSafeFrom t _⟩

theorem allows_startRacking (k cause : Nat) : stopScope.Allows (startRacking k cause) s := by
  simp only [startRacking, allows_dyn, allows_cons, allows_onSht, allows_setR, allows_addR, allows_onMot, allows_raise,
    allows_nil, implies_true, and_true]
  exact ⟨allows_enter _ s _ (by decide) (by decide) (by decide) (by decide), fun t => ⟨stopScope_shtOf _ _ rfl rfl, fun _ =>
    ⟨by decide, fun _ => ⟨by decide, fun _ => ⟨by decide, fun t => ⟨allows_stopMotion t _, fun t =>
      stopScope_mot _ _ ⟨rfl, rfl, rfl, rfl⟩⟩⟩⟩⟩⟩⟩

theorem allows_rackGo (k cause : Nat) : stopScope.Allows (rackGo k cause) s := by
  simp only [rackGo, allows_dyn, allows_ite, allows_seq, allows_raise, implies_true, and_true]
  exact ⟨fun _ => allows_stopSafe s, fun _ => allows_startRacking s _ _⟩

theorem allows_rackDue : stopScope.Allows rackDue s := by
  simp only [rackDue, allows_dyn]
  split
  · simp only [allows_on]
    exact fun _ => allows_rackGo s _ _
  · trivial

/-- A racking trigger lies within the scope of stops. -/
theorem allows_rackTrigger (k cause : Nat) : stopScope.Allows (rackTrigger k cause) s := by
  simp only [rackTrigger, allows_dyn, allows_ite, allows_on, allows_seq, allows_onSht, allows_nop, implies_true, and_true]
  exact ⟨fun _ _ => allows_rackGo s _ _, fun _ _ => ⟨stopScope_shtOf _ _ rfl rfl, fun t => allows_rackDue t⟩⟩

theorem allows_afterEdge : stopScope.Allows afterEdge s := by
  simp only [afterEdge, allows_seq, allows_dyn, allows_on, allows_onJob]
  exact ⟨allows_rackDue s, fun t _ => ⟨stopScope_job _ _ rfl, fun t => allows_stopSafe t⟩⟩

theorem allows_stopAtEnd : stopScope.Allows stopAtEnd s := by
  simp only [stopAtEnd, allows_dyn, allows_ite, allows_seq, allows_on, allows_onJob]
  exact ⟨fun _ => ⟨allows_enter _ s _ (by decide) (by decide) (by decide) (by decide), fun t => stopScope_job _ _ rfl⟩,
    fun _ _ => stopScope_job _ _ rfl⟩

end

/-! ### Withheld shots, retired taps and faults -/

/-- What withheld shots, retired taps and faults leave as it was. -/
structure pathKeeps (b c : Blocks) : Prop where
  press : c.press = b.press
  cel : c.cel = b.cel
  queue : c.job.queue = b.job.queue
  first : c.sht.first = b.sht.first

/-- The scope of the shot path in a job. -/
def pathScope : Scope where
  regs a := !([R.LAT_SHORT_CNT, R.JOB_DONE_CNT].contains a)
  parts := [.ledFrame, .ledShot, .dev, .prevDev, .role, .fresh]
  blocks := pathKeeps
  refl _ := ⟨rfl, rfl, rfl, rfl⟩
  trans h k := ⟨k.press.trans h.press, k.cel.trans h.cel, k.queue.trans h.queue, k.first.trans h.first⟩
  net _ _ := ⟨rfl, rfl, rfl, rfl⟩

theorem stopScope_le_pathScope : stopScope.Le pathScope where
  regs a h := by
    simp only [pathScope, Bool.not_eq_true', List.contains_eq_mem, decide_eq_false_iff_not]
    intro hm
    rcases List.mem_pair.mp hm with rfl | rfl <;> exact absurd h (by decide)
  parts := by decide
  strobes := by decide
  blocks b c h := ⟨h.press, h.cel, h.queue, h.sht.first⟩

theorem sealScope_le_pathScope : sealScope.Le pathScope where
  regs a h := stopScope_le_pathScope.regs a (sealScope_le_stopScope.regs a h)
  parts := by decide
  strobes := by decide
  blocks b c h := stopScope_le_pathScope.blocks b c (sealScope_le_stopScope.blocks b c h)

section
variable (b : Blocks)

theorem pathScope_cask (x : CaskBlk) : pathScope.blocks b { b with cask := x } := ⟨rfl, rfl, rfl, rfl⟩
theorem pathScope_bst (x : BstBlk) : pathScope.blocks b { b with bst := x } := ⟨rfl, rfl, rfl, rfl⟩
theorem pathScope_sht (x : ShotBlk) (h : x.first = b.sht.first) : pathScope.blocks b { b with sht := x } := ⟨rfl, rfl, rfl, h⟩
theorem pathScope_job (x : JobBlk) (h : x.queue = b.job.queue) : pathScope.blocks b { b with job := x } := ⟨rfl, rfl, h, rfl⟩

end

/-- A register of a tap or of the steering lies within the scope of the shot path. -/
theorem pathScope_reg {a : Nat} (h : 0x30000 ≤ a) (hn : a ≠ R.LAT_SHORT_CNT) : (eventRegs a || pathScope.regs a) = true := by
  have h1 : a ≠ R.JOB_DONE_CNT := by unfold R.JOB_DONE_CNT; omega
  simp [pathScope, h1, hn]

section
variable (s : State)

theorem allows_late : pathScope.Allows (.seq (addR R.PLK_LATE_CNT 1) (raise E.PLK_LATE)) s :=
  ⟨(allows_addR _ _ _ _).mpr (by decide), fun t => allows_raise _ t _⟩

/-- Withholding a shot lies within the scope of the shot path. -/
theorem allows_withhold (k cause : Nat) (rack : Bool) : pathScope.Allows (withhold k cause rack) s := by
  have hrack : ∀ t, pathScope.Allows (rackTrigger k cause) t := fun t => (allows_rackTrigger t k cause).mono stopScope_le_pathScope
  simp only [withhold, allows_dyn, allows_ite, allows_nop, allows_on, allows_cons, allows_nil, implies_true, and_true, true_and]
  refine fun _ => ⟨fun _ _ => hrack s, fun _ => ⟨fun _ => ⟨(allows_on _ _ _ _).mpr fun _ => allows_late s, fun t =>
      (allows_cutShots t k).mono stopScope_le_pathScope⟩,
    fun _ => ⟨pathScope_sht _ _ rfl, fun t => ⟨(allows_putRec _ _ _ _).mpr (pathScope_sht _ _ rfl), fun t =>
      ⟨fun _ => pathScope_sht _ _ rfl, fun t => ⟨(allows_dropTaps t k).mono sealScope_le_pathScope, fun t =>
        ⟨fun _ => allows_late t, fun t => ⟨(allows_holdSeals t _ _).mono sealScope_le_pathScope, fun t _ => hrack t⟩⟩⟩⟩⟩⟩⟩⟩

/-- Taking the frames of a shot lies within the scope of the shot path. -/
theorem allows_takeShot (m : Nat) : pathScope.Allows (takeShot m) s := by
  have hframes : ∀ t hold, pathScope.Allows (takeFrames m hold) t := fun t hold =>
    (allows_takeFrames t m hold).mono sealScope_le_pathScope
  simp only [takeShot, allows_dyn]
  split
  · simp only [allows_ite, allows_nop, allows_on, allows_cons, allows_seq, allows_nil, implies_true, and_true, true_and]
    exact fun _ => ⟨fun _ _ => ⟨hframes s _, fun t => ⟨(allows_putRec _ _ _ _).mpr (pathScope_sht _ _ rfl), fun t =>
      (allows_holdSeals t _ _).mono sealScope_le_pathScope⟩⟩, fun _ => ⟨fun _ => hframes s _, fun _ => ⟨fun _ => hframes s _,
        fun _ => ⟨hframes s _, fun t => allows_withhold t _ _ _⟩⟩⟩⟩
  · trivial

theorem allows_changeRole (r : Role) : pathScope.Allows (changeRole r) s := by
  simp only [changeRole, sendRole, allows_dyn, allows_on, allows_cons, allows_role, allows_raise, allows_seq, allows_draw,
    allows_nil, implies_true, and_true]
  exact fun _ => ⟨by decide, fun _ => ⟨trivial, fun t => ⟨allows_each _ t fun p _ u =>
    allows_netSend _ u (by simp) _ _ _ _ _ _, fun _ => by decide⟩⟩⟩

/-- Entry to FAULT lies within the scope of the shot path. -/
theorem allows_faultEntry (cause page detail : Nat) : pathScope.Allows (faultEntry cause page detail) s := by
  simp only [faultEntry, allows_dyn, allows_ite, allows_nop, allows_cons, allows_setR, allows_on, allows_onSht, allows_onJob,
    allows_nil, implies_true, and_true]
  refine fun _ => ⟨by decide, fun t => ⟨allows_enter _ t _ (by decide) (by decide) (by decide) (by decide), fun t =>
    ⟨fun _ => (allows_pairSend t _ _ _).mono sealScope_le_pathScope, fun t => ⟨allows_each _ t fun m _ u =>
      (allows_takeFrames u m _).mono sealScope_le_pathScope, fun t => ⟨(allows_cutShots t _).mono stopScope_le_pathScope, fun t =>
        ⟨pathScope_sht _ _ rfl, fun t => ⟨pathScope_job _ _ rfl, fun t => ⟨fun _ => allows_changeRole t _, fun _ =>
          (allows_stopMotion t _).mono stopScope_le_pathScope⟩⟩⟩⟩⟩⟩⟩⟩

theorem allows_steerReg (i : Nat) : (eventRegs (R.CSK_STEER i) || pathScope.regs (R.CSK_STEER i)) = true :=
  pathScope_reg (by unfold R.CSK_STEER; omega) (by unfold R.CSK_STEER R.LAT_SHORT_CNT; omega)

theorem allows_tapReg (k : Nat) : (eventRegs (R.TP_STAT k) || pathScope.regs (R.TP_STAT k)) = true :=
  pathScope_reg (by unfold R.TP_STAT; omega) (by unfold R.TP_STAT R.LAT_SHORT_CNT; omega)

theorem allows_pageStatReg (k : Nat) :
    (eventRegs (pageReg (slicePage k) 0x00C) || pathScope.regs (pageReg (slicePage k) 0x00C)) = true := by
  have h : ∀ p, pathScope.regs (pageReg p 0x00C) = true := fun p => by
    have h1 : pageReg p 0x00C ≠ R.LAT_SHORT_CNT := by unfold pageReg R.LAT_SHORT_CNT; omega
    have h2 : pageReg p 0x00C ≠ R.JOB_DONE_CNT := by unfold pageReg R.JOB_DONE_CNT; omega
    simp [pathScope, h1, h2]
  simp [h]

theorem allows_steerAuto (lane : Nat) : pathScope.Allows (steerAuto lane) s := by
  simp only [steerAuto, unserve, pageStat, allows_dyn]
  split
  · simp only [allows_cons, allows_setB, allows_setF, allows_onCask, allows_nil, implies_true, and_true, allows_steerReg,
      pathScope_cask]
  · split
    · have hstat : (eventRegs R.BST_STAT || pathScope.regs R.BST_STAT) = true := by decide
      simp only [allows_cons, allows_on, allows_ite, allows_setB, allows_setF, allows_onCask, allows_onBst, allows_nop, allows_nil,
        implies_true, and_true, allows_steerReg, allows_tapReg, allows_pageStatReg, hstat, pathScope_cask, pathScope_bst]
    · exact ⟨allows_raise _ _ _, fun t => allows_faultEntry t _ _ _⟩

theorem allows_retireTap (k : Nat) : pathScope.Allows (retireTap k) s := by
  simp only [retireTap, unserve, allows_dyn, allows_ite, allows_nop, allows_cons, allows_setF, allows_setR, allows_raise, allows_on,
    allows_seq, allows_onCask, allows_nil, implies_true, and_true, allows_tapReg, allows_steerReg, true_and, pathScope_cask]
  refine fun _ _ _ t => ?_
  split
  · exact allows_steerAuto t _
  · trivial

/-- Retiring taps lies within the scope of the shot path. -/
theorem allows_retireTaps (ended : Bool) : pathScope.Allows (retireTaps ended) s := by
  simp only [retireTaps, allows_dyn, allows_cons, allows_onCask, allows_nil, implies_true, and_true]
  exact ⟨pathScope_cask _ _, fun t => ⟨allows_each _ t fun k _ u => allows_tapReg k, fun t =>
    allows_each _ t fun k _ u => allows_retireTap u k⟩⟩

end

end Sys2Proof.Machine
end

section
/-! SUPPORT. Seals while no injection acts on the plate link (R165, R166, R172). -/

namespace Sys2Proof.Machine

/-- The seal of a word on each of the 64 lanes, in order (R166). -/
def sealOuts (w : Nat) : List Out := (List.range 64).map fun n => .seal n w (sealBytes n w)

/-- What a seal changes while no injection acts: its own registers, the record of its shot, and what is put out. -/
def sealFrame (s t : State) : Prop :=
  framed [R.PLK_SEAL_LO, R.PLK_SEAL_HI, R.PAR_SOLE_CNT, R.PAR_WD_CNT].contains [.out, .bSht] s t

variable {s t : State}

theorem sealFrame.trans {u : State} (h : sealFrame s t) (k : sealFrame t u) : sealFrame s u := framed_trans h k

theorem injecting_of_sealFrame (h : sealFrame s t) : t.injecting 0x90 = s.injecting 0x90 := by
  have h1 : t.rd R.FIJ_ARM = s.rd R.FIJ_ARM := h.2.1 _ (by decide)
  have h2 : t.rd (pageReg 0x90 0x008) = s.rd (pageReg 0x90 0x008) := h.2.1 _ (by decide)
  have h3 : t.dev = s.dev := h.2.2 .dev (by decide)
  simp [State.injecting, State.flag, State.fld, h1, h2, h3]

theorem emitSeal_run (h : s.injecting 0x90 = false) (n w : Nat) :
    (emitSeal n w).run s = { s with out := s.out ++ [.seal n w (sealBytes n w)] } := by
  simp [emitSeal, State.plkFij, h, plkFijCount]

theorem each_emitSeal_run (h : s.injecting 0x90 = false) (l : List Nat) (w : Nat) :
    (each l fun n => emitSeal n w).run s = { s with out := s.out ++ l.map fun n => .seal n w (sealBytes n w) } := by
  induction l generalizing s with
  | nil => simp
  | cons n l ih =>
    rw [each_cons, emitSeal_run h, ih (by exact h)]
    simp

/-- The record of a shot once its seal is issued. -/
def ShotRec.withSeal (v : Nat) (pt : Int) (x : ShotRec) : ShotRec := { x with sealed := some (v, pt) }

/-- A seal's word in its two registers. -/
def sealRegs (w : Nat) : Act := .seq (setR R.PLK_SEAL_LO (w % 2 ^ 32)) (setR R.PLK_SEAL_HI (w / 2 ^ 32))

/-- SOLE and WITHDRAW seals are counted (R276, R292). -/
def sealCounts (v : Nat) : Act := .seq (on (v == 2) (addR R.PAR_SOLE_CNT 1)) (on (v == 8) (addR R.PAR_WD_CNT 1))

/-- The seal of a word on every lane, and its time in the record of its shot. -/
def State.withSeal (s : State) (k v w : Nat) : State :=
  { s with out := s.out ++ sealOuts w, b := { s.b with sht := s.b.sht.put k (ShotRec.withSeal v s.b.pos.pt) } }

theorem sealRegs_framed (s : State) (w : Nat) : sealFrame s ((sealRegs w).run s) :=
  within_seq (within_setR (by decide)) (within_setR (by decide)) s

theorem sealRegs_lo (s : State) (w : Nat) : ((sealRegs w).run s).rd R.PLK_SEAL_LO = w % 2 ^ 32 := by
  rw [sealRegs, run_seq, rd_setR_ne _ _ _ _ (by decide), rd_setR_same, Nat.mod_mod]

theorem sealRegs_hi (s : State) (w : Nat) : ((sealRegs w).run s).rd R.PLK_SEAL_HI = w / 2 ^ 32 % 2 ^ 32 := rd_setR_same _ _ _

theorem withSeal_framed (s : State) (k v w : Nat) : sealFrame s (s.withSeal k v w) :=
  ⟨rfl, fun _ _ => rfl, fun p hp => by cases p <;> first | rfl | exact absurd (by decide) hp⟩

theorem sealCounts_framed (s : State) (v : Nat) : framed [R.PAR_SOLE_CNT, R.PAR_WD_CNT].contains [] s ((sealCounts v).run s) :=
  within_seq (within_on (within_addR (by decide))) (within_on (within_addR (by decide))) s

theorem issueSeal_run (h : s.injecting 0x90 = false) (k : Nat) {v w : Nat} (hv : v ≠ 9)
    (hw : sealWord k v (s.shotCountOf k) (s.shotRec k).sig = w) :
    (issueSeal k v).run s = (sealCounts v).run (((sealRegs w).run s).withSeal k v w) := by
  have hv9 : (v == 9) = false := by simpa using hv
  have hi : ((sealRegs w).run s).injecting 0x90 = false := by rw [injecting_of_sealFrame (sealRegs_framed s w), h]
  have he := each_emitSeal_run hi (List.range 64) w
  simp only [sealRegs, run_seq] at he
  simp only [issueSeal, run_dyn, hw, run_acts_cons, run_acts_nil, he, run_putRec, hv9, on_false, run_nop, sealCounts, run_seq,
    State.withSeal, sealRegs, sealOuts]
  rfl

/-- What issuing a seal does while no injection acts. -/
theorem issueSeal_effect (h : s.injecting 0x90 = false) (k : Nat) {v w : Nat} (hv : v ≠ 9)
    (hw : sealWord k v (s.shotCountOf k) (s.shotRec k).sig = w) :
    sealFrame s ((issueSeal k v).run s) ∧ ((issueSeal k v).run s).out = s.out ++ sealOuts w ∧
      ((issueSeal k v).run s).b.sht = s.b.sht.put k (ShotRec.withSeal v s.b.pos.pt) ∧
      ((issueSeal k v).run s).rd R.PLK_SEAL_LO = w % 2 ^ 32 ∧ ((issueSeal k v).run s).rd R.PLK_SEAL_HI = w / 2 ^ 32 % 2 ^ 32 := by
  rw [issueSeal_run h k hv hw]
  have hc := sealCounts_framed (((sealRegs w).run s).withSeal k v w) v
  have hf := (sealRegs_framed s w).trans (withSeal_framed _ k v w)
  refine ⟨hf.trans (framed_mono (fun a ha => ?_) (by simp) hc), ?_, ?_, ?_, ?_⟩
  · simp only [List.contains_eq_mem, decide_eq_true_eq] at ha ⊢
    exact List.mem_cons_of_mem _ (List.mem_cons_of_mem _ ha)
  · exact (hc.2.2 .out (by simp)).trans rfl
  · exact (hc.2.2 .bSht (by simp)).trans rfl
  · exact (hc.2.1 _ (by decide)).trans (sealRegs_lo s w)
  · exact (hc.2.1 _ (by decide)).trans (sealRegs_hi s w)

/-- A shot's record after its seal, and the other records, which keep theirs. -/
theorem rec_withSeal (b : ShotBlk) (k j v : Nat) (pt : Int) :
    (b.put k (ShotRec.withSeal v pt)).rec' j = if j = k then (b.rec' k).withSeal v pt else b.rec' j :=
  b.rec_put k j (f := ShotRec.withSeal v pt) fun _ => rfl

theorem holdSeals_succ (s : State) (fuel m : Nat) : (holdSeals (fuel + 1) m).run s =
    if (s.shotRec m).needsHold && (decide (m ≤ s.b.sht.first) || (s.shotRec (m - 1)).sealed.isSome) then
      (holdSeals fuel (m + 1)).run ((issueSeal m 10).run s) else s := by
  rw [holdSeals, run_dyn, run_ite, run_seq, run_nop]

/-- HOLD seals, issued while no injection acts, leave the seals of the shots below alone. -/
theorem holdSeals_effect (h : s.injecting 0x90 = false) (fuel m : Nat) :
    sealFrame s ((holdSeals fuel m).run s) ∧ s.out <+: ((holdSeals fuel m).run s).out ∧
      ∀ k < m, (((holdSeals fuel m).run s).shotRec k).sealed = (s.shotRec k).sealed := by
  have stay : sealFrame s s ∧ s.out <+: s.out ∧ ∀ k < m, (s.shotRec k).sealed = (s.shotRec k).sealed :=
    ⟨framed_refl _ _ _, List.prefix_refl _, fun _ _ => rfl⟩
  induction fuel generalizing m s with
  | zero => exact stay
  | succ fuel ih =>
    rw [holdSeals_succ]
    split
    · obtain ⟨w, hw⟩ : ∃ w, sealWord m 10 (s.shotCountOf m) (s.shotRec m).sig = w := ⟨_, rfl⟩
      obtain ⟨hf, hout, hsht, -, -⟩ := issueSeal_effect h m (by decide) hw
      obtain ⟨kf, kout, kseal⟩ := ih (by rw [injecting_of_sealFrame hf, h]) (m + 1)
        ⟨framed_refl _ _ _, List.prefix_refl _, fun _ _ => rfl⟩
      have hgrow : s.out <+: ((issueSeal m 10).run s).out := by rw [hout]; exact List.prefix_append _ _
      refine ⟨hf.trans kf, hgrow.trans kout, fun k hk => ?_⟩
      rw [kseal k (by omega), shotRec_eq, hsht, rec_withSeal, if_neg (by omega), shotRec_eq]
    · exact stay

theorem holdSeals_of_not_needed (fuel m : Nat) (h : (s.shotRec m).needsHold = false) : (holdSeals fuel m).run s = s := by
  cases fuel with
  | zero => rfl
  | succ fuel => simp [holdSeals, h]

/-- A shot of which no record says that it is withheld needs no HOLD seal. -/
theorem not_needsHold (b : ShotBlk) (h : ∀ x ∈ b.recs, x.withheld = none) (k : Nat) : (b.rec' k).needsHold = false := by
  have hk : (b.rec' k).withheld = none := by
    unfold ShotBlk.rec'
    cases hfind : b.recs.find? fun x => x.shot == k with
    | none => rfl
    | some x => exact h x (List.mem_of_find?_eq_some hfind)
  simp [ShotRec.needsHold, hk]

/-- Issuing a shot's seal while no injection acts. -/
theorem sealShot_effect (h : s.injecting 0x90 = false) (k : Nat) {v w : Nat} (hv : v ≠ 9)
    (hw : sealWord k v (s.shotCountOf k) (s.shotRec k).sig = w) :
    sealFrame s ((sealShot k v).run s) ∧ s.out ++ sealOuts w <+: ((sealShot k v).run s).out ∧
      (((sealShot k v).run s).shotRec k).sealed = some (v, s.b.pos.pt) ∧
      ((∀ x ∈ s.b.sht.recs, x.withheld = none) → ((sealShot k v).run s).rd R.PLK_SEAL_LO = w % 2 ^ 32 ∧
        ((sealShot k v).run s).rd R.PLK_SEAL_HI = w / 2 ^ 32 % 2 ^ 32) := by
  obtain ⟨hf, hout, hsht, hlo, hhi⟩ := issueSeal_effect h k hv hw
  obtain ⟨kf, kout, kseal⟩ := holdSeals_effect (s := (issueSeal k v).run s) (by rw [injecting_of_sealFrame hf, h])
    s.b.sht.recs.length (k + 1)
  simp only [sealShot, run_dyn, run_seq]
  refine ⟨hf.trans kf, hout ▸ kout, ?_, fun hn => ?_⟩
  · rw [kseal k (by omega), shotRec_eq, hsht, rec_withSeal, if_pos rfl]
    rfl
  · have hnone : (((issueSeal k v).run s).shotRec (k + 1)).needsHold = false := by
      rw [shotRec_eq, hsht, rec_withSeal, if_neg (by omega)]
      exact not_needsHold _ hn _
    rw [holdSeals_of_not_needed _ _ hnone]
    exact ⟨hlo, hhi⟩

/-- A verdict under which an edge is driven is not DEFER. -/
theorem drives_ne_defer {v : Nat} (h : drives v = true) : v ≠ 9 := by
  rintro rfl
  exact absurd h (by decide)

/-- SEAL_ISSUE (R166, R167): a settled shot whose frames are sent is sealed on every lane. -/
theorem sealIssue_seals (s : State) {v : Nat} (hv : (s.shotRec s.b.sht.first).verdict = some v) (hd : drives v = true)
    (ha : (s.shotRec s.b.sht.first).allSent = true) (hu : s.unsealed s.b.sht.first = true) (hi : s.injecting 0x90 = false) :
    ∃ t, exec .sealIssue s = .next t ∧ (t.shotRec s.b.sht.first).sealed = some (v, s.b.pos.pt) ∧
      (let w := sealWord s.b.sht.first v (s.shotCountOf s.b.sht.first) (s.shotRec s.b.sht.first).sig
       (∀ n < 64, Out.seal n w (sealBytes n w) ∈ t.out) ∧
       ((∀ x ∈ s.b.sht.recs, x.withheld = none) → t.rd R.PLK_SEAL_LO = w % 2 ^ 32 ∧ t.rd R.PLK_SEAL_HI = w / 2 ^ 32 % 2 ^ 32)) ∧
      eventFrame [R.PLK_SEAL_LO, R.PLK_SEAL_HI, R.PAR_SOLE_CNT, R.PAR_WD_CNT, R.PAR_DEFER_CNT] [.bPlk, .bSht, .bPar] s t := by
  obtain ⟨hf, hout, hsealed, hword⟩ := sealShot_effect (s := { s with out := [] }) (by exact hi) s.b.sht.first (drives_ne_defer hd) rfl
  have hrun : exec .sealIssue s = .next ((sealShot s.b.sht.first v).run { s with out := [] }) := by
    show execSealIssue s = _
    have hv' : (({ s with out := [] } : State).shotRec s.b.sht.first).verdict = some v := hv
    have ha' : (({ s with out := [] } : State).shotRec s.b.sht.first).allSent = true := ha
    have hu' : ({ s with out := [] } : State).unsealed s.b.sht.first = true := hu
    simp only [execSealIssue, perform_eq, run_dyn, hv', ha', hu', hd, Bool.and_true, on_true]
  refine ⟨_, hrun, hsealed, ⟨fun n hn => ?_, hword⟩, ?_⟩
  · refine hout.subset (List.mem_append_right _ ?_)
    exact List.mem_map.mpr ⟨n, List.mem_range.mpr hn, rfl⟩
  · refine framed_clear s (by decide) (framed_mono (fun a ha => ?_) (by decide) hf)
    simp only [List.contains_eq_mem, decide_eq_true_eq] at ha
    simp only [Bool.or_eq_true, List.contains_eq_mem, decide_eq_true_eq]
    exact .inr (List.mem_append_left [R.PAR_DEFER_CNT] ha)

end Sys2Proof.Machine
end

section
/-! SUPPORT. Time that advances, racking triggers that wait, and shots that are withheld (R168, R172, R252). -/

namespace Sys2Proof.Machine

/-! ### Time -/

section
variable {rg : Nat → Bool} {ps : List Part} (ht : .bTim ∈ ps) (ha : .bAge ∈ ps) (hp : .bPos ∈ ps)
include ht ha hp

theorem within_advance (k : Nat) : (advance k).Within rg ps :=
  within_dyn fun _ => within_cons (within_onTim ht) (within_cons (within_on (within_onAge ha))
    (within_cons (within_onPos hp) within_nil))

/-- Time that advances to a moment changes TIM, PT and the count of hours only. -/
theorem within_advanceTo (t : Int) : (advanceTo t).Within rg ps :=
  within_dyn fun _ => within_ite (within_seq (within_advance ht ha hp _) (within_onPos hp)) within_nop

end

/-- A state that time has led to, with nothing put out. -/
theorem advanceTo_framed (s : State) (e : Int) :
    framed (fun _ => false) [.bTim, .bAge, .bPos] s ((advanceTo e).run s) :=
  within_advanceTo (by decide) (by decide) (by decide) e s

/-! ### Effects over a list -/

/-- What one effect of a list brings about, and every other keeps, holds after all of them. -/
theorem each_brings {α : Type} {P : State → Prop} {f : α → Act} {l : List α} {x : α} (hx : x ∈ l)
    (hb : ∀ s, P ((f x).run s)) (hk : ∀ y s, P s → P ((f y).run s)) (s : State) : P ((each l f).run s) := by
  have keep : ∀ (l : List α) (s : State), P s → P ((each l f).run s) := by
    intro l
    induction l with
    | nil => exact fun _ h => h
    | cons y l ih => exact fun s h => ih _ (hk y s h)
  induction l generalizing s with
  | nil => simp at hx
  | cons y l ih =>
    rcases List.mem_cons.mp hx with rfl | hx
    · exact keep l _ (hb s)
    · exact ih hx _

/-! ### Records under a map -/

theorem ShotBlk.rec_map (b : ShotBlk) (k : Nat) {g : ShotRec → ShotRec} (hs : ∀ x, (g x).shot = x.shot) (x : ShotBlk)
    (hx : x.recs = b.recs.map g) : x.rec' k = ((b.recs.find? fun x => x.shot == k).map g).getD { shot := k } := by
  unfold ShotBlk.rec'
  rw [hx, List.find?_map]
  congr 3
  funext y
  simp [hs]

/-! ### Racking triggers that wait (R252, R279) -/

/-- A writing device under no stop, on which no racking trigger but one of shot `k` waits, whose trigger is still to come. -/
structure State.Untroubled (s : State) (k : Nat) : Prop where
  dev : s.dev = .writing
  stopFrom : s.b.sht.stopFrom = none
  rackWait : ∀ w, s.b.sht.rackWait = some w → w.1 = k
  triggered : (s.b.sht.rec' k).triggered = false

variable {s t : State} {k : Nat}

/-- Two states between which nothing befalls a shot's racking. -/
theorem State.Untroubled.of_seal (h : s.Untroubled k) (r : sealScope.Rel s t) : t.Untroubled k where
  dev := (r.part .dev (by decide) (by decide)).trans h.dev
  stopFrom := r.blocks.sht.stopFrom.trans h.stopFrom
  rackWait w hw := h.rackWait w (by rw [← r.blocks.sht.rackWait, hw])
  triggered := (r.blocks.sht.triggered k).trans h.triggered

/-- The trigger that waits after a further one of shot `k`. -/
def waitingTrigger (k cause : Nat) : Option (Nat × Nat) → Option (Nat × Nat)
  | some w => if w.1 ≤ k then some w else some (k, cause)
  | none => some (k, cause)

/-- A racking trigger on a shot that is still to be triggered waits. -/
theorem rackTrigger_waits (h : s.Untroubled k) (cause : Nat) : (rackTrigger k cause).run s =
    { s with b := { s.b with sht := { s.b.sht with rackWait := waitingTrigger k cause s.b.sht.rackWait } } } := by
  have hw : ∃ w, waitingTrigger k cause s.b.sht.rackWait = some w ∧ w.1 = k := by
    unfold waitingTrigger
    cases hr : s.b.sht.rackWait with
    | none => exact ⟨_, rfl, rfl⟩
    | some w =>
      have hk := h.rackWait w hr
      exact ⟨w, by simp [hk], hk⟩
  obtain ⟨⟨j, c⟩, hw, rfl⟩ := hw
  have hdue : ∀ u : State, u.b.sht.rackWait = some (j, c) → (u.shotRec j).triggered = false → rackDue.run u = u := by
    intro u hu ht
    simp [rackDue, hu, ht]
  have hd := h.dev
  rw [rackTrigger, run_dyn, if_neg (by simp [hd]), if_pos (by simp [hd]), run_seq, run_onSht]
  exact hdue _ hw h.triggered

theorem State.Untroubled.rackTrigger (h : s.Untroubled k) (cause : Nat) : ((rackTrigger k cause).run s).Untroubled k := by
  rw [rackTrigger_waits h]
  refine { h with rackWait := fun w hw => ?_ }
  unfold waitingTrigger at hw
  dsimp only at hw
  split at hw
  · rename_i x hx
    split at hw
    · obtain rfl : x = w := by simpa using hw
      exact h.rackWait x hx
    · obtain rfl : (k, cause) = w := by simpa using hw
      rfl
  · obtain rfl : (k, cause) = w := by simpa using hw
    rfl

/-- Nothing waits for the edge of an earlier shot. -/
theorem afterEdge_of_untroubled (h : s.Untroubled k) (hp : s.b.job.pendSafe = false) : afterEdge.run s = s := by
  have hdue : rackDue.run s = s := by
    cases hw : s.b.sht.rackWait with
    | none => simp [rackDue, hw]
    | some w =>
      obtain rfl := h.rackWait w hw
      have ht : (s.shotRec w.1).triggered = false := h.triggered
      simp [rackDue, hw, ht]
  rw [afterEdge, run_seq, hdue, run_dyn, hp]
  rfl

/-! ### Withholding (R52, R141, R168, R172) -/

/-- A frame or a seal that is late is counted and reported (R168). -/
def lateNote (cause : Nat) : Act := on (cause == 1 || cause == 3) (.seq (addR R.PLK_LATE_CNT 1) (raise E.PLK_LATE))

/-- The record of a shot from `k` on without what votes and checks have brought (R172). -/
def ShotRec.unvoted (k : Nat) (solo : Bool) (x : ShotRec) : ShotRec := if x.shot < k then x else
  { x with
    ownVote := none, mateVote := none, verdict := none, mateSigs := [], mateAlt := [], sigBad := []
    det := if solo then none else x.det }

/-- The record of a shot that is withheld for a cause. -/
def ShotRec.withhold (cause : Nat) (x : ShotRec) : ShotRec := { x with withheld := some cause, rexp := true }

/-- What is noted of a shot that is withheld, before its frames and lees are dropped. -/
def noteWithheld (k cause : Nat) : Act := .dyn fun s =>
  acts [onSht fun b => { b with
      floor := some k
      rackN := if s.dev = .racking ∧ b.reentered.isNone = true then some k else b.rackN
      recs := b.recs.map (ShotRec.unvoted k s.solo) },
    putRec k (ShotRec.withhold cause),
    on ((s.shotRec k).triggered && (s.shotRec k).withheld.isNone) (noteUnresolved k)]

/-- A shot that may be withheld: of the stripe being written, not strobed, beyond no stop and no withheld shot. -/
structure State.Withholdable (s : State) (k : Nat) : Prop where
  run : s.run.isSome = true
  first : s.b.sht.first ≤ k
  stoppedAt : s.stoppedAt k = false
  heldFrom : s.heldFrom k = false

theorem withhold_run (h : s.Withholdable k) (hs : s.b.sht.stopFrom = none) (cause : Nat) (rack : Bool) :
    (withhold k cause rack).run s = (on rack (rackTrigger k cause)).run ((holdSeals (s.b.sht.recs.length + 1) k).run
      ((lateNote cause).run ((dropTaps k).run ((noteWithheld k cause).run s)))) := by
  have h1 : (s.run.isNone || decide (k < s.b.sht.first) || s.stoppedAt k) = false := by
    obtain ⟨r, hr⟩ := Option.isSome_iff_exists.mp h.run
    simp [hr, h.first, h.stoppedAt]
  rw [withhold, run_dyn, if_neg (by simp [h1]), if_neg (by simp [h.heldFrom]), if_neg (by simp [hs])]
  simp only [run_acts_cons, run_acts_nil, noteWithheld, run_dyn]
  rfl

theorem withhold_cut_run (h : s.Withholdable k) (hs : s.b.sht.stopFrom.isSome = true) (cause : Nat) (rack : Bool) :
    (withhold k cause rack).run s = (cutShots k).run ((lateNote cause).run s) := by
  have h1 : (s.run.isNone || decide (k < s.b.sht.first) || s.stoppedAt k) = false := by
    obtain ⟨r, hr⟩ := Option.isSome_iff_exists.mp h.run
    simp [hr, h.first, h.stoppedAt]
  rw [withhold, run_dyn, if_neg (by simp [h1]), if_neg (by simp [h.heldFrom]), if_pos hs, run_seq, lateNote]

@[simp] theorem ShotRec.unvoted_shot (k : Nat) (solo : Bool) (x : ShotRec) : (x.unvoted k solo).shot = x.shot := by
  unfold ShotRec.unvoted; split <;> rfl
@[simp] theorem ShotRec.unvoted_triggered (k : Nat) (solo : Bool) (x : ShotRec) :
    (x.unvoted k solo).triggered = x.triggered := by
  unfold ShotRec.unvoted; split <;> rfl

theorem within_noteWithheld (k cause : Nat) : (noteWithheld k cause).Within (fun _ => false) [.bSht] :=
  within_dyn fun _ => within_cons (within_onSht (by decide)) (within_cons
    (within_dyn fun _ => within_ite (within_onSht (by decide)) (within_onSht (by decide)))
    (within_cons (within_on (within_onSht (by decide))) within_nil))

/-- The shot unit once it is noted that a shot is withheld. -/
theorem noteWithheld_sht (s : State) (k cause : Nat) : ∃ b : ShotBlk, b.recs = s.b.sht.recs.map (ShotRec.unvoted k s.solo) ∧
    ((noteWithheld k cause).run s).b.sht.recs = (b.put k (ShotRec.withhold cause)).recs ∧
    ((noteWithheld k cause).run s).b.sht.stopFrom = s.b.sht.stopFrom ∧
    ((noteWithheld k cause).run s).b.sht.rackWait = s.b.sht.rackWait := by
  simp only [noteWithheld, run_dyn, run_acts_cons, run_acts_nil, run_onSht, run_putRec]
  refine ⟨{ s.b.sht with recs := s.b.sht.recs.map (ShotRec.unvoted k s.solo) }, rfl, ?_⟩
  cases (s.shotRec k).triggered && (s.shotRec k).withheld.isNone <;> exact ⟨rfl, rfl, rfl⟩

/-- The record of a shot that is noted as withheld. -/
theorem noteWithheld_rec (s : State) (k cause : Nat) :
    (((noteWithheld k cause).run s).b.sht.rec' k).withheld = some cause ∧
      (((noteWithheld k cause).run s).b.sht.rec' k).triggered = (s.b.sht.rec' k).triggered := by
  obtain ⟨b, hb, hr, -, -⟩ := noteWithheld_sht s k cause
  have hrec : ((noteWithheld k cause).run s).b.sht.rec' k = (b.rec' k).withhold cause := by
    have hput := b.rec_put k k (f := ShotRec.withhold cause) fun _ => rfl
    rw [if_pos rfl] at hput
    rw [← hput, ShotBlk.rec', hr]
    rfl
  have hold : (b.rec' k).triggered = (s.b.sht.rec' k).triggered := by
    rw [s.b.sht.rec_map k (fun x => x.unvoted_shot k s.solo) b hb, ShotBlk.rec']
    cases s.b.sht.recs.find? fun x => x.shot == k with
    | none => rfl
    | some x => exact x.unvoted_triggered k s.solo
  rw [hrec]
  exact ⟨rfl, hold⟩

end Sys2Proof.Machine
end

section
/-! SUPPORT. A deadline that passes without its seal (R168). -/

namespace Sys2Proof.Machine

variable {s t : State} {k : Nat}

/-- What the note of a late frame or seal leaves alone. -/
theorem lateNote_framed (s : State) (cause : Nat) :
    framed (fun a => eventRegs a || [R.PLK_LATE_CNT].contains a) eventParts s ((lateNote cause).run s) :=
  within_on (within_seq (within_addR (by decide)) (within_raise ⟨fun a h => by simp [h], fun _ h => h⟩)) s

/-- A late frame or seal is counted and reported (R168). -/
theorem lateNote_counts (s : State) {cause : Nat} (hc : cause = 1 ∨ cause = 3) :
    ((lateNote cause).run s).rd R.PLK_LATE_CNT = (s.rd R.PLK_LATE_CNT + 1) % 2 ^ 32 ∧
      ((lateNote cause).run s).raised E.PLK_LATE = true := by
  have h : (cause == 1 || cause == 3) = true := by rcases hc with rfl | rfl <;> rfl
  rw [lateNote, h, on_true, run_seq]
  exact ⟨by rw [raise_rd _ _ _ (by decide), rd_addR_same], raise_raised (by decide) _⟩

/-- A shot whose record is taken is among those that a cut withholds. -/
theorem cutShots_withholds (s : State) (ht : (s.shotRec k).taken = true) (hf : s.b.sht.first ≤ k) :
    (((cutShots k).run s).b.sht.rec' k).withheld.isSome = true := by
  obtain ⟨x, hx, hk, hxt⟩ : ∃ x ∈ s.b.sht.recs, x.shot = k ∧ x.taken = true := by
    unfold State.shotRec at ht
    cases hfind : s.b.sht.recs.find? fun x => x.shot == k with
    | none => simp [hfind] at ht
    | some x => exact ⟨x, List.mem_of_find?_eq_some hfind, by simpa using List.find?_some hfind, by simpa [hfind] using ht⟩
  rw [cutShots, run_dyn]
  generalize hn : max (match s.b.sht.stopFrom with | some x => min x k | none => k) s.b.sht.first = n
  have hle : n ≤ k := by
    rw [← hn]
    refine max_le ?_ hf
    split
    · exact min_le_right _ _
    · exact le_rfl
  have hcut : x ∈ s.b.sht.recs.filter fun x => decide (n ≤ x.shot) && (x.taken || x.triggered) := by
    simp [hx, hk, hle, hxt]
  dsimp only
  rw [run_acts_cons, run_acts_cons, run_acts_cons, run_acts_cons, run_acts_cons, run_acts_cons, run_acts_nil]
  refine (allows_safePoint _).rel.blocks.sht.withheld k ((allows_abandonShots _).rel.blocks.sht.withheld k
    (((allows_holdSeals _ _ _).mono sealScope_le_stopScope).rel.blocks.sht.withheld k ?_))
  refine each_brings (P := fun u => (u.b.sht.rec' k).withheld.isSome = true) hcut (fun u => ?_) (fun y u hu => ?_) _
  · rw [run_acts_cons, run_acts_cons, run_acts_nil, run_putRec]
    have hw : ((u.b.sht.put x.shot (ShotRec.withhold 0)).rec' k).withheld.isSome = true := by
      rw [ShotBlk.rec_put u.b.sht x.shot k (f := ShotRec.withhold 0) fun _ => rfl, if_pos hk.symm]
      rfl
    cases x.triggered && x.withheld.isNone <;> exact hw
  · rw [run_acts_cons, run_acts_cons, run_acts_nil, run_putRec]
    have hw := (ShotBlk.stillWithheld_put u.b.sht y.shot (f := ShotRec.withhold 0)
      (fun _ => rfl) fun _ => rfl).withheld k hu
    cases y.triggered && y.withheld.isNone <;> exact hw

/-- Withholding a shot counts a late frame or seal once, and reports it (R168). -/
theorem withhold_late (h : s.Withholdable k) (hs : s.b.sht.stopFrom = none ∨ (s.shotRec k).taken = true) {cause : Nat}
    (hc : cause = 1 ∨ cause = 3) (rack : Bool) :
    (((withhold k cause rack).run s).shotRec k).withheld.isSome = true ∧ ((withhold k cause rack).run s).raised E.PLK_LATE = true ∧
      ((withhold k cause rack).run s).rd R.PLK_LATE_CNT = (s.rd R.PLK_LATE_CNT + 1) % 2 ^ 32 := by
  cases hstop : s.b.sht.stopFrom with
  | none =>
    rw [withhold_run h hstop]
    generalize hu : (noteWithheld k cause).run s = u
    generalize hv : (dropTaps k).run u = v
    generalize hw : (lateNote cause).run v = w
    generalize hx : (holdSeals (s.b.sht.recs.length + 1) k).run w = x
    have duv : sealScope.Rel u v := hv ▸ (allows_dropTaps u k).rel
    have dwx : sealScope.Rel w x := hx ▸ (allows_holdSeals w _ _).rel
    have dxt : stopScope.Rel x ((on rack (rackTrigger k cause)).run x) :=
      ((allows_on _ _ _ _).mpr fun _ => allows_rackTrigger x k cause).rel
    obtain ⟨hcnt, hraised⟩ := lateNote_counts v hc
    have hsame : w.b.sht = v.b.sht := hw ▸ (lateNote_framed v cause).2.2 .bSht (by decide)
    have hrec : (u.b.sht.rec' k).withheld = some cause := hu ▸ (noteWithheld_rec s k cause).1
    refine ⟨dxt.blocks.sht.withheld k ?_, dxt.raised _ (by decide) (dwx.raised _ (by decide) (hw ▸ hraised)), ?_⟩
    · rw [dwx.blocks.sht.withheld, hsame, duv.blocks.sht.withheld, hrec]
      rfl
    · rw [dxt.rd _ (by decide), dwx.rd _ (by decide), ← hw, hcnt, duv.rd _ (by decide), ← hu,
        (within_noteWithheld k cause s).2.1 _ rfl]
  | some n =>
    have ht : (s.shotRec k).taken = true := by simpa [hstop] using hs
    rw [withhold_cut_run h (by simp [hstop])]
    obtain ⟨hcnt, hraised⟩ := lateNote_counts s hc
    have hsame : ((lateNote cause).run s).b.sht = s.b.sht := (lateNote_framed s cause).2.2 .bSht (by decide)
    have dt := (allows_cutShots ((lateNote cause).run s) k).rel
    refine ⟨cutShots_withholds _ ?_ ?_, dt.raised _ (by decide) hraised, by rw [dt.rd _ (by decide), hcnt]⟩
    · rwa [shotRec_eq, hsame]
    · rw [hsame]
      exact h.first

theorem State.Untroubled.of_same (h : s.Untroubled k) (hd : t.dev = s.dev) (hs : t.b.sht = s.b.sht) :
    t.Untroubled k where
  dev := hd.trans h.dev
  stopFrom := by rw [hs]; exact h.stopFrom
  rackWait := by rw [hs]; exact h.rackWait
  triggered := by rw [hs]; exact h.triggered

/-- Withholding a shot that is still to be triggered: its racking waits, and the SHOT account stays. -/
theorem withhold_waits (h : s.Untroubled k) (hh : s.Withholdable k) (cause : Nat) :
    ((withhold k cause true).run s).Untroubled k ∧ ((withhold k cause true).run s).led.shot = s.led.shot ∧
      ((withhold k cause true).run s).b.job = s.b.job ∧
      (((withhold k cause true).run s).shotRec k).withheld = some cause ∧
      ((withhold k cause true).run s).b.sht.rackWait = waitingTrigger k cause s.b.sht.rackWait := by
  obtain ⟨b, -, -, hstop, hwait⟩ := noteWithheld_sht s k cause
  obtain ⟨hrec, htrig⟩ := noteWithheld_rec s k cause
  have fu := within_noteWithheld k cause s
  rw [withhold_run hh h.stopFrom, on_true]
  generalize (noteWithheld k cause).run s = u at *
  have hu : u.Untroubled k :=
    ⟨(fu.2.2 .dev (by decide)).trans h.dev, hstop.trans h.stopFrom, hwait ▸ h.rackWait, htrig.trans h.triggered⟩
  have duv := (allows_dropTaps u k).rel
  generalize (dropTaps k).run u = v at *
  have fw := lateNote_framed v cause
  generalize (lateNote cause).run v = w at *
  have hsame : w.b.sht = v.b.sht := fw.2.2 .bSht (by decide)
  have hw : w.Untroubled k := (hu.of_seal duv).of_same (fw.2.2 .dev (by decide)) hsame
  have dwx := (allows_holdSeals w (s.b.sht.recs.length + 1) k).rel
  generalize (holdSeals (s.b.sht.recs.length + 1) k).run w = x at *
  have hx := hw.of_seal dwx
  refine ⟨hx.rackTrigger cause, ?_⟩
  rw [rackTrigger_waits hx]
  refine ⟨?_, ?_, ?_, ?_⟩
  · show x.led.shot = _
    rw [dwx.part .ledShot (by decide) (by decide), fw.2.2 .ledShot (by decide), duv.part .ledShot (by decide) (by decide),
      fu.2.2 .ledShot (by decide)]
  · show x.b.job = _
    rw [dwx.blocks.job, fw.2.2 .bJob (by decide), duv.blocks.job, fu.2.2 .bJob (by decide)]
  · show (x.b.sht.rec' k).withheld = _
    rw [dwx.blocks.sht.withheld, hsame, duv.blocks.sht.withheld, hrec]
  · show waitingTrigger k cause x.b.sht.rackWait = _
    rw [dwx.blocks.sht.rackWait, hsame, duv.blocks.sht.rackWait, hwait]

/-- What a deadline says of its shot does not change as time advances to it. -/
theorem unsealed_congr (h : framed (fun _ => false) [.bTim, .bAge, .bPos] s t) (k : Nat) : t.unsealed k = s.unsealed k := by
  have hs : t.b.sht = s.b.sht := h.2.2 .bSht (by decide)
  have hp : t.b.press = s.b.press := h.2.2 .bPress (by decide)
  simp [State.unsealed, State.shotRec, State.heldFrom, State.stoppedAt, State.run, hs, hp]

theorem withholdable_of_unsealed (h : s.unsealed k = true) (hf : s.b.sht.first ≤ k) : s.Withholdable k := by
  simp only [State.unsealed, Bool.and_eq_true, Bool.not_eq_true'] at h
  exact ⟨h.2, hf, h.1.2, h.1.1.2⟩

/-- SEAL_DEADLINE (R168): a deadline that passes without its seal withholds the shot, and a writing SOLO device will rack from
its trigger. -/
theorem sealDeadline_withholds (s : State) {e : Int} (hp : s.b.sht.pred = some e) (ha : s.b.sht.armed = true)
    (hr : (s.b.sht.runStart : Int) ≤ s.b.sht.next) {k : Nat} (hk : s.b.sht.next.toNat = k) (hu : s.unsealed k = true)
    (hf : s.b.sht.first ≤ k) (hs : s.b.sht.stopFrom = none ∨ (s.shotRec k).taken = true) :
    ∃ t, exec .sealDeadline s = .next t ∧ (t.shotRec k).withheld.isSome = true ∧ t.raised E.PLK_LATE = true ∧
      t.rd R.PLK_LATE_CNT = (s.rd R.PLK_LATE_CNT + 1) % 2 ^ 32 ∧
      (s.dev = .writing → s.b.sht.stopFrom = none → s.b.sht.rackWait = none → (s.shotRec k).triggered = false →
        (let cause := if (s.shotRec k).allSent then 1 else 3
         t.dev = .writing ∧ (t.shotRec k).withheld = some cause ∧ t.b.sht.rackWait = some (k, cause))) := by
  have hadv := advanceTo_framed { s with out := [] } (e - State.sealLead { s with out := [] })
  have hrun : exec .sealDeadline s = .next ((missDeadline k).run
      ((advanceTo (e - State.sealLead { s with out := [] })).run { s with out := [] })) := by
    have hu' : ({ s with out := [] } : State).unsealed ({ s with out := [] } : State).b.sht.next.toNat = true := by
      show s.unsealed s.b.sht.next.toNat = true
      rw [hk, hu]
    subst hk
    show execSealDeadline s = _
    rw [execSealDeadline, perform_eq, run_dyn]
    simp only [hp, hu']
    rw [on_pos (by simp [ha, hr]), run_seq]
  generalize (advanceTo (e - State.sealLead { s with out := [] })).run { s with out := [] } = u at *
  have hsht : u.b.sht = s.b.sht := hadv.2.2 .bSht (by decide)
  have hrec : u.shotRec k = s.shotRec k := by rw [shotRec_eq, hsht, shotRec_eq]
  have hun : u.unsealed k = true := (unsealed_congr hadv k).trans hu
  have hcause : (if (u.shotRec k).allSent then 1 else 3 : Nat) = 1 ∨ (if (u.shotRec k).allSent then 1 else 3 : Nat) = 3 := by
    cases (u.shotRec k).allSent <;> simp
  have hmiss : (missDeadline k).run u = (withhold k (if (u.shotRec k).allSent then 1 else 3) true).run u := by
    rw [missDeadline, run_dyn, hun, on_true]
  have hable : u.Withholdable k := withholdable_of_unsealed hun (by rwa [hsht])
  obtain ⟨hw, hlate, hcnt⟩ := withhold_late hable (by rwa [hsht, hrec]) hcause true
  refine ⟨_, hrun, ?_⟩
  rw [hmiss]
  refine ⟨hw, hlate, by rw [hcnt, hadv.2.1 _ rfl]; rfl, fun hd hstop hwait htrig => ?_⟩
  have hq : u.Untroubled k :=
    ⟨(hadv.2.2 .dev (by decide)).trans hd, by rw [hsht, hstop], fun w h => by simp [hsht, hwait] at h, by rwa [hsht]⟩
  obtain ⟨hq', -, -, hwith, hrack⟩ := withhold_waits hq hable (if (u.shotRec k).allSent then 1 else 3)
  rw [hsht, hwait] at hrack
  rw [hrec] at *
  exact ⟨hq'.dev, hwith, hrack⟩

end Sys2Proof.Machine
end

section
/-! SUPPORT. Strobe edges and the end of a stripe (R140, R170, R227, R236). -/

namespace Sys2Proof.Machine

variable {s t : State} {k : Nat}

/-! ### The scopes of a strobe and of a stripe's end -/

/-- The scope of a stripe's end, and of all that follows a strobe: the pixels of the job stay booked and counted. -/
def doneScope : Scope where
  regs a := a != R.LAT_SHORT_CNT
  parts := [.ledFrame, .ledShot, .ledCreditCel, .dev, .prevDev, .role, .fresh]
  blocks _ _ := True
  refl _ := trivial
  trans _ _ := trivial
  net _ _ := trivial

/-- The scope of everything that a strobe edge brings about. -/
def edgeScope : Scope where
  regs _ := true
  parts := [.ledFrame, .ledShot, .ledCreditCel, .ledDose, .dev, .prevDev, .role, .fresh]
  strobes := true
  blocks _ _ := True
  refl _ := trivial
  trans _ _ := trivial
  net _ _ := trivial

theorem pathScope_le_doneScope : pathScope.Le doneScope where
  regs a h := by
    simp only [doneScope, bne_iff_ne]
    rintro rfl
    exact absurd h (by decide)
  parts := by decide
  strobes := by decide
  blocks _ _ _ := trivial

theorem doneScope_le_edgeScope : doneScope.Le edgeScope where
  regs _ _ := rfl
  parts := by decide
  strobes := by decide
  blocks _ _ _ := trivial

theorem stopScope_le_edgeScope : stopScope.Le edgeScope where
  regs _ _ := rfl
  parts := by decide
  strobes := by decide
  blocks _ _ _ := trivial

theorem doneScope_blocks (b c : Blocks) : doneScope.blocks b c := trivial
theorem edgeScope_reg (a : Nat) : (eventRegs a || edgeScope.regs a) = true := Bool.or_true _

section
variable (s : State)

theorem allows_freeBin (n : Nat) : doneScope.Allows (freeBin n) s := by
  simp only [freeBin, allows_dyn]
  split
  · simp only [allows_cons, allows_bookOut, allows_onCel, allows_nil, implies_true, and_true]
    exact ⟨by decide, fun _ => trivial⟩
  · trivial

/-- The end of a stripe lies within its scope. -/
theorem allows_stripeDone (r : Run) : doneScope.Allows (stripeDone r) s := by
  simp only [stripeDone, dropEntry, resetShots, pairStripeEnd, allows_dyn, allows_cons, allows_onJob, allows_onPress, allows_onCask,
    allows_onSht, allows_onPar, allows_addR, allows_raise, allows_on, allows_seq, allows_nil, implies_true, and_true, true_and,
    doneScope_blocks, allows_freeBin, moveDiscard]
  exact fun _ _ _ _ _ _ t => ⟨(allows_retireTaps t true).mono pathScope_le_doneScope, fun _ => ⟨by decide, fun _ _ t _ =>
    allows_enter _ t _ (by decide) (by decide) (by decide) (by decide)⟩⟩

theorem allows_driveHalf (half : Nat) (en trim : Fld) (k stripe : Nat) (edge : Int) (exposing : Bool) :
    edgeScope.Allows (driveHalf half en trim k stripe edge exposing) s := by
  simp only [driveHalf, allows_dyn, allows_on, allows_seq, allows_emit, allows_onPlk]
  exact fun _ => ⟨rfl, fun _ => trivial⟩

theorem allows_closePixels (r : Run) (cs : List Close) : edgeScope.Allows (closePixels r cs) s := by
  simp only [closePixels, allows_cons, allows_bookIn, allows_bookOut, allows_nil, implies_true, and_true]
  refine ⟨by decide, fun _ => ⟨by decide, fun t => allows_each _ t fun c _ u => ?_⟩⟩
  simp only [shortRecord, recordTo, allows_dyn, allows_cons, allows_ite, allows_addR, allows_seq, allows_raise, allows_ringWrite,
    allows_nil, implies_true, and_true, edgeScope_reg]

theorem allows_commitShot (r : Run) (k v : Nat) : edgeScope.Allows (commitShot r k v) s := by
  simp only [commitShot, moveDiscard, allows_dyn]
  split
  · simp only [allows_seq, allows_ite, allows_onCask, allows_dyn]
    exact ⟨trivial, fun t => ⟨fun _ => trivial, fun _ => allows_closePixels t _ _⟩⟩
  · exact ⟨trivial, fun _ => trivial⟩

/-- Driving a strobe lies within the scope of a strobe edge. -/
theorem allows_strobeShot (r : Run) (k v : Nat) (edge : Int) : edgeScope.Allows (strobeShot r k v edge) s := by
  simp only [strobeShot, allows_dyn, allows_cons, allows_bookOut, allows_onSht, allows_onPar, allows_nil, implies_true, and_true]
  exact ⟨allows_driveHalf s _ _ _ _ _ _ _, fun t => ⟨allows_driveHalf t _ _ _ _ _ _ _, fun _ => ⟨by decide, fun t =>
    ⟨allows_commitShot t r k v, fun _ => ⟨trivial, fun _ => ⟨trivial, fun t =>
      (allows_safePoint t).mono stopScope_le_edgeScope⟩⟩⟩⟩⟩⟩

end

/-! ### Halves, pixels and the commit (R48 to R51, R140, R171) -/

theorem driveHalf_framed (s : State) (half : Nat) (en trim : Fld) (k stripe : Nat) (edge : Int) (exposing : Bool) :
    framed (fun _ => false) [.out, .bPlk] s ((driveHalf half en trim k stripe edge exposing).run s) :=
  within_dyn (fun _ => within_on (within_seq (within_emit (by decide)) (within_onPlk (by decide)))) s

/-- An enabled half is strobed at the edge and its trim (R171). -/
theorem driveHalf_strobes (s : State) (half : Nat) (en trim : Fld) (k stripe : Nat) (edge : Int) (exposing : Bool)
    (h : s.flag en = true) : Out.strobe half (edge + (s.fld trim * 2048 : Nat)) (max 8 (s.fld F.PLK_STB_WIDTH)) ∈
      ((driveHalf half en trim k stripe edge exposing).run s).out := by
  rw [driveHalf, run_dyn, h, on_true, run_seq, run_emit, run_onPlk]
  simp

/-- The registers and parts of a commit: pixels that are booked, and the records of short ones. -/
theorem within_commitShot (r : Run) (k v : Nat) : (commitShot r k v).Within
    (fun a => eventRegs a || [R.LAT_SHORT_CNT, R.LAT_SHORT_LOST].contains a) (eventParts ++ [.bCask, .ledDose]) := by
  have hc : Part.bCask ∈ eventParts ++ [Part.bCask, .ledDose] := by decide
  refine within_dyn fun u => ?_
  split
  · refine within_seq (within_onCask hc) (within_ite (within_dyn fun _ => within_onCask hc) (within_cons (within_bookIn (by decide))
      (within_cons (within_bookOut (by decide)) (within_cons (within_each fun c => within_dyn fun _ => ?_) within_nil))))
    have hlost : (Act.seq (addR R.LAT_SHORT_LOST 1) (raise E.LAT_SHORT_LOST)).Within
        (fun a => eventRegs a || [R.LAT_SHORT_CNT, R.LAT_SHORT_LOST].contains a) (eventParts ++ [.bCask, .ledDose]) :=
      within_seq (within_addR (by decide)) (within_raise eventFrame_allows)
    exact within_cons (within_addR (by decide)) (within_cons (within_ite (within_dyn fun _ => within_ite
      (within_ringWrite eventFrame_allows) hlost) hlost) (within_cons (within_raise eventFrame_allows) within_nil))
  · exact within_seq (within_onCask hc) (within_dyn fun _ => within_onCask hc)

/-- A short pixel is counted once (R50, R57). -/
theorem shortRecord_counts (s : State) (r : Run) (c : Close) :
    ((shortRecord r c).run s).rd R.LAT_SHORT_CNT = (s.rd R.LAT_SHORT_CNT + 1) % 2 ^ 32 := by
  have hlost : (Act.seq (addR R.LAT_SHORT_LOST 1) (raise E.LAT_SHORT_LOST)).Within
      (fun a => eventRegs a || [R.LAT_SHORT_LOST].contains a) eventParts :=
    within_seq (within_addR (by decide)) (within_raise ⟨fun a h => by simp [h], fun _ h => h⟩)
  rw [shortRecord, run_dyn]
  dsimp only
  rw [run_acts_cons, run_acts_cons, run_acts_cons, run_acts_nil, raise_rd _ _ _ (by decide), run_ite]
  split
  · refine Eq.trans ?_ (rd_addR_same _ _ _)
    refine within_dyn (rg := fun a => eventRegs a || [R.LAT_SHORT_LOST].contains a) (ps := eventParts) (fun u => within_ite
      (within_ringWrite ⟨fun a h => by simp [h], fun _ h => h⟩) hlost) _ |>.2.1 _ (by decide)
  · exact ((hlost _).2.1 _ (by decide)).trans (rd_addR_same _ _ _)

theorem each_shortRecord_counts (s : State) (r : Run) (cs : List Close) :
    ((each cs (shortRecord r)).run s).rd R.LAT_SHORT_CNT = (s.rd R.LAT_SHORT_CNT + cs.length) % 2 ^ 32 := by
  induction cs generalizing s with
  | nil => exact (Nat.mod_eq_of_lt (rd_lt s _)).symm
  | cons c cs ih =>
    rw [each_cons, ih, shortRecord_counts, Nat.mod_add_mod, List.length_cons, Nat.add_assoc, Nat.add_comm 1]

end Sys2Proof.Machine
end

section
/-! SUPPORT. What a strobe does (R140, R170, R171, R227), and the frames taken after it. -/

namespace Sys2Proof.Machine

variable {s t u : State} {k : Nat}

/-! ### The strobe of a shot -/

/-- The shot unit once shot `k`, with `n` earlier triggers of it unresolved, is strobed (R227). -/
def ShotBlk.strobe (b : ShotBlk) (k n : Nat) : ShotBlk :=
  { b with
    unresolved := b.unresolved.filter fun x => x != k
    resolved := b.resolved + n
    reexposed := b.reexposed + n
    first := k + 1
    recs := b.recs.filter fun x => x.shot != k
    rackN := if b.rackN == some k then none else b.rackN }

/-- Earlier triggers of a shot that are unresolved. -/
def ShotBlk.openTriggers (b : ShotBlk) (k : Nat) : Nat := (b.unresolved.filter fun x => x == k).length

/-- The strobes of both halves (R171). -/
def driveHalves (r : Run) (k v : Nat) (edge : Int) : Act :=
  .seq (driveHalf 0 F.PLK_STB_EN_A F.PLK_STB_TRIM_A k r.stripe.num edge (v != 8))
    (driveHalf 1 F.PLK_STB_EN_B F.PLK_STB_TRIM_B k r.stripe.num edge (v != 8))

/-- A shot leaves the SHOT account with its earlier triggers, and its slot is committed. -/
def settleStrobe (r : Run) (k v n : Nat) : Act := .seq (bookOut .shot (1 + n)) (commitShot r k v)

/-- What the shot unit and the pair unit note of a strobe. -/
def noteStrobe (k n : Nat) : Act := .seq (onSht fun b => b.strobe k n)
  (onPar fun p => { p with defer := if p.defer == some k then none else p.defer })

theorem strobeShot_run (s : State) (r : Run) (k v : Nat) (edge : Int) : (strobeShot r k v edge).run s =
    safePoint.run ((noteStrobe k (s.b.sht.openTriggers k)).run
      ((settleStrobe r k v (s.b.sht.openTriggers k)).run ((driveHalves r k v edge).run s))) := by
  rw [strobeShot, run_dyn]
  dsimp only
  rw [run_acts_cons, run_acts_cons, run_acts_cons, run_acts_cons, run_acts_cons, run_acts_cons, run_acts_cons, run_acts_nil,
    settleStrobe, run_seq, driveHalves, run_seq, noteStrobe, run_seq]
  rfl

theorem within_noteStrobe (k n : Nat) : (noteStrobe k n).Within (fun _ => false) [.bSht, .bPar] :=
  within_seq (within_onSht (by decide)) (within_onPar (by decide))

theorem noteStrobe_sht (s : State) (k n : Nat) : ((noteStrobe k n).run s).b.sht = s.b.sht.strobe k n := rfl

theorem driveHalves_framed (s : State) (r : Run) (k v : Nat) (edge : Int) :
    framed (fun _ => false) [.out, .bPlk] s ((driveHalves r k v edge).run s) :=
  framed_trans (driveHalf_framed _ _ _ _ _ _ _ _) (driveHalf_framed _ _ _ _ _ _ _ _)

/-- Both enabled halves are strobed (R171). -/
theorem driveHalves_strobes (s : State) (r : Run) (k v : Nat) (edge : Int) :
    (s.flag F.PLK_STB_EN_A = true → Out.strobe 0 (edge + (s.fld F.PLK_STB_TRIM_A * 2048 : Nat)) (max 8 (s.fld F.PLK_STB_WIDTH)) ∈
      ((driveHalves r k v edge).run s).out) ∧
    (s.flag F.PLK_STB_EN_B = true → Out.strobe 1 (edge + (s.fld F.PLK_STB_TRIM_B * 2048 : Nat)) (max 8 (s.fld F.PLK_STB_WIDTH)) ∈
      ((driveHalves r k v edge).run s).out) := by
  rw [driveHalves, run_seq]
  have hf := driveHalf_framed s 0 F.PLK_STB_EN_A F.PLK_STB_TRIM_A k r.stripe.num edge (v != 8)
  have h0 := driveHalf_strobes s 0 F.PLK_STB_EN_A F.PLK_STB_TRIM_A k r.stripe.num edge (v != 8)
  generalize (driveHalf 0 F.PLK_STB_EN_A F.PLK_STB_TRIM_A k r.stripe.num edge (v != 8)).run s = a at *
  have hfld : ∀ f : Fld, a.fld f = s.fld f := fun f => framed_fld hf f rfl
  have h1 := driveHalf_strobes a 1 F.PLK_STB_EN_B F.PLK_STB_TRIM_B k r.stripe.num edge (v != 8)
  obtain ⟨o, ho, -⟩ := (allows_driveHalf a 1 F.PLK_STB_EN_B F.PLK_STB_TRIM_B k r.stripe.num edge (v != 8)).rel.out
  simp only [State.flag, hfld] at h1
  exact ⟨fun h => ho ▸ List.mem_append_left o (h0 h), h1⟩

theorem within_settleStrobe (r : Run) (k v n : Nat) : (settleStrobe r k v n).Within
    (fun a => eventRegs a || [R.LAT_SHORT_CNT, R.LAT_SHORT_LOST].contains a) (eventParts ++ [.bCask, .ledDose, .ledShot]) :=
  within_seq (within_bookOut (by decide)) ((within_commitShot r k v).mono (fun _ h => h) (by decide))

/-- The SHOT account after a strobe (R227). -/
theorem settleStrobe_shot (s : State) (r : Run) (k v n : Nat) :
    ((settleStrobe r k v n).run s).led.shot = s.led.shot.book (.leave (1 + n)) := by
  rw [settleStrobe, run_seq, (within_commitShot r k v _).2.2 .ledShot (by decide)]
  rfl

/-- A strobe leaves the taps that wait for retirement as they were. -/
theorem commitShot_retireAtEnd (s : State) (r : Run) (k v : Nat) :
    ((commitShot r k v).run s).b.cask.retireAtEnd = s.b.cask.retireAtEnd := by
  have hclose : ∀ (u : State) cs, ((closePixels r cs).run u).b.cask = u.b.cask := by
    intro u cs
    have h : (closePixels r cs).Within (fun _ => true) (eventParts ++ [.ledDose]) := by
      have ok : AllowsEvents (fun _ => true) (eventParts ++ [.ledDose]) := ⟨fun _ _ => rfl, fun p h => by simp [h]⟩
      refine within_cons (within_bookIn (by decide)) (within_cons (within_bookOut (by decide)) (within_cons (within_each fun c =>
        within_dyn fun _ => within_cons (within_addR rfl) (within_cons (within_ite (within_dyn fun _ => within_ite
          (within_ringWrite ok) ?_) ?_) (within_cons (within_raise ok) within_nil))) within_nil)) <;>
      exact within_seq (within_addR rfl) (within_raise ok)
    exact (h u).2.2 .bCask (by decide)
  rw [commitShot, run_dyn]
  split
  · rw [run_seq, run_ite]
    split
    · rfl
    · rw [hclose]; rfl
  · rfl

/-- The pixels of a strobed shot leave the DOSE account where they are exact, and count as short where they are not (R48 to
R51). -/
theorem commitShot_pixels (s : State) (r : Run) (k v : Nat) {x : Slot} (hx : s.slot k = some x) (hv : v ≠ 8) :
    ((commitShot r k v).run s).led.dose =
        (s.led.dose.book (.come x.closes.length)).book (.leave (x.closes.filter fun c => c.exact).length) ∧
      ((commitShot r k v).run s).rd R.LAT_SHORT_CNT =
        (s.rd R.LAT_SHORT_CNT + (x.closes.filter fun c => !c.exact).length) % 2 ^ 32 := by
  rw [commitShot, run_dyn, hx]
  dsimp only
  rw [if_neg hv, run_seq, closePixels, run_acts_cons, run_acts_cons, run_acts_cons, run_acts_nil]
  refine ⟨?_, each_shortRecord_counts _ _ _⟩
  have h : (each (x.closes.filter fun c => !c.exact) (shortRecord r)).Within (fun _ => true) eventParts := by
    have ok : AllowsEvents (fun _ => true) eventParts := ⟨fun _ _ => rfl, fun _ h => h⟩
    refine within_each fun c => within_dyn fun _ => within_cons (within_addR rfl) (within_cons (within_ite (within_dyn fun _ =>
      within_ite (within_ringWrite ok) ?_) ?_) (within_cons (within_raise ok) within_nil)) <;>
    exact within_seq (within_addR rfl) (within_raise ok)
  exact (h _).2.2 .ledDose (by decide)

end Sys2Proof.Machine
end

section
/-! SUPPORT. What holds of the device once a shot is strobed (R140, R170, R227). -/

namespace Sys2Proof.Machine

variable {s t u : State} {k : Nat}

/-! ### Safe points (R20) -/

theorem within_safePoint : safePoint.Within (fun a => eventRegs a || [R.TOP_TRANS_CNT].contains a)
    (eventParts ++ [.bSht, .dev, .prevDev]) := by
  refine within_dyn fun u => ?_
  split
  · exact within_on (within_seq (within_onSht (by decide)) (within_enter eventFrame_allows (by decide) (by decide) (by decide)))
  · exact within_nop

theorem safePoint_of_no_stop (h : s.b.sht.stopFrom = none) : safePoint.run s = s := by
  simp [safePoint, h]

/-- A safe point leaves WRITING for DRAINING only. -/
theorem safePoint_dev (h : s.dev = .writing) : (safePoint.run s).dev = .writing ∨ (safePoint.run s).dev = .draining := by
  rw [safePoint, run_dyn]
  split
  · rename_i n _
    cases decide (n ≤ s.b.sht.first) with
    | true =>
      rw [on_true, run_seq, enter_run _ (by simp [h, DevState.edge])]
      right
      rw [raise_dev]
      rfl
    | false => exact .inl h
  · exact .inl h

/-! ### The state after a strobe -/

/-- What a strobe may change. -/
theorem within_strobeShot (r : Run) (k v : Nat) (edge : Int) : (strobeShot r k v edge).Within
    (fun a => eventRegs a || [R.LAT_SHORT_CNT, R.LAT_SHORT_LOST, R.TOP_TRANS_CNT].contains a)
    (eventParts ++ [.bCask, .ledDose, .ledShot, .bPlk, .bSht, .bPar, .dev, .prevDev]) := by
  intro s
  rw [strobeShot_run]
  generalize s.b.sht.openTriggers k = n
  have h1 := driveHalves_framed s r k v edge
  generalize (driveHalves r k v edge).run s = a at *
  have h2 := within_settleStrobe r k v n a
  generalize (settleStrobe r k v n).run a = b at *
  have h3 := within_noteStrobe k n b
  generalize (noteStrobe k n).run b = c at *
  refine framed_trans (framed_mono (by simp) (by decide) h1) (framed_trans (framed_mono (fun a h => ?_) (by decide) h2)
    (framed_trans (framed_mono (by simp) (by decide) h3) (framed_mono (fun a h => ?_) (by decide) (within_safePoint c))))
  · simp only [Bool.or_eq_true, List.contains_eq_mem, decide_eq_true_eq] at h ⊢
    exact h.imp_right fun h => List.mem_append_left [R.TOP_TRANS_CNT] h
  · simp only [Bool.or_eq_true, List.contains_eq_mem, decide_eq_true_eq] at h ⊢
    exact h.imp_right fun h => List.mem_append_right [R.LAT_SHORT_CNT, R.LAT_SHORT_LOST] h

section
variable (s) (r : Run) (k v : Nat) (edge : Int)

/-- Each enabled half is strobed at its time (R171). -/
theorem strobeShot_strobes :
    (s.flag F.PLK_STB_EN_A = true → Out.strobe 0 (edge + (s.fld F.PLK_STB_TRIM_A * 2048 : Nat)) (max 8 (s.fld F.PLK_STB_WIDTH)) ∈
      ((strobeShot r k v edge).run s).out) ∧
    (s.flag F.PLK_STB_EN_B = true → Out.strobe 1 (edge + (s.fld F.PLK_STB_TRIM_B * 2048 : Nat)) (max 8 (s.fld F.PLK_STB_WIDTH)) ∈
      ((strobeShot r k v edge).run s).out) := by
  obtain ⟨h0, h1⟩ := driveHalves_strobes s r k v edge
  rw [strobeShot_run]
  generalize s.b.sht.openTriggers k = n
  generalize (driveHalves r k v edge).run s = a at *
  have settle : edgeScope.Allows (settleStrobe r k v n) a :=
    ⟨(allows_bookOut _ _ _ _).mpr (by decide), fun t => allows_commitShot t r k v⟩
  obtain ⟨o, ho, -⟩ := settle.rel.out
  generalize (settleStrobe r k v n).run a = b at *
  have hb := (within_noteStrobe k n b).2.2 .out (by decide)
  generalize (noteStrobe k n).run b = c at *
  obtain ⟨q, hq, -⟩ := (allows_safePoint c).rel.out
  have grow : (safePoint.run c).out = a.out ++ (o ++ q) := by rw [hq, hb, ho, List.append_assoc]
  rw [grow]
  exact ⟨fun h => List.mem_append_left _ (h0 h), fun h => List.mem_append_left _ (h1 h)⟩

/-- The SHOT account once a shot is strobed (R227). -/
theorem strobeShot_shot : ((strobeShot r k v edge).run s).led.shot = s.led.shot.book (.leave (1 + s.b.sht.openTriggers k)) := by
  rw [strobeShot_run, (within_safePoint _).2.2 .ledShot (by decide), (within_noteStrobe _ _ _).2.2 .ledShot (by decide),
    settleStrobe_shot, (driveHalves_framed s r k v edge).2.2 .ledShot (by decide)]

/-- The DOSE account and the count of short pixels once a shot is strobed (R48 to R51). -/
theorem strobeShot_pixels {x : Slot} (hx : s.slot k = some x) (hv : v ≠ 8) :
    ((strobeShot r k v edge).run s).led.dose =
        (s.led.dose.book (.come x.closes.length)).book (.leave (x.closes.filter fun c => c.exact).length) ∧
      ((strobeShot r k v edge).run s).rd R.LAT_SHORT_CNT =
        (s.rd R.LAT_SHORT_CNT + (x.closes.filter fun c => !c.exact).length) % 2 ^ 32 := by
  have hf := driveHalves_framed s r k v edge
  rw [strobeShot_run, (within_safePoint _).2.2 .ledDose (by decide), (within_safePoint _).2.1 _ (by decide),
    (within_noteStrobe _ _ _).2.2 .ledDose (by decide), (within_noteStrobe _ _ _).2.1 _ rfl,
    ← hf.2.2 .ledDose (by decide), ← hf.2.1 R.LAT_SHORT_CNT rfl]
  have hc : ((driveHalves r k v edge).run s).b.cask = s.b.cask := hf.2.2 .bCask (by decide)
  generalize s.b.sht.openTriggers k = n
  generalize (driveHalves r k v edge).run s = a at *
  rw [settleStrobe, run_seq]
  exact commitShot_pixels ((bookOut .shot (1 + n)).run a) r k v
    (show (a.b.cask.slots.find? fun x => x.shot == k) = some x by rw [hc]; exact hx) hv

/-- What a strobe leaves as it was until the safe point. -/
theorem settled_sht (n : Nat) : ((settleStrobe r k v n).run ((driveHalves r k v edge).run s)).b.sht = s.b.sht ∧
    ((settleStrobe r k v n).run ((driveHalves r k v edge).run s)).dev = s.dev ∧
    ((settleStrobe r k v n).run ((driveHalves r k v edge).run s)).b.cask.retireAtEnd = s.b.cask.retireAtEnd := by
  have hd := driveHalves_framed s r k v edge
  generalize (driveHalves r k v edge).run s = a at *
  have hs := within_settleStrobe r k v n a
  refine ⟨(hs.2.2 .bSht (by decide)).trans (hd.2.2 .bSht (by decide)), (hs.2.2 .dev (by decide)).trans (hd.2.2 .dev (by decide)), ?_⟩
  rw [settleStrobe, run_seq, commitShot_retireAtEnd]
  exact congrArg CaskBlk.retireAtEnd (hd.2.2 .bCask (by decide))

/-- The shot unit once a shot is strobed, under no stop. -/
theorem strobeShot_sht (h : s.b.sht.stopFrom = none) :
    ((strobeShot r k v edge).run s).b.sht = s.b.sht.strobe k (s.b.sht.openTriggers k) ∧
      ((strobeShot r k v edge).run s).dev = s.dev := by
  obtain ⟨hsht, hdev, -⟩ := settled_sht s r k v edge (s.b.sht.openTriggers k)
  rw [strobeShot_run]
  generalize (settleStrobe r k v (s.b.sht.openTriggers k)).run ((driveHalves r k v edge).run s) = b at *
  have hnote := noteStrobe_sht b k (s.b.sht.openTriggers k)
  have hsame := (within_noteStrobe k (s.b.sht.openTriggers k) b).2.2 .dev (by decide)
  generalize (noteStrobe k (s.b.sht.openTriggers k)).run b = c at *
  rw [hsht] at hnote
  rw [safePoint_of_no_stop (by rw [hnote]; exact h)]
  exact ⟨hnote, hsame.trans hdev⟩

/-- The next shot after a strobe, and the states that a writing device may be in. -/
theorem strobeShot_next (h : s.dev = .writing) : ((strobeShot r k v edge).run s).b.sht.first = k + 1 ∧
    (((strobeShot r k v edge).run s).dev = .writing ∨ ((strobeShot r k v edge).run s).dev = .draining) ∧
    ((strobeShot r k v edge).run s).b.cask.retireAtEnd = s.b.cask.retireAtEnd := by
  rw [strobeShot_run]
  generalize s.b.sht.openTriggers k = n
  obtain ⟨hsht, hdev, hcask⟩ := settled_sht s r k v edge n
  generalize (settleStrobe r k v n).run ((driveHalves r k v edge).run s) = b at *
  have hnote := noteStrobe_sht b k n
  have hsame := within_noteStrobe k n b
  generalize (noteStrobe k n).run b = c at *
  have hc : c.b.cask = b.b.cask := hsame.2.2 .bCask (by decide)
  have hsafe : (safePoint.run c).b.cask = c.b.cask := (within_safePoint c).2.2 .bCask (by decide)
  refine ⟨?_, safePoint_dev ((hsame.2.2 .dev (by decide)).trans (hdev.trans h)), ?_⟩
  · rw [(allows_safePoint c).rel.blocks.sht.first, hnote]
    rfl
  · rw [hsafe, hc, hcask]

end

/-- The record of a later shot is not touched by a strobe. -/
theorem ShotBlk.rec_strobe (b : ShotBlk) {j k : Nat} (n : Nat) (h : j ≠ k) : (b.strobe k n).rec' j = b.rec' j := by
  have : ∀ l : List ShotRec, (l.filter fun x => x.shot != k).find? (fun x => x.shot == j) = l.find? fun x => x.shot == j := by
    intro l
    rw [List.find?_filter]
    congr 1
    funext x
    by_cases hx : x.shot = j <;> simp [hx, h]
  unfold ShotBlk.rec' ShotBlk.strobe
  dsimp only
  rw [this]

/-- A strobe under no stop leaves the racking triggers of a later shot waiting. -/
theorem State.Untroubled.strobeShot {j : Nat} (h : s.Untroubled j) (hj : j ≠ k) (r : Run) (v : Nat) (edge : Int) :
    ((strobeShot r k v edge).run s).Untroubled j := by
  obtain ⟨hs, hd⟩ := strobeShot_sht s r k v edge h.stopFrom
  refine ⟨hd.trans h.dev, by rw [hs]; exact h.stopFrom, by rw [hs]; exact h.rackWait, ?_⟩
  rw [hs, ShotBlk.rec_strobe _ _ hj]
  exact h.triggered

end Sys2Proof.Machine
end

section
/-! SUPPORT. The frames taken after an edge, and the end of a stripe (R48, R236, R248). -/

namespace Sys2Proof.Machine

variable {s t u : State} {k m : Nat}

/-! ### Frames taken after an edge (R165) -/

/-- A shot of which a writing device without a stop knows nothing new still waits, and the SHOT account and the job stay. -/
structure State.Waits (m : Nat) (s t : State) : Prop where
  untroubled : t.Untroubled m
  shot : t.led.shot = s.led.shot
  job : t.b.job = s.b.job

theorem State.Waits.refl (h : s.Untroubled m) : s.Waits m s := ⟨h, rfl, rfl⟩

theorem State.Waits.trans (h : s.Waits m t) (k : t.Waits m u) : s.Waits m u :=
  ⟨k.untroubled, k.shot.trans h.shot, k.job.trans h.job⟩

theorem takeFrames_waits (h : s.Untroubled m) (hold : Bool) : s.Waits m ((takeFrames m hold).run s) := by
  have r := (allows_takeFrames s m hold).rel
  exact ⟨h.of_seal r, r.part .ledShot (by decide) (by decide), r.blocks.job⟩

theorem rackTrigger_keeps (h : s.Untroubled m) (cause : Nat) : s.Waits m ((rackTrigger m cause).run s) := by
  refine ⟨h.rackTrigger cause, ?_, ?_⟩ <;> rw [rackTrigger_waits h]

theorem withhold_keeps (h : s.Untroubled m) (cause : Nat) : s.Waits m ((withhold m cause true).run s) := by
  by_cases h1 : (s.run.isNone || decide (m < s.b.sht.first) || s.stoppedAt m) = true
  · rw [withhold, run_dyn, if_pos h1, run_nop]
    exact .refl h
  · by_cases h2 : s.heldFrom m = true
    · rw [withhold, run_dyn, if_neg h1, if_pos h2, on_true]
      exact rackTrigger_keeps h cause
    · simp only [Bool.or_eq_true, decide_eq_true_eq, not_or, Bool.not_eq_true, Option.isNone_eq_false_iff, not_lt] at h1
      obtain ⟨⟨hrun, hfirst⟩, hstop⟩ := h1
      obtain ⟨hu, hshot, hjob, -, -⟩ := withhold_waits h ⟨hrun, hfirst, hstop, by simpa using h2⟩ cause
      exact ⟨hu, hshot, hjob⟩

/-- Taking the frames of a shot that is still to be triggered starts no racking and ends no job. -/
theorem takeShot_keeps (h : s.Untroubled m) : s.Waits m ((takeShot m).run s) := by
  have hstop : s.stoppedAt m = false := by simp [State.stoppedAt, h.stopFrom]
  rw [takeShot, run_dyn]
  split
  · rename_i r t _ _
    dsimp only
    rw [hstop, if_neg (show ¬ (false = true) by decide)]
    simp only [run_ite, run_nop, run_seq]
    have hf := takeFrames_waits h true
    split
    · exact .refl h
    · split
      · exact hf
      · split
        · split
          · exact takeFrames_waits h false
          · exact hf.trans (withhold_keeps hf.untroubled _)
        · exact hf.trans (withhold_keeps hf.untroubled _)
  · exact .refl h

/-- Beyond the last shot of a stripe there are no frames to take. -/
theorem takeShot_beyond {r : Run} (hr : s.run = some r) (h : r.stripe.shots ≤ m) : (takeShot m).run s = s := by
  rw [takeShot, run_dyn]
  split
  · rename_i r' _ hr' _
    obtain rfl : r = r' := by simpa [hr] using hr'
    rw [if_pos h, run_nop]
  · rfl

/-! ### The end of a stripe (R48, R236) -/

/-- What the end of a stripe takes away: its bin, its entry, its run and its shots. -/
def clearStripe (r : Run) : Act :=
  acts [freeBin r.stripe.bin, dropEntry r.stripe.num, onPress fun p => { p with runs := p.runs.tail },
    onCask fun c => { c with nextShot := 0, oldest := 0 }, moveDiscard, resetShots, pairStripeEnd]

/-- The count and the events of a stripe that ends. -/
def noteStripe (r : Run) : Act :=
  acts [addR R.JOB_DONE_CNT 1, raise E.JOB_STRIPE_DONE, on r.stripe.last (raise E.JOB_JOB_DONE)]

/-- A job with no further stripe drains (R248). -/
def drainJob : Act := .seq (enter .draining) (onJob fun j => { j with stopEnd := false })

theorem within_freeBin (n : Nat) : (freeBin n).Within (fun _ => false) [.ledCreditCel, .bCel] := by
  refine within_dyn fun s => ?_
  split
  · exact within_cons (within_bookOut (by decide)) (within_cons (within_onCel (by decide)) within_nil)
  · exact within_nop

/-- No bin of the freed number is left. -/
theorem freeBin_bins (s : State) (n : Nat) : ∀ x ∈ ((freeBin n).run s).b.cel.bins, x.num ≠ n := by
  rw [freeBin, run_dyn]
  split
  · rw [run_acts_cons, run_acts_cons, run_acts_nil]
    intro x hx
    have hx' : x ∈ s.b.cel.bins.filter fun y => y.num != n := hx
    simpa using (List.mem_filter.mp hx').2
  · rename_i hnone
    intro x hx
    simpa using List.find?_eq_none.mp hnone x hx

theorem within_clearStripe (r : Run) : (clearStripe r).Within (fun _ => false)
    [.ledCreditCel, .bCel, .bJob, .bPress, .bCask, .bSht, .bPar] :=
  within_cons ((within_freeBin _).mono (by simp) (by decide)) (within_cons (within_onJob (by decide))
    (within_cons (within_onPress (by decide)) (within_cons (within_onCask (by decide))
      (within_cons (within_dyn fun _ => within_onCask (by decide)) (within_cons (within_onSht (by decide))
        (within_cons (within_onPar (by decide)) within_nil))))))

/-- What the end of a stripe takes away, and the taps that wait for retirement, which it keeps. -/
theorem clearStripe_effect (s : State) (r : Run) :
    ((clearStripe r).run s).b.press.runs = s.b.press.runs.tail ∧
      (∀ x ∈ ((clearStripe r).run s).b.cel.bins, x.num ≠ r.stripe.bin) ∧
      (∀ e ∈ ((clearStripe r).run s).b.job.queue, e.stripe ≠ r.stripe.num) ∧
      ((clearStripe r).run s).b.cask.retireAtEnd = s.b.cask.retireAtEnd := by
  have hb := freeBin_bins s r.stripe.bin
  have hf := within_freeBin r.stripe.bin s
  rw [clearStripe, run_acts_cons]
  generalize (freeBin r.stripe.bin).run s = a at *
  have hpress : a.b.press = s.b.press := hf.2.2 .bPress (by decide)
  have hcask : a.b.cask = s.b.cask := hf.2.2 .bCask (by decide)
  rw [← hpress, ← hcask]
  refine ⟨rfl, hb, fun e he => ?_, rfl⟩
  have he' : e ∈ a.b.job.queue.filter fun e => e.stripe != r.stripe.num := he
  simpa using (List.mem_filter.mp he').2

theorem stripeDone_run (s : State) (r : Run) : (stripeDone r).run s = (on (s.dev == .writing && !s.goesOn r) drainJob).run
    ((noteStripe r).run ((retireTaps true).run ((clearStripe r).run s))) := by
  rw [stripeDone, run_dyn]
  dsimp only
  repeat rw [run_acts_cons]
  rw [run_acts_nil, clearStripe, noteStripe]
  repeat rw [run_acts_cons]
  rw [run_acts_nil, run_acts_nil, drainJob]

theorem allows_drainJob (s : State) : stopScope.Allows drainJob s := by
  simp only [drainJob, allows_seq, allows_onJob]
  exact ⟨allows_enter _ s _ (by decide) (by decide) (by decide) (by decide), fun t => stopScope_job _ _ rfl⟩

theorem within_noteStripe (r : Run) : (noteStripe r).Within (fun a => eventRegs a || [R.JOB_DONE_CNT].contains a)
    (eventParts ++ []) :=
  within_cons (within_addR (by decide)) (within_cons (within_raise eventFrame_allows)
    (within_cons (within_on (within_raise eventFrame_allows)) within_nil))

/-- A stripe that ends is counted and reported (R236). -/
theorem noteStripe_effect (s : State) (r : Run) :
    ((noteStripe r).run s).rd R.JOB_DONE_CNT = (s.rd R.JOB_DONE_CNT + 1) % 2 ^ 32 ∧
      ((noteStripe r).run s).raised E.JOB_STRIPE_DONE = true ∧
      (r.stripe.last = true → ((noteStripe r).run s).raised E.JOB_JOB_DONE = true) := by
  rw [noteStripe, run_acts_cons, run_acts_cons, run_acts_cons, run_acts_nil]
  have hd := raise_raised (e := E.JOB_STRIPE_DONE) (by decide) ((addR R.JOB_DONE_CNT 1).run s)
  have hc : ((raise E.JOB_STRIPE_DONE).run ((addR R.JOB_DONE_CNT 1).run s)).rd R.JOB_DONE_CNT = (s.rd R.JOB_DONE_CNT + 1) % 2 ^ 32 := by
    rw [raise_rd _ _ _ (by decide), rd_addR_same]
  generalize (raise E.JOB_STRIPE_DONE).run ((addR R.JOB_DONE_CNT 1).run s) = a at *
  cases r.stripe.last with
  | true =>
    rw [on_true]
    exact ⟨(raise_rd _ _ _ (by decide)).trans hc, keeps_raise (by decide) _ hd, fun _ => raise_raised (by decide) a⟩
  | false => exact ⟨hc, hd, fun h => absurd h (by decide)⟩

/-- The end of a stripe, and what follows it at the edge (R48, R236). -/
theorem stripeDone_effect (s : State) (r : Run) :
    (afterEdge.run ((stripeDone r).run s)).rd R.JOB_DONE_CNT = (s.rd R.JOB_DONE_CNT + 1) % 2 ^ 32 ∧
      (afterEdge.run ((stripeDone r).run s)).raised E.JOB_STRIPE_DONE = true ∧
      (afterEdge.run ((stripeDone r).run s)).b.press.runs = s.b.press.runs.tail ∧
      (∀ x ∈ (afterEdge.run ((stripeDone r).run s)).b.cel.bins, x.num ≠ r.stripe.bin) ∧
      (∀ e ∈ (afterEdge.run ((stripeDone r).run s)).b.job.queue, e.stripe ≠ r.stripe.num) ∧
      (r.stripe.last = true → (afterEdge.run ((stripeDone r).run s)).raised E.JOB_JOB_DONE = true) := by
  rw [stripeDone_run]
  obtain ⟨hpress, hbins, hqueue, -⟩ := clearStripe_effect s r
  have ha := within_clearStripe r s
  generalize (clearStripe r).run s = a at *
  have hb := (allows_retireTaps a true).rel
  have hcount : ((retireTaps true).run a).rd R.JOB_DONE_CNT = s.rd R.JOB_DONE_CNT := (hb.rd _ (by decide)).trans (ha.2.1 _ rfl)
  generalize (retireTaps true).run a = b at *
  obtain ⟨hcnt, hdone, hjob⟩ := noteStripe_effect b r
  have hc := within_noteStripe r b
  generalize (noteStripe r).run b = c at *
  have hd := ((allows_on stopScope c (s.dev == .writing && !s.goesOn r) drainJob).mpr fun _ => allows_drainJob c).rel
  have hend := hd.trans (allows_afterEdge _).rel
  generalize afterEdge.run ((on (s.dev == .writing && !s.goesOn r) drainJob).run c) = t at *
  have hcp : c.b.press = b.b.press := hc.2.2 .bPress (by decide)
  have hcc : c.b.cel = b.b.cel := hc.2.2 .bCel (by decide)
  have hcj : c.b.job = b.b.job := hc.2.2 .bJob (by decide)
  refine ⟨?_, hend.raised _ (by decide) hdone, ?_, ?_, ?_, fun h => hend.raised _ (by decide) (hjob h)⟩
  · rw [hend.rd _ (by decide), hcnt, hcount]
  · rw [hend.blocks.press, hcp, hb.blocks.press, hpress]
  · rw [hend.blocks.cel, hcc, hb.blocks.cel]
    exact hbins
  · rw [hend.blocks.queue, hcj, hb.blocks.queue]
    exact hqueue

/-- With no tap to retire, the end of a stripe changes no state. -/
theorem retireTaps_dev (hr : s.b.cask.retireAtEnd = []) (h : ∀ i < 68, s.fld (F.TP_STAT_RETRIES i) ≤ 16) :
    ((retireTaps true).run s).dev = s.dev := by
  have hworn : ((List.range 68).filter fun t => true && decide (16 < s.fld (F.TP_STAT_RETRIES t))) = [] := by
    refine List.filter_eq_nil_iff.mpr fun i hi => ?_
    simpa using h i (List.mem_range.mp hi)
  rw [retireTaps, run_dyn]
  dsimp only
  rw [hworn, hr, List.append_nil, List.dedup_nil, run_acts_cons, run_acts_cons, run_acts_cons, run_acts_nil, each_nil]
  have hf : (each (List.range 68) fun t => setF (F.TP_STAT_RETRIES t) 0).Within (fun _ => true) [] :=
    within_each fun t => within_setF rfl
  exact (hf _).2.2 .dev (by decide)

/-- In DRAINING no racking is due. -/
theorem rackDue_of_draining (h : s.dev = .draining) : rackDue.run s = s := by
  have hw : (DevState.draining == DevState.writing) = false := rfl
  have hr : (DevState.draining == DevState.racking) = false := rfl
  rw [rackDue, run_dyn]
  split
  · rw [h, hw, hr, Bool.false_and, Bool.or_false, Bool.false_and, Bool.false_and, on_false, run_nop]
  · rw [run_nop]

theorem stopSafe_of_draining (h : s.dev = .draining) : stopSafe.run s = s := by
  rw [stopSafe, run_dyn, if_neg (by simp [h]), run_nop]

/-- A drain lasts past the edge at which it began. -/
theorem afterEdge_of_draining (h : s.dev = .draining) : (afterEdge.run s).dev = .draining := by
  rw [afterEdge, run_seq, rackDue_of_draining h, run_dyn]
  cases (s.b.job.pendSafe && s.dev != .armed) with
  | false => exact h
  | true => rw [on_true, run_seq, stopSafe_of_draining (by exact h)]; exact h

/-- After a job's last stripe the device drains where no tap is to be retired (R248). -/
theorem stripeDone_drains {r : Run} (hl : r.stripe.last = true) (hd : s.dev = .writing ∨ s.dev = .draining)
    (hr : s.b.cask.retireAtEnd = []) (h : ∀ i < 68, s.fld (F.TP_STAT_RETRIES i) ≤ 16) :
    (afterEdge.run ((stripeDone r).run s)).dev = .draining := by
  refine afterEdge_of_draining ?_
  have hgoes : s.goesOn r = false := by simp [State.goesOn, hl]
  rw [stripeDone_run, hgoes, Bool.not_false, Bool.and_true]
  obtain ⟨-, -, -, hretire⟩ := clearStripe_effect s r
  have ha := within_clearStripe r s
  generalize (clearStripe r).run s = a at *
  have hb : ((retireTaps true).run a).dev = s.dev :=
    (retireTaps_dev (hretire.trans hr) fun i hi => by rw [framed_fld ha _ rfl]; exact h i hi).trans (ha.2.2 .dev (by decide))
  generalize (retireTaps true).run a = b at *
  have hc : ((noteStripe r).run b).dev = s.dev := ((within_noteStripe r b).2.2 .dev (by decide)).trans hb
  generalize (noteStripe r).run b = c at *
  rcases hd with hd | hd
  · rw [hd] at hc ⊢
    rw [show (DevState.writing == DevState.writing) = true from rfl, on_true, drainJob, run_seq,
      enter_run _ (by simp [hc, DevState.edge])]
    exact raise_dev _ _
  · rw [hd] at hc ⊢
    exact hc

end Sys2Proof.Machine
end

section
/-! SUPPORT. Strobe edges (R140, R170, R227, R236), and the statement on seals, deadlines and strobes. -/

namespace Sys2Proof.Machine

variable {s t u : State} {r : Run} {n v : Nat} {k edge : Int} {rest : List (Int × Int)}

/-! ### The edge -/

/-- The state that an edge finds: time has come to it, and it is no longer to come. -/
def State.atEdge (s : State) (edge : Int) (rest : List (Int × Int)) : State :=
  (onSht fun b => { b with frozen := rest }).run ((advanceTo edge).run { s with out := [] })

/-- Whether an edge drives a sealed shot (R170). -/
def State.drivesEdge (s : State) (n v : Nat) : Bool := drives v && !s.heldFrom n && !s.stoppedAt n && s.dev == .writing

/-- What a sealed shot's edge brings about before racking triggers and stops that wait for it. -/
def sealedEdge (r : Run) (n v : Nat) (edge : Int) (go : Bool) : Act :=
  acts [on go (strobeShot r n v edge), takeShot (n + 2), on (go && n + 1 == r.stripe.shots) (stripeDone r)]

/-- What follows the crossing of an edge, by the shot's seal (R170). -/
def edgeEffect (r : Run) (n : Nat) (edge : Int) : Act := .dyn fun t =>
  match (t.shotRec n).sealed with
  | some v => sealedEdge r n v.1 edge (t.drivesEdge n v.1)
  | none => takeShot (n + 2)

theorem edgeEffect_sealed {at' : Int} (h : (s.shotRec n).sealed = some (v, at')) :
    (edgeEffect r n edge).run s = (sealedEdge r n v edge (s.drivesEdge n v)).run s := by
  rw [edgeEffect, run_dyn, h]

theorem edgeEffect_unsealed (h : (s.shotRec n).sealed = none) :
    (edgeEffect r n edge).run s = (takeShot (n + 2)).run s := by
  rw [edgeEffect, run_dyn, h]

theorem strobeEdge_run (hz : s.b.sht.frozen = (k, edge) :: rest) (hr : s.run = some r) (hk : (s.b.sht.runStart : Int) ≤ k) :
    exec .strobeEdge s = .next (afterEdge.run
      ((edgeEffect r k.toNat edge).run ((crossShot k.toNat).run (s.atEdge edge rest)))) := by
  have hr' : ({ s with out := [] } : State).run = some r := hr
  show execStrobeEdge s = _
  rw [execStrobeEdge, perform_eq, run_dyn]
  simp only [hz, hr', if_neg (not_lt.mpr hk)]
  rw [run_acts_cons, run_acts_cons, run_acts_cons, run_acts_cons, run_acts_cons, run_acts_nil]
  rfl

theorem atEdge_framed (s : State) (edge : Int) (rest : List (Int × Int)) :
    framed (fun _ => false) [.out, .bTim, .bAge, .bPos, .bSht] s (s.atEdge edge rest) :=
  framed_clear s (by decide) (framed_trans (framed_mono (by simp) (by decide) (advanceTo_framed _ edge)) (within_onSht (by decide) _))

theorem atEdge_sht (s : State) (edge : Int) (rest : List (Int × Int)) :
    (s.atEdge edge rest).b.sht = { s.b.sht with frozen := rest } := by
  have h : ((advanceTo edge).run { s with out := [] }).b.sht = s.b.sht := (advanceTo_framed _ edge).2.2 .bSht (by decide)
  rw [State.atEdge]
  generalize (advanceTo edge).run { s with out := [] } = a at *
  rw [run_onSht, h]

theorem atEdge_out (s : State) (edge : Int) (rest : List (Int × Int)) : (s.atEdge edge rest).out = [] := by
  have h := (advanceTo_framed { s with out := [] } edge).2.2 .out (by decide)
  rw [State.atEdge]
  generalize (advanceTo edge).run { s with out := [] } = a at *
  exact h

theorem atEdge_shotRec (s : State) (edge : Int) (rest : List (Int × Int)) (m : Nat) :
    (s.atEdge edge rest).shotRec m = s.shotRec m := by
  rw [shotRec_eq, atEdge_sht, shotRec_eq]
  rfl

theorem crossShot_of_writing (h : s.dev = .writing) (n : Nat) : (crossShot n).run s = s := by
  simp [crossShot, h]

theorem crossShot_of_draining (h : s.dev = .draining) (n : Nat) : (crossShot n).run s = s := by
  simp [crossShot, h]

/-- An armed device begins to write at its first edge (R19). -/
theorem crossShot_of_armed (h : s.dev = .armed) (hd : s.b.job.disarming = false) (n : Nat) :
    ((crossShot n).run s).dev = .writing ∧ ((crossShot n).run s).raised E.TOP_STATE_CHANGE = true := by
  rw [crossShot, run_dyn, if_pos ⟨h, hd⟩, enter_run _ (by simp [h, DevState.edge])]
  exact ⟨raise_dev _ _, raise_raised (by decide) _⟩

/-! ### What an edge's effects lie within -/

theorem allows_sealedEdge (s : State) (r : Run) (n v : Nat) (edge : Int) (go : Bool) :
    edgeScope.Allows (sealedEdge r n v edge go) s := by
  simp only [sealedEdge, allows_cons, allows_on, allows_nil, implies_true, and_true]
  exact ⟨fun _ => allows_strobeShot s r n v edge, fun t => ⟨((allows_takeShot t _).mono pathScope_le_doneScope).mono
    doneScope_le_edgeScope, fun t _ => (allows_stripeDone t r).mono doneScope_le_edgeScope⟩⟩

/-- An edge that drives nothing takes frames only. -/
theorem sealedEdge_idle (s : State) (r : Run) (n v : Nat) (edge : Int) :
    (sealedEdge r n v edge false).run s = (takeShot (n + 2)).run s := by
  rw [sealedEdge, run_acts_cons, run_acts_cons, run_acts_cons, run_acts_nil, on_false, run_nop, Bool.false_and, on_false, run_nop]

/-- The frames taken after an edge, and what waits for it, drive no strobe and leave the DOSE account alone. -/
theorem idleEdge_quiet (s : State) (m : Nat) (h : s.out = []) :
    (afterEdge.run ((takeShot m).run s)).led.dose = s.led.dose ∧
      ∀ h e w, Out.strobe h e w ∉ (afterEdge.run ((takeShot m).run s)).out := by
  have hd := (allows_takeShot s m).rel.trans (((allows_afterEdge _).mono stopScope_le_pathScope).rel)
  generalize afterEdge.run ((takeShot m).run s) = t at *
  refine ⟨hd.part .ledDose (by decide) (by decide), fun a e w hm => ?_⟩
  obtain ⟨o, ho, hs⟩ := hd.out
  rw [ho, h, List.nil_append] at hm
  exact absurd (hs _ hm) (by simp [Out.isStrobe, pathScope])

/-! ### The edge of a shot that is driven (R170, R227, R236) -/

/-- What an edge that drives a shot before the stripe's last does besides its strobe. -/
theorem sealedEdge_within_stripe (hd : s.dev = .writing) (hn : n + 1 ≠ r.stripe.shots) (v : Nat) (edge : Int) :
    ∃ t, afterEdge.run ((sealedEdge r n v edge true).run s) = t ∧ pathScope.Rel ((strobeShot r n v edge).run s) t ∧
      t.b.sht.first = n + 1 ∧
      (s.Untroubled (n + 2) → s.b.job.pendSafe = false →
        t.led.shot = s.led.shot.book (.leave (1 + s.b.sht.openTriggers n))) := by
  have hlast : (n + 1 == r.stripe.shots) = false := by simpa using hn
  rw [sealedEdge, run_acts_cons, run_acts_cons, run_acts_cons, run_acts_nil, hlast, Bool.and_false, on_false, run_nop, on_true]
  have hshot := strobeShot_shot s r n v edge
  have hwait := fun h : s.Untroubled (n + 2) => h.strobeShot (k := n) (by omega) r v edge
  have hjob : ((strobeShot r n v edge).run s).b.job = s.b.job := (within_strobeShot r n v edge s).2.2 .bJob (by decide)
  obtain ⟨hfirst, -, -⟩ := strobeShot_next s r n v edge hd
  generalize (strobeShot r n v edge).run s = a at *
  have hrel := (allows_takeShot a (n + 2)).rel.trans ((allows_afterEdge _).mono stopScope_le_pathScope).rel
  refine ⟨_, rfl, hrel, hrel.blocks.first.trans hfirst, fun hq hp => ?_⟩
  have hw := takeShot_keeps (hwait hq)
  rw [afterEdge_of_untroubled hw.untroubled (by rw [hw.job, hjob, hp]), hw.shot, hshot]

/-- What an edge that drives the last shot of a stripe does besides its strobe. -/
theorem sealedEdge_of_last (hd : s.dev = .writing) (hr : s.run = some r) (hn : n + 1 = r.stripe.shots) (v : Nat) (edge : Int) :
    ∃ t, afterEdge.run ((sealedEdge r n v edge true).run s) = t ∧ doneScope.Rel ((strobeShot r n v edge).run s) t ∧
      t.rd R.JOB_DONE_CNT = (s.rd R.JOB_DONE_CNT + 1) % 2 ^ 32 ∧ t.raised E.JOB_STRIPE_DONE = true ∧
      t.b.press.runs = s.b.press.runs.tail ∧ (∀ x ∈ t.b.cel.bins, x.num ≠ r.stripe.bin) ∧
      (∀ e ∈ t.b.job.queue, e.stripe ≠ r.stripe.num) ∧
      (r.stripe.last = true → t.raised E.JOB_JOB_DONE = true ∧
        (s.b.cask.retireAtEnd = [] → (∀ i < 68, s.fld (F.TP_STAT_RETRIES i) ≤ 16) → t.dev = .draining)) := by
  have hlast : (n + 1 == r.stripe.shots) = true := by simpa using hn
  rw [sealedEdge, run_acts_cons, run_acts_cons, run_acts_cons, run_acts_nil, hlast, Bool.and_true, on_true, on_true]
  have hf := within_strobeShot r n v edge s
  obtain ⟨-, hdev, hretire⟩ := strobeShot_next s r n v edge hd
  generalize (strobeShot r n v edge).run s = a at *
  have hpress : a.b.press = s.b.press := hf.2.2 .bPress (by decide)
  have hcount : a.rd R.JOB_DONE_CNT = s.rd R.JOB_DONE_CNT := hf.2.1 _ (by decide)
  have hretries : ∀ i < 68, a.fld (F.TP_STAT_RETRIES i) = s.fld (F.TP_STAT_RETRIES i) := fun i hi => framed_fld hf _ (by
    revert i; decide)
  rw [takeShot_beyond (r := r) (by rw [State.run, hpress]; exact hr) (by omega)]
  obtain ⟨hcnt, hdone, hruns, hbins, hqueue, hjob⟩ := stripeDone_effect a r
  have hdrain := fun hl => stripeDone_drains (s := a) (r := r) hl hdev
  have hrel := (allows_stripeDone a r).rel.trans
    (((allows_afterEdge _).mono stopScope_le_pathScope).mono pathScope_le_doneScope).rel
  refine ⟨_, rfl, hrel, by rw [hcnt, hcount], hdone, by rw [hruns, hpress], hbins, hqueue, fun hl => ⟨hjob hl, fun ht hi => ?_⟩⟩
  exact hdrain hl (hretire.trans ht) fun i hlt => by rw [hretries i hlt]; exact hi i hlt

/-- The edge of a sealed shot of a writing device (R140, R170, R227, R236). -/
theorem strobeEdge_drives (hz : s.b.sht.frozen = (k, edge) :: rest) (hr : s.run = some r)
    (hk : (s.b.sht.runStart : Int) ≤ k) (hn : k.toNat = n) (hd : s.dev = .writing) {at' : Int}
    (hs : (s.shotRec n).sealed = some (v, at')) (hv : drives v = true) (hh : s.heldFrom n = false)
    (hstop : s.stoppedAt n = false) :
    ∃ t, exec .strobeEdge s = .next t ∧
      (s.flag F.PLK_STB_EN_A = true →
        Out.strobe 0 (edge + (s.fld F.PLK_STB_TRIM_A * 2048 : Nat)) (max 8 (s.fld F.PLK_STB_WIDTH)) ∈ t.out) ∧
      (s.flag F.PLK_STB_EN_B = true →
        Out.strobe 1 (edge + (s.fld F.PLK_STB_TRIM_B * 2048 : Nat)) (max 8 (s.fld F.PLK_STB_WIDTH)) ∈ t.out) ∧
      (∀ x, s.slot n = some x → v ≠ 8 →
        t.led.dose = (s.led.dose.book (.come x.closes.length)).book (.leave (x.closes.filter fun c => c.exact).length) ∧
        t.rd R.LAT_SHORT_CNT = (s.rd R.LAT_SHORT_CNT + (x.closes.filter fun c => !c.exact).length) % 2 ^ 32) ∧
      (n + 1 ≠ r.stripe.shots → t.b.sht.first = n + 1 ∧
        (s.b.sht.stopFrom = none → s.b.sht.rackWait = none → s.b.job.pendSafe = false → (s.shotRec (n + 2)).triggered = false →
          t.led.shot = s.led.shot.book (.leave (1 + (s.b.sht.unresolved.filter fun x => x == n).length)))) ∧
      (n + 1 = r.stripe.shots → t.rd R.JOB_DONE_CNT = (s.rd R.JOB_DONE_CNT + 1) % 2 ^ 32 ∧
        t.raised E.JOB_STRIPE_DONE = true ∧ t.b.press.runs = s.b.press.runs.tail ∧
        (∀ x ∈ t.b.cel.bins, x.num ≠ r.stripe.bin) ∧ (∀ e ∈ t.b.job.queue, e.stripe ≠ r.stripe.num) ∧
        (r.stripe.last = true → t.raised E.JOB_JOB_DONE = true ∧
          (s.b.cask.retireAtEnd = [] → (∀ i < 68, s.fld (F.TP_STAT_RETRIES i) ≤ 16) → t.dev = .draining))) := by
  subst hn
  rw [strobeEdge_run hz hr hk]
  have hf := atEdge_framed s edge rest
  have hsht := atEdge_sht s edge rest
  have hrec := fun m => atEdge_shotRec s edge rest m
  generalize s.atEdge edge rest = u at *
  have hud : u.dev = .writing := (hf.2.2 .dev (by decide)).trans hd
  have hpress : u.b.press = s.b.press := hf.2.2 .bPress (by decide)
  have hcask : u.b.cask = s.b.cask := hf.2.2 .bCask (by decide)
  have hjob : u.b.job = s.b.job := hf.2.2 .bJob (by decide)
  have hshot : u.led.shot = s.led.shot := hf.2.2 .ledShot (by decide)
  have hdose : u.led.dose = s.led.dose := hf.2.2 .ledDose (by decide)
  have hflag : ∀ f : Fld, u.flag f = s.flag f := fun f => by rw [State.flag, framed_fld hf f rfl, State.flag]
  have hfld : ∀ f : Fld, u.fld f = s.fld f := fun f => framed_fld hf f rfl
  have hslot : u.slot k.toNat = s.slot k.toNat := by rw [State.slot, hcask, State.slot]
  have hgo : u.drivesEdge k.toNat v = true := by
    have h1 : u.heldFrom k.toNat = false := by rw [State.heldFrom, hsht]; exact hh
    have h2 : u.stoppedAt k.toNat = false := by rw [State.stoppedAt, hsht]; exact hstop
    simp [State.drivesEdge, hv, h1, h2, hud]
  rw [crossShot_of_writing hud, edgeEffect_sealed (v := v) (at' := at') (by rw [hrec]; exact hs), hgo]
  obtain ⟨hA, hB⟩ := strobeShot_strobes u r k.toNat v edge
  have hpix := fun x => strobeShot_pixels u r k.toNat v edge (x := x)
  rw [hflag, hfld, hfld] at hA
  rw [hflag, hfld, hfld] at hB
  rw [hslot, hdose, hf.2.1 _ rfl] at hpix
  refine ⟨_, rfl, ?_⟩
  by_cases hn : k.toNat + 1 = r.stripe.shots
  · obtain ⟨t, ht, hrel, hcnt, hdone, hruns, hbins, hqueue, hjobdone⟩ :=
      sealedEdge_of_last (s := u) hud (by rw [State.run, hpress]; exact hr) hn v edge
    rw [ht]
    obtain ⟨o, ho, -⟩ := hrel.out
    refine ⟨fun h => ho ▸ List.mem_append_left o (hA h), fun h => ho ▸ List.mem_append_left o (hB h), fun x hx h8 => ?_,
      fun h => absurd hn h, fun _ => ⟨by rw [hcnt, hf.2.1 _ rfl], hdone, by rw [hruns, hpress], hbins, hqueue, fun hl => ?_⟩⟩
    · rw [hrel.part .ledDose (by decide) (by decide), hrel.rd _ (by decide)]
      exact hpix x hx h8
    · obtain ⟨hjd, hdr⟩ := hjobdone hl
      exact ⟨hjd, fun ht hi => hdr (by rw [hcask]; exact ht) fun i hlt => by rw [hfld]; exact hi i hlt⟩
  · obtain ⟨t, ht, hrel, hfirst, hled⟩ := sealedEdge_within_stripe (s := u) hud hn v edge
    rw [ht]
    obtain ⟨o, ho, -⟩ := hrel.out
    refine ⟨fun h => ho ▸ List.mem_append_left o (hA h), fun h => ho ▸ List.mem_append_left o (hB h), fun x hx h8 => ?_,
      fun _ => ⟨hfirst, fun h1 h2 h3 h4 => ?_⟩, fun h => absurd h hn⟩
    · rw [hrel.part .ledDose (by decide) (by decide), hrel.rd _ (by decide)]
      exact hpix x hx h8
    · have hq : u.Untroubled (k.toNat + 2) :=
        ⟨hud, by rw [hsht]; exact h1, by rw [hsht]; intro w hw; simp [h2] at hw, by rw [← shotRec_eq, hrec]; exact h4⟩
      rw [hled hq (by rw [hjob]; exact h3), hshot, hsht]
      rfl

/-- The edge of a shot without a seal drives nothing (R170). -/
theorem strobeEdge_unsealed (hz : s.b.sht.frozen = (k, edge) :: rest) (hr : s.run = some r)
    (hk : (s.b.sht.runStart : Int) ≤ k) (hd : s.dev = .writing) (hs : (s.shotRec k.toNat).sealed = none) :
    ∃ t, exec .strobeEdge s = .next t ∧ t.led.dose = s.led.dose ∧ ∀ h e w, Out.strobe h e w ∉ t.out := by
  have hf := atEdge_framed s edge rest
  have hu : (s.atEdge edge rest).dev = .writing := (hf.2.2 .dev (by decide)).trans hd
  rw [strobeEdge_run hz hr hk, crossShot_of_writing hu, edgeEffect_unsealed (by rw [atEdge_shotRec]; exact hs)]
  obtain ⟨hdose, hout⟩ := idleEdge_quiet (s.atEdge edge rest) (k.toNat + 2) (atEdge_out s edge rest)
  exact ⟨_, rfl, hdose.trans (hf.2.2 .ledDose (by decide)), hout⟩

/-- In DRAINING an edge drives nothing (R19). -/
theorem strobeEdge_of_draining (hz : s.b.sht.frozen = (k, edge) :: rest) (hr : s.run = some r)
    (hk : (s.b.sht.runStart : Int) ≤ k) (hd : s.dev = .draining) :
    ∃ t, exec .strobeEdge s = .next t ∧ ∀ h e w, Out.strobe h e w ∉ t.out := by
  have hu : (s.atEdge edge rest).dev = .draining := ((atEdge_framed s edge rest).2.2 .dev (by decide)).trans hd
  have heff : (edgeEffect r k.toNat edge).run (s.atEdge edge rest) = (takeShot (k.toNat + 2)).run (s.atEdge edge rest) := by
    cases hs : ((s.atEdge edge rest).shotRec k.toNat).sealed with
    | none => exact edgeEffect_unsealed hs
    | some x =>
      have hgo : (s.atEdge edge rest).drivesEdge k.toNat x.1 = false := by
        have hne : (DevState.draining == DevState.writing) = false := rfl
        rw [State.drivesEdge, hu, hne, Bool.and_false]
      rw [edgeEffect_sealed (v := x.1) (at' := x.2) hs, hgo, sealedEdge_idle]
  rw [strobeEdge_run hz hr hk, crossShot_of_draining hu, heff]
  exact ⟨_, rfl, (idleEdge_quiet (s.atEdge edge rest) (k.toNat + 2) (atEdge_out s edge rest)).2⟩

/-- The first edge of an armed device that is not disarming leaves ARMED (R19). -/
theorem strobeEdge_of_armed (hz : s.b.sht.frozen = (k, edge) :: rest) (hr : s.run = some r)
    (hk : (s.b.sht.runStart : Int) ≤ k) (hd : s.dev = .armed) (hj : s.b.job.disarming = false) :
    ∃ t, exec .strobeEdge s = .next t ∧ t.dev ≠ .armed ∧ t.raised E.TOP_STATE_CHANGE = true := by
  have hf := atEdge_framed s edge rest
  have hjob : (s.atEdge edge rest).b.job = s.b.job := hf.2.2 .bJob (by decide)
  rw [strobeEdge_run hz hr hk]
  obtain ⟨hdev, hraised⟩ := crossShot_of_armed ((hf.2.2 .dev (by decide)).trans hd) (by rw [hjob]; exact hj) k.toNat
  generalize (crossShot k.toNat).run (s.atEdge edge rest) = u at *
  have heff : edgeScope.Rel u ((edgeEffect r k.toNat edge).run u) := by
    cases hs : (u.shotRec k.toNat).sealed with
    | none =>
      rw [edgeEffect_unsealed hs]
      exact (((allows_takeShot u _).mono pathScope_le_doneScope).mono doneScope_le_edgeScope).rel
    | some x =>
      rw [edgeEffect_sealed (v := x.1) (at' := x.2) hs]
      exact (allows_sealedEdge u r k.toNat x.1 edge _).rel
  have hrel := heff.trans ((allows_afterEdge _).mono stopScope_le_edgeScope).rel
  exact ⟨_, rfl, hrel.armed (by rw [hdev]; decide), hrel.raised _ (by decide) hraised⟩

/-- Settles O31, seal by seal, deadline by deadline and edge by edge. -/
theorem sealsDeadlinesAndStrobesFollowTheVerdict : Obligations.SealsDeadlinesAndStrobesFollowTheVerdict := by
  intro s
  refine ⟨fun v hv hd ha hu hi => sealIssue_seals s hv hd ha hu hi, fun e hp ha hr => ?_, fun k edge rest r hz hr hk =>
    ⟨fun hd => ⟨fun v at' hs hv hh hstop => strobeEdge_drives hz hr hk rfl hd hs hv hh hstop, strobeEdge_unsealed hz hr hk hd⟩,
      strobeEdge_of_draining hz hr hk, strobeEdge_of_armed hz hr hk⟩⟩
  intro k hu hf hs
  obtain ⟨t, ht, hw, hl, hc, hrack⟩ := sealDeadline_withholds s hp ha hr rfl hu hf hs
  exact ⟨t, ht, hw, hl, hc, fun _ => hrack⟩

end Sys2Proof.Machine
end

section
/-! SUPPORT. The conditions of ARM and the configuration digest (R164, R437). -/

namespace Sys2Proof.Machine

variable {s t : State} {rg : Nat → Bool} {ps : List Part}

/-! ### The conditions of ARM -/

/-- The registers that the conditions of ARM read. -/
def armRegs : List Nat :=
  [R.LAT_STAT, R.POS_STAT, R.THM_STAT, R.PWR_STAT, R.LDG_STAT, R.MOT_VMAX, R.MOT_AMAX, R.MOT_JMAX]

/-- What the conditions of a SOLO device's ARM read. -/
structure State.SameForArm (s t : State) : Prop where
  rd : ∀ a ∈ armRegs, t.rd a = s.rd a
  role : t.role = s.role
  lat : t.b.lat = s.b.lat
  locked : t.b.plk = s.b.plk
  pos : t.b.pos = s.b.pos
  queue : t.b.job.queue = s.b.job.queue
  thm : t.b.thm = s.b.thm

theorem State.SameForArm.trans {u : State} (h : s.SameForArm t) (k : t.SameForArm u) : s.SameForArm u :=
  ⟨fun a ha => (k.rd a ha).trans (h.rd a ha), k.role.trans h.role, k.lat.trans h.lat, k.locked.trans h.locked,
    k.pos.trans h.pos, k.queue.trans h.queue, k.thm.trans h.thm⟩

theorem solo_of_role (h : s.role = .solo) : s.solo = true := by
  have hp : s.paired = false := by simp [State.paired, h]
  simp [State.solo, hp]

theorem passes_of_role (h : s.role = .solo) : s.passes = false := by
  have hp : s.paired = false := by simp [State.paired, h]
  simp [State.passes, hp]

/-- A SOLO device's ARM fails the same condition wherever what the conditions read is the same. -/
theorem armRefusal_congr (hr : s.role = .solo) (h : s.SameForArm t) : t.armRefusal = s.armRefusal := by
  have hs := solo_of_role hr
  have ht := solo_of_role (h.role.trans hr)
  have hrd := h.rd
  simp only [armRegs, List.mem_cons, forall_eq_or_imp, List.not_mem_nil, false_imp_iff, implies_true, and_true] at hrd
  obtain ⟨hlat, hpos, hthm, hpwr, hldg, hv, ha, hj⟩ := hrd
  have haxis : t.axisValid = s.axisValid := by
    funext i
    simp only [State.axisValid, State.flag, State.fld, hpos, h.pos]
  simp only [State.armRefusal, State.domainsDown, State.fld, hlat, hthm, hpwr, hldg, hv, ha, hj, haxis, hs, ht,
    Bool.not_true, Bool.false_and, Bool.false_eq_true, if_false, h.role, h.lat, h.locked, h.queue, h.thm]
  rfl

/-- An effect that touches nothing that the conditions of ARM read. -/
theorem sameForArm_of_framed (h : framed rg ps s t) (hr : ∀ a ∈ armRegs, rg a = false)
    (hp : ∀ p ∈ ps, p ∉ [Part.role, .bLat, .bPlk, .bPos, .bJob, .bThm]) : s.SameForArm t := by
  have keeps : ∀ p ∈ [Part.role, .bLat, .bPlk, .bPos, .bJob, .bThm], p.same s t := fun p hm => h.2.2 p fun hps => hp p hps hm
  exact ⟨fun a ha => h.2.1 a (hr a ha), keeps .role (by decide), keeps .bLat (by decide), keeps .bPlk (by decide),
    keeps .bPos (by decide), congrArg JobBlk.queue (keeps .bJob (by decide)), keeps .bThm (by decide)⟩

/-- In READY an access touches, before its command, nothing that the conditions of ARM read. -/
theorem served_sameForArm (hd : s.dev = .ready) (page : Nat) : s.SameForArm (s.served page) := by
  have hf := served_framed s page
  rw [show accessParts s = [.bBst, .evt, .out, .rings, .ledRing, .bNet] by simp [accessParts, hd, eventParts]] at hf
  exact sameForArm_of_framed hf (by decide) (by decide)

/-! ### A SOLO device's request -/

section
variable (s)

theorem armCmd_run (hd : s.dev = .ready) (hr : s.role = .solo) (ha : s.ageBusy = false) :
    armCmd.run s = soloRequest.run s := by
  have hne : (DevState.ready != DevState.ready) = false := rfl
  rw [armCmd, run_dyn, hd, hne, ha, passes_of_role hr]
  simp only [Bool.false_eq_true, if_false]

/-- A SOLO device's ARM reaches its page (R19). -/
theorem arm_run (hd : s.dev = .ready) (hr : s.role = .solo) (ha : s.ageBusy = false) :
    exec .arm s = .next (soloRequest.run (s.served 7)) := by
  have hf := served_framed s 7
  have hp : accessParts s = [.bBst, .evt, .out, .rings, .ledRing, .bNet] := by simp [accessParts, hd, eventParts]
  rw [hp] at hf
  have hage : (s.served 7).b.age = s.b.age := hf.2.2 .bAge (by decide)
  rw [← armCmd_run (s.served 7) ((hf.2.2 .dev (by decide)).trans hd) ((hf.2.2 .role (by decide)).trans hr)
    (by rw [State.ageBusy, hage]; exact ha)]
  exact perform_toPage s 7 armCmd (reaches_ready s 7 hd)

theorem within_soloAsk {regs : List Nat} : (Act.seq (onJob fun j => { j with armReq := some 0 }) (requestDigest 0)).Within
    (fun a => accessRegs a || regs.contains a) (accessParts s ++ [.bJob, .bPar]) :=
  within_seq (within_onJob (by simp)) (within_onPar (by simp))

/-- The conditions of ARM do not read what its request notes. -/
theorem requested_sameForArm (s : State) : s.SameForArm ((requestDigest 0).run s) := ⟨fun _ _ => rfl, rfl, rfl, rfl, rfl, rfl, rfl⟩

theorem noted_sameForArm (s : State) : s.SameForArm ((onJob fun j => { j with armReq := some 0 }).run s) :=
  ⟨fun _ _ => rfl, rfl, rfl, rfl, rfl, rfl, rfl⟩

theorem soloRequest_waits (h : s.armRefusal = none) : soloRequest.run s =
    (Act.seq (onJob fun j => { j with armReq := some 0 }) (requestDigest 0)).run s := by
  rw [soloRequest, run_dyn, h, Option.isSome_none]
  simp only [Bool.false_eq_true, if_false]

/-- An ARM that meets its conditions waits in READY for the digest (R164, R437). -/
theorem arm_waits (hd : s.dev = .ready) (hr : s.role = .solo) (ha : s.ageBusy = false) (h : s.armRefusal = none) :
    ∃ t, exec .arm s = .next t ∧ t.dev = .ready ∧ t.b.job = { s.b.job with armReq := some 0 } ∧ t.b.par.digestReq = some 0 ∧
      t.armRefusal = none ∧ accessFrame [] [.bJob, .bPar] s t := by
  have hframe := accessFrame_run (regs := []) s 7 (within_soloAsk s)
  have hsame := served_sameForArm hd 7
  have hf := served_framed s 7
  rw [show accessParts s = [.bBst, .evt, .out, .rings, .ledRing, .bNet] by simp [accessParts, hd, eventParts]] at hf
  have hdev : (s.served 7).dev = .ready := (hf.2.2 .dev (by decide)).trans hd
  have hjob : (s.served 7).b.job = s.b.job := hf.2.2 .bJob (by decide)
  refine ⟨_, arm_run s hd hr ha, ?_⟩
  generalize s.served 7 = v at *
  rw [soloRequest_waits v ((armRefusal_congr hr hsame).trans h)]
  have hall := (hsame.trans (noted_sameForArm v)).trans (requested_sameForArm _)
  exact ⟨hdev, by rw [← hjob]; rfl, rfl, (armRefusal_congr hr hall).trans h, hframe⟩

/-- An ARM that fails a condition is refused with it (R49, R437). -/
theorem armNow_refuses (hd : s.dev = .ready) {c d : Nat} (h : s.armRefusal = some (c, d)) :
    armNow.run s = (onJob fun j => { j with armReq := none }).run ((refuse 7 1 c d).run s) := by
  have hne : (DevState.ready != DevState.ready) = false := rfl
  rw [armNow, run_dyn, hd, hne]
  simp only [Bool.false_eq_true, if_false, h, run_seq]

/-- What a SOLO device's refused request does. -/
def refuseArm (c d : Nat) : Act := .seq (requestDigest 0) (.seq (refuse 7 1 c d) (onJob fun j => { j with armReq := none }))

theorem soloRequest_refuses (hd : s.dev = .ready) (hr : s.role = .solo) {c d : Nat} (h : s.armRefusal = some (c, d)) :
    soloRequest.run s = (refuseArm c d).run s := by
  have hask : ((requestDigest 0).run s).armRefusal = some (c, d) := (armRefusal_congr hr (requested_sameForArm s)).trans h
  have hdev : ((requestDigest 0).run s).dev = .ready := hd
  rw [soloRequest, run_dyn, h, Option.isSome_some, if_pos rfl, run_seq, refuseArm, run_seq, run_seq]
  exact armNow_refuses _ hdev hask

theorem refuseArm_effect (c d : Nat) : ((refuseArm c d).run s).dev = s.dev ∧
    ((refuseArm c d).run s).rd R.TOP_REFUSE = (7 * 2 ^ 24 + 1 * 2 ^ 16 + c * 2 ^ 8 + d % 256) % 2 ^ 32 ∧
    ((refuseArm c d).run s).raised E.TOP_REQ_REFUSED = true := by
  rw [refuseArm, run_seq, run_seq, refuse, run_acts_cons, run_acts_cons, run_acts_nil]
  have hr := raise_rd ((setR R.TOP_REFUSE (7 % 256 * 2 ^ 24 + 1 % 256 * 2 ^ 16 + c * 2 ^ 8 + d % 256)).run
    ((requestDigest 0).run s)) E.TOP_REQ_REFUSED R.TOP_REFUSE (by decide)
  rw [rd_setR_same] at hr
  have hraised := raise_raised (e := E.TOP_REQ_REFUSED) (by decide)
    ((setR R.TOP_REFUSE (7 % 256 * 2 ^ 24 + 1 % 256 * 2 ^ 16 + c * 2 ^ 8 + d % 256)).run ((requestDigest 0).run s))
  have hdev := raise_dev ((setR R.TOP_REFUSE (7 % 256 * 2 ^ 24 + 1 % 256 * 2 ^ 16 + c * 2 ^ 8 + d % 256)).run
    ((requestDigest 0).run s)) E.TOP_REQ_REFUSED
  generalize (raise E.TOP_REQ_REFUSED).run _ = a at *
  exact ⟨hdev, hr, hraised⟩

/-- An ARM that fails a condition is refused with its code (R49, R437). -/
theorem arm_refuses (hd : s.dev = .ready) (hr : s.role = .solo) (ha : s.ageBusy = false) {c d : Nat}
    (h : s.armRefusal = some (c, d)) :
    ∃ t, exec .arm s = .next t ∧ t.dev = .ready ∧
      t.rd R.TOP_REFUSE = (7 * 2 ^ 24 + 1 * 2 ^ 16 + c * 2 ^ 8 + d % 256) % 2 ^ 32 ∧ t.raised E.TOP_REQ_REFUSED = true ∧
      accessFrame [R.TOP_REFUSE] [.bJob, .bPar] s t := by
  have hframe := accessFrame_run (a := refuseArm c d) (regs := [R.TOP_REFUSE]) (parts := [.bJob, .bPar]) s 7
    (within_seq (within_onPar (by simp)) (within_seq (within_refuse (accessFrame_allows s) (by simp)) (within_onJob (by simp))))
  have hsame := served_sameForArm hd 7
  have hdev : (s.served 7).dev = .ready := ((served_framed s 7).2.2 .dev (by simp [accessParts, hd, eventParts])).trans hd
  refine ⟨_, arm_run s hd hr ha, ?_⟩
  generalize s.served 7 = v at *
  obtain ⟨hd', hreg, hraised⟩ := refuseArm_effect v c d
  rw [soloRequest_refuses v hdev (hsame.role.trans hr) ((armRefusal_congr hr hsame).trans h)]
  exact ⟨hd'.trans hdev, hreg, hraised, hframe⟩

end

/-! ### The digest of a SOLO device (R164) -/

section
variable (ok : AllowsEvents rg ps)
include ok

theorem within_pairSend {kind word : Nat} {data : List Nat} (h1 : rg R.PAR_FIJ_CFG = true) (h2 : rg R.PAR_FIJ_DONE = true)
    (h3 : rg R.FIJ_DONE = true) (hp : .bPar ∈ ps) (ho : .out ∈ ps) : (pairSend kind word data).Within rg ps := by
  have hemit : ∀ o, (Act.emit o).Within rg ps := fun _ => within_emit ho
  have hpar : ∀ f, (onPar f).Within rg ps := fun _ => within_onPar hp
  refine within_dyn fun _ => within_on (within_each fun l => within_dyn fun _ => within_cons (within_ite within_nop (within_ite (hemit _)
    (within_ite (hemit _) (within_ite (hpar _) (within_cons (hemit _) (within_cons (within_each fun _ => hemit _)
      (within_cons (hpar _) within_nil))))))) (within_cons (within_on (hpar _)) (within_cons (within_on (hpar _)) (within_cons
        (within_on ?_) within_nil))))
  exact within_cons (within_setF h1) (within_cons (within_addR h2) (within_cons (within_addR h3)
    (within_cons (within_raise ok) within_nil)))

end

/-- What the end of a digest may change. -/
theorem within_digestDone : digestDone.Within
    (fun a => eventRegs a || [R.PAR_DIGEST_LO, R.PAR_DIGEST_HI, R.PAR_FIJ_CFG, R.PAR_FIJ_DONE].contains a) (eventParts ++ [.bPar]) := by
  refine within_dyn fun _ => ?_
  split
  · refine within_cons (within_onPar (by decide)) (within_cons (within_setR (by decide)) (within_cons (within_setR (by decide))
      (within_cons (within_pairSend eventFrame_allows (by decide) (by decide) (by decide) (by decide) (by decide))
        (within_cons (within_dyn fun _ => ?_) within_nil))))
    split
    · exact within_on (within_raise eventFrame_allows)
    · exact within_nop
  · exact within_nop

theorem within_compareDigests : compareDigests.Within (fun a => eventRegs a || [].contains a) (eventParts ++ []) := by
  refine within_dyn fun _ => ?_
  split
  · exact within_on (within_raise eventFrame_allows)
  · exact within_nop

/-- No digest is asked for once it has been computed. -/
theorem digestDone_digestReq (s : State) : (digestDone.run s).b.par.digestReq = none := by
  rw [digestDone, run_dyn]
  split
  · rename_i req _
    dsimp only
    generalize crcOf crc64 s.digestImage = d
    rw [run_acts_cons, run_acts_cons, run_acts_cons, run_acts_cons, run_acts_cons, run_acts_nil]
    rw [congrArg PairBlk.digestReq ((within_compareDigests _).2.2 .bPar (by decide)), (allows_pairSend _ _ _ _).rel.blocks.digest]
    rfl
  · assumption

end Sys2Proof.Machine
end

section
/-! SUPPORT. The entry to ARMED (R19, R164), and the statement on ARM. -/

namespace Sys2Proof.Machine

variable {s t u : State}

/-! ### The count of the frames (R164) -/

/-- A frame that is queued takes no part in the counts. -/
theorem queueFrame_counts (s : State) (f : TxFrame) : ((queueFrame f).run s).b.plk.counts = s.b.plk.counts := by
  have hdone : ∀ u : State, (plkFijDone.run u).b.plk = u.b.plk := fun u => by
    have h : plkFijDone.Within (fun a => eventRegs a || [R.PLK_FIJ_CFG, R.PLK_FIJ_DONE].contains a) (eventParts ++ []) :=
      within_cons (within_setF (by decide)) (within_cons (within_addR (by decide)) (within_cons (within_addR (by decide))
        (within_cons (within_raise eventFrame_allows) within_nil)))
    exact (h u).2.2 .bPlk (by decide)
  have hcount : ∀ (u : State) lane counted acting, ((plkFijCount lane counted acting).run u).b.plk.counts = u.b.plk.counts := by
    intro u lane counted acting
    rw [plkFijCount, run_dyn]
    dsimp only
    rw [run_acts_cons, run_acts_cons, run_acts_cons, run_acts_nil]
    have h3 : ∀ (c : Bool) (w : State), ((on c plkFijDone).run w).b.plk.counts = w.b.plk.counts := by
      intro c w
      cases c
      · rfl
      · rw [on_true, hdone]
    rw [h3]
    cases acting <;> cases counted <;> rfl
  rw [queueFrame, run_dyn]
  dsimp only
  rw [run_seq, hcount, run_ite]
  split <;> rfl

theorem stepCounts_of_zero (h : s.nextCount = 0) : stepCounts.run s =
    (onPlk fun p => { p with before := p.counts, counts := p.counts.map fun c => c + 1 }).run s := by
  rw [stepCounts, run_dyn, if_neg (by rw [h]; decide)]

theorem within_queueFrame (f : TxFrame) : (queueFrame f).Within
    (fun a => eventRegs a || [R.PLK_FIJ_CFG, R.PLK_FIJ_DONE].contains a) (eventParts ++ [.bPlk]) := by
  have hplk : ∀ f, (onPlk f).Within (fun a => eventRegs a || [R.PLK_FIJ_CFG, R.PLK_FIJ_DONE].contains a)
    (eventParts ++ [.bPlk]) := fun _ => within_onPlk (by decide)
  refine within_dyn fun _ => within_seq (within_ite (hplk _) (hplk _)) (within_dyn fun _ => within_cons (within_on (hplk _))
    (within_cons (within_on (hplk _)) (within_cons (within_on ?_) within_nil)))
  exact within_cons (within_setF (by decide)) (within_cons (within_addR (by decide)) (within_cons (within_addR (by decide))
    (within_cons (within_raise eventFrame_allows) within_nil)))

/-- With no count taken, the frames at the start of a job end no vintage. -/
theorem jobStartFrames_framed (h : s.nextCount = 0) (stripe : Nat) (rev : Bool) :
    framed (fun a => eventRegs a || [R.PLK_FIJ_CFG, R.PLK_FIJ_DONE].contains a) (eventParts ++ [.bPlk, .ledFrame]) s
      ((jobStartFrames stripe rev).run s) := by
  have hcounts : ∀ (l : List Nat) (f : Nat → TxFrame) (u : State),
      ((each l fun n => queueFrame (f n)).run u).b.plk.counts = u.b.plk.counts := by
    intro l f
    induction l with
    | nil => exact fun _ => rfl
    | cons n l ih => exact fun u => (ih _).trans (queueFrame_counts u _)
  rw [jobStartFrames, run_dyn]
  dsimp only
  rw [run_acts_cons, run_acts_cons, run_acts_cons, run_acts_nil]
  have hf : ∀ (f : Nat → TxFrame) (u : State), framed (fun a => eventRegs a || [R.PLK_FIJ_CFG, R.PLK_FIJ_DONE].contains a)
      (eventParts ++ [.bPlk, .ledFrame]) u ((each (List.range 64) fun n => queueFrame (f n)).run u) := fun f =>
    (within_each fun n => within_queueFrame (f n)).mono (fun _ h => h) (by decide)
  have h0 : framed (fun a => eventRegs a || [R.PLK_FIJ_CFG, R.PLK_FIJ_DONE].contains a) (eventParts ++ [.bPlk, .ledFrame]) s
      ((bookIn .frame 64).run s) := within_bookIn (by decide) s
  have hb : ((bookIn .frame 64).run s).b.plk.counts = s.b.plk.counts := rfl
  generalize (bookIn .frame 64).run s = a at *
  rw [stepCounts_of_zero (by rw [State.nextCount, hcounts, hb]; exact h)]
  exact framed_trans h0 (framed_trans (hf _ a) (within_onPlk (by decide) _))

/-! ### A new job (R19, R164, R437) -/

/-- A job with no stop asked of it, and no ARM. -/
def JobBlk.begun (j : JobBlk) : JobBlk :=
  { j with stopEnd := false, stopAfter := none, pendSafe := false, turnWait := false, disarming := false, armReq := none }

/-- The move to a job's first stripe. -/
def firstMove (e : JobEntry) : Act :=
  acts [onMot fun m => { m with cur := none, ownSpeed := [], mateSpeed := [] },
    .dyn fun s => moveTo (s.startPoint e.rev e.y0) ((e.x : Rat) / 65536) .move e.stripe]

/-- The job's own state as it starts, and the move to its first stripe. -/
def startMove (e : JobEntry) : Act := .seq (onJob JobBlk.begun) (firstMove e)

/-- A new job: a shot path with nothing on it, the next vintage, its first frames, and its first move. -/
def beginJob (e : JobEntry) : Act := acts [freshPath, newVintage, jobStartFrames e.stripe e.rev, startMove e]

theorem within_freshPath : freshPath.Within (fun _ => false) [.bPress, .bCask, .bSht] :=
  within_cons (within_onPress (by decide)) (within_cons (within_onCask (by decide)) (within_cons (within_onSht (by decide)) within_nil))

theorem within_newVintage : newVintage.Within [R.PLK_VINTAGE].contains [.bPlk] :=
  within_dyn fun _ => within_cons (within_setF (by decide)) (within_cons (within_setF (by decide))
    (within_cons (within_onPlk (by decide)) within_nil))

theorem within_firstMove (e : JobEntry) : (firstMove e).Within (fun _ => false) [.bMot] :=
  within_cons (within_onMot (by decide)) (within_cons (within_dyn fun _ => within_dyn fun _ => within_onMot (by decide)) within_nil)

theorem within_startMove (e : JobEntry) : (startMove e).Within (fun _ => false) [.bJob, .bMot] :=
  within_seq (within_onJob (by decide)) ((within_firstMove e).mono (by simp) (by decide))

theorem startMove_job (s : State) (e : JobEntry) : ((startMove e).run s).b.job = s.b.job.begun := by
  rw [startMove, run_seq, (within_firstMove e _).2.2 .bJob (by decide), run_onJob]

/-- No count of a vintage is taken. -/
def noCounts : Act := onPlk fun p => { p with counts := p.counts.map fun _ => 0, before := [] }

theorem newVintage_run (s : State) {v w : Nat} (hv : s.fld F.PLK_VINTAGE_NEXT = v) (hw : (v + 1) % 65536 = w) :
    newVintage.run s = noCounts.run ((setF F.PLK_VINTAGE_NEXT w).run ((setF F.PLK_VINTAGE_CURRENT v).run s)) := by
  rw [newVintage, run_dyn]
  dsimp only
  rw [hv, hw, run_acts_cons, run_acts_cons, run_acts_cons, run_acts_nil, noCounts]

theorem noCounts_effect (s : State) :
    (noCounts.run s).fld F.PLK_VINTAGE_CURRENT = s.fld F.PLK_VINTAGE_CURRENT ∧ (noCounts.run s).nextCount = 0 := by
  refine ⟨rfl, ?_⟩
  rw [noCounts, run_onPlk, State.nextCount]
  cases s.b.plk.counts <;> rfl

theorem vintage_setF (s : State) {v : Nat} (hv : v < 2 ^ F.PLK_VINTAGE_CURRENT.width) (w : Nat) :
    ((setF F.PLK_VINTAGE_NEXT w).run ((setF F.PLK_VINTAGE_CURRENT v).run s)).fld F.PLK_VINTAGE_CURRENT = v := by
  rw [fld_setF_bits _ F.PLK_VINTAGE_NEXT F.PLK_VINTAGE_CURRENT _ rfl (by decide) (by decide),
    fld_setF_same _ F.PLK_VINTAGE_CURRENT _ (by decide), Nat.mod_eq_of_lt hv]

/-- The next vintage becomes the current one, and no count of it is taken (R164). -/
theorem newVintage_effect (s : State) :
    (newVintage.run s).fld F.PLK_VINTAGE_CURRENT = s.fld F.PLK_VINTAGE_NEXT ∧ (newVintage.run s).nextCount = 0 := by
  have hlt : s.fld F.PLK_VINTAGE_NEXT < 2 ^ F.PLK_VINTAGE_CURRENT.width := Nat.mod_lt _ (by decide)
  obtain ⟨hv, hn⟩ := noCounts_effect ((setF F.PLK_VINTAGE_NEXT ((s.fld F.PLK_VINTAGE_NEXT + 1) % 65536)).run
    ((setF F.PLK_VINTAGE_CURRENT (s.fld F.PLK_VINTAGE_NEXT)).run s))
  rw [newVintage_run s rfl rfl]
  exact ⟨hv.trans (vintage_setF s hlt _), hn⟩

/-- What a new job changes. -/
structure State.JobBegins (s t : State) : Prop where
  frame : framed (fun a => eventRegs a || [R.PLK_VINTAGE, R.PLK_FIJ_CFG, R.PLK_FIJ_DONE].contains a)
    (eventParts ++ [.bPress, .bCask, .bSht, .bPlk, .ledFrame, .bJob, .bMot]) s t
  vintage : t.fld F.PLK_VINTAGE_CURRENT = s.fld F.PLK_VINTAGE_NEXT
  queue : t.b.job.queue = s.b.job.queue
  stopEnd : t.b.job.stopEnd = false
  armReq : t.b.job.armReq = none
  serve : t.b.cask.serve = s.b.cask.serve
  raised : s.keepsRaised t

theorem beginJob_begins (s : State) (e : JobEntry) : s.JobBegins ((beginJob e).run s) := by
  rw [beginJob, run_acts_cons, run_acts_cons, run_acts_cons, run_acts_cons, run_acts_nil]
  have h1 := within_freshPath s
  have hserve : (freshPath.run s).b.cask.serve = s.b.cask.serve := rfl
  generalize freshPath.run s = a at *
  have h2 := within_newVintage a
  obtain ⟨hv, hn⟩ := newVintage_effect a
  generalize newVintage.run a = b at *
  have h3 := jobStartFrames_framed hn e.stripe e.rev
  have hraised := (allows_jobStartFrames b e.stripe e.rev).rel.raised
  generalize (jobStartFrames e.stripe e.rev).run b = c at *
  have h4 := within_startMove e c
  have hjob := startMove_job c e
  generalize (startMove e).run c = d at *
  have hcask : d.b.cask = a.b.cask := (h4.2.2 .bCask (by decide)).trans ((h3.2.2 .bCask (by decide)).trans (h2.2.2 .bCask (by decide)))
  have hcjob : c.b.job = s.b.job := (h3.2.2 .bJob (by decide)).trans ((h2.2.2 .bJob (by decide)).trans (h1.2.2 .bJob (by decide)))
  refine ⟨?_, ?_, by rw [hjob, hcjob]; rfl, by rw [hjob]; rfl, by rw [hjob]; rfl, by rw [hcask, hserve], fun e he hs => ?_⟩
  · refine framed_trans (framed_mono (by simp) (by decide) h1) (framed_trans (framed_mono (fun x hx => ?_) (by decide) h2)
      (framed_trans (framed_mono (fun x hx => ?_) (by decide) h3) (framed_mono (by simp) (by decide) h4)))
    · simp only [List.contains_eq_mem, List.mem_singleton, decide_eq_true_eq] at hx
      simp [hx]
    · simp only [Bool.or_eq_true, List.contains_eq_mem, decide_eq_true_eq] at hx ⊢
      exact hx.imp_right fun h => List.mem_cons_of_mem _ h
  · rw [framed_fld h4 _ rfl, framed_fld h3 _ (by decide), hv, framed_fld h1 _ rfl]
  · have he1 : a.evt = s.evt := h1.2.2 .evt (by decide)
    have he2 : b.evt = a.evt := h2.2.2 .evt (by decide)
    have he4 : d.evt = c.evt := h4.2.2 .evt (by decide)
    rw [raised_congr (s := c) d (by rw [he4])]
    exact hraised e he (by rw [raised_congr (s := s) b (by rw [he2, he1])]; exact hs)

/-! ### The entry to ARMED -/

/-- The slices of the pages that a job needs are asked for (R319). -/
def jobSlices : List Nat := [92, 93, 94, 97, 98, 99, 100, 101, 102, 103]

theorem within_jobSlices : (each jobSlices bistRequest).Within accessRegs (.bBst :: eventParts) := by
  have hk : ∀ k ∈ jobSlices, k - 84 < 20 ∧ 84 + (k - 84) = k := by decide
  refine within_eachMem fun k h => ?_
  obtain ⟨hlt, hadd⟩ := hk k h
  rw [← hadd]
  exact within_bistRequest hlt

/-- What leaves the lane that a self-test covers as it was. -/
def coverScope : Scope where
  regs _ := true
  parts := []
  blocks b c := c.bst.cover = b.bst.cover
  refl _ := rfl
  trans h k := k.trans h
  net _ _ := rfl

/-- A request of a slice lies within every scope that allows it the registers and the self-test. -/
theorem allows_bistRequest {A : Scope} (hreg : ∀ a, (eventRegs a || A.regs a) = true)
    (hbst : ∀ (b : Blocks) (x : BstBlk), x.cover = b.bst.cover → A.blocks b { b with bst := x }) (s : State) (k : Nat) :
    A.Allows (bistRequest k) s := by
  have hcount : ∀ u : State, A.Allows (sliceCounted k) u := fun u => by
    simp only [sliceCounted, allows_dyn, allows_cons, allows_on, allows_onBst, allows_setF, allows_addR, allows_raise, allows_nil,
      hreg, implies_true, and_true]
    exact hbst u.b _ rfl
  rw [bistRequest, allows_dyn, allows_seq, allows_onBst]
  refine ⟨hbst s.b _ rfl, fun u => ?_⟩
  split
  · simp only [allows_ite, allows_cons, allows_on, allows_onBst, allows_setF, allows_addR, allows_raise, allows_nil, allows_nop,
      hreg, hcount, implies_true, and_true, true_and]
    exact fun _ _ _ _ t => hbst t.b _ rfl
  · trivial

/-- The requests of a job leave the lane that a self-test covers as it was. -/
theorem jobSlices_cover (s : State) : ((each jobSlices bistRequest).run s).b.bst.cover = s.b.bst.cover :=
  (allows_each coverScope s fun k _ t =>
    allows_bistRequest (fun _ => Bool.or_true _) (fun _ _ h => h) t k).rel.blocks

theorem within_clearJobCounts : clearJobCounts.Within [R.LAT_SHORT_CNT, R.LAT_SHORT_LOST, R.PRS_CNT_SAFFRON, R.PRS_CNT_POISON,
    R.PRS_CNT_DECODE, R.PRS_CNT_RETRY_OK, R.PRS_CNT_LOST, R.PRS_ERR_LOST, R.JOB_DONE_CNT].contains [.ledDose] := by
  have set : ∀ a, [R.LAT_SHORT_CNT, R.LAT_SHORT_LOST, R.PRS_CNT_SAFFRON, R.PRS_CNT_POISON, R.PRS_CNT_DECODE, R.PRS_CNT_RETRY_OK,
      R.PRS_CNT_LOST, R.PRS_ERR_LOST, R.JOB_DONE_CNT].contains a = true → (setR a 0).Within [R.LAT_SHORT_CNT, R.LAT_SHORT_LOST,
      R.PRS_CNT_SAFFRON, R.PRS_CNT_POISON, R.PRS_CNT_DECODE, R.PRS_CNT_RETRY_OK, R.PRS_CNT_LOST, R.PRS_ERR_LOST,
      R.JOB_DONE_CNT].contains [.ledDose] := fun _ h => within_setR h
  exact within_cons (set _ (by decide)) (within_cons (set _ (by decide)) (within_cons (set _ (by decide)) (within_cons (set _ (by decide))
    (within_cons (set _ (by decide)) (within_cons (set _ (by decide)) (within_cons (set _ (by decide)) (within_cons (set _ (by decide))
      (within_cons (set _ (by decide)) (within_cons (within_book (by decide)) within_nil)))))))))

/-- The counts of a job and its DOSE account begin anew (R437). -/
theorem clearJobCounts_effect (s : State) : (clearJobCounts.run s).led.dose = {} ∧
    (clearJobCounts.run s).rd R.LAT_SHORT_CNT = 0 ∧ (clearJobCounts.run s).rd R.JOB_DONE_CNT = 0 := by
  rw [clearJobCounts]
  repeat rw [run_acts_cons]
  rw [run_acts_nil]
  have hbook : ∀ (u : State) a, ((Act.book .dose .clear).run u).rd a = u.rd a := fun _ _ => rfl
  refine ⟨rfl, ?_, ?_⟩
  · rw [hbook]
    repeat rw [rd_setR_ne _ _ _ _ (by decide)]
    exact rd_setR_same _ _ _
  · rw [hbook]
    exact rd_setR_same _ _ _

/-- The state that an ARM which meets its conditions leads to, before the taps and the steering are looked at. -/
def State.begun (s : State) (e : JobEntry) : State :=
  (beginJob e).run (clearJobCounts.run ((enter .armed).run ((each jobSlices bistRequest).run s)))

/-- The registers that an entry to ARMED may change. -/
def armingRegs (a : Nat) : Bool := accessRegs a || [R.TOP_TRANS_CNT, R.LAT_SHORT_CNT, R.LAT_SHORT_LOST, R.PRS_CNT_SAFFRON,
  R.PRS_CNT_POISON, R.PRS_CNT_DECODE, R.PRS_CNT_RETRY_OK, R.PRS_CNT_LOST, R.PRS_ERR_LOST, R.JOB_DONE_CNT, R.PLK_VINTAGE,
  R.PLK_FIJ_CFG, R.PLK_FIJ_DONE].contains a

/-- What an ARM that meets its conditions does (R19, R164, R437). -/
structure State.Arms (s t : State) : Prop where
  frame : framed armingRegs (.bBst :: eventParts ++ [.dev, .prevDev, .ledDose, .bPress, .bCask, .bSht, .bPlk, .ledFrame,
    .bJob, .bMot]) s t
  dev : t.dev = .armed
  prevDev : t.prevDev = .ready
  dose : t.led.dose = {}
  short : t.rd R.LAT_SHORT_CNT = 0
  done : t.rd R.JOB_DONE_CNT = 0
  vintage : t.fld F.PLK_VINTAGE_CURRENT = s.fld F.PLK_VINTAGE_NEXT
  queue : t.b.job.queue = s.b.job.queue
  stopEnd : t.b.job.stopEnd = false
  armReq : t.b.job.armReq = none
  raised : t.raised E.TOP_STATE_CHANGE = true
  serve : t.b.cask.serve = s.b.cask.serve
  cover : t.b.bst.cover = s.b.bst.cover

theorem enterArmed_framed (s : State) : framed (fun a => eventRegs a || [R.TOP_TRANS_CNT].contains a)
    (eventParts ++ [.dev, .prevDev]) s ((enter .armed).run s) :=
  within_enter eventFrame_allows (by decide) (by decide) (by decide) s

theorem begun_arms (hd : s.dev = .ready) (e : JobEntry) : s.Arms (s.begun e) := by
  rw [State.begun]
  have h1 := within_jobSlices s
  have hc1 := jobSlices_cover s
  generalize (each jobSlices bistRequest).run s = a at *
  have had : a.dev = .ready := (h1.2.2 .dev (by decide)).trans hd
  have h2 := enterArmed_framed a
  have hb : ((enter .armed).run a).dev = .armed ∧ ((enter .armed).run a).prevDev = .ready ∧
      ((enter .armed).run a).raised E.TOP_STATE_CHANGE = true := by
    rw [enter_run _ (by simp [had, DevState.edge])]
    exact ⟨raise_dev _ _, (raise_prevDev _ _).trans had, raise_raised (by decide) _⟩
  obtain ⟨hdev, hprev, hraised⟩ := hb
  generalize (enter .armed).run a = b at *
  have h3 := within_clearJobCounts b
  obtain ⟨hdose, hshort, hdone⟩ := clearJobCounts_effect b
  generalize clearJobCounts.run b = c at *
  have h4 := beginJob_begins c e
  generalize (beginJob e).run c = t at *
  have hevt : c.evt = b.evt := h3.2.2 .evt (by decide)
  have hbst : t.b.bst = a.b.bst :=
    (h4.frame.2.2 .bBst (by decide)).trans ((h3.2.2 .bBst (by decide)).trans (h2.2.2 .bBst (by decide)))
  have hcask : c.b.cask = s.b.cask :=
    (h3.2.2 .bCask (by decide)).trans ((h2.2.2 .bCask (by decide)).trans (h1.2.2 .bCask (by decide)))
  have hjob : c.b.job = s.b.job :=
    (h3.2.2 .bJob (by decide)).trans ((h2.2.2 .bJob (by decide)).trans (h1.2.2 .bJob (by decide)))
  exact {
    frame := by
      refine framed_trans (framed_mono (fun x hx => ?_) (by decide) h1) (framed_trans (framed_mono (fun x hx => ?_) (by decide) h2)
        (framed_trans (framed_mono (fun x hx => ?_) (by decide) h3) (framed_mono (fun x hx => ?_) (by decide) h4.frame)))
      · simp [armingRegs, hx]
      · simp only [Bool.or_eq_true, List.contains_eq_mem, decide_eq_true_eq, List.mem_singleton] at hx
        rcases hx with hx | rfl
        · simp [armingRegs, accessRegs, hx]
        · decide
      · simp only [List.contains_eq_mem, decide_eq_true_eq] at hx
        revert x
        decide
      · simp only [Bool.or_eq_true, List.contains_eq_mem, decide_eq_true_eq] at hx
        rcases hx with hx | hx
        · simp [armingRegs, accessRegs, hx]
        · revert x
          decide
    dev := (h4.frame.2.2 .dev (by decide)).trans ((h3.2.2 .dev (by decide)).trans hdev)
    prevDev := (h4.frame.2.2 .prevDev (by decide)).trans ((h3.2.2 .prevDev (by decide)).trans hprev)
    dose := (h4.frame.2.2 .ledDose (by decide)).trans hdose
    short := (h4.frame.2.1 _ (by decide)).trans hshort
    done := (h4.frame.2.1 _ (by decide)).trans hdone
    vintage := by rw [h4.vintage, framed_fld h3 _ (by decide), framed_fld h2 _ (by decide), framed_fld h1 _ (by decide)]
    queue := by rw [h4.queue, hjob]
    stopEnd := h4.stopEnd
    armReq := h4.armReq
    raised := h4.raised _ (by decide) (by rw [raised_congr (s := b) c (by rw [hevt])]; exact hraised)
    serve := by rw [h4.serve, hcask]
    cover := by rw [hbst, hc1] }

/-! ### Taps and steering -/

/-- Whether a lane has no tap that works depends on the taps, the steering and the lane under self-test only. -/
theorem deadLane_congr (ht : ∀ i, t.rd (R.TP_STAT i) = s.rd (R.TP_STAT i)) (hc : ∀ i, t.rd (R.CSK_STEER i) = s.rd (R.CSK_STEER i))
    (hserve : t.b.cask.serve = s.b.cask.serve) (hcover : t.b.bst.cover = s.b.bst.cover) : t.deadLane = s.deadLane := by
  have hret : ∀ i, t.tapRetired i = s.tapRetired i := fun i => by simp only [State.tapRetired, State.fld, ht]
  have hen : ∀ i, t.flag (F.CSK_STEER_EN i) = s.flag (F.CSK_STEER_EN i) := fun i => by simp only [State.flag, State.fld, hc]
  have hlane : ∀ i, t.fld (F.CSK_STEER_LANE i) = s.fld (F.CSK_STEER_LANE i) := fun i => by simp only [State.fld, hc]
  have htap : ∀ n, t.tapOf n = s.tapOf n := fun n => by
    simp only [State.tapOf, State.steeredTap, State.spareOf, hserve, hcover]
  simp only [State.deadLane, htap, hret, hen, hlane]

theorem arms_deadLane (h : s.Arms t) : t.deadLane = s.deadLane := by
  have taps : ∀ j < 68, armingRegs (0x40100 + j * 0x1000) = false := by decide
  have spares : ∀ j < 4, armingRegs (0x30120 + j * 0x4) = false := by decide
  exact deadLane_congr (fun i => h.frame.2.1 _ (taps (i % 68) (Nat.mod_lt _ (by decide))))
    (fun i => h.frame.2.1 _ (spares (i % 4) (Nat.mod_lt _ (by decide)))) h.serve h.cover

/-- The faults of an entry to ARMED: taps that do not fit, and a lane without a tap that works. -/
def armFaults : Act :=
  acts [.dyn fun s => on (s.fld F.CSK_FIT_CODE != 0) (.seq (err R.CSK_FIT Err.fit) (faultEntry 8 0x30 0)),
    .dyn fun s => match s.deadLane with | some n => faultEntry 9 0x30 n | none => .nop]

theorem armFaults_none (h1 : s.fld F.CSK_FIT_CODE = 0) (h2 : s.deadLane = none) : armFaults.run s = s := by
  have hfit : (s.fld F.CSK_FIT_CODE != 0) = false := by rw [h1]; rfl
  rw [armFaults, run_acts_cons, run_acts_cons, run_acts_nil, run_dyn (s := s), hfit, on_false, run_nop, run_dyn, h2, run_nop]

theorem enterArmed_run (s : State) (e : JobEntry) : (enterArmed e).run s = armFaults.run (s.begun e) := by
  have hjob : JobBlk.begun = fun j => { j with
      stopEnd := false, stopAfter := none, pendSafe := false, turnWait := false, disarming := false, armReq := none } := rfl
  rw [enterArmed, armFaults, State.begun, beginJob, startMove, firstMove, jobSlices, hjob]
  repeat rw [run_acts_cons]
  rw [run_acts_nil, run_acts_nil, run_acts_nil, run_seq]
  repeat rw [run_acts_cons]
  rw [run_acts_nil] <;> rfl

/-! ### The end of the digest (R164) -/

/-- An ARM that meets its conditions has a stripe to write (R437). -/
theorem queue_ne_nil_of_armRefusal (h : s.armRefusal = none) : s.b.job.queue ≠ [] := by
  intro hq
  simp only [State.armRefusal, hq, List.isEmpty_nil, if_true] at h
  split_ifs at h

theorem armNow_enters (hd : s.dev = .ready) (h : s.armRefusal = none) : ∃ e, armNow.run s = (enterArmed e).run s := by
  have hne : (DevState.ready != DevState.ready) = false := rfl
  obtain ⟨e, es, hq⟩ := List.exists_cons_of_ne_nil (queue_ne_nil_of_armRefusal h)
  refine ⟨e, ?_⟩
  rw [armNow, run_dyn, hd, hne]
  simp only [Bool.false_eq_true, if_false, h, hq]

/-- The end of a SOLO device's digest enters ARMED where ARM meets its conditions (R19, R164, R437). -/
theorem digestDone_arms (hd : s.dev = .ready) (hr : s.role = .solo) (ha : s.b.job.armReq = some 0)
    (hq : s.b.par.digestReq.isSome = true) (h : s.armRefusal = none) (hfit : s.fld F.CSK_FIT_CODE = 0) (hdead : s.deadLane = none) :
    ∃ t, exec .digestDone s = .next t ∧ t.dev = .armed ∧ t.prevDev = .ready ∧ t.led.dose = {} ∧ t.rd R.LAT_SHORT_CNT = 0 ∧
      t.rd R.JOB_DONE_CNT = 0 ∧ t.fld F.PLK_VINTAGE_CURRENT = s.fld F.PLK_VINTAGE_NEXT ∧ t.b.job.queue = s.b.job.queue ∧
      t.b.job.stopEnd = false ∧ t.b.job.armReq = none ∧ t.raised E.TOP_STATE_CHANGE = true ∧ t.mem = s.mem := by
  have hrun : exec .digestDone s = .next (soloArm.run (digestDone.run { s with out := [] })) := by
    have hq' : ({ s with out := [] } : State).b.par.digestReq.isSome = true := hq
    show execDigestDone s = _
    rw [execDigestDone, perform_eq, run_dyn, hq', on_true, run_seq]
  have hf := framed_clear s (by decide) (within_digestDone { s with out := [] })
  have hreq := digestDone_digestReq { s with out := [] }
  refine ⟨_, hrun, ?_⟩
  generalize digestDone.run { s with out := [] } = u at *
  have hsame : s.SameForArm u := sameForArm_of_framed hf (by decide) (by decide)
  have hjob : u.b.job = s.b.job := hf.2.2 .bJob (by decide)
  have hcask : u.b.cask = s.b.cask := hf.2.2 .bCask (by decide)
  have hbst : u.b.bst = s.b.bst := hf.2.2 .bBst (by decide)
  have hud : u.dev = .ready := (hf.2.2 .dev (by decide)).trans hd
  obtain ⟨e, henter⟩ := armNow_enters hud ((armRefusal_congr hr hsame).trans h)
  have harms := begun_arms hud e
  have hsolo : soloArm.run u = (enterArmed e).run u := by
    rw [soloArm, run_dyn, passes_of_role (hsame.role.trans hr), hjob, ha, hreq]
    exact henter
  have hdead' : u.deadLane = none := by
    rw [← hdead]
    have taps : ∀ j < 68, (fun a => eventRegs a || [R.PAR_DIGEST_LO, R.PAR_DIGEST_HI, R.PAR_FIJ_CFG, R.PAR_FIJ_DONE].contains a)
      (0x40100 + j * 0x1000) = false := by decide
    have spares : ∀ j < 4, (fun a => eventRegs a || [R.PAR_DIGEST_LO, R.PAR_DIGEST_HI, R.PAR_FIJ_CFG, R.PAR_FIJ_DONE].contains a)
      (0x30120 + j * 0x4) = false := by decide
    exact deadLane_congr (fun i => hf.2.1 _ (taps (i % 68) (Nat.mod_lt _ (by decide))))
      (fun i => hf.2.1 _ (spares (i % 4) (Nat.mod_lt _ (by decide)))) (by rw [hcask]) (by rw [hbst])
  have hchecks : armFaults.run (u.begun e) = u.begun e := armFaults_none
    (by rw [framed_fld harms.frame _ (by decide), framed_fld hf _ (by decide)]; exact hfit) ((arms_deadLane harms).trans hdead')
  rw [hsolo, enterArmed_run, hchecks]
  generalize u.begun e = t at *
  exact ⟨harms.dev, harms.prevDev, harms.dose, harms.short, harms.done, by rw [harms.vintage, framed_fld hf _ (by decide)],
    by rw [harms.queue, hjob], harms.stopEnd, harms.armReq, harms.raised,
    (harms.frame.2.2 .mem (by decide)).trans (hf.2.2 .mem (by decide))⟩

/-- Settles O16: a SOLO device's ARM waits for the digest or is refused, and the end of the digest enters ARMED. -/
theorem armOfASoloDeviceEntersArmedOrNamesTheFirstFailedCondition :
    Obligations.ArmOfASoloDeviceEntersArmedOrNamesTheFirstFailedCondition := fun s hd hr =>
  ⟨fun ha h => arm_waits s hd hr ha h, digestDone_arms hd hr, fun _ _ ha h => arm_refuses s hd hr ha h⟩

end Sys2Proof.Machine
end

section
/-! SUPPORT. Timed frames at their launch (R314 to R316). -/

namespace Sys2Proof.Machine

variable {s t u : State} {f : LtqFrame} {q : Fin 16}

/-! ### A frame's time -/

theorem advance_ltq (s : State) (k : Nat) : ((advance k).run s).b.tim.ltq = s.b.tim.ltq := by
  rw [advance, run_dyn]
  dsimp only
  rw [run_acts_cons, run_acts_cons, run_acts_cons, run_acts_nil]
  cases s.dev == .writing <;> rfl

theorem advanceToTim_ltq (s : State) (ns : Nat) : ((advanceToTim ns).run s).b.tim.ltq = s.b.tim.ltq := by
  rw [advanceToTim, run_dyn]
  dsimp only
  generalize (decide (s.b.tim.sec * secondNs + s.b.tim.ns < ns * 2 ^ 32) && s.timInc != 0) = c
  cases c with
  | true => rw [on_true, advance_ltq]
  | false => rfl

theorem within_advanceToTim (ns : Nat) : (advanceToTim ns).Within (fun _ => false) [.bTim, .bAge, .bPos] :=
  within_dyn fun _ => within_on (within_advance (by decide) (by decide) (by decide) _)

/-- A moment that has passed needs no time. -/
theorem advanceToTim_of_past {ns : Nat} (h : ns * 2 ^ 32 ≤ s.b.tim.sec * secondNs + s.b.tim.ns) :
    (advanceToTim ns).run s = s := by
  have hd : decide (s.b.tim.sec * secondNs + s.b.tim.ns < ns * 2 ^ 32) = false := by simpa using h
  rw [advanceToTim, run_dyn]
  dsimp only
  rw [hd, Bool.false_and, on_false, run_nop]

theorem past_of_timNs {ns : Nat} (h : ns ≤ s.timNs) : ns * 2 ^ 32 ≤ s.b.tim.sec * secondNs + s.b.tim.ns := by
  unfold State.timNs at h
  unfold secondNs
  omega

theorem past_of_timUnits {ns tol : Nat} (h : (((ns + tol) * 2 ^ 32 : Nat) : Int) < s.timUnits) :
    ns * 2 ^ 32 ≤ s.b.tim.sec * secondNs + s.b.tim.ns := by
  unfold State.timUnits at h
  have := Int.ofNat_lt.mp h
  omega

/-! ### A launch -/

/-- What becomes of a frame at its time. -/
def launchFrame (f : LtqFrame) (ue : Bool) : Act := .dyn fun t =>
  if ue then acts [sramError 6 f.queue true, addR (R.LTQ_Q_LATE f.queue) 1, on (f.entry.isNone) setpointLate]
  else if ((f.at' + t.fld (F.LTQ_Q_CFG_TOL f.queue)) * 2 ^ 32 : Nat) < t.timUnits then lateFrame f
  else .seq (onNet fun n => { n with lateRun := n.lateRun.filter fun x => x != f.queue }) (sendFrame f false)

theorem ltqLaunch_run (hn : s.nextFrame = some f) (hq : f.queue = q.val) (hp : s.pageWorks 0xC3 = true) (ue : Bool) :
    exec (.ltqLaunch q ue) s =
      .next ((launchFrame f ue).run ((dropFrame f).run ((advanceToTim f.at').run { s with out := [] }))) := by
  have hn' : ({ s with out := [] } : State).nextFrame = some f := hn
  have hp' : ({ s with out := [] } : State).pageWorks 0xC3 = true := hp
  show execLtqLaunch q ue s = _
  rw [execLtqLaunch, perform_eq, run_dyn, hn', hp']
  simp only [hq, beq_self_eq_true, Bool.and_true, on_true]
  rw [run_acts_cons, run_acts_cons, run_acts_cons, run_acts_nil]
  simp only [launchFrame, hq]

/-- What a launch finds: its frame is off the queue, and time has come to it. -/
theorem launched_framed (s : State) (f : LtqFrame) : framed (fun _ => false) [.out, .bTim, .bAge, .bPos] s
    ((dropFrame f).run ((advanceToTim f.at').run { s with out := [] })) ∧
    ((dropFrame f).run ((advanceToTim f.at').run { s with out := [] })).b.tim.ltq = s.b.tim.ltq.erase f := by
  have h := within_advanceToTim f.at' { s with out := [] }
  have hl := advanceToTim_ltq { s with out := [] } f.at'
  generalize (advanceToTim f.at').run { s with out := [] } = a at *
  refine ⟨framed_clear s (by decide) (framed_trans (framed_mono (by simp) (by decide) h) (within_onTim (by decide) _)), ?_⟩
  exact congrArg (fun l => List.erase l f) hl

theorem within_setpointLate : setpointLate.Within (fun a => eventRegs a || [R.MOT_SP_LATE].contains a) (eventParts ++ [.bMot]) :=
  within_dyn fun _ => within_seq (within_addR (by decide)) (within_on (within_seq (within_onMot (by decide))
    (within_raise eventFrame_allows)))

/-- A counter of a queue is no register that an event or a late setpoint touches. -/
theorem lateReg_other (q : Fin 16) : (eventRegs (R.LTQ_Q_LATE q) || [R.MOT_SP_LATE].contains (R.LTQ_Q_LATE q)) = false := by
  revert q
  decide

theorem lateReg_noError (q : Fin 16) :
    (eventRegs (R.LTQ_Q_LATE q) || [R.MEM_SRAM_UE_CNT, R.MEM_SRAM_LOC].contains (R.LTQ_Q_LATE q)) = false := by
  revert q
  decide

/-- A frame lost to its memory is counted as late (R315). -/
theorem launchFrame_lost (u : State) (hq : f.queue = q.val) :
    ((launchFrame f true).run u).raised E.MEM_SRAM_UE = true ∧
      ((launchFrame f true).run u).rd (R.LTQ_Q_LATE q) = (u.rd (R.LTQ_Q_LATE q) + 1) % 2 ^ 32 ∧
      ((launchFrame f true).run u).b.tim = u.b.tim := by
  rw [launchFrame, run_dyn, if_pos rfl, hq, run_acts_cons, run_acts_cons, run_acts_cons, run_acts_nil]
  have hs : (sramError 6 q.val true).Within (fun a => eventRegs a || [R.MEM_SRAM_UE_CNT, R.MEM_SRAM_LOC].contains a)
      (eventParts ++ []) := within_cons (within_addR (by decide)) (within_cons (within_setR (by decide)) (within_cons
        (within_raise eventFrame_allows) within_nil))
  have h1 := hs u
  have hraised : ((sramError 6 q.val true).run u).raised E.MEM_SRAM_UE = true := raise_raised (by decide) _
  generalize (sramError 6 q.val true).run u = a at *
  have h3 : (on f.entry.isNone setpointLate).Within (fun a => eventRegs a || [R.MOT_SP_LATE].contains a) (eventParts ++ [.bMot]) :=
    within_on within_setpointLate
  have hkeep : (on f.entry.isNone setpointLate).Keeps E.MEM_SRAM_UE := keeps_on (keeps_dyn fun _ => keeps_seq keeps_addR
    (keeps_on (keeps_seq keeps_blk (keeps_raise (by decide)))))
  refine ⟨hkeep _ hraised, ?_, ((h3 _).2.2 .bTim (by decide)).trans (h1.2.2 .bTim (by decide))⟩
  rw [(h3 _).2.1 _ (lateReg_other q), rd_addR_same, h1.2.1 _ (lateReg_noError q)]

theorem ltqPorts_port (s : State) (q : Nat) : ∀ p ∈ s.ltqPorts q, p = 0 ∨ p = 1 := by
  intro p hp
  unfold State.ltqPorts at hp
  split at hp <;> simp at hp <;> omega

/-- A frame that is sent touches what messages touch, until it is counted. -/
theorem within_frameOut {dest : List Partner} {type flags : Nat} {payload : List Nat} {q : Nat} :
    (each dest fun p => .dyn fun t => netSend (t.ltqPorts q) p.id (t.session p.id) type flags 0 payload).Within eventRegs eventParts :=
  within_each fun _ => within_dyn fun t => within_netSend eventAllows (ltqPorts_port t q)

/-- The registers in which the sending of a queue's frame is noted. -/
def sendRegs (q : Nat) : List Nat := [R.LTQ_Q_SENT q, R.LTQ_ERR_MAX, R.MOT_SP_SEQ, R.LTQ_NODEST]

theorem within_sendFrame (f : LtqFrame) (late : Bool) :
    (sendFrame f late).Within (fun a => eventRegs a || (sendRegs f.queue).contains a) (eventParts ++ []) := by
  have ok : AllowsEvents (fun a => eventRegs a || (sendRegs f.queue).contains a) (eventParts ++ []) := eventFrame_allows
  exact within_dyn fun _ => within_ite
    (within_cons (within_addR (by simp [sendRegs])) (within_cons (within_on (within_seq (within_onNet (by decide)) (within_raise ok)))
      within_nil))
    (within_cons (within_frameOut.mono (fun _ h => by simp [h]) (by simp)) (within_cons (within_addR (by simp [sendRegs])) (within_cons
      (within_setR (by simp [sendRegs])) (within_cons (within_on (within_setR (by simp [sendRegs]))) within_nil))))

theorem sentReg_own (q : Fin 16) :
    eventRegs (R.LTQ_Q_SENT q) = false ∧ R.LTQ_ERR_MAX ≠ R.LTQ_Q_SENT q ∧ R.MOT_SP_SEQ ≠ R.LTQ_Q_SENT q := by
  revert q
  decide

/-- A frame with a destination is counted as sent, a setpoint with its sequence number (R314, R255). -/
theorem sendFrame_sent (u : State) (hq : f.queue = q.val) (h : u.frameTo f ≠ []) :
    ((sendFrame f false).run u).rd (R.LTQ_Q_SENT q) = (u.rd (R.LTQ_Q_SENT q) + 1) % 2 ^ 32 ∧
      (f.entry = none → ((sendFrame f false).run u).rd R.MOT_SP_SEQ = setpointSeq f.payload % 2 ^ 32) := by
  have he : ¬ (u.frameTo f).isEmpty = true := by simpa using h
  obtain ⟨hevent, herr, hseq⟩ := sentReg_own q
  rw [sendFrame, run_dyn]
  dsimp only
  rw [if_neg he, hq, run_acts_cons, run_acts_cons, run_acts_cons, run_acts_cons, run_acts_nil]
  have hout := within_frameOut (dest := u.frameTo f) (type := f.type) (flags := if false = true then 4 else 0)
    (payload := f.payload) (q := q.val) u
  generalize (each (u.frameTo f) fun p => Act.dyn fun t => netSend (t.ltqPorts q.val) p.id (t.session p.id) f.type
    (if false = true then 4 else 0) 0 f.payload).run u = a at *
  have hb := rd_addR_same a (R.LTQ_Q_SENT q) 1
  rw [hout.2.1 _ hevent] at hb
  generalize (addR (R.LTQ_Q_SENT q) 1).run a = b at *
  generalize max (u.rd R.LTQ_ERR_MAX) (min (u.timNs - f.at') 0xFFFFFFFF) = e
  have hc : ((setR R.LTQ_ERR_MAX e).run b).rd (R.LTQ_Q_SENT q) = (u.rd (R.LTQ_Q_SENT q) + 1) % 2 ^ 32 :=
    (rd_setR_ne b _ _ _ herr).trans hb
  generalize (setR R.LTQ_ERR_MAX e).run b = c at *
  cases hentry : f.entry with
  | none => exact ⟨(rd_setR_ne c _ _ _ hseq).trans hc, fun _ => rd_setR_same c _ _⟩
  | some x => exact ⟨hc, fun h => absurd h (by simp)⟩

/-- A frame without a destination is counted (R314). -/
theorem sendFrame_noDest (u : State) (h : u.frameTo f = []) :
    ((sendFrame f false).run u).rd R.LTQ_NODEST = (u.rd R.LTQ_NODEST + 1) % 2 ^ 32 := by
  rw [sendFrame, run_dyn]
  dsimp only
  rw [h, List.isEmpty_nil, if_pos rfl, run_acts_cons, run_acts_cons, run_acts_nil, ← rd_addR_same]
  generalize (addR R.LTQ_NODEST 1).run u = a
  have hf : ∀ c, (on c (.seq (onNet fun n => { n with noStage := true }) (raise E.LTQ_NO_STAGE))).Within eventRegs eventParts := fun _ =>
    within_on (within_seq (within_onNet (by decide)) (within_raise eventAllows))
  exact (hf _ a).2.1 _ (by decide)

/-! ### The outcomes of a launch (R314 to R316) -/

section
variable (hn : s.nextFrame = some f) (hq : f.queue = q.val) (hp : s.pageWorks 0xC3 = true)
include hn hq hp

/-- A frame lost to its memory leaves its queue as late (R315). -/
theorem ltqLaunch_lost : ∃ t, exec (.ltqLaunch q true) s = .next t ∧ t.raised E.MEM_SRAM_UE = true ∧
    t.rd (R.LTQ_Q_LATE q) = (s.rd (R.LTQ_Q_LATE q) + 1) % 2 ^ 32 ∧ t.b.tim.ltq = s.b.tim.ltq.erase f := by
  obtain ⟨hf, hltq⟩ := launched_framed s f
  refine ⟨_, ltqLaunch_run hn hq hp true, ?_⟩
  generalize (dropFrame f).run ((advanceToTim f.at').run { s with out := [] }) = u at *
  obtain ⟨hraised, hcnt, htim⟩ := launchFrame_lost u hq
  exact ⟨hraised, by rw [hcnt, hf.2.1 _ rfl], by rw [htim, hltq]⟩

theorem ltqLaunch_past (ue : Bool) (h : f.at' * 2 ^ 32 ≤ s.b.tim.sec * secondNs + s.b.tim.ns) :
    exec (.ltqLaunch q ue) s = .next ((launchFrame f ue).run ((dropFrame f).run { s with out := [] })) := by
  rw [ltqLaunch_run hn hq hp ue, advanceToTim_of_past (s := { s with out := [] }) h]

/-- A frame at its time is sent, or counted without a destination (R314). -/
theorem ltqLaunch_sends (h1 : f.at' ≤ s.timNs)
    (h2 : s.timUnits ≤ ((f.at' + s.fld (F.LTQ_Q_CFG_TOL q)) * 2 ^ 32 : Nat)) :
    ∃ t, exec (.ltqLaunch q false) s = .next t ∧ t.b.tim.ltq = s.b.tim.ltq.erase f ∧
      (s.frameTo f ≠ [] → t.rd (R.LTQ_Q_SENT q) = (s.rd (R.LTQ_Q_SENT q) + 1) % 2 ^ 32 ∧
        (f.entry = none → t.rd R.MOT_SP_SEQ = setpointSeq f.payload % 2 ^ 32)) ∧
      (s.frameTo f = [] → t.rd R.LTQ_NODEST = (s.rd R.LTQ_NODEST + 1) % 2 ^ 32) ∧
      eventFrame [R.LTQ_Q_SENT q, R.LTQ_ERR_MAX, R.MOT_SP_SEQ, R.LTQ_NODEST] [.bTim] s t := by
  have hrun : (launchFrame f false).run ((dropFrame f).run { s with out := [] }) = (sendFrame f false).run
      ((onNet fun n => { n with lateRun := n.lateRun.filter fun x => x != f.queue }).run ((dropFrame f).run { s with out := [] })) := by
    have hlate : ¬ ((f.at' + s.fld (F.LTQ_Q_CFG_TOL f.queue)) * 2 ^ 32 : Nat) < s.timUnits := by rw [hq]; exact not_lt.mpr h2
    rw [launchFrame, run_dyn, if_neg (by decide)]
    exact (congrArg (fun a => Act.run a _) (if_neg hlate)).trans (run_seq _ _ _)
  refine ⟨_, ltqLaunch_past hn hq hp false (past_of_timNs h1), ?_⟩
  rw [hrun]
  have hto : ((onNet fun n => { n with lateRun := n.lateRun.filter fun x => x != f.queue }).run
      ((dropFrame f).run { s with out := [] })).frameTo f = s.frameTo f := rfl
  have hltq : ((onNet fun n => { n with lateRun := n.lateRun.filter fun x => x != f.queue }).run
      ((dropFrame f).run { s with out := [] })).b.tim.ltq = s.b.tim.ltq.erase f := rfl
  have hf : eventFrame [R.LTQ_Q_SENT q, R.LTQ_ERR_MAX, R.MOT_SP_SEQ, R.LTQ_NODEST] [.bTim] s
      ((onNet fun n => { n with lateRun := n.lateRun.filter fun x => x != f.queue }).run ((dropFrame f).run { s with out := [] })) :=
    eventFrame_run (a := .seq (dropFrame f) (onNet fun n => { n with lateRun := n.lateRun.filter fun x => x != f.queue })) s
      (within_seq (within_onTim (by decide)) (within_onNet (by decide)))
  have hrd : ∀ a, ((onNet fun n => { n with lateRun := n.lateRun.filter fun x => x != f.queue }).run
      ((dropFrame f).run { s with out := [] })).rd a = s.rd a := fun _ => rfl
  generalize (onNet fun n => { n with lateRun := n.lateRun.filter fun x => x != f.queue }).run
    ((dropFrame f).run { s with out := [] }) = u at *
  have hs := within_sendFrame f false u
  rw [hq] at hs
  refine ⟨?_, fun h => ?_, fun h => ?_, framed_trans hf (framed_mono (fun _ h => h) (by decide) hs)⟩
  · rw [hs.2.2 .bTim (by decide), hltq]
  · obtain ⟨hsent, hseq⟩ := sendFrame_sent u hq (by rw [hto]; exact h)
    exact ⟨by rw [hsent, hrd], hseq⟩
  · rw [sendFrame_noDest u (by rw [hto]; exact h), hrd]

/-- A frame past its tolerance is dropped as late where its queue sends none late (R315). -/
theorem ltqLaunch_late (h1 : (((f.at' + s.fld (F.LTQ_Q_CFG_TOL q)) * 2 ^ 32 : Nat) : Int) < s.timUnits)
    (h2 : s.flag (F.LTQ_Q_CFG_SEND_LATE q) = false) :
    ∃ t, exec (.ltqLaunch q false) s = .next t ∧ t.b.tim.ltq = s.b.tim.ltq.erase f ∧
      t.rd (R.LTQ_Q_LATE q) = (s.rd (R.LTQ_Q_LATE q) + 1) % 2 ^ 32 ∧
      eventFrame [R.LTQ_Q_LATE q, R.MOT_SP_LATE] [.bTim, .bMot] s t := by
  refine ⟨_, ltqLaunch_past hn hq hp false (past_of_timUnits h1), ?_⟩
  have hrun : (launchFrame f false).run ((dropFrame f).run { s with out := [] }) =
      (lateFrame f).run ((dropFrame f).run { s with out := [] }) := by
    have hlate : ((f.at' + s.fld (F.LTQ_Q_CFG_TOL f.queue)) * 2 ^ 32 : Nat) < s.timUnits := by rw [hq]; exact h1
    rw [launchFrame, run_dyn, if_neg (by decide)]
    exact congrArg (fun a => Act.run a _) (if_pos hlate)
  rw [hrun]
  have hltq : ((dropFrame f).run { s with out := [] }).b.tim.ltq = s.b.tim.ltq.erase f := rfl
  have hflag : ((dropFrame f).run { s with out := [] }).flag (F.LTQ_Q_CFG_SEND_LATE q) = false := h2
  have hf : eventFrame [R.LTQ_Q_LATE q, R.MOT_SP_LATE] [.bTim, .bMot] s ((dropFrame f).run { s with out := [] }) :=
    eventFrame_run s (within_onTim (by decide))
  have hrd : ∀ a, ((dropFrame f).run { s with out := [] }).rd a = s.rd a := fun _ => rfl
  generalize (dropFrame f).run { s with out := [] } = u at *
  rw [lateFrame, run_dyn, hq, hflag]
  simp only [Bool.false_eq_true, if_false]
  rw [run_acts_cons, run_acts_cons, run_acts_cons, run_acts_nil]
  have hadd := rd_addR_same u (R.LTQ_Q_LATE q) 1
  have hb : framed [R.LTQ_Q_LATE q].contains [] u ((addR (R.LTQ_Q_LATE q) 1).run u) := within_addR (by simp) u
  generalize (addR (R.LTQ_Q_LATE q) 1).run u = b at *
  have hnote : ∀ c, (on c (.seq (onNet fun n => { n with lateRun := q.val :: n.lateRun }) (raise E.LTQ_LATE))).Within
      eventRegs eventParts := fun _ => within_on (within_seq (within_onNet (by decide)) (within_raise eventAllows))
  have hc := hnote (!u.b.net.lateRun.contains q.val) b
  generalize (on (!u.b.net.lateRun.contains q.val)
    (.seq (onNet fun n => { n with lateRun := q.val :: n.lateRun }) (raise E.LTQ_LATE))).run b = c at *
  have hd : framed (fun a => eventRegs a || [R.MOT_SP_LATE].contains a) (eventParts ++ [.bMot]) c
      ((on f.entry.isNone setpointLate).run c) := within_on within_setpointLate c
  generalize (on f.entry.isNone setpointLate).run c = d at *
  have hcd : framed (fun a => eventRegs a || [R.MOT_SP_LATE].contains a) (eventParts ++ [.bMot]) b d :=
    framed_trans (framed_mono (fun _ h => by simp [h]) (by decide) hc) hd
  refine ⟨?_, ?_, framed_trans hf (framed_trans (framed_mono (fun _ h => ?_) (by simp) hb)
    (framed_mono (fun _ h => ?_) (by decide) hcd))⟩
  · rw [hcd.2.2 .bTim (by decide), hb.2.2 .bTim (by decide), hltq]
  · rw [hcd.2.1 _ (lateReg_other q), hadd, hrd]
  · simp only [List.contains_eq_mem, List.mem_singleton, decide_eq_true_eq] at h
    simp [h]
  · simp only [Bool.or_eq_true, List.contains_eq_mem, List.mem_singleton, decide_eq_true_eq] at h
    rcases h with h | h <;> simp [h]

end

end Sys2Proof.Machine
end

section
/-! SUPPORT. Run-ins and the dwell of a racking (R214, R246, R253, R254). -/

namespace Sys2Proof.Machine

variable {s t u : State} {r : Run} {n : Nat}

/-! ### Run-ins (R246) -/

theorem within_noteSlow : noteSlow.Within (fun a => eventRegs a || [].contains a) (eventParts ++ [.bMot]) :=
  within_dyn fun _ => within_on (within_seq (within_onMot (by decide)) (within_raise eventFrame_allows))

/-- A supply that is too slow is noted, and changes no motion. -/
theorem noteSlow_mot (s : State) : ∃ b, (noteSlow.run s).b.mot = { s.b.mot with slowRaised := b } := by
  rw [noteSlow, run_dyn]
  generalize (decide (s.vTgt < s.vCap) && !s.b.mot.slowRaised) = c
  cases c with
  | true => exact ⟨true, by rw [on_true, run_seq, raise_mot, run_onMot]⟩
  | false => exact ⟨s.b.mot.slowRaised, rfl⟩

theorem noteSlow_keeps (e : Evt) (he : e.bit < 32) : noteSlow.Keeps e :=
  keeps_dyn fun _ => keeps_on (keeps_seq keeps_blk (keeps_raise he))

/-- The stripe that a run-in is for. -/
def State.motStripe (s : State) (r : Run) : MotStripe :=
  ⟨r.stripe.num, r.stripe.rev, ((shotPos r.stripe.rev r.stripe.y0 s.step ((r.stripe.shots : Int) - 1) : Int) : Rat) / 65536,
    r.stripe.last⟩

/-- The motion, the clips and the job once a run-in has begun. -/
def noteRunIn (c : MotStripe) (num : Nat) : Act :=
  acts [onMot fun m => { m with cur := some c, phase := .runIn, xFrom := none, slowRaised := false, lateRaised := false, replan := true },
    onPos fun p => { p with trkClipped := false }, onNet fun n => { n with noStage := false },
    onJob fun j =>
      { j with
        turnWait := false, stopEnd := j.stopEnd || j.stopAfter == some num
        stopAfter := if j.stopAfter = some num then none else j.stopAfter }]

/-- The registers and the event of a stripe that begins. -/
def beginStripe (num : Nat) : Act :=
  acts [setR R.MOT_FE_MAX 0, setF F.SHT_PRED_ERR_MAX 0, setR R.JOB_CUR num, raise E.JOB_STRIPE_START]

/-- The stage takes up its speed. -/
def takeSpeed (rev : Bool) : Act := .dyn fun t => onMot fun m =>
  { m with y := m.y.start (planSpeed t.limits m.y.p 0 (along rev t.vTgt)) (.speed (along rev t.vTgt)) }

/-- A run-in, from its notes to its motion. -/
def runInAct (c : MotStripe) (r : Run) : Act :=
  acts [noteRunIn c r.stripe.num, beginStripe r.stripe.num, activateShots, noteSlow, takeSpeed r.stripe.rev]

theorem runInStart_run (hr : s.run = some r) (hm : s.mayRunIn r = true) :
    exec .runInStart s = .next ((runInAct (s.motStripe r) r).run { s with out := [] }) := by
  have hr' : ({ s with out := [] } : State).run = some r := hr
  have hm' : ({ s with out := [] } : State).mayRunIn r = true := hm
  show execRunInStart s = _
  rw [execRunInStart, perform_eq, run_dyn, runInAct, noteRunIn, beginStripe]
  simp only [hr', hm', on_true]
  repeat rw [run_acts_cons]
  rw [run_acts_nil, run_acts_nil, run_acts_nil, run_acts_nil, takeSpeed]
  rfl

theorem within_noteRunIn (c : MotStripe) (num : Nat) :
    (noteRunIn c num).Within (fun _ => false) [.bMot, .bPos, .bNet, .bJob] :=
  within_cons (within_onMot (by decide)) (within_cons (within_onPos (by decide)) (within_cons (within_onNet (by decide))
    (within_cons (within_onJob (by decide)) within_nil)))

theorem within_beginStripe (num : Nat) :
    (beginStripe num).Within (fun a => eventRegs a || [R.JOB_CUR, R.MOT_FE_MAX, R.SHT_PRED_ERR].contains a) (eventParts ++ []) :=
  within_cons (within_setR (by decide)) (within_cons (within_setF (by decide)) (within_cons (within_setR (by decide))
    (within_cons (within_raise eventFrame_allows) within_nil)))

/-- The registers and the event of a stripe that has begun. -/
theorem beginStripe_effect (s : State) (num : Nat) : ((beginStripe num).run s).rd R.JOB_CUR = num % 2 ^ 32 ∧
    ((beginStripe num).run s).rd R.MOT_FE_MAX = 0 ∧ ((beginStripe num).run s).raised E.JOB_STRIPE_START = true := by
  rw [beginStripe, run_acts_cons, run_acts_cons, run_acts_cons, run_acts_cons, run_acts_nil]
  refine ⟨?_, ?_, raise_raised (by decide) _⟩
  · rw [raise_rd _ _ _ (by decide), rd_setR_same]
  · rw [raise_rd _ _ _ (by decide), rd_setR_ne _ _ _ _ (by decide), rd_setF_ne _ _ _ _ (by decide), rd_setR_same, Nat.zero_mod]

/-- A run-in that may start activates its stripe's shots (R214, R246). -/
theorem runInStart_starts (hr : s.run = some r) (hm : s.mayRunIn r = true) :
    ∃ t, exec .runInStart s = .next t ∧ t.b.mot.phase = .runIn ∧ (t.b.mot.cur.map fun c => c.num) = some r.stripe.num ∧
      t.rd R.JOB_CUR = r.stripe.num % 2 ^ 32 ∧ t.raised E.JOB_STRIPE_START = true ∧ t.b.sht.active = true ∧
      t.b.sht.runStart = 0 ∧ t.b.sht.next = -2 ∧ t.b.sht.armed = true ∧ t.b.sht.frozen = [] ∧ t.rd R.MOT_FE_MAX = 0 ∧
      eventFrame [R.JOB_CUR, R.MOT_FE_MAX, R.SHT_PRED_ERR] [.bMot, .bPos, .bJob, .bSht] s t := by
  refine ⟨_, runInStart_run hr hm, ?_⟩
  have hframe : eventFrame [R.JOB_CUR, R.MOT_FE_MAX, R.SHT_PRED_ERR] [.bMot, .bPos, .bJob, .bSht] s
      ((runInAct (s.motStripe r) r).run { s with out := [] }) := eventFrame_run s
    (within_cons ((within_noteRunIn _ _).mono (by simp) (by decide)) (within_cons ((within_beginStripe _).mono (fun _ h => h) (by decide))
      (within_cons (within_onSht (by decide)) (within_cons (within_noteSlow.mono (fun _ h => by simp at h; simp [h]) (by decide))
        (within_cons (within_dyn fun _ => within_onMot (by decide)) within_nil)))))
  have hnum : (s.motStripe r).num = r.stripe.num := rfl
  generalize s.motStripe r = c at *
  rw [runInAct, run_acts_cons, run_acts_cons, run_acts_cons, run_acts_cons, run_acts_cons, run_acts_nil] at *
  generalize ({ s with out := [] } : State) = s0 at *
  have ha : ((noteRunIn c r.stripe.num).run s0).b.mot.phase = .runIn ∧ ((noteRunIn c r.stripe.num).run s0).b.mot.cur = some c :=
    ⟨rfl, rfl⟩
  generalize (noteRunIn c r.stripe.num).run s0 = a at *
  have fb := within_beginStripe r.stripe.num a
  obtain ⟨hcur, hfe, hraised⟩ := beginStripe_effect a r.stripe.num
  generalize (beginStripe r.stripe.num).run a = b at *
  have hbm : b.b.mot = a.b.mot := fb.2.2 .bMot (by decide)
  have fd := within_noteSlow (activateShots.run b)
  obtain ⟨x, hx⟩ := noteSlow_mot (activateShots.run b)
  have hd := noteSlow_keeps E.JOB_STRIPE_START (by decide) (activateShots.run b) hraised
  generalize noteSlow.run (activateShots.run b) = d at *
  have hsht : d.b.sht = (activateShots.run b).b.sht := fd.2.2 .bSht (by decide)
  have hmot : d.b.mot = { b.b.mot with slowRaised := x } := hx
  have hrd : ∀ a, eventRegs a = false → d.rd a = b.rd a := fun a h => fd.2.1 a (by simp [h])
  refine ⟨?_, ?_, ?_, hd, ?_, ?_, ?_, ?_, ?_, ?_, hframe⟩
  · show d.b.mot.phase = _
    rw [hmot, hbm]
    exact ha.1
  · show (d.b.mot.cur.map fun c => c.num) = _
    rw [hmot, hbm]
    show (a.b.mot.cur.map fun c => c.num) = _
    rw [ha.2, Option.map_some, hnum]
  · exact (hrd _ (by decide)).trans hcur
  · show d.b.sht.active = _
    rw [hsht]; rfl
  · show d.b.sht.runStart = _
    rw [hsht]; rfl
  · show d.b.sht.next = _
    rw [hsht]; rfl
  · show d.b.sht.armed = _
    rw [hsht]; rfl
  · show d.b.sht.frozen = _
    rw [hsht]; rfl
  · exact (hrd _ (by decide)).trans hfe

/-! ### The dwell of a racking (R253, R254) -/

theorem within_startReentry : startReentry.Within (fun a => eventRegs a || [].contains a) (eventParts ++ [.bMot]) :=
  within_dyn fun _ => within_cons within_noteSlow (within_cons (within_onMot (by decide)) within_nil)

/-- Once its conditions hold, a dwell ends in re-entry (R254). -/
theorem rackDwellEnd_reenters (hn : s.dwelling = some n) (hp : s.paired = false)
    (hd : s.fld F.MOT_RACK_DWELL * 1000 ≤ s.b.mot.dwell * 50) (hr : s.rackReady n = true) :
    ∃ t, exec .rackDwellEnd s = .next t ∧ t.b.mot.rackPart = 4 ∧ t.b.mot.replan = true ∧ eventFrame [] [.bMot] s t := by
  have hn' : ({ s with out := [] } : State).dwelling = some n := hn
  have hp' : (({ s with out := [] } : State).paired && ({ s with out := [] } : State).b.par.mate == .up) = false := by
    rw [show ({ s with out := [] } : State).paired = false from hp, Bool.false_and]
  have hc : ¬ (({ s with out := [] } : State).b.mot.dwell * 50 < ({ s with out := [] } : State).fld F.MOT_RACK_DWELL * 1000 ∨
      ({ s with out := [] } : State).rackReady n = false) := by
    rintro (h | h)
    · exact absurd hd (not_le.mpr h)
    · exact absurd (hr.symm.trans h) (by decide)
  have hrun : exec .rackDwellEnd s = .next (startReentry.run { s with out := [] }) := by
    show execRackDwellEnd s = _
    rw [execRackDwellEnd, perform_eq, run_dyn, hn']
    dsimp only
    rw [if_neg hc, hp', Bool.not_false, if_pos rfl]
  refine ⟨_, hrun, ?_, ?_, eventFrame_run s within_startReentry⟩
  all_goals
    rw [startReentry, run_dyn, run_acts_cons, run_acts_cons, run_acts_nil]
    rfl

/-- A dwell that is not over waits. -/
theorem rackDwellEnd_waits (hn : s.dwelling = some n)
    (h : s.b.mot.dwell * 50 < s.fld F.MOT_RACK_DWELL * 1000 ∨ s.rackReady n = false) :
    ∃ t, exec .rackDwellEnd s = .next t ∧ plainFrame [] [] s t := by
  have hn' : ({ s with out := [] } : State).dwelling = some n := hn
  have hrun : exec .rackDwellEnd s = .next (Act.nop.run { s with out := [] }) := by
    show execRackDwellEnd s = _
    rw [execRackDwellEnd, perform_eq, run_dyn, hn']
    dsimp only
    rw [if_pos (by exact h)]
  exact ⟨_, hrun, plainFrame_run s within_nop⟩

/-! ### A racking that is given up (R254) -/

theorem dwelling_dev (hn : s.dwelling = some n) : s.dev = .racking := by
  unfold State.dwelling at hn
  split at hn
  · rename_i h
    exact h.1
  · exact absurd hn (by simp)

/-- A safe point that is reached drains a racking device. -/
theorem safePoint_drains (hd : s.dev = .racking) (hs : s.b.sht.stopFrom = some n) (hn : n ≤ s.b.sht.first) :
    (safePoint.run s).dev = .draining := by
  rw [safePoint, run_dyn, hs]
  dsimp only
  rw [decide_eq_true hn, on_true, run_seq, enter_run _ (by simp [hd, DevState.edge])]
  exact raise_dev _ _

/-- A safe point takes no stop away. -/
theorem safePoint_stopFrom (s : State) : (safePoint.run s).b.sht.stopFrom = s.b.sht.stopFrom := by
  have henter : ∀ u : State, ((enter .draining).run u).b.sht = u.b.sht := fun u => by
    have h : (enter .draining).Within (fun a => eventRegs a || [R.TOP_TRANS_CNT].contains a) (eventParts ++ [.dev, .prevDev]) :=
      within_enter eventFrame_allows (by decide) (by decide) (by decide)
    exact (h u).2.2 .bSht (by decide)
  rw [safePoint, run_dyn]
  split
  · rename_i m hm
    cases decide (m ≤ s.b.sht.first) with
    | true => rw [on_true, run_seq, henter]; rfl
    | false => rfl
  · rfl

/-- The scope of a cut before its safe point: the stop and the next shot stand. -/
def cutScope : Scope where
  regs := sealScope.regs
  parts := [.ledFrame, .ledShot]
  blocks b c := c.sht.stopFrom = b.sht.stopFrom ∧ c.sht.first = b.sht.first
  refl _ := ⟨rfl, rfl⟩
  trans h k := ⟨k.1.trans h.1, k.2.trans h.2⟩
  net _ _ := ⟨rfl, rfl⟩

theorem sealScope_le_cutScope : sealScope.Le cutScope where
  regs _ h := h
  parts := by decide
  strobes := by decide
  blocks _ _ h := ⟨h.sht.stopFrom, h.sht.first⟩

theorem cutScope_sht (b : Blocks) (x : ShotBlk) (h1 : x.stopFrom = b.sht.stopFrom) (h2 : x.first = b.sht.first) :
    cutScope.blocks b { b with sht := x } := ⟨h1, h2⟩

theorem allows_cutRecord (s : State) (x : ShotRec) :
    cutScope.Allows (acts [putRec x.shot fun y => { y with withheld := some 0, rexp := true },
      on (x.triggered && x.withheld.isNone) (noteUnresolved x.shot)]) s := by
  simp only [noteUnresolved, allows_cons, allows_putRec, allows_on, allows_onSht, allows_nil, implies_true, and_true]
  exact ⟨cutScope_sht _ _ rfl rfl, fun t _ => cutScope_sht _ _ rfl rfl⟩

theorem allows_abandonCut (s : State) : cutScope.Allows abandonShots s := by
  simp only [abandonShots, allows_dyn, allows_cons, allows_bookOut, allows_onSht, allows_on, allows_onPar, allows_nil,
    implies_true, and_true]
  exact ⟨by decide, fun t => ⟨cutScope_sht _ _ rfl rfl, fun t _ => ⟨rfl, rfl⟩⟩⟩

/-- A cut comes to its safe point with its stop noted. -/
theorem cutShots_stops (s : State) (k : Nat) : ∃ n w, (cutShots k).run s = safePoint.run w ∧ w.b.sht.stopFrom = some n ∧
    w.b.sht.first = s.b.sht.first ∧ w.dev = s.dev ∧ n ≤ max k s.b.sht.first := by
  rw [cutShots, run_dyn]
  generalize hn : max (match s.b.sht.stopFrom with | some x => min x k | none => k) s.b.sht.first = n
  have hle : n ≤ max k s.b.sht.first := by
    rw [← hn]
    refine max_le_max ?_ le_rfl
    split
    · exact min_le_right _ _
    · exact le_rfl
  dsimp only
  rw [run_acts_cons, run_acts_cons, run_acts_cons, run_acts_cons, run_acts_cons, run_acts_cons, run_acts_nil]
  generalize (s.b.sht.recs.filter fun x => decide (n ≤ x.shot) && (x.taken || x.triggered)) = cut
  have hu : ((onSht fun b => { b with stopFrom := some n, floor := none, rackWait := none, reentered := none }).run s).b.sht.stopFrom =
      some n ∧ ((onSht fun b => { b with stopFrom := some n, floor := none, rackWait := none, reentered := none }).run s).b.sht.first =
      s.b.sht.first ∧ ((onSht fun b => { b with stopFrom := some n, floor := none, rackWait := none, reentered := none }).run s).dev =
      s.dev := ⟨rfl, rfl, rfl⟩
  generalize (onSht fun b => { b with stopFrom := some n, floor := none, rackWait := none, reentered := none }).run s = u at *
  obtain ⟨hstop, hfirst, hdev⟩ := hu
  have rel : ∀ u : State, cutScope.Rel u (abandonShots.run ((holdSeals (s.b.sht.recs.length + 1) n).run ((each cut fun x =>
      acts [putRec x.shot fun y => { y with withheld := some 0, rexp := true },
        on (x.triggered && x.withheld.isNone) (noteUnresolved x.shot)]).run ((dropTaps n).run u)))) := fun u =>
    ((((allows_dropTaps u n).mono sealScope_le_cutScope).rel.trans (allows_each cutScope _ fun x _ t => allows_cutRecord t x).rel).trans
      ((allows_holdSeals _ _ _).mono sealScope_le_cutScope).rel).trans (allows_abandonCut _).rel
  have h := rel u
  exact ⟨n, _, rfl, h.blocks.1.trans hstop, h.blocks.2.trans hfirst, (h.part .dev (by decide) (by decide)).trans hdev, hle⟩

/-- A stop at a safe point cuts the shots of a racking device (R20). -/
theorem stopSafe_cuts (hd : s.dev = .racking) : ∃ u, stopSafe.run s = (cutShots s.firstUnsigned).run u ∧ u.dev = .racking ∧
    u.b.sht.first = s.b.sht.first := by
  rw [stopSafe, run_dyn, if_pos (.inr (.inr hd)), run_seq]
  have hp := ((allows_on sealScope s (!s.solo) (pairSend 7 s.firstUnsigned (stopData s 0))).mpr fun _ => allows_pairSend s _ _ _).rel
  generalize (on (!s.solo) (pairSend 7 s.firstUnsigned (stopData s 0))).run s = a at *
  have had : a.dev = .racking := (hp.part .dev (by decide) (by decide)).trans hd
  have haf : a.b.sht.first = s.b.sht.first := hp.blocks.sht.first
  rw [stopSafeFrom, run_dyn, if_neg (by simp [had]), if_pos (.inr had), run_acts_cons, run_acts_cons, run_acts_cons, run_acts_nil]
  refine ⟨_, rfl, ?_, ?_⟩ <;> cases a.b.sht.stopFrom.isNone
  · exact had
  · exact had
  · exact haf
  · exact haf

/-- A dwell that lasts too long ends the job at a safe point (R254). -/
theorem rackAbandon_stops (hn : s.dwelling = some n) (hw : s.fld F.MOT_RACK_WAIT_MS * 1000 ≤ s.b.mot.dwell * 50)
    (hr : s.rackReady n = false) :
    ∃ t, exec .rackAbandon s = .next t ∧ t.b.sht.stopFrom.isSome = true ∧ t.raised E.MOT_RACK_ABANDON = true ∧
      (s.firstUnsigned ≤ s.b.sht.first → t.dev = .draining) := by
  have hn' : ({ s with out := [] } : State).dwelling = some n := hn
  have hc : (decide (({ s with out := [] } : State).fld F.MOT_RACK_WAIT_MS * 1000 ≤ ({ s with out := [] } : State).b.mot.dwell * 50) &&
      !({ s with out := [] } : State).rackReady n) = true := by
    rw [decide_eq_true (by exact hw), show ({ s with out := [] } : State).rackReady n = false from hr]
    rfl
  have hrun : exec .rackAbandon s = .next ((raise E.MOT_RACK_ABANDON).run (stopSafe.run { s with out := [] })) := by
    show execRackAbandon s = _
    rw [execRackAbandon, perform_eq, run_dyn, hn']
    dsimp only
    rw [hc, on_true, run_seq]
  refine ⟨_, hrun, ?_⟩
  obtain ⟨u, hu, hud, huf⟩ := stopSafe_cuts (s := { s with out := [] }) (dwelling_dev hn)
  obtain ⟨m, w, hw, hstop, hfirst, hdev, hm⟩ := cutShots_stops u ({ s with out := [] } : State).firstUnsigned
  rw [hu, hw]
  refine ⟨?_, raise_raised (by decide) _, fun hle => ?_⟩
  · rw [raise_sht, safePoint_stopFrom, hstop]
    rfl
  · rw [raise_dev]
    refine safePoint_drains (hdev.trans hud) hstop ?_
    have h1 : ({ s with out := [] } : State).firstUnsigned ≤ s.b.sht.first := hle
    have h2 : u.b.sht.first = s.b.sht.first := huf
    rw [hfirst]
    omega

/-- A racking whose conditions hold is not given up. -/
theorem rackAbandon_waits (hn : s.dwelling = some n) (h : s.rackReady n = true) :
    ∃ t, exec .rackAbandon s = .next t ∧ plainFrame [] [] s t := by
  have hn' : ({ s with out := [] } : State).dwelling = some n := hn
  have hrun : exec .rackAbandon s = .next (Act.nop.run { s with out := [] }) := by
    show execRackAbandon s = _
    rw [execRackAbandon, perform_eq, run_dyn, hn']
    dsimp only
    rw [show ({ s with out := [] } : State).rackReady n = true from h, Bool.not_true, Bool.and_false, on_false]
  exact ⟨_, hrun, plainFrame_run s within_nop⟩

end Sys2Proof.Machine
end

section
/-! SUPPORT. The setpoint of a period (R244, R245, R255). -/

namespace Sys2Proof.Machine

variable {s t u : State}

/-! ### Plans leave an axis where it is -/

theorem Gen.goTo_p (g : Gen) (l : Limits) (q : Rat) : (g.goTo l q).1.p = g.p := by
  unfold Gen.goTo
  split <;> rfl

theorem Gen.takeTarget_p (l : Limits) (g : Gen) (q : Option Rat) : (Gen.takeTarget l g q).1.p = g.p := by
  unfold Gen.takeTarget
  split
  · split <;> rfl
  · rfl

/-! ### The scope of a period before its setpoint -/

/-- What a period does before its setpoint leaves the queued frames, the setpoints and the places of the axes. -/
structure genKeeps (b c : Blocks) : Prop where
  ltq : c.tim.ltq = b.tim.ltq
  mot : b.mot.SamePlace c.mot

/-- The scope of a period before its setpoint. -/
def genScope : Scope where
  regs a := !([R.MOT_CFG, R.MOT_LEAD].contains a)
  parts := [.ledFrame, .ledShot, .dev, .prevDev]
  blocks := genKeeps
  refl _ := ⟨rfl, .refl _⟩
  trans h k := ⟨k.ltq.trans h.ltq, h.mot.trans k.mot⟩
  net _ _ := ⟨rfl, .refl _⟩

theorem stopScope_le_genScope : stopScope.Le genScope where
  regs a h := by
    simp only [genScope, Bool.not_eq_true', List.contains_eq_mem, decide_eq_false_iff_not]
    intro hm
    rcases List.mem_pair.mp hm with rfl | rfl <;> exact absurd h (by decide)
  parts := by decide
  strobes := by decide
  blocks b c h := ⟨by rw [h.tim], h.mot⟩

theorem sealScope_le_genScope : sealScope.Le genScope where
  regs a h := stopScope_le_genScope.regs a (sealScope_le_stopScope.regs a h)
  parts := by decide
  strobes := by decide
  blocks b c h := stopScope_le_genScope.blocks b c (sealScope_le_stopScope.blocks b c h)

section
variable (b : Blocks)

theorem genScope_mot (x : MotBlk) (h : b.mot.SamePlace x) : genScope.blocks b { b with mot := x } := ⟨rfl, h⟩
theorem genScope_sht (x : ShotBlk) : genScope.blocks b { b with sht := x } := ⟨rfl, .refl _⟩
theorem genScope_job (x : JobBlk) : genScope.blocks b { b with job := x } := ⟨rfl, .refl _⟩
theorem genScope_par (x : PairBlk) : genScope.blocks b { b with par := x } := ⟨rfl, .refl _⟩
theorem genScope_cel (x : CellarBlk) : genScope.blocks b { b with cel := x } := ⟨rfl, .refl _⟩
theorem genScope_pos (x : PosBlk) : genScope.blocks b { b with pos := x } := ⟨rfl, .refl _⟩
theorem genScope_age (x : AgeBlk) : genScope.blocks b { b with age := x } := ⟨rfl, .refl _⟩
theorem genScope_tim (x : TimBlk) (h : x.ltq = b.tim.ltq) : genScope.blocks b { b with tim := x } := ⟨h, .refl _⟩

end

section
variable (s : State)

theorem allows_genEnter {d : DevState} (h : d ≠ .armed) : genScope.Allows (enter d) s :=
  allows_enter _ s d h (by decide) (by decide) (by decide)

theorem allows_advanceToTraj (t : Int) : genScope.Allows (advanceToTraj t) s := by
  simp only [advanceToTraj, advance, allows_dyn, allows_on, allows_cons, allows_onTim, allows_onAge, allows_onPos, allows_nil,
    implies_true, and_true]
  exact fun _ => ⟨genScope_tim _ _ rfl, fun t => ⟨fun _ => genScope_age _ _, fun t => genScope_pos _ _⟩⟩

theorem allows_dueWrites (h : s.b.mot.writes = []) : genScope.Allows dueWrites s := by
  simp only [dueWrites, allows_dyn, h, List.filter_nil, allows_seq, allows_onMot]
  exact ⟨genScope_mot _ _ ⟨rfl, rfl, rfl, rfl⟩, fun t => allows_each _ t fun _ hx => absurd hx (List.not_mem_nil)⟩

theorem allows_rackReverse : genScope.Allows rackReverse s := by
  simp only [rackReverse, allows_dyn]
  split
  · simp only [allows_on, allows_seq, allows_onMot, allows_onSht]
    exact fun _ => ⟨genScope_mot _ _ ⟨rfl, rfl, rfl, rfl⟩, fun t _ => genScope_sht _ _⟩
  · trivial

theorem allows_standbyWithdraws : genScope.Allows standbyWithdraws s := by
  simp only [standbyWithdraws, withdrawFrom, allows_dyn, allows_on, allows_cons, allows_onPar, allows_setR, allows_raise, allows_nil,
    implies_true, and_true, true_and]
  exact fun _ => ⟨fun _ => ⟨genScope_par _ _, fun _ => ⟨by decide, fun _ t => (allows_dropTaps t _).mono sealScope_le_genScope⟩⟩,
    fun t => ⟨genScope_par _ _, fun t => ⟨(allows_stopAtEnd t).mono stopScope_le_genScope, fun t =>
      allows_each _ t fun p _ u => allows_netTo _ u p _ _⟩⟩⟩

theorem allows_rackArrive : genScope.Allows rackArrive s := by
  simp only [rackArrive, allows_dyn]
  split
  · simp only [allows_on, allows_seq, allows_onMot]
    exact fun _ => ⟨genScope_mot _ _ ⟨rfl, rfl, rfl, rfl⟩, fun t _ => allows_standbyWithdraws t⟩
  · trivial

theorem allows_deferredStep : genScope.Allows deferredStep s := by
  simp only [deferredStep, allows_dyn]
  split
  · simp only [stepTim, noteRate, allows_dyn, allows_cons, allows_onTim, allows_onNet, allows_setB, allows_onMot, allows_raise,
      allows_nil, implies_true, and_true, true_and]
    exact ⟨genScope_tim _ _ rfl, fun t => ⟨genScope_tim _ _ rfl, fun _ _ => ⟨by decide, fun t =>
      genScope_mot _ _ ⟨rfl, rfl, rfl, rfl⟩⟩⟩⟩
  · trivial

theorem allows_disarmDone : genScope.Allows disarmDone s := by
  simp only [disarmDone, allows_dyn, allows_on, allows_cons, allows_onJob, allows_onMot, allows_nil, implies_true, and_true]
  exact fun _ => ⟨allows_genEnter s (by decide), fun t => ⟨genScope_job _ _, fun t => ⟨genScope_mot _ _ ⟨rfl, rfl, rfl, rfl⟩,
    fun t => allows_deferredStep t⟩⟩⟩

theorem allows_moveDone : genScope.Allows moveDone s := by
  simp only [moveDone, allows_dyn, allows_on, allows_seq, allows_onMot, allows_raise, implies_true, and_true]
  exact fun _ => genScope_mot _ _ ⟨rfl, rfl, rfl, rfl⟩

theorem allows_stopAtRest : genScope.Allows stopAtRest s := by
  simp only [stopAtRest, allows_dyn, allows_on]
  exact fun _ => (allows_cutShots s _).mono stopScope_le_genScope

theorem allows_sendSpeed : genScope.Allows sendSpeed s := by
  simp only [sendSpeed, allows_dyn, allows_on, allows_seq, allows_onMot]
  exact fun _ => ⟨(allows_pairSend s _ _ _).mono sealScope_le_genScope, fun t => genScope_mot _ _ ⟨rfl, rfl, rfl, rfl⟩⟩

theorem allows_nextTargets : genScope.Allows nextTargets s := by
  simp only [nextTargets, allows_dyn, allows_onMot]
  exact genScope_mot _ _ ⟨rfl, rfl, Gen.takeTarget_p _ _ _, Gen.takeTarget_p _ _ _⟩

theorem allows_turnStop : genScope.Allows turnStop s := by
  simp only [turnStop, allows_dyn]
  split
  · split
    · simp only [allows_on, allows_onMot]
      exact fun _ => genScope_mot _ _ ⟨rfl, rfl, rfl, Gen.goTo_p _ _ _⟩
    · simp only [allows_on, allows_onMot]
      exact fun _ => genScope_mot _ _ ⟨rfl, rfl, rfl, rfl⟩
  · trivial

theorem allows_noteSlow : genScope.Allows noteSlow s := by
  simp only [noteSlow, allows_dyn, allows_on, allows_seq, allows_onMot, allows_raise, implies_true, and_true]
  exact fun _ => genScope_mot _ _ ⟨rfl, rfl, rfl, rfl⟩

theorem allows_cruise : genScope.Allows cruise s := by
  simp only [cruise, sampleSpeed, allows_seq, allows_dyn, allows_on]
  refine ⟨allows_turnStop s, fun t _ => ?_⟩
  split
  · simp only [allows_seq, allows_on, allows_onMot]
    exact ⟨allows_noteSlow t, fun t _ => genScope_mot _ _ ⟨rfl, rfl, rfl, rfl⟩⟩
  · trivial

theorem allows_moveTo (y x : Rat) (phase : Phase) (stripe : Nat) : genScope.Allows (moveTo y x phase stripe) s := by
  simp only [moveTo, allows_dyn, allows_onMot]
  exact genScope_mot _ _ ⟨rfl, rfl, Gen.goTo_p _ _ _, Gen.goTo_p _ _ _⟩

theorem allows_turnRest : genScope.Allows turnRest s := by
  simp only [turnRest, allows_dyn]
  split
  · rw [allows_on]
    exact fun _ => allows_moveTo s _ _ _ _
  · simp only [allows_ite, allows_seq, allows_on, allows_onJob, allows_onMot, allows_raise, implies_true, and_true]
    exact ⟨fun _ => ⟨fun _ => ⟨allows_genEnter s (by decide), fun t => genScope_job _ _⟩, fun _ _ => genScope_job _ _⟩,
      fun _ _ => genScope_mot _ _ ⟨rfl, rfl, rfl, rfl⟩⟩

theorem allows_rackPeriod : genScope.Allows rackPeriod s := by
  simp only [rackPeriod, allows_dyn]
  split
  · rw [allows_on]
    intro _
    split
    · exact genScope_mot _ _ ⟨rfl, rfl, rfl, rfl⟩
    · trivial
  · rw [allows_on]
    exact fun _ => genScope_mot _ _ ⟨rfl, rfl, rfl, rfl⟩
  · exact genScope_mot _ _ ⟨rfl, rfl, rfl, rfl⟩
  · rw [allows_on]
    exact fun _ => allows_cruise s

theorem allows_phasePeriod : genScope.Allows phasePeriod s := by
  have hmot : ∀ (x : MotBlk), s.b.mot.SamePlace x → genScope.blocks s.b { s.b with mot := x } := fun x h => genScope_mot _ _ h
  simp only [phasePeriod, allows_dyn]
  split
  · trivial
  · rw [allows_on]
    exact fun _ => hmot _ ⟨rfl, rfl, rfl, rfl⟩
  · rw [allows_on]
    exact fun _ => ⟨hmot _ ⟨rfl, rfl, rfl, rfl⟩, allows_cruise⟩
  · rw [allows_ite]
    exact ⟨fun _ => allows_cruise s, fun _ => allows_turnStop s⟩
  · rw [allows_on]
    exact fun _ => allows_turnRest s
  · exact allows_rackPeriod s
  · rw [allows_on]
    exact fun _ => hmot _ ⟨rfl, rfl, rfl, rfl⟩

/-- What a period brings about before its setpoint, once its role changes and its register writes are made. -/
def periodSteps : Act :=
  acts [rackReverse, rackArrive, disarmDone, moveDone, stopAtRest, stepRates, sendSpeed, nextTargets, phasePeriod]

theorem allows_periodSteps : genScope.Allows periodSteps s := by
  simp only [periodSteps, stepRates, allows_cons, allows_onCel, allows_nil, implies_true, and_true]
  exact ⟨allows_rackReverse s, fun t => ⟨allows_rackArrive t, fun t => ⟨allows_disarmDone t, fun t => ⟨allows_moveDone t, fun t =>
    ⟨allows_stopAtRest t, fun t => ⟨genScope_cel _ _, fun t => ⟨allows_sendSpeed t, fun t => ⟨allows_nextTargets t, fun t =>
      allows_phasePeriod t⟩⟩⟩⟩⟩⟩⟩⟩

end

end Sys2Proof.Machine
end

section
/-! SUPPORT. The setpoint that a period yields (R244, R245, R255), and the statement on setpoints, run-ins, rackings and
launches. -/

namespace Sys2Proof.Machine

variable {s t u v : State} {k : Nat}

/-! ### The state at a setpoint -/

/-- A state at which the setpoint of period `k` is put out, with the setpoints, the places, the queue and the settings of
another. -/
structure State.AtPeriod (s v : State) (k : Nat) : Prop where
  period : v.b.mot.period = k
  sps : v.b.mot.sps = s.b.mot.sps
  y : v.b.mot.y.p = s.b.mot.y.p
  x : v.b.mot.x.p = s.b.mot.x.p
  ltq : v.b.tim.ltq = s.b.tim.ltq
  cfg : v.rd R.MOT_CFG = s.rd R.MOT_CFG
  lead : v.rd R.MOT_LEAD = s.rd R.MOT_LEAD
  role : v.role = s.role

theorem State.AtPeriod.refl (s : State) : s.AtPeriod s s.b.mot.period := ⟨rfl, rfl, rfl, rfl, rfl, rfl, rfl, rfl⟩

section
variable (h : s.AtPeriod v k)
include h

theorem State.AtPeriod.flag : v.flag F.MOT_CFG_EN = s.flag F.MOT_CFG_EN := by simp only [State.flag, State.fld, h.cfg]
theorem State.AtPeriod.queue : v.fld F.MOT_CFG_LTQ = s.fld F.MOT_CFG_LTQ := by simp only [State.fld, h.cfg]
theorem State.AtPeriod.launches : v.launches = s.launches := by simp only [State.launches, h.role, h.flag]
theorem State.AtPeriod.leadPeriods : v.leadPeriods = s.leadPeriods := by simp only [State.leadPeriods, State.fld, h.lead]
theorem State.AtPeriod.leadNs : v.leadNs = s.leadNs := by simp only [State.leadNs, h.leadPeriods]
theorem State.AtPeriod.ltqAhead : v.ltqAhead = s.ltqAhead := by simp only [State.ltqAhead, h.launches, h.leadPeriods]
theorem State.AtPeriod.ltqDepth (q : Nat) : v.ltqDepth q = s.ltqDepth q := by
  simp only [State.ltqDepth, h.ltq, h.queue, h.ltqAhead]
theorem State.AtPeriod.ltqUsed : v.ltqUsed = s.ltqUsed := by simp only [State.ltqUsed, h.ltq, h.ltqAhead]

/-- An effect within the scope of a period leads to such a state again. -/
theorem State.AtPeriod.steps (r : genScope.Rel v t) : s.AtPeriod t k where
  period := r.blocks.mot.period.trans h.period
  sps := r.blocks.mot.sps.trans h.sps
  y := r.blocks.mot.y.trans h.y
  x := r.blocks.mot.x.trans h.x
  ltq := r.blocks.ltq.trans h.ltq
  cfg := (r.rd _ (by decide)).trans h.cfg
  lead := (r.rd _ (by decide)).trans h.lead
  role := (r.part .role (by decide) (by decide)).trans h.role

/-- So does an effect that leaves the generator, the queue and the settings alone. -/
theorem State.AtPeriod.framed {rg : Nat → Bool} {ps : List Part} (f : framed rg ps v t) (h1 : rg R.MOT_CFG = false)
    (h2 : rg R.MOT_LEAD = false) (h3 : Part.bMot ∉ ps) (h4 : Part.bTim ∉ ps) (h5 : Part.role ∉ ps) : s.AtPeriod t k := by
  have hm : t.b.mot = v.b.mot := f.2.2 .bMot h3
  have ht : t.b.tim = v.b.tim := f.2.2 .bTim h4
  exact ⟨by rw [hm, h.period], by rw [hm, h.sps], by rw [hm, h.y], by rw [hm, h.x], by rw [ht, h.ltq], (f.2.1 _ h1).trans h.cfg,
    (f.2.1 _ h2).trans h.lead, (f.2.2 .role h5).trans h.role⟩

end

/-! ### A setpoint is put out and queued (R255) -/

/-- The scope of a frame that is offered: the generator stays in its place. -/
def placeScope : Scope where
  regs _ := true
  parts := []
  blocks b c := b.mot.SamePlace c.mot
  refl _ := .refl _
  trans h k := h.trans k
  net _ _ := .refl _

theorem allows_queueSetpoint (s : State) (p : Setpoint) (at' : Nat) : placeScope.Allows (queueSetpoint p at') s := by
  have hreg : ∀ a, (eventRegs a || placeScope.regs a) = true := fun _ => Bool.or_true _
  have hmot : ∀ (b : Blocks) (x : MotBlk), b.mot.SamePlace x → placeScope.blocks b { b with mot := x } := fun _ _ h => h
  simp only [queueSetpoint, ltqOffer, setpointLate, allows_dyn, allows_seq, allows_ite, allows_on, allows_addR, allows_onMot,
    allows_onTim, allows_raise, hreg, implies_true, and_true, true_and]
  exact ⟨allows_each _ s fun k _ t => allows_bistRequest hreg (fun b x _ => .refl _) t k,
    fun t => ⟨fun _ _ _ u _ => hmot u.b _ ⟨rfl, rfl, rfl, rfl⟩, fun _ => .refl _⟩⟩

/-- A frame that finds room is queued (R316). -/
theorem ltqOffer_queues {f : LtqFrame} (h1 : v.ltqDepth f.queue < 256) (h2 : v.ltqUsed < 1024) :
    f ∈ ((ltqOffer f).run v).b.tim.ltq := by
  have hb : framed accessRegs (.bBst :: eventParts) v ((bistPage 0xC3).run v) := within_bistPage v
  have hu := (State.AtPeriod.refl v).framed hb (by decide) (by decide) (by decide) (by decide) (by decide)
  rw [ltqOffer, run_seq]
  generalize (bistPage 0xC3).run v = u at *
  have hroom : ¬ (256 ≤ u.ltqDepth f.queue ∨ 1024 ≤ u.ltqUsed) := by
    rw [hu.ltqDepth, hu.ltqUsed]
    omega
  rw [run_dyn, if_neg hroom, run_onTim]
  exact List.mem_append_right _ (List.mem_singleton.mpr rfl)

/-- A setpoint that is put out. -/
def noteSetpoint (p : Setpoint) : Act := onMot fun m => { m with sps := p :: m.sps.take 511, replan := false }

/-- The number of the next setpoint (R255). -/
def State.nextSeq (s : State) : Nat :=
  let last := match s.b.mot.sps with | x :: _ => x.seq | [] => 0
  (if s.flag F.MOT_CFG_EN then last + 1 else last) % 2 ^ 32

/-- The setpoint that a period puts out. -/
def State.putOut (v : State) : Setpoint := v.setpoint v.b.mot.period v.nextSeq

theorem putSetpoint_run (v : State) : putSetpoint.run v = (on v.launches (queueSetpoint v.putOut
    (v.b.mot.period * 50000 - v.leadNs))).run ((noteSetpoint v.putOut).run v) := by
  have hout : v.putOut = v.setpoint v.b.mot.period v.nextSeq := rfl
  rw [putSetpoint, run_dyn, hout]
  dsimp only
  rw [run_seq]
  rfl

/-- The setpoint of a period is the newest, and a launching device queues its frame for its launch (R244, R255). -/
theorem putSetpoint_effect (h : s.AtPeriod v k) : (putSetpoint.run v).b.mot.period = k ∧
    (putSetpoint.run v).b.mot.sps.head? = some v.putOut ∧
    (s.launches = true → s.ltqDepth (s.fld F.MOT_CFG_LTQ) < 256 → s.ltqUsed < 1024 →
      ∃ f ∈ (putSetpoint.run v).b.tim.ltq, f.queue = s.fld F.MOT_CFG_LTQ ∧ f.type = 0x30 ∧ f.payload = v.putOut.bytes ∧
        f.entry = none ∧ f.at' = k * 50000 - s.leadNs) := by
  rw [putSetpoint_run, h.launches, h.leadNs, h.period]
  generalize v.putOut = p
  have hw : ((noteSetpoint p).run v).b.mot.period = k ∧ ((noteSetpoint p).run v).b.mot.sps.head? = some p ∧
      ((noteSetpoint p).run v).fld F.MOT_CFG_LTQ = s.fld F.MOT_CFG_LTQ ∧
      (∀ q, ((noteSetpoint p).run v).ltqDepth q = s.ltqDepth q) ∧ ((noteSetpoint p).run v).ltqUsed = s.ltqUsed :=
    ⟨h.period, rfl, h.queue, h.ltqDepth, h.ltqUsed⟩
  generalize (noteSetpoint p).run v = w at *
  obtain ⟨hperiod, hhead, hqueue, hdepth, hused⟩ := hw
  have hplace : w.b.mot.SamePlace ((on s.launches (queueSetpoint p (k * 50000 - s.leadNs))).run w).b.mot :=
    ((allows_on placeScope w s.launches _).mpr fun _ => allows_queueSetpoint w p _).rel.blocks
  refine ⟨hplace.period.trans hperiod, by rw [hplace.sps, hhead], fun hl h1 h2 => ?_⟩
  rw [hl, on_true, queueSetpoint, run_dyn, hqueue]
  exact ⟨_, ltqOffer_queues (by rw [hdepth]; exact h1) (by rw [hused]; exact h2), rfl, rfl, rfl, rfl, Nat.div_add_mod' _ _⟩

/-! ### A period (R244) -/

/-- The state of a period before its steps: its number is noted, and time has come to its setpoint. -/
def State.periodStart (s : State) (k : Nat) : State :=
  (advanceToTraj (k * periodUnits - s.leadNs * 2 ^ 32)).run ((onMot fun m => { m with period := k }).run
    ((on (!s.atRest) (bistPage 0xB4)).run s))

theorem setpointPeriod_run (h1 : s.dev ≠ .off) (h2 : s.dev ≠ .reset) (h3 : s.dev ≠ .dormant) : exec .setpointPeriod s =
    .next (advanceAxes.run (putSetpoint.run (periodSteps.run (dueWrites.run (dueRole.run
      (({ s with out := [] } : State).periodStart s.nextPeriod)))))) := by
  have hd : ¬ (({ s with out := [] } : State).dev = .off ∨ ({ s with out := [] } : State).dev = .reset ∨
      ({ s with out := [] } : State).dev = .dormant) := by
    rintro (h | h | h)
    · exact h1 h
    · exact h2 h
    · exact h3 h
  have hk : ({ s with out := [] } : State).nextPeriod = s.nextPeriod := rfl
  show execSetpointPeriod s = _
  rw [execSetpointPeriod, perform_eq, run_dyn, if_neg hd, hk, State.periodStart, periodSteps]
  dsimp only
  generalize s.nextPeriod = k
  repeat rw [run_acts_cons]
  rw [run_acts_nil, run_acts_nil]

theorem periodStart_at (s : State) (k : Nat) : s.AtPeriod (s.periodStart k) k ∧
    (s.periodStart k).b.par = s.b.par ∧ (s.periodStart k).b.mot = { s.b.mot with period := k } := by
  rw [State.periodStart]
  generalize (k * periodUnits - s.leadNs * 2 ^ 32 : Int) = e
  have h1 : framed accessRegs (.bBst :: eventParts) s ((on (!s.atRest) (bistPage 0xB4)).run s) := within_on within_bistPage s
  generalize (on (!s.atRest) (bistPage 0xB4)).run s = a at *
  have hmot : a.b.mot = s.b.mot := h1.2.2 .bMot (by decide)
  have hpar : a.b.par = s.b.par := h1.2.2 .bPar (by decide)
  have htim : a.b.tim = s.b.tim := h1.2.2 .bTim (by decide)
  have h2 : s.AtPeriod ((onMot fun m => { m with period := k }).run a) k :=
    ⟨rfl, show a.b.mot.sps = _ by rw [hmot], show a.b.mot.y.p = _ by rw [hmot], show a.b.mot.x.p = _ by rw [hmot],
      show a.b.tim.ltq = _ by rw [htim], h1.2.1 _ (by decide), h1.2.1 _ (by decide), h1.2.2 .role (by decide)⟩
  have hb : ((onMot fun m => { m with period := k }).run a).b.par = s.b.par ∧
      ((onMot fun m => { m with period := k }).run a).b.mot = { s.b.mot with period := k } := by
    rw [← hpar, ← hmot]
    exact ⟨rfl, rfl⟩
  generalize (onMot fun m => { m with period := k }).run a = b at *
  have h3 : framed (fun _ => false) [.bTim, .bAge, .bPos] b ((advanceToTraj e).run b) :=
    within_dyn (fun _ => within_on (within_advance (by decide) (by decide) (by decide) _)) b
  exact ⟨h2.steps (allows_advanceToTraj b e).rel, (h3.2.2 .bPar (by decide)).trans hb.1, (h3.2.2 .bMot (by decide)).trans hb.2⟩

theorem dueRole_none (h : s.b.par.roleAt = none) : dueRole.run s = s := by
  rw [dueRole, run_dyn, h, run_nop]

theorem State.AtPeriod.of_clear (h : ({ s with out := [] } : State).AtPeriod v k) : s.AtPeriod v k :=
  ⟨h.period, h.sps, h.y, h.x, h.ltq, h.cfg, h.lead, h.role⟩

/-- The setpoint that is put out has the period's number, the next number of its own, and the places of the axes. -/
theorem putOut_effect (h : s.AtPeriod v k) : v.putOut.period = k ∧ v.putOut.seq = s.nextSeq ∧ v.putOut.y = s.b.mot.y.p ∧
    v.putOut.x = s.b.mot.x.p := by
  have hseq : v.nextSeq = s.nextSeq := by simp only [State.nextSeq, h.sps, h.flag]
  rw [← h.period, ← hseq, ← h.y, ← h.x]
  exact ⟨rfl, rfl, rfl, rfl⟩

theorem advanceAxes_effect (s : State) : (advanceAxes.run s).b.mot.period = s.b.mot.period + 1 ∧
    (advanceAxes.run s).b.mot.sps = s.b.mot.sps ∧ (advanceAxes.run s).b.tim = s.b.tim := ⟨rfl, rfl, rfl⟩

/-- Each period yields one setpoint (R244, R245, R255). -/
theorem setpointPeriod_yields (h1 : s.dev ≠ .off) (h2 : s.dev ≠ .reset) (h3 : s.dev ≠ .dormant) (hw : s.b.mot.writes = [])
    (hr : s.b.par.roleAt = none) :
    ∃ t, exec .setpointPeriod s = .next t ∧ t.b.mot.period = s.nextPeriod + 1 ∧
      ∃ p, t.b.mot.sps.head? = some p ∧ p.period = s.nextPeriod ∧ p.seq = s.nextSeq ∧
      (s.launches = true → s.ltqDepth (s.fld F.MOT_CFG_LTQ) < 256 → s.ltqUsed < 1024 → ∃ f ∈ t.b.tim.ltq,
        f.queue = s.fld F.MOT_CFG_LTQ ∧ f.type = 0x30 ∧ f.payload = p.bytes ∧ f.entry = none ∧
        f.at' = s.nextPeriod * 50000 - s.leadNs) ∧ p.y = s.b.mot.y.p ∧ p.x = s.b.mot.x.p := by
  obtain ⟨hat, hpar, hmot⟩ := periodStart_at { s with out := [] } s.nextPeriod
  have hat := hat.of_clear
  rw [setpointPeriod_run h1 h2 h3]
  refine ⟨_, rfl, ?_⟩
  generalize ({ s with out := [] } : State).periodStart s.nextPeriod = u at *
  generalize s.nextPeriod = k at *
  have hrole : u.b.par.roleAt = none := by rw [hpar]; exact hr
  have hwrites : u.b.mot.writes = [] := by rw [hmot]; exact hw
  rw [dueRole_none hrole]
  have hv := (hat.steps (allows_dueWrites u hwrites).rel).steps (allows_periodSteps _).rel
  generalize periodSteps.run (dueWrites.run u) = v at *
  obtain ⟨hperiod, hhead, hqueued⟩ := putSetpoint_effect hv
  obtain ⟨hpk, hps, hpy, hpx⟩ := putOut_effect hv
  generalize v.putOut = p at *
  generalize putSetpoint.run v = w at *
  obtain ⟨hnext, hsps, htim⟩ := advanceAxes_effect w
  generalize advanceAxes.run w = t at *
  rw [hnext, hsps, htim, hperiod]
  exact ⟨rfl, p, hhead, hpk, hps, hqueued, hpy, hpx⟩

/-- Settles O38: periods by the states they lead through, run-ins, dwells and launches each by its effect. -/
theorem setpointsRunInsRackingsAndLaunchesProceed : Obligations.SetpointsRunInsRackingsAndLaunchesProceed := by
  intro s
  refine ⟨fun h1 h2 h3 hw hr => ?_, fun r hr hm => runInStart_starts hr hm, fun n hn =>
    ⟨fun hp hd hready => rackDwellEnd_reenters hn hp hd hready, rackDwellEnd_waits hn, rackAbandon_stops hn, rackAbandon_waits hn⟩,
    fun q f hf hq hp => ⟨ltqLaunch_lost hf hq hp, ltqLaunch_sends hf hq hp, ltqLaunch_late hf hq hp⟩⟩
  obtain ⟨t, ht, hperiod, p, hhead, hpk, hseq, hqueued, hy, hx⟩ := setpointPeriod_yields h1 h2 h3 hw hr
  refine ⟨t, ht, hperiod, p, hhead, hpk, ?_, hqueued, fun _ _ _ _ => ⟨hy, hx⟩⟩
  rw [hseq]
  unfold State.nextSeq
  cases s.flag F.MOT_CFG_EN <;> rfl

end Sys2Proof.Machine
end

section
/-! SUPPORT. Fields after the write of a one-bit field, bits that a write stores, and the first error of a page (R11, R424). -/

namespace Sys2Proof.Machine

section
variable (s : State)

theorem fld_setB_bits (g f : Fld) (v : Bool) (ha : g.addr = f.addr) (hf : g.lo + g.width ≤ 32)
    (h : g.lo + g.width ≤ f.lo ∨ f.lo + f.width ≤ g.lo) : ((setB g v).run s).fld f = s.fld f :=
  fld_setF_bits s g f _ ha hf h

theorem fld_setR_addr (a v : Nat) (f : Fld) (h : a ≠ f.addr) : ((setR a v).run s).fld f = s.fld f := by
  rw [State.fld, rd_setR_ne s a f.addr v h, State.fld]

theorem raise_fld (e : Evt) (f : Fld) (h : eventRegs f.addr = false) : ((raise e).run s).fld f = s.fld f :=
  framed_fld (raise_framed s e) f h

theorem framed_flag {rg : Nat → Bool} {ps : List Part} {s t : State} (h : framed rg ps s t) (f : Fld) (hf : rg f.addr = false) :
    t.flag f = s.flag f := by
  rw [State.flag, framed_fld h f hf, State.flag]

end

/-! ### Bits that a write stores (R11) -/

/-- Below a mask of low bits, a masked write leaves the bits written. -/
theorem maskedWrite_mod {k : Nat} (hk : k ≤ 32) (old w : Nat) :
    (old &&& (0xFFFFFFFF - (2 ^ k - 1)) ||| w &&& (2 ^ k - 1)) % 2 ^ k = w % 2 ^ k := by
  have hmask : (0xFFFFFFFF - (2 ^ k - 1)) % 2 ^ k = 0 := by
    have hpos := Nat.two_pow_pos k
    have he : 0xFFFFFFFF - (2 ^ k - 1) = 2 ^ 32 - 2 ^ k := by omega
    rw [he]
    exact Nat.mod_eq_zero_of_dvd (Nat.dvd_sub (pow_dvd_pow 2 hk) dvd_rfl)
  rw [Nat.or_mod_two_pow, Nat.and_mod_two_pow, hmask, Nat.and_zero, Nat.zero_or, Nat.and_two_pow_sub_one_eq_mod, Nat.mod_mod]

/-- A write of a register's low bits is read in the field that they are. -/
theorem fld_writeBits_low (s : State) {f : Fld} (hlo : f.lo = 0) (hw : f.width ≤ 32) (w : Word) :
    ((writeBits f.addr (2 ^ f.width - 1) w).run s).fld f = w.toNat % 2 ^ f.width := by
  rw [writeBits, run_dyn, State.fld, rd_setR_same, Fld.get, hlo, pow_zero, Nat.div_one,
    Nat.mod_mod_of_dvd _ (pow_dvd_pow 2 hw)]
  exact maskedWrite_mod hw _ _

/-! ### The first error of a page (R424) -/

/-- A page on which no error stands records the error's code and detail, and the register's offset. -/
theorem errD_first (s : State) {reg code detail page : Nat} (hp : reg / 0x1000 = page) (hb : page ≠ 0x00B)
    (hc : code < 256) (hd : detail < 256) (h : s.rd (pageReg page 0x020) / 2 ^ 16 % 2 ^ 15 = 0) :
    ((errD reg code detail).run s).rd (pageReg page 0x020) = 2 ^ 16 + detail * 2 ^ 8 + code ∧
      ((errD reg code detail).run s).rd (pageReg page 0x024) = reg - page * 0x1000 := by
  have hne : pageReg page 0x024 ≠ pageReg page 0x020 := by unfold pageReg; omega
  rw [errD, run_dyn, hp, if_neg hb]
  dsimp only
  rw [if_pos h, run_acts_cons, run_acts_cons, run_acts_nil]
  refine ⟨?_, ?_⟩
  · rw [rd_setR_ne _ _ _ _ hne, rd_setR_same]
    omega
  · rw [rd_setR_same]
    omega

end Sys2Proof.Machine
end

section
/-! SUPPORT. The commands of the LAT page and its parameters (R36, R38, R55, R56), and the statement on them. -/

namespace Sys2Proof.Machine

variable {s t : State}

@[simp] theorem served_checking (s : State) (page : Nat) : (s.served page).checking = s.checking := by
  rw [State.checking, served_fld s page _ (by decide), State.checking]

@[simp] theorem served_locked (s : State) (page : Nat) : (s.served page).locked = s.locked := by
  simp [State.locked]

/-! ### The commands -/

/-- Outside a check's run, a command that the state allows has its effect (R56). -/
theorem latCmd_run (hr : s.reaches 0x31 = true) (hc : s.checking = false) {cmd : Nat} (hd : s.dev = .ready ∨ cmd = 6)
    (a : Act) : perform (latCmd cmd a) s = .next (a.run (s.served 0x31)) := by
  have hstate : ((s.served 0x31).dev != .ready && cmd != 6) = false := by
    rcases hd with hd | rfl
    · simp [hd]
    · simp
  rw [latCmd, perform_toPage s _ _ hr, run_dyn, served_checking, hc, hstate]
  rfl

/-- While a check runs, every command is refused (R36, R56). -/
theorem latCmd_checking (hr : s.reaches 0x31 = true) (hc : s.checking = true) (cmd : Nat) (a : Act) :
    perform (latCmd cmd a) s = .next ((errD R.LAT_CMD Err.refused cmd).run (s.served 0x31)) := by
  rw [latCmd, perform_toPage s _ _ hr, run_dyn, served_checking, hc]
  rfl

/-- An open window: at index 0, with the check's state and result as they were (R56). -/
def State.opensLat (s : State) (window : Nat) (t : State) : Prop :=
  t.fld F.LAT_STAT_WINDOW = window ∧ t.fld F.LAT_IDX_INDEX = 0 ∧ t.fld F.LAT_STAT_CHK_STATE = s.fld F.LAT_STAT_CHK_STATE ∧
    t.fld F.LAT_STAT_RESULT = s.fld F.LAT_STAT_RESULT ∧ accessFrame [R.LAT_STAT, R.LAT_IDX] [] s t

/-- OPEN in READY (R56). -/
theorem openLat_opens (hr : s.reaches 0x31 = true) (hc : s.checking = false) (hd : s.dev = .ready) {window : Nat}
    (hw : window < 8) : ∃ t, perform (openLat window) s = .next t ∧ s.opensLat window t := by
  refine ⟨_, latCmd_run hr hc (.inl hd) _, ?_⟩
  have hframe := accessFrame_run (a := .seq (setF F.LAT_STAT_WINDOW window) (setF F.LAT_IDX_INDEX 0))
    (regs := [R.LAT_STAT, R.LAT_IDX]) (parts := []) s 0x31 (within_seq (within_setF (by decide)) (within_setF (by decide)))
  have hstat : (s.served 0x31).fld F.LAT_STAT_CHK_STATE = s.fld F.LAT_STAT_CHK_STATE := served_fld _ _ _ (by decide)
  have hres : (s.served 0x31).fld F.LAT_STAT_RESULT = s.fld F.LAT_STAT_RESULT := served_fld _ _ _ (by decide)
  rw [State.opensLat, ← hstat, ← hres]
  refine ⟨?_, ?_, ?_, ?_, hframe⟩ <;> rw [run_seq]
  · rw [fld_setF_addr _ _ _ _ (by decide), fld_setF_same _ _ _ (by decide)]
    exact Nat.mod_eq_of_lt hw
  · rw [fld_setF_same _ _ _ (by decide)]
    rfl
  · rw [fld_setF_addr _ _ _ _ (by decide), fld_setF_bits _ _ _ _ (by decide) (by decide) (by decide)]
  · rw [fld_setF_addr _ _ _ _ (by decide), fld_setF_bits _ _ _ _ (by decide) (by decide) (by decide)]

/-- CLOSE outside a check's run (R56). -/
theorem latClose_closes (hr : s.reaches 0x31 = true) (hc : s.checking = false) :
    ∃ t, exec .latClose s = .next t ∧ t.fld F.LAT_STAT_WINDOW = 0 ∧
      t.fld F.LAT_STAT_CHK_STATE = s.fld F.LAT_STAT_CHK_STATE ∧ accessFrame [R.LAT_STAT] [] s t := by
  refine ⟨_, latCmd_run hr hc (.inr rfl) _, ?_, ?_, accessFrame_run s 0x31 (within_setF (by decide))⟩
  · rw [fld_setF_same _ _ _ (by decide)]
    rfl
  · rw [fld_setF_bits _ _ _ _ (by decide) (by decide) (by decide), served_fld _ _ _ (by decide)]

/-- CHECK in READY (R36, R56). -/
theorem check_starts (hr : s.reaches 0x31 = true) (hc : s.checking = false) (hd : s.dev = .ready) :
    ∃ t, exec .check s = .next t ∧ t.fld F.LAT_STAT_WINDOW = 0 ∧ t.fld F.LAT_STAT_CHK_STATE = 1 ∧
      accessFrame [R.LAT_STAT] [] s t := by
  refine ⟨_, latCmd_run hr hc (.inl hd) _, ?_, ?_,
    accessFrame_run s 0x31 (within_seq (within_setF (by decide)) (within_setF (by decide)))⟩ <;> rw [run_seq]
  · rw [fld_setF_bits _ _ _ _ (by decide) (by decide) (by decide), fld_setF_same _ _ _ (by decide)]
    rfl
  · rw [fld_setF_same _ _ _ (by decide)]
    rfl

/-! ### The parameters (R38) -/

/-- A lattice parameter: its register, whose low bits are the one field that a write stores. -/
structure IsLatField (p : LatParam) (f : Fld) : Prop where
  reg : latParamReg p = f.addr
  lo : f.lo = 0
  width : f.width ≤ 32
  stat : R.LAT_STAT ≠ f.addr
  desc : ∃ d, regDesc f.addr = some d ∧ Nat.lor d.rw d.rwl = 2 ^ f.width - 1

theorem isLatField_step : IsLatField .step F.LAT_STEP_STEP := ⟨rfl, rfl, by decide, by decide, _, rfl, by decide⟩
theorem isLatField_dscale : IsLatField .dscale F.LAT_DSCALE_W := ⟨rfl, rfl, by decide, by decide, _, rfl, by decide⟩
theorem isLatField_cfg : IsLatField .cfg F.LAT_CFG_DEPTH := ⟨rfl, rfl, by decide, by decide, _, rfl, by decide⟩

/-- Outside a check's run and a job's lock, a write to a parameter stores its bits, and the tables are UNCHECKED (R38). -/
theorem latParamWrite_stores (hr : s.reaches 0x31 = true) (hc : s.checking = false) (hl : s.locked = false) {p : LatParam}
    {f : Fld} (h : IsLatField p f) (w : Word) :
    ∃ t, exec (.latParamWrite p w) s = .next t ∧ t.fld f = w.toNat % 2 ^ f.width ∧ t.fld F.LAT_STAT_CHK_STATE = 0 ∧
      accessFrame [f.addr, R.LAT_STAT] [] s t := by
  obtain ⟨d, hdesc, hmask⟩ := h.desc
  have hrun : exec (.latParamWrite p w) s =
      .next ((Act.seq (writeBits f.addr (2 ^ f.width - 1) w) uncheck).run (s.served 0x31)) := by
    show execLatParamWrite p w s = _
    rw [execLatParamWrite, perform_toPage s _ _ hr, latParamWrite, run_dyn, served_checking, served_locked, hc, hl, h.reg]
    simp only [Bool.or_false, Bool.false_eq_true, if_false, run_seq, writeLocked, run_dyn, served_locked, hl, hdesc, hmask,
      Bool.false_and, on_false, run_nop]
  refine ⟨_, hrun, ?_, ?_, accessFrame_run s 0x31 (within_seq (within_writeBits (by simp)) (within_setF (by simp)))⟩ <;>
    rw [run_seq, uncheck]
  · rw [fld_setF_addr _ _ _ _ h.stat, fld_writeBits_low _ h.lo h.width]
  · rw [fld_setF_same _ _ _ (by decide)]
    rfl

/-! ### While a check runs (R36, R38) -/

/-- An error of the LAT page, on which none stands, is recorded, and nothing else changes (R424). -/
theorem latError_recorded (h : s.rd (pageReg 0x31 0x020) / 2 ^ 16 % 2 ^ 15 = 0) {reg code detail : Nat}
    (hp : reg / 0x1000 = 0x31) (hc : code < 256) (hd : detail < 256) :
    ((errD reg code detail).run (s.served 0x31)).rd (pageReg 0x31 0x020) = 2 ^ 16 + detail * 2 ^ 8 + code ∧
      ((errD reg code detail).run (s.served 0x31)).rd (pageReg 0x31 0x024) = reg - 0x31000 ∧
      accessFrame [pageReg 0x31 0x020, pageReg 0x31 0x024] [] s ((errD reg code detail).run (s.served 0x31)) := by
  have hcount : (s.served 0x31).rd (pageReg 0x31 0x020) / 2 ^ 16 % 2 ^ 15 = 0 := by rwa [served_rd _ _ _ (by decide)]
  obtain ⟨hcause, hoff⟩ := errD_first _ hp (by decide) hc hd hcount
  exact ⟨hcause, hoff, accessFrame_run s 0x31 (within_errD (page := 0x31) (by rw [hp]; rfl) (by decide) (by decide))⟩

/-- The commands of LAT_CMD, by their numbers (R56). -/
theorem latCommands_latCmd (s : State) : ∀ p ∈ [(Instr.openLattice, 1), (.openGain, 2), (.openDerived, 3), (.openClass, 4),
    (.openLees, 5), (.latClose, 6), (.check, 7)], p.2 < 256 ∧ ∃ a, exec p.1 s = perform (latCmd p.2 a) s := by
  simp only [List.forall_mem_cons, List.not_mem_nil, false_imp_iff, implies_true, and_true]
  exact ⟨⟨by decide, _, rfl⟩, ⟨by decide, _, rfl⟩, ⟨by decide, _, rfl⟩, ⟨by decide, _, rfl⟩, ⟨by decide, _, rfl⟩,
    ⟨by decide, _, rfl⟩, by decide, _, rfl⟩

/-- A write to a lattice parameter is ignored while a check runs (R38). -/
theorem latParamWrite_ignored (hr : s.reaches 0x31 = true) (hc : s.checking = true) (p : LatParam) (w : Word) :
    exec (.latParamWrite p w) s = .next ((errD (latParamReg p) Err.locked 0).run (s.served 0x31)) := by
  show execLatParamWrite p w s = _
  rw [execLatParamWrite, perform_toPage s _ _ hr, latParamWrite, run_dyn, served_checking, hc]
  rfl

/-- Settles O19: each command of the LAT page by what it does outside a check's run, and all of them refused while one runs. -/
theorem latticeCommandsTakeEffectOutsideAChecksRun : Obligations.LatticeCommandsTakeEffectOutsideAChecksRun := by
  intro s hr
  refine ⟨fun hc => ⟨fun hd => ?_, latClose_closes hr hc, fun hd => check_starts hr hc hd, fun hl w => ?_⟩,
    fun hc hcount => ⟨fun p hp => ?_, fun p w => ?_⟩⟩
  · have opens : ∀ window < 8, ∃ t, perform (openLat window) s = .next t ∧ s.opensLat window t :=
      fun _ => openLat_opens hr hc hd
    exact ⟨opens 1 (by decide), opens 2 (by decide), opens 3 (by decide), opens 4 (by decide), opens 5 (by decide)⟩
  · exact ⟨latParamWrite_stores hr hc hl isLatField_step w, latParamWrite_stores hr hc hl isLatField_dscale w,
      latParamWrite_stores hr hc hl isLatField_cfg w⟩
  · obtain ⟨hcmd, a, hexec⟩ := latCommands_latCmd s p hp
    exact ⟨_, hexec.trans (latCmd_checking hr hc p.2 a), latError_recorded hcount (by decide) (by decide) hcmd⟩
  · exact ⟨_, latParamWrite_ignored hr hc p w,
      latError_recorded hcount (by cases p <;> rfl) (by decide) (by decide)⟩

end Sys2Proof.Machine
end

section
/-! SUPPORT. The end of the lattice check (R36 to R38, R57, R130, R262), and the statement on it. -/

namespace Sys2Proof.Machine

variable {s : State}

/-- Effects of two lists, one after the other. -/
theorem run_acts_append (s : State) (as bs : List Act) : (acts (as ++ bs)).run s = (acts bs).run ((acts as).run s) := by
  induction as generalizing s with
  | nil => rfl
  | cons a as ih => exact ih (a.run s)

/-- The outcome of the check on what it reads: it refuses, or it passes. -/
def checkOutcome (t : LatIn) : Act := match t.check with | some x => latRefused x | none => latPassed t

theorem checkOutcome_refuses {t : LatIn} {x : LatBad} (h : t.check = some x) : checkOutcome t = latRefused x := by
  rw [checkOutcome, h]

theorem checkOutcome_passes {t : LatIn} (h : t.check = none) : checkOutcome t = latPassed t := by
  rw [checkOutcome, h]

/-- The end of a running check is its outcome on the tables (R57). -/
theorem checkDone_run (hc : s.checking = true) (hp : s.powered 1 = true) :
    exec .checkDone s = .next ((checkOutcome s.latIn).run { s with out := [] }) := by
  have hon : (({ s with out := [] } : State).checking && ({ s with out := [] } : State).powered 1) = true := by
    show (s.checking && s.powered 1) = true
    rw [hc, hp]
    rfl
  show execCheckDone s = _
  rw [execCheckDone, perform_eq, run_dyn, hon, on_true]
  rfl

/-! ### A check that refuses (R36, R57) -/

theorem within_latRefused (x : LatBad) : (latRefused x).Within (fun a => eventRegs a || [R.LAT_STAT, R.LAT_BAD].contains a)
    (eventParts ++ []) :=
  within_cons (within_setF (by decide)) (within_cons (within_setF (by decide)) (within_cons (within_setR (by decide))
    (within_cons (within_raise eventFrame_allows) within_nil)))

/-- A refusal writes its verdict and where it lies, and raises its event. -/
theorem latRefused_verdict (s : State) (x : LatBad) :
    ((latRefused x).run s).fld F.LAT_STAT_CHK_STATE = 3 ∧ ((latRefused x).run s).fld F.LAT_STAT_RESULT = x.result % 16 ∧
      ((latRefused x).run s).rd R.LAT_BAD = (x.cls % 256 * 2 ^ 20 + x.index) % 2 ^ 32 ∧
      ((latRefused x).run s).raised E.LAT_CHECK_REFUSED = true := by
  rw [latRefused, run_acts_cons, run_acts_cons, run_acts_cons, run_acts_cons, run_acts_nil]
  refine ⟨?_, ?_, ?_, raise_raised (by decide) _⟩
  · rw [raise_fld _ _ _ (by decide), fld_setR_addr _ _ _ _ (by decide),
      fld_setF_bits _ _ _ _ (by decide) (by decide) (by decide), fld_setF_same _ _ _ (by decide)]
    rfl
  · rw [raise_fld _ _ _ (by decide), fld_setR_addr _ _ _ _ (by decide), fld_setF_same _ _ _ (by decide)]
    rfl
  · rw [raise_rd _ _ _ (by decide), rd_setR_same]

/-- A refusal leaves every field of LAT_STAT but the verdict's as it was. -/
theorem latRefused_keeps (s : State) (x : LatBad) {f : Fld} (ha : f.addr = R.LAT_STAT) (hlo : 8 ≤ f.lo) :
    ((latRefused x).run s).fld f = s.fld f := by
  have hbad : R.LAT_BAD ≠ f.addr := by rw [ha]; decide
  rw [latRefused, run_acts_cons, run_acts_cons, run_acts_cons, run_acts_cons, run_acts_nil, raise_fld _ _ _ (by rw [ha]; decide),
    fld_setR_addr _ _ _ _ hbad, fld_setF_bits _ F.LAT_STAT_RESULT f _ ha.symm (by decide) (.inl (le_trans (by decide) hlo)),
    fld_setF_bits _ F.LAT_STAT_CHK_STATE f _ ha.symm (by decide) (.inl (le_trans (by decide) hlo))]

/-! ### A check that passes (R37, R38, R57, R130, R262) -/

/-- The verdict of a check that passes: PASS and the flags of its figures (R57). -/
def passVerdict (t : LatIn) : List Act :=
  [setF F.LAT_STAT_CHK_STATE 2, setF F.LAT_STAT_RESULT 0, setB F.LAT_STAT_UNEVEN (t.nvisMin != t.nvisMax),
    setB F.LAT_STAT_QMISM (t.qmism != 0), setB F.LAT_STAT_CLOSE_HOT (t.hot false != 0 || t.hot true != 0)]

/-- The figures of a check that passes (R57). -/
def passFigures (t : LatIn) : List Act :=
  [setR R.LAT_DYMAX t.dymax, setR R.LAT_NVIS (t.nvisMax * 2 ^ 8 + t.nvisMin), setR R.LAT_QMISM_CNT t.qmism,
    setR R.LAT_HOTF (t.hot false), setR R.LAT_HOTR (t.hot true), setR R.LAT_DEAD_CNT t.dead]

/-- What follows a check that passes: its event, the fit, and the envelopes checked again (R130, R235). -/
def passFollowers (t : LatIn) : List Act := [raise E.LAT_CHECK_DONE, latFit t, checkEnvelopes]

theorem latPassed_eq (t : LatIn) : latPassed t = acts ((onLat fun l => { l with cap := some t }) ::
    (passVerdict t ++ (passFigures t ++ (passFollowers t ++ [requestDigest 0])))) := rfl

theorem latPassed_run (s : State) (t : LatIn) : (latPassed t).run s = (requestDigest 0).run ((acts (passFollowers t)).run
    ((acts (passFigures t)).run ((acts (passVerdict t)).run ((onLat fun l => { l with cap := some t }).run s)))) := by
  rw [latPassed_eq, run_acts_cons, run_acts_append, run_acts_append, run_acts_append, run_acts_cons, run_acts_nil]

theorem within_passVerdict (t : LatIn) : (acts (passVerdict t)).Within (fun a => [R.LAT_STAT].contains a) [] :=
  within_cons (within_setF (by decide)) (within_cons (within_setF (by decide)) (within_cons (within_setB (by decide))
    (within_cons (within_setB (by decide)) (within_cons (within_setB (by decide)) within_nil))))

theorem passVerdict_pass (s : State) (t : LatIn) : ((acts (passVerdict t)).run s).fld F.LAT_STAT_CHK_STATE = 2 ∧
    ((acts (passVerdict t)).run s).fld F.LAT_STAT_RESULT = 0 ∧
    ((acts (passVerdict t)).run s).fld F.LAT_STAT_WINDOW = s.fld F.LAT_STAT_WINDOW := by
  rw [passVerdict, run_acts_cons, run_acts_cons, run_acts_cons, run_acts_cons, run_acts_cons, run_acts_nil]
  refine ⟨?_, ?_, ?_⟩ <;> simp (disch := decide) only [fld_setB_bits]
  · rw [fld_setF_bits _ _ _ _ (by decide) (by decide) (by decide), fld_setF_same _ _ _ (by decide)]
    rfl
  · rw [fld_setF_same _ _ _ (by decide)]
    rfl
  · rw [fld_setF_bits _ _ _ _ (by decide) (by decide) (by decide), fld_setF_bits _ _ _ _ (by decide) (by decide) (by decide)]

/-- The registers of the figures. -/
def figureRegs : List Nat := [R.LAT_DYMAX, R.LAT_NVIS, R.LAT_QMISM_CNT, R.LAT_HOTF, R.LAT_HOTR, R.LAT_DEAD_CNT]

theorem within_passFigures (t : LatIn) : (acts (passFigures t)).Within (fun a => figureRegs.contains a) [] :=
  within_cons (within_setR (by decide)) (within_cons (within_setR (by decide)) (within_cons (within_setR (by decide))
    (within_cons (within_setR (by decide)) (within_cons (within_setR (by decide)) (within_cons (within_setR (by decide))
      within_nil)))))

theorem passFigures_rd (s : State) (t : LatIn) : ((acts (passFigures t)).run s).rd R.LAT_DYMAX = t.dymax % 2 ^ 32 ∧
    ((acts (passFigures t)).run s).rd R.LAT_NVIS = (t.nvisMax * 2 ^ 8 + t.nvisMin) % 2 ^ 32 ∧
    ((acts (passFigures t)).run s).rd R.LAT_DEAD_CNT = t.dead % 2 ^ 32 ∧
    ((acts (passFigures t)).run s).rd R.LAT_QMISM_CNT = t.qmism % 2 ^ 32 := by
  rw [passFigures, run_acts_cons, run_acts_cons, run_acts_cons, run_acts_cons, run_acts_cons, run_acts_cons, run_acts_nil]
  refine ⟨?_, ?_, rd_setR_same _ _ _, ?_⟩ <;> simp (disch := decide) only [rd_setR_ne, rd_setR_same]

theorem within_checkEnvelope (stripe : Nat) :
    (checkEnvelope stripe).Within (fun a => eventRegs a || [R.CSK_FIT, R.CSK_LEAD].contains a) (eventParts ++ [.bJob]) := by
  refine within_dyn fun _ => ?_
  split
  · exact within_ite (within_cons (within_onJob (by decide)) (within_cons (within_raise eventFrame_allows) within_nil)) within_nop
  · exact within_nop

theorem within_latFit (t : LatIn) :
    (latFit t).Within (fun a => eventRegs a || [R.CSK_FIT, R.CSK_LEAD].contains a) (eventParts ++ [.bJob]) :=
  within_cons (within_setR (by decide)) (within_cons (within_setR (by decide))
    (within_cons (within_on (within_raise eventFrame_allows)) within_nil))

theorem within_passFollowers (t : LatIn) :
    (acts (passFollowers t)).Within (fun a => eventRegs a || [R.CSK_FIT, R.CSK_LEAD].contains a) (eventParts ++ [.bJob]) :=
  within_cons (within_raise eventFrame_allows) (within_cons (within_latFit t)
    (within_cons (within_dyn fun _ => within_each fun e => within_checkEnvelope e.stripe) within_nil))

theorem keeps_latFit {e : Evt} (hb : e.bit < 32) (t : LatIn) : (latFit t).Keeps e :=
  keeps_cons keeps_setR (keeps_cons keeps_setR (keeps_cons (keeps_on (keeps_raise hb)) keeps_nil))

theorem keeps_checkEnvelopes {e : Evt} (hb : e.bit < 32) : checkEnvelopes.Keeps e := by
  refine keeps_dyn fun _ => keeps_each fun x => keeps_dyn fun u => ?_
  split
  · exact keeps_ite (keeps_cons keeps_blk (keeps_cons (keeps_raise hb) keeps_nil)) keeps_nop
  · exact keeps_nop

theorem passFollowers_raised (s : State) (t : LatIn) : ((acts (passFollowers t)).run s).raised E.LAT_CHECK_DONE = true := by
  have hb : E.LAT_CHECK_DONE.bit < 32 := by decide
  rw [passFollowers, run_acts_cons, run_acts_cons, run_acts_cons, run_acts_nil]
  exact keeps_checkEnvelopes hb _ (keeps_latFit hb t _ (raise_raised hb s))

theorem requestDigest_raised (s : State) (req : Nat) (e : Evt) : ((requestDigest req).run s).raised e = s.raised e := rfl

/-- A check that passes (R37, R38, R57, R130, R262). -/
theorem checkDone_passes (hc : s.checking = true) (hp : s.powered 1 = true) (h : s.latIn.check = none) :
    ∃ t, exec .checkDone s = .next t ∧ t.b.lat = { s.b.lat with cap := some s.latIn } ∧
      t.fld F.LAT_STAT_CHK_STATE = 2 ∧ t.fld F.LAT_STAT_RESULT = 0 ∧ t.fld F.LAT_STAT_WINDOW = s.fld F.LAT_STAT_WINDOW ∧
      t.rd R.LAT_DYMAX = s.latIn.dymax % 2 ^ 32 ∧ t.rd R.LAT_NVIS = (s.latIn.nvisMax * 2 ^ 8 + s.latIn.nvisMin) % 2 ^ 32 ∧
      t.rd R.LAT_DEAD_CNT = s.latIn.dead % 2 ^ 32 ∧ t.rd R.LAT_QMISM_CNT = s.latIn.qmism % 2 ^ 32 ∧
      t.raised E.LAT_CHECK_DONE = true ∧ t.b.par = { s.b.par with digestReq := some 0 } ∧
      eventFrame [R.LAT_STAT, R.LAT_DYMAX, R.LAT_NVIS, R.LAT_QMISM_CNT, R.LAT_HOTF, R.LAT_HOTR, R.LAT_DEAD_CNT, R.CSK_FIT, R.CSK_LEAD]
        [.bLat, .bPar, .bJob] s t := by
  have hrun := checkDone_run hc hp
  rw [checkOutcome_passes h, latPassed_run] at hrun
  refine ⟨_, hrun, ?_⟩
  generalize s.latIn = t at *
  have f0 : framed (fun _ => false) [.out, .bLat] s ((onLat fun l => { l with cap := some t }).run { s with out := [] }) :=
    framed_clear s (by decide) (within_onLat (by decide) _)
  have hlat : ((onLat fun l => { l with cap := some t }).run { s with out := [] }).b.lat = { s.b.lat with cap := some t } := rfl
  generalize (onLat fun l => { l with cap := some t }).run { s with out := [] } = a at *
  have f1 := within_passVerdict t a
  obtain ⟨hstate, hresult, hwindow⟩ := passVerdict_pass a t
  generalize (acts (passVerdict t)).run a = b at *
  have f2 := within_passFigures t b
  obtain ⟨hdymax, hnvis, hdead, hqmism⟩ := passFigures_rd b t
  generalize (acts (passFigures t)).run b = c at *
  have f3 := within_passFollowers t c
  have hraised := passFollowers_raised c t
  generalize (acts (passFollowers t)).run c = d at *
  have f4 : framed (fun _ => false) [.bPar] d ((requestDigest 0).run d) := within_onPar (by decide) d
  have hpar : ((requestDigest 0).run d).b.par = { d.b.par with digestReq := some 0 } := rfl
  have hlast := requestDigest_raised d 0 E.LAT_CHECK_DONE
  generalize (requestDigest 0).run d = u at *
  have keepStat : ∀ f : Fld, f.addr = R.LAT_STAT → u.fld f = b.fld f := fun f hf => by
    rw [framed_fld f4 f rfl, framed_fld f3 f (by rw [hf]; decide), framed_fld f2 f (by rw [hf]; decide)]
  have keepFigure : ∀ r, (eventRegs r || [R.CSK_FIT, R.CSK_LEAD].contains r) = false → u.rd r = c.rd r := fun r hr =>
    (f4.2.1 r rfl).trans (f3.2.1 r hr)
  have parKept : d.b.par = s.b.par := (f3.2.2 .bPar (by decide)).trans ((f2.2.2 .bPar (by decide)).trans
    ((f1.2.2 .bPar (by decide)).trans (f0.2.2 .bPar (by decide))))
  have latKept : u.b.lat = a.b.lat := (f4.2.2 .bLat (by decide)).trans ((f3.2.2 .bLat (by decide)).trans
    ((f2.2.2 .bLat (by decide)).trans (f1.2.2 .bLat (by decide))))
  refine ⟨latKept.trans hlat, (keepStat F.LAT_STAT_CHK_STATE rfl).trans hstate,
    (keepStat F.LAT_STAT_RESULT rfl).trans hresult,
    (keepStat F.LAT_STAT_WINDOW rfl).trans (hwindow.trans (framed_fld f0 _ rfl)),
    (keepFigure _ (by decide)).trans hdymax, (keepFigure _ (by decide)).trans hnvis, (keepFigure _ (by decide)).trans hdead, (keepFigure _ (by decide)).trans hqmism,
    hlast.trans hraised, by rw [hpar, parKept], ?_⟩
  refine framed_trans (framed_mono (by simp) (by decide) f0) (framed_trans (framed_mono (fun r hr => ?_) (by decide) f1)
    (framed_trans (framed_mono (fun r hr => ?_) (by decide) f2) (framed_trans (framed_mono (fun r hr => ?_) (by decide) f3)
      (framed_mono (by simp) (by decide) f4))))
  · simp only [List.contains_eq_mem, decide_eq_true_eq, List.mem_singleton] at hr
    subst hr
    decide
  · simp only [List.contains_eq_mem, decide_eq_true_eq] at hr
    revert r
    decide
  · simp only [Bool.or_eq_true, List.contains_eq_mem, decide_eq_true_eq] at hr ⊢
    exact hr.imp_right fun hr => List.mem_append_right (R.LAT_STAT :: figureRegs) hr

/-- Settles O20: a check ends by its verdict on the tables alone, or by capturing them with its figures. -/
theorem latticeCheckCapturesTheTablesOrWritesItsVerdictOnly :
    Obligations.LatticeCheckCapturesTheTablesOrWritesItsVerdictOnly := by
  refine fun s hc hp => ⟨fun x hx => ?_, checkDone_passes hc hp⟩
  obtain ⟨hstate, hresult, hbad, hraised⟩ := latRefused_verdict { s with out := [] } x
  exact ⟨_, (checkDone_run hc hp).trans (by rw [checkOutcome_refuses hx]), hstate, hresult, hbad, hraised,
    latRefused_keeps _ x rfl (by decide), latRefused_keeps _ x rfl (by decide), latRefused_keeps _ x rfl (by decide),
    eventFrame_run s (within_latRefused x)⟩

end Sys2Proof.Machine
end

section
/-! SUPPORT. Errors in SRAMs and corrected words of the cask (R147, R347). -/

namespace Sys2Proof.Machine

variable {rg : Nat → Bool} {ps : List Part}

/-- An error in an SRAM touches its count and its place, and raises its event. -/
theorem within_sramError (ok : AllowsEvents rg ps) {array word : Nat} {ue : Bool}
    (hc : rg (if ue then R.MEM_SRAM_UE_CNT else R.MEM_SRAM_CE_CNT) = true) (hl : rg R.MEM_SRAM_LOC = true) :
    (sramError array word ue).Within rg ps :=
  within_cons (within_addR hc) (within_cons (within_setR hl) (within_cons (within_raise ok) within_nil))

/-- An uncorrectable error is counted, located and raised. -/
theorem sramError_uncorrectable (s : State) (array word : Nat) :
    ((sramError array word true).run s).rd R.MEM_SRAM_UE_CNT = (s.rd R.MEM_SRAM_UE_CNT + 1) % 2 ^ 32 ∧
      ((sramError array word true).run s).rd R.MEM_SRAM_LOC = (array * 2 ^ 24 + 2 ^ 23 + word % 2 ^ 20) % 2 ^ 32 ∧
      ((sramError array word true).run s).raised E.MEM_SRAM_UE = true := by
  rw [sramError, run_acts_cons, run_acts_cons, run_acts_cons, run_acts_nil, if_pos rfl, if_pos rfl, if_pos rfl]
  refine ⟨?_, ?_, raise_raised (by decide) _⟩
  · rw [raise_rd _ _ _ (by decide), rd_setR_ne _ _ _ _ (by decide), rd_addR_same]
  · rw [raise_rd _ _ _ (by decide), rd_setR_same]

end Sys2Proof.Machine
end

section
/-! SUPPORT. The data window of the LAT page (R29, R55, R347), and the statement on it. -/

namespace Sys2Proof.Machine

variable {s : State}

/-! ### Writes (R29, R55) -/

/-- A word stored in the tables: they are UNCHECKED, the index moves on, and the word is the last one. -/
def storeEntry (f : LatBlk → LatBlk) (w : Word) : Act :=
  .seq (.seq uncheck (onLat f)) (.seq latReadStep (onLat fun l => { l with lastData := w }))

/-- The lattice with a word stored, of its bits (R29). -/
def LatBlk.putLattice (i : Nat) (w : Word) (l : LatBlk) : LatBlk :=
  { l with lattice := spPut (fun _ => 0) l.lattice i (w &&& 0x03031FFF#32) }

/-- The gains with a word stored, of its bits (R55). -/
def LatBlk.putGain (i : Nat) (w : Word) (l : LatBlk) : LatBlk :=
  { l with gain := spPut (fun _ => 0) l.gain i (w &&& 0x0FFF0FFF#32), gainWritten := true }

theorem latDataWrite_lattice (w : Word) {i : Nat} (hw : s.fld F.LAT_STAT_WINDOW = 1) (hi : s.fld F.LAT_IDX_INDEX = i)
    (h : i < 1024) : (latDataWrite w).run s = (storeEntry (LatBlk.putLattice i w) w).run s := by
  rw [latDataWrite, run_dyn, hw, hi]
  dsimp only
  rw [decide_eq_true h]
  rfl

theorem latDataWrite_gain (w : Word) {i : Nat} (hw : s.fld F.LAT_STAT_WINDOW = 2) (hi : s.fld F.LAT_IDX_INDEX = i)
    (h : i < 524288) : (latDataWrite w).run s = (storeEntry (LatBlk.putGain i w) w).run s := by
  rw [latDataWrite, run_dyn, hw, hi]
  dsimp only
  rw [decide_eq_true h]
  rfl

theorem within_latReadStep {rg : Nat → Bool} {ps : List Part} (h : rg R.LAT_IDX = true) : latReadStep.Within rg ps :=
  within_dyn fun _ => within_setF h

theorem latReadStep_index (s : State) :
    (latReadStep.run s).fld F.LAT_IDX_INDEX = (s.fld F.LAT_IDX_INDEX + 1) % 2 ^ 24 :=
  fld_setF_same s F.LAT_IDX_INDEX _ (by decide)

/-- What storing a word in the tables does. -/
theorem storeEntry_effect (s : State) (f : LatBlk → LatBlk) (w : Word) (hi : s.fld F.LAT_IDX_INDEX + 1 < 2 ^ 24) :
    ((storeEntry f w).run s).b.lat = { f s.b.lat with lastData := w } ∧
      ((storeEntry f w).run s).fld F.LAT_IDX_INDEX = s.fld F.LAT_IDX_INDEX + 1 ∧
      ((storeEntry f w).run s).fld F.LAT_STAT_CHK_STATE = 0 ∧
      ((storeEntry f w).run s).fld F.LAT_STAT_WINDOW = s.fld F.LAT_STAT_WINDOW := by
  have hcheck : (uncheck.run s).fld F.LAT_STAT_CHK_STATE = 0 := fld_setF_same s F.LAT_STAT_CHK_STATE 0 (by decide)
  have hwindow : (uncheck.run s).fld F.LAT_STAT_WINDOW = s.fld F.LAT_STAT_WINDOW :=
    fld_setF_bits s _ _ _ (by decide) (by decide) (by decide)
  have hindex : (uncheck.run s).fld F.LAT_IDX_INDEX = s.fld F.LAT_IDX_INDEX := fld_setF_addr s _ _ _ (by decide)
  have stat : ∀ (v : State) (g : Fld), R.LAT_IDX ≠ g.addr → (latReadStep.run v).fld g = v.fld g :=
    fun v g h => fld_setF_addr v F.LAT_IDX_INDEX g _ h
  have lat : ∀ (v : State) (g : LatBlk → LatBlk) (h : Fld), ((onLat g).run v).fld h = v.fld h := fun _ _ _ => rfl
  rw [storeEntry, run_seq, run_seq, run_seq]
  refine ⟨rfl, ?_, ?_, ?_⟩
  · rw [lat, latReadStep_index, lat, hindex, Nat.mod_eq_of_lt hi]
  · rw [lat, stat _ _ (by decide), lat, hcheck]
  · rw [lat, stat _ _ (by decide), lat, hwindow]

/-- A write of LAT_DATA that meets no error in an SRAM has its effect on the state that its access leads to. -/
theorem latDataAccess_write (hr : s.reaches 0x31 = true) (w : Word) :
    exec (.latDataAccess (some w) []) s = .next ((latDataWrite w).run (s.served 0x31)) :=
  perform_toPage s 0x31 (.seq (latDataWrite w) (each [] sramNote)) hr

/-- A write of LAT_DATA that stores a word stores it in the tables as they were before its access. -/
theorem latDataAccess_stores (hr : s.reaches 0x31 = true) {f : LatBlk → LatBlk} {w : Word}
    (hi : s.fld F.LAT_IDX_INDEX + 1 < 2 ^ 24)
    (h : ∀ v : State, v.fld F.LAT_STAT_WINDOW = s.fld F.LAT_STAT_WINDOW → v.fld F.LAT_IDX_INDEX = s.fld F.LAT_IDX_INDEX →
      (latDataWrite w).run v = (storeEntry f w).run v) :
    ∃ t, exec (.latDataAccess (some w) []) s = .next t ∧ t.b.lat = { f s.b.lat with lastData := w } ∧
      t.fld F.LAT_IDX_INDEX = s.fld F.LAT_IDX_INDEX + 1 ∧ t.fld F.LAT_STAT_CHK_STATE = 0 ∧
      t.fld F.LAT_STAT_WINDOW = s.fld F.LAT_STAT_WINDOW ∧ accessFrame [R.LAT_STAT, R.LAT_IDX] [.bLat] s t := by
  have hopen := served_fld s 0x31 F.LAT_STAT_WINDOW (by decide)
  have hindex := served_fld s 0x31 F.LAT_IDX_INDEX (by decide)
  have hframe := accessFrame_run (a := storeEntry f w) (regs := [R.LAT_STAT, R.LAT_IDX]) (parts := [.bLat]) s 0x31
    (within_seq (within_seq (within_setF (by decide)) (within_onLat (by simp)))
      (within_seq (within_latReadStep (by decide)) (within_onLat (by simp))))
  obtain ⟨hlat, hnext, hcheck, hwindow⟩ := storeEntry_effect (s.served 0x31) f w (by rwa [hindex])
  rw [hindex] at hnext
  rw [served_lat] at hlat
  exact ⟨_, (latDataAccess_write hr w).trans (by rw [h _ hopen hindex]), hlat, hnext, hcheck, hwindow.trans hopen, hframe⟩

/-- A word written to the open lattice window (R29, R55). -/
theorem latDataAccess_lattice (hr : s.reaches 0x31 = true) (w : Word) (hw : s.fld F.LAT_STAT_WINDOW = 1)
    (hi : s.fld F.LAT_IDX_INDEX < 1024) :
    ∃ t, exec (.latDataAccess (some w) []) s = .next t ∧
      spGet (fun _ => 0) t.b.lat.lattice (s.fld F.LAT_IDX_INDEX) = w &&& 0x03031FFF#32 ∧
      (∀ i, i ≠ s.fld F.LAT_IDX_INDEX → spGet (fun _ => 0) t.b.lat.lattice i = spGet (fun _ => 0) s.b.lat.lattice i) ∧
      t.b.lat.gain = s.b.lat.gain ∧ t.b.lat.cap = s.b.lat.cap ∧ t.fld F.LAT_IDX_INDEX = s.fld F.LAT_IDX_INDEX + 1 ∧
      t.fld F.LAT_STAT_CHK_STATE = 0 ∧ t.fld F.LAT_STAT_WINDOW = 1 ∧ accessFrame [R.LAT_STAT, R.LAT_IDX] [.bLat] s t := by
  obtain ⟨t, ht, hlat, hnext, hcheck, hopen, hframe⟩ := latDataAccess_stores hr (by omega) fun _ h1 h2 =>
    latDataWrite_lattice w (h1.trans hw) h2 hi
  refine ⟨t, ht, ?_, fun i h => ?_, by rw [hlat]; rfl, by rw [hlat]; rfl, hnext, hcheck, hopen.trans hw, hframe⟩ <;> rw [hlat]
  · exact spGet_spPut_same _ _ _ _
  · exact spGet_spPut_ne _ _ _ _ _ h.symm

/-- A word written to the open gain window (R55). -/
theorem latDataAccess_gain (hr : s.reaches 0x31 = true) (w : Word) (hw : s.fld F.LAT_STAT_WINDOW = 2)
    (hi : s.fld F.LAT_IDX_INDEX < 524288) :
    ∃ t, exec (.latDataAccess (some w) []) s = .next t ∧
      spGet (fun _ => 0) t.b.lat.gain (s.fld F.LAT_IDX_INDEX) = w &&& 0x0FFF0FFF#32 ∧
      (∀ i, i ≠ s.fld F.LAT_IDX_INDEX → spGet (fun _ => 0) t.b.lat.gain i = spGet (fun _ => 0) s.b.lat.gain i) ∧
      t.b.lat.lattice = s.b.lat.lattice ∧ t.b.lat.cap = s.b.lat.cap ∧ t.fld F.LAT_IDX_INDEX = s.fld F.LAT_IDX_INDEX + 1 ∧
      t.fld F.LAT_STAT_CHK_STATE = 0 ∧ t.fld F.LAT_STAT_WINDOW = 2 ∧ accessFrame [R.LAT_STAT, R.LAT_IDX] [.bLat] s t := by
  obtain ⟨t, ht, hlat, hnext, hcheck, hopen, hframe⟩ := latDataAccess_stores hr (by omega) fun _ h1 h2 =>
    latDataWrite_gain w (h1.trans hw) h2 hi
  refine ⟨t, ht, ?_, fun i h => ?_, by rw [hlat]; rfl, by rw [hlat]; rfl, hnext, hcheck, hopen.trans hw, hframe⟩ <;> rw [hlat]
  · exact spGet_spPut_same _ _ _ _
  · exact spGet_spPut_ne _ _ _ _ _ h.symm

/-! ### Reads (R55) -/

/-- What a read of LAT_DATA does where no word of the cask fails: it answers the word, and the index moves on. -/
def readEntry (w : Nat) : Act := .seq (answerWord w) latReadStep

theorem latDataRead_run {sram : List SramErr} (h : ∀ e ∈ sram, e.array.val ≠ 1) :
    (latDataRead sram).run s = (readEntry s.latData).run s := by
  have hbad : s.leesBad sram = false := by
    have hany : (sram.any fun e => e.array.val == 1 && e.ue) = false := by
      simp only [List.any_eq_false, Bool.and_eq_true, beq_iff_eq, not_and]
      exact fun e he h1 => absurd h1 (h e he)
    rw [State.leesBad, hany, Bool.and_false]
  rw [latDataRead, run_dyn, hbad]
  rfl

/-- The word at the index is the same once the access has reached its page. -/
theorem served_latData (s : State) (page : Nat) : (s.served page).latData = s.latData := by
  have hwindow := served_fld s page F.LAT_STAT_WINDOW (by decide)
  have hindex := served_fld s page F.LAT_IDX_INDEX (by decide)
  simp only [State.latData, State.latWord, State.caskPixel, hwindow, hindex, served_lat, served_cask]

/-- A read of LAT_DATA has its effect on the state that its access leads to. -/
theorem latDataAccess_read (hr : s.reaches 0x31 = true) {sram : List SramErr} (h : ∀ e ∈ sram, e.array.val ≠ 1) :
    exec (.latDataAccess none sram) s = .next ((each sram sramNote).run ((readEntry s.latData).run (s.served 0x31))) := by
  rw [← served_latData s 0x31, ← latDataRead_run h]
  exact perform_fromPage s 0x31 (.seq (latDataRead sram) (each sram sramNote)) hr

theorem within_readEntry (s : State) (w : Nat) {regs : List Nat} {parts : List Part} (h : regs.contains R.LAT_IDX = true) :
    (readEntry w).Within (fun a => accessRegs a || regs.contains a) (accessParts s ++ parts) :=
  within_seq (within_emit (by simp [accessParts, eventParts])) (within_latReadStep (by simp only [h, Bool.or_true]))

/-- A read answers the open window's word, and the index moves on (R55). -/
theorem latDataAccess_answers (hr : s.reaches 0x31 = true) :
    ∃ t, exec (.latDataAccess none []) s = .next t ∧ Out.completion (leBytes 4 s.latData) false ∈ t.out ∧
      t.fld F.LAT_IDX_INDEX = (s.fld F.LAT_IDX_INDEX + 1) % 2 ^ 24 ∧ accessFrame [R.LAT_IDX] [] s t := by
  refine ⟨_, latDataAccess_read hr (by simp), ?_, ?_, accessFrame_run s 0x31 (within_readEntry s _ (by decide))⟩
  · show Out.completion (leBytes 4 s.latData) false ∈ (s.served 0x31).out ++ [Out.completion (leBytes 4 s.latData) false]
    simp
  · rw [each_nil, readEntry, run_seq, latReadStep_index]
    show ((s.served 0x31).fld F.LAT_IDX_INDEX + 1) % 2 ^ 24 = _
    rw [served_fld _ _ _ (by decide)]

/-! ### An uncorrectable error in the tables' SRAM (R347) -/

/-- Where no job locks the tables, an uncorrectable error in their SRAM leaves them UNCHECKED. -/
theorem sramNote_table (hl : s.locked = false) (w : BitVec 20) :
    (sramNote ⟨8, w, true⟩).run s = uncheck.run ((sramError 8 w.toNat true).run s) := by
  show (acts [sramError 8 w.toNat true, setF F.LAT_STAT_CHK_STATE 0, on s.locked (faultEntry 7 0x14 0)]).run s = _
  rw [hl]
  rfl

/-- A read that meets an uncorrectable error in the tables' SRAM (R347). -/
theorem latDataAccess_tableError (hr : s.reaches 0x31 = true) (hl : s.locked = false) (w : BitVec 20) :
    ∃ t, exec (.latDataAccess none [⟨8, w, true⟩]) s = .next t ∧ t.fld F.LAT_STAT_CHK_STATE = 0 ∧
      t.rd R.MEM_SRAM_UE_CNT = (s.rd R.MEM_SRAM_UE_CNT + 1) % 2 ^ 32 ∧
      t.rd R.MEM_SRAM_LOC = 8 * 2 ^ 24 + 2 ^ 23 + w.toNat ∧ t.raised E.MEM_SRAM_UE = true ∧
      accessFrame [R.LAT_STAT, R.LAT_IDX, R.MEM_SRAM_UE_CNT, R.MEM_SRAM_LOC] [] s t := by
  have hread := within_readEntry s s.latData (regs := [R.LAT_IDX]) (parts := []) (by decide) (s.served 0x31)
  have hframe := accessFrame_run (a := .seq (readEntry s.latData) (.seq (sramError 8 w.toNat true) uncheck))
    (regs := [R.LAT_STAT, R.LAT_IDX, R.MEM_SRAM_UE_CNT, R.MEM_SRAM_LOC]) (parts := []) s 0x31
    (within_seq (within_readEntry s _ (by decide)) (within_seq (within_sramError (accessFrame_allows s) (by decide) (by decide))
      (within_setF (by decide))))
  have hlock : ((readEntry s.latData).run (s.served 0x31)).locked = false := by
    rw [← hl, ← served_locked s 0x31]
    rfl
  have hcnt : ((readEntry s.latData).run (s.served 0x31)).rd R.MEM_SRAM_UE_CNT = s.rd R.MEM_SRAM_UE_CNT := by
    rw [hread.2.1 _ (by decide), served_rd _ _ _ (by decide)]
  refine ⟨_, latDataAccess_read hr (by simp), ?_⟩
  rw [each_cons, each_nil, sramNote_table hlock]
  rw [run_seq, run_seq] at hframe
  generalize (readEntry s.latData).run (s.served 0x31) = v at *
  obtain ⟨hcount, hplace, hraised⟩ := sramError_uncorrectable v 8 w.toNat
  generalize (sramError 8 w.toNat true).run v = u at *
  have keep : ∀ a, R.LAT_STAT ≠ a → (uncheck.run u).rd a = u.rd a := fun a h => rd_setF_ne u F.LAT_STAT_CHK_STATE a 0 h
  refine ⟨fld_setF_same u F.LAT_STAT_CHK_STATE 0 (by decide), ?_, ?_, keeps_setF _ hraised, hframe⟩
  · rw [keep _ (by decide), hcount, hcnt]
  · have hw := w.isLt
    rw [keep _ (by decide), hplace, Nat.mod_eq_of_lt hw, Nat.mod_eq_of_lt (by omega)]

/-- Settles O21: writes to the lattice and gain windows, reads, and an error in the tables' SRAM. -/
theorem latDataWindowStoresAndReadsEntries : Obligations.LatDataWindowStoresAndReadsEntries := fun _ hr =>
  ⟨latDataAccess_lattice hr, latDataAccess_gain hr, latDataAccess_answers hr, fun w hl => latDataAccess_tableError hr hl w⟩

end Sys2Proof.Machine
end

section
/-! SUPPORT. Frames by pages, and the notes of a shot's computation: errors corrected, groups that pass on retry (R87, R144,
R147, R347). -/

namespace Sys2Proof.Machine

variable {s : State} {rg : Nat → Bool} {ps : List Part}

/-! ### Frames by pages -/

section
variable {pages : List Nat} {parts : List Part}

theorem pagesFrame_allows : AllowsEvents (fun a => eventRegs a || pages.contains (a / 0x1000)) (eventParts ++ parts) :=
  ⟨fun a h => by simp [h], fun p h => by simp [h]⟩

end

/-! ### Corrected errors (R147, R347) -/

/-- The registers that corrected errors in SRAMs may change, besides those of events. -/
def correctedRegs : List Nat := [R.CSK_CE_CNT, R.CSK_ECC_LOC, R.MEM_SRAM_CE_CNT, R.MEM_SRAM_LOC]

/-- The registers that corrected errors in SRAMs, and their events, may change. -/
def noteRegs (a : Nat) : Bool := eventRegs a || correctedRegs.contains a

theorem noteAllows : AllowsEvents noteRegs eventParts := ⟨fun a h => by simp [noteRegs, h], fun _ h => h⟩

theorem within_sramCorrected (array word : Nat) : (sramError array word false).Within noteRegs eventParts :=
  within_sramError noteAllows (by decide) (by decide)

theorem within_caskCorrected (row k j : Nat) : (caskCorrected row k j).Within noteRegs eventParts :=
  within_cons (within_addR (by decide)) (within_cons (within_setR (by decide)) (within_cons (within_raise noteAllows)
    (within_cons (within_sramCorrected _ _) within_nil)))

/-- An error that is corrected touches the counts and places of corrected errors only. -/
theorem within_sramNote {e : SramErr} (h : e.ue = false) : (sramNote e).Within noteRegs eventParts :=
  within_dyn fun _ => by
    rw [h, if_neg Bool.false_ne_true]
    exact within_ite (within_caskCorrected _ _ _) (within_on (within_sramCorrected _ _))

/-- A corrected word of the cask is counted once (R147). -/
theorem caskCorrected_counts (s : State) (row k j : Nat) :
    ((caskCorrected row k j).run s).rd R.CSK_CE_CNT = (s.rd R.CSK_CE_CNT + 1) % 2 ^ 32 := by
  have hsram : (sramError 1 (caskWord row k j) false).Within
      (fun a => eventRegs a || [R.MEM_SRAM_CE_CNT, R.MEM_SRAM_LOC].contains a) (eventParts ++ []) :=
    within_sramError eventFrame_allows (by decide) (by decide)
  rw [caskCorrected, run_acts_cons, run_acts_cons, run_acts_cons, run_acts_cons, run_acts_nil,
    (hsram _).2.1 _ (by decide), raise_rd _ _ _ (by decide), rd_setR_ne _ _ _ _ (by decide), rd_addR_same]

/-- The corrected words that an occurrence meets. -/
def correctedWords (ce : List (Fin 8192 × Fin 4 × Fin 32)) : Act := each ce fun e => caskCorrected e.1 e.2.1 e.2.2

theorem within_correctedWords (ce : List (Fin 8192 × Fin 4 × Fin 32)) : (correctedWords ce).Within noteRegs eventParts :=
  within_each fun _ => within_caskCorrected _ _ _

theorem correctedWords_counts (s : State) (ce : List (Fin 8192 × Fin 4 × Fin 32)) :
    ((correctedWords ce).run s).rd R.CSK_CE_CNT = (s.rd R.CSK_CE_CNT + ce.length) % 2 ^ 32 := by
  induction ce generalizing s with
  | nil => exact (Nat.mod_eq_of_lt (rd_lt s _)).symm
  | cons e ce ih =>
    rw [correctedWords, each_cons, ← correctedWords, ih, caskCorrected_counts, Nat.mod_add_mod, List.length_cons,
      Nat.add_assoc, Nat.add_comm 1]

/-! ### Groups that pass on retry (R144, R154) -/

/-- Of the registers of the taps, events and corrected errors change none. -/
theorem tapRegs_kept : ∀ j < 68, noteRegs (0x40104 + j * 0x1000) = false := by decide

theorem retryReg_kept (n : Nat) : noteRegs (R.TP_RETRY_OK n) = false := tapRegs_kept _ (Nat.mod_lt _ (by decide))

theorem retryReg_event (n : Nat) : eventRegs (R.TP_RETRY_OK n) = false := by
  have h := retryReg_kept n
  rw [noteRegs, Bool.or_eq_false_iff] at h
  exact h.1

theorem within_noteRetries (ok : AllowsEvents rg ps) (t n : Nat) (h1 : rg (R.TP_RETRY_OK t) = true)
    (h2 : rg (R.TP_STAT t) = true) : (noteRetries t n).Within rg ps :=
  within_dyn fun _ => within_cons (within_addR h1) (within_cons (within_setF h2)
    (within_cons (within_each fun _ => within_raise ok) within_nil))

/-- Groups that pass on retry are added to the count of their tap, and to no other. -/
theorem noteRetries_counts (s : State) (t m : Fin 68) (n : Nat) : ((noteRetries t n).run s).rd (R.TP_RETRY_OK m) =
    if t = m then (s.rd (R.TP_RETRY_OK m) + n) % 2 ^ 32 else s.rd (R.TP_RETRY_OK m) := by
  have hraise : (each (List.range n) fun _ => raise (E.TP_RETRY t)).Within eventRegs eventParts :=
    within_each fun _ => within_raise eventAllows
  have hstat : (F.TP_STAT_RETRIES t).addr ≠ R.TP_RETRY_OK m := by
    show 0x40100 + t.val % 68 * 0x1000 ≠ 0x40104 + m.val % 68 * 0x1000
    omega
  rw [noteRetries, run_dyn, run_acts_cons, run_acts_cons, run_acts_cons, run_acts_nil, (hraise _).2.1 _ (retryReg_event m),
    rd_setF_ne _ _ _ _ hstat]
  split
  · rename_i h
    rw [h, rd_addR_same]
  · rename_i h
    refine rd_addR_ne _ _ _ _ ?_
    show 0x40104 + t.val % 68 * 0x1000 ≠ 0x40104 + m.val % 68 * 0x1000
    have hval : t.val ≠ m.val := fun hv => h (Fin.ext hv)
    omega

/-- The groups of a shot that pass on retry, by tap. -/
def retryNotes (l : List (Fin 68 × Fin 57)) : Act := each l fun e => noteRetries e.1 e.2

theorem retryNotes_counts (s : State) (l : List (Fin 68 × Fin 57)) (n : Fin 68) :
    ((retryNotes l).run s).rd (R.TP_RETRY_OK n) =
      (s.rd (R.TP_RETRY_OK n) + ((l.filter fun e => e.1 == n).map fun e => e.2.val).sum) % 2 ^ 32 := by
  induction l generalizing s with
  | nil => exact (Nat.mod_eq_of_lt (rd_lt s _)).symm
  | cons e l ih =>
    rw [retryNotes, each_cons, ← retryNotes, ih, noteRetries_counts]
    split
    · rename_i h
      rw [List.filter_cons_of_pos (by simpa using h), List.map_cons, List.sum_cons, Nat.mod_add_mod, Nat.add_assoc]
    · rename_i h
      rw [List.filter_cons_of_neg (by simpa using h)]

/-! ### The notes of a shot (R87, R144, R147) -/

theorem within_checkFill : checkFill.Within eventRegs (.bPress :: eventParts) := by
  have ok : AllowsEvents eventRegs (.bPress :: eventParts) := ⟨fun _ h => h, fun p h => by simp [h]⟩
  exact within_dyn fun _ => within_ite (within_on (within_seq (within_onPress (by decide)) (within_raise ok)))
    (within_on (within_onPress (by decide)))

/-- What is noted of a shot's computation that does not fail. -/
def shotNotes (f : TapFaults) : Act :=
  .seq checkFill (.seq (retryNotes f.retries) (.seq (each (f.sram.filter fun e => !(e.ue && e.array.val == 1)) sramNote)
    (correctedWords f.ce)))

/-- The pages that the notes of a shot touch. -/
def shotPages : List Nat := 0x14 :: 0x30 :: tpPages

theorem noteRegs_shotPages (a : Nat) (h : noteRegs a = true) : (eventRegs a || shotPages.contains (a / 0x1000)) = true := by
  have hpages : ∀ a ∈ correctedRegs, shotPages.contains (a / 0x1000) = true := by decide
  simp only [noteRegs, Bool.or_eq_true, List.contains_eq_mem, decide_eq_true_eq] at h ⊢
  exact h.imp_right fun h => by simpa using hpages a h

theorem within_sramNotes {f : TapFaults} (h : ∀ e ∈ f.sram, e.ue = false) :
    (each (f.sram.filter fun e => !(e.ue && e.array.val == 1)) sramNote).Within noteRegs eventParts :=
  within_eachMem fun e he => within_sramNote (h e (List.mem_of_mem_filter he))

theorem within_shotNotes {f : TapFaults} (h : ∀ e ∈ f.sram, e.ue = false) :
    (shotNotes f).Within (fun a => eventRegs a || shotPages.contains (a / 0x1000)) (eventParts ++ [.bPress]) := by
  have taps : ∀ j < 68, shotPages.contains ((0x40104 + j * 0x1000) / 0x1000) = true ∧
      shotPages.contains ((0x40100 + j * 0x1000) / 0x1000) = true := by decide
  have hp : ∀ p ∈ eventParts, p ∈ eventParts ++ [Part.bPress] := by decide
  refine within_seq (within_checkFill.mono (fun a ha => by simp [ha]) (by decide)) (within_seq (within_each fun e => ?_)
    (within_seq ((within_sramNotes h).mono noteRegs_shotPages hp) ((within_correctedWords _).mono noteRegs_shotPages hp)))
  obtain ⟨h1, h2⟩ := taps (e.1.val % 68) (Nat.mod_lt _ (by decide))
  exact within_noteRetries pagesFrame_allows _ _ (by rw [h1, Bool.or_true]) (by rw [h2, Bool.or_true])

/-- The groups that pass on retry are counted by tap (R144). -/
theorem shotNotes_counts (s : State) {f : TapFaults} (h : ∀ e ∈ f.sram, e.ue = false) (n : Fin 68) :
    ((shotNotes f).run s).rd (R.TP_RETRY_OK n) =
      (s.rd (R.TP_RETRY_OK n) + ((f.retries.filter fun e => e.1 == n).map fun e => e.2.val).sum) % 2 ^ 32 := by
  rw [shotNotes, run_seq, run_seq, run_seq, (within_correctedWords _ _).2.1 _ (retryReg_kept n),
    (within_sramNotes h _).2.1 _ (retryReg_kept n), retryNotes_counts, (within_checkFill s).2.1 _ (retryReg_event n)]

end Sys2Proof.Machine
end

section
/-! SUPPORT. The shot in the taps: its start and its completion (R34, R47, R134 to R136, R142, R143). -/

namespace Sys2Proof.Machine

variable {s t : State}

/-! ### The start of a shot (R34, R47, R136) -/

/-- What a shot gives depends on the cask and its slots only. -/
theorem computeShot_congr (h : t.b.cask = s.b.cask) (tb : LatIn) (r : Run) (m : Nat) :
    computeShot t tb r m = computeShot s tb r m := by
  have hlees : t.leesOf m = s.leesOf m := by
    funext p
    rw [State.leesOf, State.leesOf, h]
  have hbeam : visitBeam t tb r m = visitBeam s tb r m := by
    funext y out b
    simp only [visitBeam, hlees, h]
  simp only [computeShot, hbeam]

/-- The new slot of the next shot (R34, R47, R142). -/
def State.newSlot (s : State) (tb : LatIn) (r : Run) : Slot :=
  let m := s.b.cask.nextShot
  let o := computeShot s tb r m
  { shot := m, codes := o.codes, lees := o.lees, closes := o.closes, last := m + 1 == r.stripe.shots,
    row := r.stripe.base + (earlyRow tb r m).toNat }

/-- The taps with one more slot, for the next shot. -/
def CaskBlk.addSlot (x : Slot) (m : Nat) (c : CaskBlk) : CaskBlk := { c with slots := c.slots ++ [x], nextShot := m + 1 }

theorem tapShotStart_run {r : Run} {tb : LatIn} (hr : s.run = some r) (hcap : s.b.lat.cap = some tb)
    (hm : s.tapsMayStart r = true) (hrows : rowsReady tb r s.b.cask.nextShot = true) {f : TapFaults} (hf : f.fail = none) :
    exec (.tapShotStart f) s = .next ((shotNotes f).run
      ((onCask (CaskBlk.addSlot (s.newSlot tb r) s.b.cask.nextShot)).run { s with out := [] })) := by
  have hr' : ({ s with out := [] } : State).run = some r := hr
  have hm' : ({ s with out := [] } : State).tapsMayStart r = true := hm
  show execTapShotStart f s = _
  rw [execTapShotStart, perform_eq, run_dyn, hr']
  simp only [hcap, hm', hrows, hf, computeShot_congr (t := { s with out := [] }) (s := s) rfl, Bool.not_true, Bool.false_eq_true,
    if_false]
  rfl

/-- A shot whose rows are released is computed into a new slot (R136, R142, R144). -/
theorem tapShotStart_computes {r : Run} {tb : LatIn} (hr : s.run = some r) (hcap : s.b.lat.cap = some tb)
    (hm : s.tapsMayStart r = true) (hrows : rowsReady tb r s.b.cask.nextShot = true) {f : TapFaults} (hf : f.fail = none)
    (hue : ∀ e ∈ f.sram, e.ue = false) :
    ∃ t, exec (.tapShotStart f) s = .next t ∧ t.b.cask.slots = s.b.cask.slots ++ [s.newSlot tb r] ∧
      t.b.cask.nextShot = s.b.cask.nextShot + 1 ∧ t.b.cask.cask = s.b.cask.cask ∧
      (∀ n : Fin 68, t.rd (R.TP_RETRY_OK n) =
        (s.rd (R.TP_RETRY_OK n) + ((f.retries.filter fun e => e.1 == n).map fun e => e.2.val).sum) % 2 ^ 32) ∧
      pagesFrame shotPages [.bCask, .bPress] s t := by
  refine ⟨_, tapShotStart_run hr hcap hm hrows hf, ?_⟩
  have hslot : framed (fun _ => false) [.out, .bCask] s
      ((onCask (CaskBlk.addSlot (s.newSlot tb r) s.b.cask.nextShot)).run { s with out := [] }) :=
    framed_clear s (by decide) (within_onCask (by decide) _)
  have hcask : ((onCask (CaskBlk.addSlot (s.newSlot tb r) s.b.cask.nextShot)).run { s with out := [] }).b.cask =
    CaskBlk.addSlot (s.newSlot tb r) s.b.cask.nextShot s.b.cask := rfl
  generalize (onCask (CaskBlk.addSlot (s.newSlot tb r) s.b.cask.nextShot)).run { s with out := [] } = u at *
  have hnotes := within_shotNotes hue u
  have hcount := shotNotes_counts u hue
  generalize (shotNotes f).run u = v at *
  have hkept : v.b.cask = _ := (hnotes.2.2 .bCask (by decide)).trans hcask
  refine ⟨by rw [hkept]; rfl, by rw [hkept]; rfl, by rw [hkept]; rfl, fun n => ?_, ?_⟩
  · rw [hcount n, hslot.2.1 _ rfl]
  · exact framed_trans (framed_mono (by simp) (by decide) hslot) (framed_mono (fun _ h => h) (by decide) hnotes)

/-! ### The completion of a shot (R134, R142, R143) -/

/-- The 64 lane signatures of a shot (R143). -/
def State.laneSigs (s : State) (x : Slot) : List Nat :=
  (List.range 64).map fun n => laneSig n x.shot (payloadBytes s.depth (laneCodes x.codes n))

/-- A slot once its shot is complete. -/
def Slot.completed (shot : Nat) (sigs : List Nat) (y : Slot) : Slot :=
  if y.shot == shot then { y with complete := true, sigs := sigs } else y

theorem tapShotDone_run (hr : s.role = .solo) {x : Slot} (hx : s.b.cask.slots.find? (fun y => !y.complete) = some x) :
    exec .tapShotDone s = .next ((acts [
      onCask fun c => { c with slots := c.slots.map (Slot.completed x.shot (s.laneSigs x)) },
      putRec x.shot fun y => { y with sig := (s.laneSigs x).foldl Nat.xor 0 }, bookIn .frame 64]).run { s with out := [] }) := by
  have hsolo : ({ s with out := [] } : State).paired = false := by simp [State.paired, hr]
  show execTapShotDone s = _
  rw [execTapShotDone, perform_eq, run_dyn, hsolo]
  simp only [hx]
  rfl

/-- The completion of a shot of a SOLO device (R142, R143). -/
theorem tapShotDone_completes (hr : s.role = .solo) {x : Slot}
    (hx : s.b.cask.slots.find? (fun y => !y.complete) = some x) :
    ∃ t, exec .tapShotDone s = .next t ∧ t.led.frame = s.led.frame.book (.come 64) ∧
      (∀ y ∈ t.b.cask.slots, y.shot = x.shot → y.complete = true ∧ y.sigs = s.laneSigs x) ∧
      t.b.cask.slots.length = s.b.cask.slots.length ∧ plainFrame [] [.bCask, .bSht, .ledFrame] s t := by
  refine ⟨_, tapShotDone_run hr hx, ?_⟩
  generalize s.laneSigs x = sigs
  have hframe := plainFrame_run (regs := []) (parts := [.bCask, .bSht, .ledFrame]) s (a := acts [
      onCask fun c => { c with slots := c.slots.map (Slot.completed x.shot sigs) },
      putRec x.shot fun y => { y with sig := sigs.foldl Nat.xor 0 }, bookIn .frame 64])
    (within_cons (within_onCask (by decide)) (within_cons (within_dyn fun _ => within_ite (within_onSht (by decide))
      (within_onSht (by decide))) (within_cons (within_bookIn (by decide)) within_nil)))
  rw [run_acts_cons, run_acts_cons, run_acts_cons, run_acts_nil, run_putRec] at *
  refine ⟨rfl, fun y hy hshot => ?_, List.length_map _, hframe⟩
  obtain ⟨z, -, rfl⟩ := List.mem_map.mp hy
  unfold Slot.completed at hshot ⊢
  by_cases hz : (z.shot == x.shot) = true
  · rw [if_pos hz]
    exact ⟨rfl, rfl⟩
  · rw [if_neg hz] at hshot
    exact absurd (by simpa using hshot) hz

end Sys2Proof.Machine
end

section
/-! SUPPORT. Steering and the commit (R132, R140, R147, R149), and the statement on the taps. -/

namespace Sys2Proof.Machine

variable {s t : State}

/-! ### Steering (R149, R152) -/

/-- Of the steering registers, an access before its command changes none. -/
theorem steerReg_kept (i : Nat) : accessRegs (R.CSK_STEER i) = false := by
  have h : ∀ j < 4, accessRegs (0x30120 + j * 0x4) = false := by decide
  exact h _ (Nat.mod_lt _ (by decide))

/-- What is noted of a steering request that conflicts with none (R149). -/
def noteSteer (i : Nat) (en active : Bool) (lane : Nat) : Act :=
  acts [setB (F.CSK_STEER_EN i) en, setF (F.CSK_STEER_LANE i) lane, setB (F.CSK_STEER_ACTIVE i) active,
    onCask fun c => { c with steerPending := (c.steerPending.filter fun x => x != i) ++ [i] }]

theorem steerWrite_notes (i : Nat) (w : Word) (ha : s.flag (F.CSK_STEER_AUTO i) = false)
    (hfree : ∀ j < 4, j ≠ i → s.flag (F.CSK_STEER_EN j) = true → s.fld (F.CSK_STEER_LANE j) ≠ w.toNat % 64) :
    (steerWrite i w).run s = (noteSteer i (w.toNat.testBit 31) (s.b.cask.serve.contains (i, w.toNat % 64))
      (w.toNat % 64)).run s := by
  have htaken : ((List.range 4).any fun j =>
      j != i && s.flag (F.CSK_STEER_EN j) && s.fld (F.CSK_STEER_LANE j) == w.toNat % 64) = false := by
    simp only [List.any_eq_false, List.mem_range, Bool.and_eq_true, bne_iff_ne, beq_iff_eq, not_and, and_imp]
    exact hfree
  rw [steerWrite, run_dyn]
  dsimp only
  rw [htaken, ha]
  simp only [Bool.false_and, Bool.and_false, Bool.or_false, Bool.false_eq_true, if_false]
  rfl

theorem noteSteer_effect (s : State) (i : Nat) (en active : Bool) {lane : Nat} (h : lane < 64) :
    ((noteSteer i en active lane).run s).flag (F.CSK_STEER_EN i) = en ∧
      ((noteSteer i en active lane).run s).fld (F.CSK_STEER_LANE i) = lane ∧
      i ∈ ((noteSteer i en active lane).run s).b.cask.steerPending := by
  have keep : ∀ (v : State) (f : CaskBlk → CaskBlk) (g : Fld), ((onCask f).run v).fld g = v.fld g := fun _ _ _ => rfl
  rw [noteSteer, run_acts_cons, run_acts_cons, run_acts_cons, run_acts_cons, run_acts_nil]
  refine ⟨?_, ?_, List.mem_append_right _ (List.mem_singleton.mpr rfl)⟩
  · rw [State.flag, keep,
      fld_setB_bits _ (F.CSK_STEER_ACTIVE i) (F.CSK_STEER_EN i) _ rfl (show 31 ≤ 32 by decide) (.inl (show 31 ≤ 31 by decide)),
      fld_setF_bits _ (F.CSK_STEER_LANE i) (F.CSK_STEER_EN i) _ rfl (show 6 ≤ 32 by decide) (.inl (show 6 ≤ 31 by decide))]
    exact flag_setB_same s (F.CSK_STEER_EN i) en (show 32 ≤ 32 by decide) (show 0 < 1 by decide)
  · rw [keep, fld_setB_bits _ (F.CSK_STEER_ACTIVE i) (F.CSK_STEER_LANE i) _ rfl (show 31 ≤ 32 by decide) (.inr (show 6 ≤ 30 by decide)),
      fld_setF_same _ (F.CSK_STEER_LANE i) _ (show 6 ≤ 32 by decide)]
    exact Nat.mod_eq_of_lt h

/-- A steering request is noted (R149). -/
theorem cskSteerWrite_notes (i : Fin 4) (w : Word) (hr : s.reaches 0x30 = true) (ha : s.flag (F.CSK_STEER_AUTO i) = false)
    (hfree : ∀ j < 4, j ≠ i.val → s.flag (F.CSK_STEER_EN j) = true → s.fld (F.CSK_STEER_LANE j) ≠ w.toNat % 64) :
    ∃ t, exec (.cskSteerWrite i w) s = .next t ∧ t.flag (F.CSK_STEER_EN i) = w.toNat.testBit 31 ∧
      t.fld (F.CSK_STEER_LANE i) = w.toNat % 64 ∧ i.val ∈ t.b.cask.steerPending ∧ accessFrame [R.CSK_STEER i] [.bCask] s t := by
  have hnotes := steerWrite_notes (s := s.served 0x30) i.val w
    ((served_flag s 0x30 (F.CSK_STEER_AUTO i) (steerReg_kept i)).trans ha) fun j hj hne hen => by
      rw [served_flag s 0x30 (F.CSK_STEER_EN j) (steerReg_kept j)] at hen
      rw [served_fld s 0x30 (F.CSK_STEER_LANE j) (steerReg_kept j)]
      exact hfree j hj hne hen
  have hrun : exec (.cskSteerWrite i w) s = .next ((steerWrite i.val w).run (s.served 0x30)) :=
    perform_toPage s 0x30 (steerWrite i.val w) hr
  obtain ⟨hen, hlane, hpend⟩ := noteSteer_effect (s.served 0x30) i.val (w.toNat.testBit 31)
    ((s.served 0x30).b.cask.serve.contains (i.val, w.toNat % 64)) (Nat.mod_lt w.toNat (by decide : 0 < 64))
  rw [hnotes] at hrun
  exact ⟨_, hrun, hen, hlane, hpend, accessFrame_run s 0x30 (within_cons (within_setB (by simp)) (within_cons (within_setF (by simp))
    (within_cons (within_setB (by simp)) (within_cons (within_onCask (by simp)) within_nil))))⟩

/-- A spare serves its lane from the boundary on: it is asked for, works, and is not under self-test (R149). -/
def State.spareGoes (s : State) (i : Nat) : Bool :=
  s.flag (F.CSK_STEER_EN i) && !s.tapRetired (64 + i) && !s.tapTested (64 + i)

theorem within_applySteer (i : Nat) :
    (applySteer i).Within (fun a => eventRegs a || [R.CSK_STEER i].contains a) (eventParts ++ [.bCask, .bBst]) :=
  within_dyn fun _ => within_cons (within_setB (by simp)) (within_cons (within_onCask (by decide))
    (within_cons (within_on (within_seq (within_onCask (by decide)) (within_raise eventFrame_allows))) within_nil))

/-- What a spare that serves its lane from now on brings about. -/
def serveSpare (i lane : Nat) : Act :=
  .seq (onCask fun c => { c with serve := (i, lane) :: c.serve }) (raise E.CSK_STEERED)

theorem within_serveSpare (i lane : Nat) : (serveSpare i lane).Within eventRegs (.bCask :: eventParts) :=
  within_seq (within_onCask (by decide)) (within_raise ⟨fun _ h => h, fun p h => by simp [h]⟩)

theorem unserve_flag (s : State) (i : Nat) (f : Fld) : ((unserve i).run s).flag f = s.flag f := rfl

theorem applySteer_run (s : State) (i : Nat) : (applySteer i).run s =
    (on (s.spareGoes i) (serveSpare i (s.fld (F.CSK_STEER_LANE i)))).run
      ((unserve i).run ((setB (F.CSK_STEER_ACTIVE i) (s.spareGoes i)).run s)) := by
  rw [applySteer, run_dyn, State.spareGoes, serveSpare]
  dsimp only
  rw [run_acts_cons, run_acts_cons, run_acts_cons, run_acts_nil]

/-- A request that takes effect says whether its spare serves (R149). -/
theorem applySteer_active (s : State) (i : Nat) :
    ((applySteer i).run s).flag (F.CSK_STEER_ACTIVE i) = s.spareGoes i := by
  have regs : ∀ j < 4, eventRegs (0x30120 + j * 0x4) = false := by decide
  have hreg : eventRegs (F.CSK_STEER_ACTIVE i).addr = false := regs _ (Nat.mod_lt _ (by decide))
  have hserve := within_on (c := s.spareGoes i) (within_serveSpare i (s.fld (F.CSK_STEER_LANE i)))
  rw [applySteer_run, framed_flag (hserve _) _ hreg, unserve_flag]
  exact flag_setB_same s (F.CSK_STEER_ACTIVE i) (s.spareGoes i) (show 31 ≤ 32 by decide) (show 0 < 1 by decide)

/-- What a boundary brings where one request waits: a cover that is stale ends, and the request takes effect. -/
def steerAtBoundary (stale : Bool) (i : Nat) : Act :=
  .seq (on stale (onBst fun b => { b with cover := none }))
    (.seq (applySteer i) (onCask fun c => { c with steerPending := [] }))

/-- At a boundary the one request that waits takes effect (R149). -/
theorem steerApply_serves (i : Fin 4) (hb : s.steerBoundary = true) (hp : s.b.cask.steerPending = [i.val]) :
    ∃ t, exec .steerApply s = .next t ∧ t.b.cask.steerPending = [] ∧ t.flag (F.CSK_STEER_ACTIVE i) = s.spareGoes i ∧
      eventFrame [R.CSK_STEER i] [.bCask, .bBst] s t := by
  have hrun : exec .steerApply s = .next ((steerAtBoundary s.coverStale i).run { s with out := [] }) := by
    have hb' : ({ s with out := [] } : State).steerBoundary = true := hb
    show execSteerApply s = _
    rw [execSteerApply, perform_eq, run_dyn, hb', on_true]
    simp only [hp]
    rfl
  have hframe := eventFrame_run (a := steerAtBoundary s.coverStale i) (regs := [R.CSK_STEER i]) (parts := [.bCask, .bBst]) s
    (within_seq (within_on (within_onBst (by decide))) (within_seq (within_applySteer i) (within_onCask (by decide))))
  refine ⟨_, hrun, rfl, ?_, hframe⟩
  have hcover : framed (fun _ => false) [.bBst] { s with out := [] }
      ((on s.coverStale (onBst fun b => { b with cover := none })).run { s with out := [] }) :=
    within_on (within_onBst (by decide)) _
  have hflag := applySteer_active ((on s.coverStale (onBst fun b => { b with cover := none })).run { s with out := [] }) i
  rw [steerAtBoundary, run_seq, run_seq]
  generalize (on s.coverStale (onBst fun b => { b with cover := none })).run { s with out := [] } = u at *
  have hrd : ∀ a, u.rd a = s.rd a := fun a => hcover.2.1 a rfl
  refine Eq.trans hflag ?_
  simp only [State.spareGoes, State.flag, State.tapRetired, State.tapTested, State.fld, hrd]

/-! ### The commit (R132, R140, R147) -/

/-- The cask with the lees of a slot entered (R140). -/
def enterLees (x : Slot) (l : List (Nat × Nat)) : List (Nat × Nat) :=
  x.lees.foldl (fun l e => spPut (fun _ => 0) l e.1 (spGet (fun _ => 0) l e.1 / 16 * 16 + e.2)) l

/-- The cask once its oldest draining slot is committed. -/
def CaskBlk.commit (x : Slot) (rest : List Slot) (c : CaskBlk) : CaskBlk :=
  { c with
    draining := rest
    cask := enterLees x c.cask
    oldest := if x.last then c.oldest else max c.oldest (x.shot + 1) }

/-- The commit of the oldest draining slot: its lees and the discard pointer (R132, R140). -/
def commitSlot (x : Slot) (rest : List Slot) : Act := .seq (onCask (CaskBlk.commit x rest)) moveDiscard

theorem commitWritesDone_run {x : Slot} {rest : List Slot} (h : s.b.cask.draining = x :: rest)
    (ce : List (Fin 8192 × Fin 4 × Fin 32)) :
    exec (.commitWritesDone ce none) s = .next ((correctedWords ce).run ((commitSlot x rest).run { s with out := [] })) := by
  show execCommitWritesDone ce none s = _
  rw [execCommitWritesDone, perform_eq, run_dyn]
  simp only [h]
  rfl

theorem within_commitSlot (x : Slot) (rest : List Slot) : (commitSlot x rest).Within (fun _ => false) [.bCask] :=
  within_seq (within_onCask (by decide)) (within_dyn fun _ => within_onCask (by decide))

theorem oldestRow_congr (hc : t.b.cask.draining = s.b.cask.draining) (ho : t.b.cask.oldest = s.b.cask.oldest)
    (hp : t.b.press = s.b.press) (hl : t.b.lat = s.b.lat) : t.oldestRow = s.oldestRow := by
  simp only [State.oldestRow, State.run, hc, ho, hp, hl]

/-- What the commit of the oldest draining slot leads to (R132, R140). -/
theorem commitSlot_effect (s : State) (x : Slot) (rest : List Slot) :
    ((commitSlot x rest).run s).b.cask.discard = ((commitSlot x rest).run s).oldestRow ∧
      ((commitSlot x rest).run s).b.cask.draining = rest ∧
      ((commitSlot x rest).run s).b.cask.slots = s.b.cask.slots ∧
      ((commitSlot x rest).run s).b.cask.cask = enterLees x s.b.cask.cask := by
  have hrow : ∀ u : State, (moveDiscard.run u).b.cask.discard = (moveDiscard.run u).oldestRow := fun u =>
    (oldestRow_congr (t := moveDiscard.run u) (s := u) rfl rfl rfl rfl).symm
  exact ⟨hrow _, rfl, rfl, rfl⟩

/-- The oldest draining slot's lees enter the cask, and the discard pointer moves on (R132, R140, R147). -/
theorem commitWritesDone_commits {x : Slot} {rest : List Slot} (h : s.b.cask.draining = x :: rest)
    (ce : List (Fin 8192 × Fin 4 × Fin 32)) :
    ∃ t, exec (.commitWritesDone ce none) s = .next t ∧ t.rd R.CSK_CE_CNT = (s.rd R.CSK_CE_CNT + ce.length) % 2 ^ 32 ∧
      t.b.cask.discard = t.oldestRow ∧ t.b.cask.draining = rest ∧ t.b.cask.slots = s.b.cask.slots ∧
      t.b.cask.cask = enterLees x s.b.cask.cask ∧ pagesFrame [0x14, 0x30] [.bCask] s t := by
  refine ⟨_, commitWritesDone_run h ce, ?_⟩
  have hslot := framed_clear s (ps := [.out, .bCask]) (by decide)
    (framed_mono (fun _ h => h) (by decide) (within_commitSlot x rest { s with out := [] }))
  obtain ⟨hdiscard, hrest, hslots, hcask⟩ := commitSlot_effect { s with out := [] } x rest
  generalize (commitSlot x rest).run { s with out := [] } = u at *
  have hwords := within_correctedWords ce u
  have hcount := correctedWords_counts u ce
  generalize (correctedWords ce).run u = v at *
  have hsame : v.b.cask = u.b.cask := hwords.2.2 .bCask (by decide)
  have hrow : v.oldestRow = u.oldestRow := oldestRow_congr (by rw [hsame]) (by rw [hsame])
    (hwords.2.2 .bPress (by decide)) (hwords.2.2 .bLat (by decide))
  rw [hsame, hrow]
  refine ⟨by rw [hcount, hslot.2.1 _ rfl], hdiscard, hrest, hslots, hcask, ?_⟩
  have hpages : ∀ a ∈ correctedRegs, [0x14, 0x30].contains (a / 0x1000) = true := by decide
  refine framed_trans (framed_mono (by simp) (by decide) hslot) (framed_mono (fun a ha => ?_) (by decide) hwords)
  simp only [noteRegs, Bool.or_eq_true, List.contains_eq_mem, decide_eq_true_eq] at ha ⊢
  exact ha.imp_right fun ha => by simpa using hpages a ha

/-- Settles O22: the start and the completion of a shot, steering requests and their boundary, and the commit. -/
theorem tapsComputeSignSteerAndCommitShots : Obligations.TapsComputeSignSteerAndCommitShots := fun _ =>
  ⟨fun _ _ hr hcap hm hrows _ hf hue => tapShotStart_computes hr hcap hm hrows hf hue,
    fun _ hr hx => tapShotDone_completes hr hx, fun i w hr ha hfree => cskSteerWrite_notes i w hr ha hfree,
    fun i hb hp => steerApply_serves i hb hp, fun _ _ h ce => commitWritesDone_commits h ce⟩

end Sys2Proof.Machine
end

section
/-! SUPPORT. Records in event rings (R108, R348), and what reading a cellar line leaves as it was (R335, R338 to R344). -/

namespace Sys2Proof.Machine

variable {rg : Nat → Bool} {ps : List Part}

theorem within_recordTo (ok : AllowsEvents rg ps) {ring : Nat} {bytes : List Nat} {lost : Act} (h : lost.Within rg ps) :
    (recordTo ring bytes lost).Within rg ps :=
  within_dyn fun _ => within_ite (within_ringWrite ok) h

theorem keeps_recordTo {e : Evt} {ring : Nat} {bytes : List Nat} {lost : Act} (h : lost.Keeps e) :
    (recordTo ring bytes lost).Keeps e :=
  keeps_dyn fun _ => keeps_ite keeps_ringWrite h

/-- The parts that reading a cellar line may change: the line's bytes and errors, a rank that it retires and the stop that
follows, and what events take. The press is not among them. -/
def lineParts : List Part := eventParts ++ [.mem, .bCel, .bRam, .bJob, .dev, .prevDev]

theorem lineAllows : AllowsEvents (fun _ => true) lineParts := ⟨fun _ _ => rfl, by decide⟩

theorem within_memRecord (kind source addr rank dev ch : Nat) :
    (memRecord kind source addr rank dev ch).Within (fun _ => true) lineParts :=
  within_dyn fun _ => within_ite (within_recordTo lineAllows (within_addR rfl)) (within_addR rfl)

theorem within_stopAtEnd : stopAtEnd.Within (fun _ => true) lineParts :=
  within_dyn fun _ => within_ite
    (within_seq (within_enter lineAllows rfl (by decide) (by decide)) (within_onJob (by decide)))
    (within_on (within_onJob (by decide)))

theorem within_retireRank (ch rank : Nat) : (retireRank ch rank).Within (fun _ => true) lineParts :=
  within_dyn fun _ => within_ite within_nop (within_cons (within_onRam (by decide)) (within_cons (within_ite
    (within_cons (within_onRam (by decide)) (within_cons (within_raise lineAllows) (within_cons (within_memRecord _ _ _ _ _ _)
      (within_cons (within_on (within_setB rfl)) within_nil))))
    (within_cons (within_setF rfl) (within_cons (within_raise lineAllows) (within_cons (within_memRecord _ _ _ _ _ _)
      (within_cons within_stopAtEnd within_nil))))) within_nil))

theorem within_spareFails (ch : Nat) : (spareFails ch).Within (fun _ => true) lineParts :=
  within_dyn fun _ => within_cons (within_onRam (by decide)) (within_cons (within_setB rfl) (within_cons (within_setF rfl)
    (within_cons (within_raise lineAllows) (within_cons (within_memRecord _ _ _ _ _ _) (within_cons within_stopAtEnd within_nil)))))

theorem within_rewriteLine (la : Nat) (line : List Nat) : (rewriteLine la line).Within (fun _ => true) lineParts :=
  within_cons (within_each fun _ => within_cell (by decide)) (within_cons (within_onCel (by decide))
    (within_cons (within_onRam (by decide)) within_nil))

theorem within_writeBack (las : List Nat) : (writeBack las).Within (fun _ => true) lineParts :=
  within_dyn fun _ => within_each fun _ => within_seq (within_onRam (by decide))
    (within_dyn fun _ => within_on (within_rewriteLine _ _))

theorem within_placeError (faults : List LineFault) (la : Nat) : (placeError faults la).Within (fun _ => true) lineParts := by
  unfold placeError
  split
  · exact within_onRam (by decide)
  · exact within_nop

theorem within_parityNote (source : Nat) (faults : List LineFault) (la : Nat) :
    (parityNote source faults la).Within (fun _ => true) lineParts :=
  within_dyn fun _ => within_on (within_cons (within_satR rfl) (within_cons (within_raise lineAllows)
    (within_cons (within_memRecord _ _ _ _ _ _)
      (within_cons (within_ite (within_spareFails _) (within_retireRank _ _)) within_nil))))

theorem within_mcError (la rank dev : Nat) (ue : Bool) : (mcError la rank dev ue).Within (fun _ => true) lineParts :=
  within_cons (within_setR rfl) (within_cons (within_setR rfl) within_nil)

theorem within_dataNote (source : Nat) (read : LineRead) (la : Nat) :
    (dataNote source read la).Within (fun _ => true) lineParts := by
  refine within_dyn fun _ => ?_
  cases read with
  | clean => exact within_nop
  | poison => exact within_memRecord _ _ _ _ _ _
  | corrected dev =>
    exact within_cons (within_satR rfl) (within_cons (within_mcError _ _ _ _) (within_cons (within_onRam (by decide))
      (within_cons (within_on (within_raise lineAllows)) (within_cons (within_on (within_onRam (by decide))) within_nil))))
  | bad =>
    exact within_cons (within_satR rfl) (within_cons (within_mcError _ _ _ _) (within_cons (within_raise lineAllows)
      (within_cons (within_memRecord _ _ _ _ _ _)
        (within_cons (within_ite (within_spareFails _) (within_retireRank _ _)) within_nil))))

/-- What a line read leaves behind touches no part but the cellar, its controllers, and a stop that a lost rank brings. -/
theorem within_lineNote (source : Nat) (faults : List LineFault) (la : Nat) :
    (lineNote source faults la).Within (fun _ => true) lineParts :=
  within_dyn fun _ => within_cons (within_writeBack _) (within_cons (within_placeError _ _)
    (within_cons (within_parityNote _ _ _) (within_cons (within_dataNote _ _ _) within_nil)))

end Sys2Proof.Machine
end

section
/-! SUPPORT. The press starts a stripe and dispatches a cluster (R84, R88, R90, R117, R129). -/

namespace Sys2Proof.Machine

variable {s : State} {rg : Nat → Bool} {ps : List Part}

theorem within_setBin {n : Nat} {f : Bin → Bin} (h : .bCel ∈ ps) : (setBin n f).Within rg ps := within_onCel h

theorem within_setRun {num : Nat} {f : Run → Run} (h : .bPress ∈ ps) : (setRun num f).Within rg ps := within_onPress h

/-- A stripe of the press as its change leaves it. -/
theorem setRun_mem (s : State) {num : Nat} (f : Run → Run) {r : Run} (hr : r ∈ s.b.press.runs) (hn : r.stripe.num = num) :
    f r ∈ ((setRun num f).run s).b.press.runs :=
  List.mem_map.mpr ⟨r, hr, if_pos (by simpa using hn)⟩

/-- Every stripe of the press after a change that keeps its descriptor is one from before. -/
theorem setRun_stripe (s : State) {num : Nat} {f : Run → Run} (hf : ∀ r, (f r).stripe = r.stripe) {r : Run}
    (hr : r ∈ ((setRun num f).run s).b.press.runs) : ∃ r' ∈ s.b.press.runs, r'.stripe = r.stripe := by
  obtain ⟨r', hr', rfl⟩ := List.mem_map.mp hr
  refine ⟨r', hr', ?_⟩
  split
  · exact (hf r').symm
  · rfl

/-! ### The start of a stripe (R88, R117, R129) -/

/-- A stripe as the press starts it, from its queue entry and its header, at a row of the window (R129). -/
def startedRun (e : JobEntry) (h : StripeHdr) (tb : LatIn) (base : Nat) : Run :=
  { stripe := ⟨e.stripe, e.bin, e.rev, e.last, h.len, e.y0, e.x, base, shotCount h.len tb.dymax tb.s⟩, hdr := h }

/-- What the start of a stripe brings about. -/
def startStripe (bin base : Nat) (r : Run) : Act :=
  acts [setBin bin fun x => { x with state := .current },
    onPress fun p => { p with runs := p.runs ++ [r], nextBase := ((base + r.hdr.len - 1) / 64 + 1) * 64 }, moveDiscard,
    each (List.range 16) fun i => setF (F.PE_STAT_STRIPE_FAILS i) 0,
    setR R.PRS_CUR_STRIPE r.stripe.num, setR R.PRS_CUR_ROW (r.blockRow 0), setR R.CSK_BASE (base % 8192)]

theorem pressStripeStart_run {e : JobEntry} {x : Bin} {h : StripeHdr} {tb : LatIn} (hn : s.nextStripe = some (e, x, h))
    (hcap : s.b.lat.cap = some tb) (hp : s.pressing = true) (hm : s.mayStart = true)
    (hfree : s.b.press.runs = [] ∨ s.bandFree s.b.press.nextBase = true) :
    exec .pressStripeStart s = .next ((startStripe e.bin s.b.press.nextBase
      (startedRun e h tb s.b.press.nextBase)).run { s with out := [] }) := by
  have hstarts : (s.pressing && s.mayStart && (s.b.press.runs.isEmpty || s.bandFree s.b.press.nextBase)) = true := by
    simpa [hp, hm] using hfree
  have hn' : ({ s with out := [] } : State).nextStripe = some (e, x, h) := hn
  have hcap' : ({ s with out := [] } : State).b.lat.cap = some tb := hcap
  show execPressStripeStart s = _
  rw [execPressStripeStart, perform_eq, run_dyn, hn', hcap']
  exact congrArg Host.Outcome.next (congrArg (fun a => Act.run a { s with out := [] }) (if_pos hstarts))

theorem within_startStripe (bin base : Nat) (r : Run) : (startStripe bin base r).Within
    (fun a => ([R.PRS_CUR_STRIPE, R.PRS_CUR_ROW, R.CSK_BASE] ++ (List.range 16).map R.PE_STAT).contains a)
    (.out :: [.bCel, .bCask, .bPress]) := by
  have engines : ∀ i ∈ List.range 16, ([R.PRS_CUR_STRIPE, R.PRS_CUR_ROW, R.CSK_BASE] ++
      (List.range 16).map R.PE_STAT).contains (F.PE_STAT_STRIPE_FAILS i).addr = true := by decide
  exact within_cons (within_setBin (by decide)) (within_cons (within_onPress (by decide))
    (within_cons (within_dyn fun _ => within_onCask (by decide))
      (within_cons (within_eachMem fun i hi => within_setF (engines i hi)) (within_cons (within_setR (by decide))
        (within_cons (within_setR (by decide)) (within_cons (within_setR (by decide)) within_nil))))))

/-- The bin of a stripe that starts becomes CURRENT (R117). -/
theorem startStripe_bins (s : State) (bin base : Nat) (r : Run) {y : Bin}
    (hy : y ∈ ((startStripe bin base r).run s).b.cel.bins) (hn : y.num = bin) : y.state = .current := by
  have hbins : ((startStripe bin base r).run s).b.cel.bins =
      s.b.cel.bins.map fun x => if x.num == bin then { x with state := .current } else x := rfl
  rw [hbins] at hy
  obtain ⟨x, -, rfl⟩ := List.mem_map.mp hy
  by_cases hx : (x.num == bin) = true
  · rw [if_pos hx]
  · rw [if_neg hx] at hn
    exact absurd (by simpa using hn) hx

theorem startStripe_curStripe (s : State) (bin base : Nat) (r : Run) :
    ((startStripe bin base r).run s).rd R.PRS_CUR_STRIPE = r.stripe.num % 2 ^ 32 := by
  rw [startStripe, run_acts_cons, run_acts_cons, run_acts_cons, run_acts_cons, run_acts_cons, run_acts_cons, run_acts_cons,
    run_acts_nil, rd_setR_ne _ _ _ _ (by decide), rd_setR_ne _ _ _ _ (by decide), rd_setR_same]

/-! ### Dispatch (R84, R90) -/

/-- A cluster put on its engine. -/
def takeCluster (num : Nat) (c : Cluster) : Act :=
  acts [setRun num fun r => { r with busy := r.busy ++ [c] }, setB (F.PE_STAT_BUSY c.engine) true,
    setR (R.PE_LAST c.engine) c.q]

theorem takeCluster_busy (s : State) (num : Nat) (c : Cluster) :
    ((takeCluster num c).run s).flag (F.PE_STAT_BUSY c.engine) = true := by
  have hne : R.PE_LAST c.engine ≠ (F.PE_STAT_BUSY c.engine).addr := by
    show 0x2010c + c.engine % 16 * 0x1000 ≠ 0x20100 + c.engine % 16 * 0x1000
    omega
  rw [takeCluster, run_acts_cons, run_acts_cons, run_acts_cons, run_acts_nil, State.flag, fld_setR_addr _ _ _ _ hne]
  exact flag_setB_same _ (F.PE_STAT_BUSY c.engine) true (show 1 ≤ 32 by decide) (show 0 < 1 by decide)

theorem takeCluster_last (s : State) (num : Nat) (c : Cluster) :
    ((takeCluster num c).run s).rd (R.PE_LAST c.engine) = c.q % 2 ^ 32 := by
  rw [takeCluster, run_acts_cons, run_acts_cons, run_acts_cons, run_acts_nil, rd_setR_same]

theorem takeCluster_mem (s : State) (c : Cluster) {r : Run} (hr : r ∈ s.b.press.runs) :
    ∃ r' ∈ ((takeCluster r.stripe.num c).run s).b.press.runs, c ∈ r'.busy :=
  ⟨_, setRun_mem s (fun r => { r with busy := r.busy ++ [c] }) hr rfl, List.mem_append_right _ (List.mem_singleton.mpr rfl)⟩

/-- A dispatched cluster stands on its engine, whatever its lines read as (R84, R89). -/
theorem dispatchCluster_takes {num : Nat} {r : Run} (hr : s.b.press.runs.find? (fun r => r.stripe.num == num) = some r)
    {x : Bin} (hx : s.bin r.stripe.bin = some x) (q engine attempt : Nat) (faults : List LineFault) :
    ∃ u : State, ∃ bad, u.b.press = s.b.press ∧
      (dispatchCluster num q engine attempt faults).run s = (takeCluster num ⟨q, engine, attempt, bad⟩).run u := by
  refine ⟨(each (s.clusterLines x r.hdr q) (lineNote 4 faults)).run s,
    (s.clusterLines x r.hdr q).any fun la => !(s.readLine faults la).ok, ?_, ?_⟩
  · exact (within_each fun la => within_lineNote 4 faults la) s |>.2.2 .bPress (by decide)
  · rw [dispatchCluster, run_dyn, hr]
    simp only [hx]
    rfl

/-- PRS_CUR_ROW moves to the block row to dispatch next (R94). -/
def showRow (num : Nat) : Act := .dyn fun s =>
  match s.b.press.runs.find? fun r => r.stripe.num == num with
  | some r => setR R.PRS_CUR_ROW (r.blockRow (min (r.dispatched / 16) (r.blockRows - 1)))
  | none => .nop

theorem within_showRow (num : Nat) : (showRow num).Within (fun a => [R.PRS_CUR_ROW].contains a) [] := by
  refine within_dyn fun _ => ?_
  split
  · exact within_setR (by decide)
  · exact within_nop

/-- The next cluster in scan order is dispatched. -/
def dispatchNext (num q engine : Nat) (faults : List LineFault) : Act :=
  acts [setRun num fun r => { r with dispatched := r.dispatched + 1 }, dispatchCluster num q engine 0 faults, showRow num]

theorem pressDispatch_run {num q e : Nat} (hp : s.pressing = true) (hr : s.nextRetry = none)
    (hc : s.nextCluster = some (num, q)) (he : (List.range 16).find? s.engineIdle = some e) (faults : List LineFault) :
    exec (.pressDispatch faults) s = .next ((dispatchNext num q e faults).run { s with out := [] }) := by
  have hp' : ({ s with out := [] } : State).pressing = true := hp
  have hr' : ({ s with out := [] } : State).nextRetry = none := hr
  have hc' : ({ s with out := [] } : State).nextCluster = some (num, q) := hc
  have he' : (List.range 16).find? ({ s with out := [] } : State).engineIdle = some e := he
  show execPressDispatch faults s = _
  rw [execPressDispatch, perform_eq, run_dyn, hp', hr', hc', he']
  rfl

theorem nextCluster_run {num q : Nat} (h : s.nextCluster = some (num, q)) : ∃ r ∈ s.b.press.runs, r.stripe.num = num := by
  unfold State.nextCluster at h
  split at h
  · rename_i r hr
    split at h
    · exact ⟨r, List.mem_of_find?_eq_some hr, congrArg Prod.fst (Option.some.inj h)⟩
    · cases h
  · cases h

/-- The next cluster in scan order goes to the engine (R84). -/
theorem dispatchNext_takes {num q : Nat} (hc : ∃ r ∈ s.b.press.runs, r.stripe.num = num)
    (hb : ∀ r ∈ s.b.press.runs, (s.bin r.stripe.bin).isSome = true) (e : Nat) (faults : List LineFault) :
    ((dispatchNext num q e faults).run s).flag (F.PE_STAT_BUSY e) = true ∧
      ((dispatchNext num q e faults).run s).rd (R.PE_LAST e) = q % 2 ^ 32 ∧
      ∃ r ∈ ((dispatchNext num q e faults).run s).b.press.runs, ∃ c ∈ r.busy, c.engine = e ∧ c.q = q ∧ c.attempt = 0 := by
  have row : ∀ j o, 0x20000 ≤ o → [R.PRS_CUR_ROW].contains (o + j % 16 * 0x1000) = false := fun j o ho => by
    simp only [List.contains_eq_mem, List.mem_singleton, decide_eq_false_iff_not]
    show ¬ o + j % 16 * 0x1000 = 0x1810c
    omega
  obtain ⟨r₀, hr₀, hn₀⟩ := hc
  rw [dispatchNext, run_acts_cons, run_acts_cons, run_acts_cons, run_acts_nil]
  have hmem := setRun_mem s (fun r => { r with dispatched := r.dispatched + 1 }) hr₀ hn₀
  have hstripe := fun {r : Run} => setRun_stripe s (num := num) (f := fun r => { r with dispatched := r.dispatched + 1 })
    (fun _ => rfl) (r := r)
  have hbin : ∀ n, ((setRun num fun r => { r with dispatched := r.dispatched + 1 }).run s).bin n = s.bin n := fun _ => rfl
  generalize (setRun num fun r => { r with dispatched := r.dispatched + 1 }).run s = a at *
  obtain ⟨r, hr⟩ : ∃ r, a.b.press.runs.find? (fun r => r.stripe.num == num) = some r :=
    Option.isSome_iff_exists.mp (List.find?_isSome.mpr ⟨_, hmem, by simpa using hn₀⟩)
  have hra := List.mem_of_find?_eq_some hr
  have hrn : r.stripe.num = num := by simpa using List.find?_some hr
  obtain ⟨r₁, hr₁, hs₁⟩ := hstripe hra
  obtain ⟨x, hx⟩ := Option.isSome_iff_exists.mp (hb r₁ hr₁)
  obtain ⟨u, bad, hu, hrun⟩ := dispatchCluster_takes hr (x := x) (by rw [hbin, ← hs₁, hx]) q e 0 faults
  rw [hrun]
  have hrow := within_showRow num ((takeCluster num ⟨q, e, 0, bad⟩).run u)
  have hbusy := takeCluster_busy u num ⟨q, e, 0, bad⟩
  have hlast := takeCluster_last u num ⟨q, e, 0, bad⟩
  obtain ⟨r', hr', hc'⟩ := takeCluster_mem u ⟨q, e, 0, bad⟩ (r := r) (by rw [hu]; exact hra)
  rw [hrn] at hr'
  refine ⟨(framed_flag hrow _ (row e 0x20100 (by decide))).trans hbusy,
    (hrow.2.1 _ (row e 0x2010c (by decide))).trans hlast, r', ?_, _, hc', rfl, rfl, rfl⟩
  have hpress : ((showRow num).run ((takeCluster num ⟨q, e, 0, bad⟩).run u)).b.press =
    ((takeCluster num ⟨q, e, 0, bad⟩).run u).b.press := hrow.2.2 .bPress (by decide)
  rw [hpress]
  exact hr'

end Sys2Proof.Machine
end

section
/-! SUPPORT. The end of a cluster on its engine (R81, R86, R89 to R93), and the statement on the press. -/

namespace Sys2Proof.Machine

variable {s : State} {rg : Nat → Bool} {ps : List Part}

theorem onEngine_engine {e : Nat} {r : Run} {c : Cluster} (h : s.onEngine e = some (r, c)) : c.engine = e := by
  obtain ⟨r', -, hr'⟩ := List.exists_of_findSome?_eq_some h
  obtain ⟨c', hc', heq⟩ := Option.map_eq_some_iff.mp hr'
  obtain rfl : c' = c := congrArg Prod.snd heq
  simpa using List.find?_some hc'

/-! ### Registers of the engines and of the press -/

/-- Of the registers of the engines, events change none. -/
theorem engineReg_event (o j : Nat) (h : 0x20000 ≤ o) (h' : o < 0x21000) : eventRegs (o + j % 16 * 0x1000) = false := by
  simp only [eventRegs, Bool.or_eq_false_iff, beq_eq_false_iff_ne]
  refine ⟨⟨⟨⟨⟨⟨?_, ?_⟩, ?_⟩, ?_⟩, ?_⟩, ?_⟩, ?_⟩
  all_goals
    intro hc
    simp only [R.FIJ_DONE, R.NET_FIJ_CFG, R.NET_FIJ_DONE, R.NET_TX_CNT] at hc
    omega

/-- The page of an engine's register. -/
theorem engineReg_page (o j : Nat) (h : 0x20000 ≤ o) (h' : o < 0x21000) (hj : j < 16) :
    (o + j % 16 * 0x1000) / 0x1000 = 0x20 + j := by
  omega

/-- Two registers of one engine at different offsets are different. -/
theorem engineReg_ne {o o' : Nat} (j : Nat) (h : o ≠ o') : o + j % 16 * 0x1000 ≠ o' + j % 16 * 0x1000 := by
  omega

/-- An engine's register is none of the press's own. -/
theorem engineReg_press (o j : Nat) {a : Nat} (h : 0x20000 ≤ o) (ha : a < 0x20000) : o + j % 16 * 0x1000 ≠ a := by
  omega

/-- A register that is none of the events' and none of a list's lies outside what both allow. -/
theorem eventRegs_or_notMem {a : Nat} {l : List Nat} (he : eventRegs a = false) (hl : a ∉ l) :
    (eventRegs a || l.contains a) = false := by
  simp [he, hl]

/-! ### Engines and booking -/

theorem within_freeEngine {num e : Nat} (h : rg (R.PE_STAT e) = true) (hp : .bPress ∈ ps) : (freeEngine num e).Within rg ps :=
  within_seq (within_setRun hp) (within_setB h)

theorem freeEngine_busy (s : State) (num e : Nat) : ((freeEngine num e).run s).flag (F.PE_STAT_BUSY e) = false :=
  flag_setB_same _ (F.PE_STAT_BUSY e) false (show 1 ≤ 32 by decide) (show 0 < 1 by decide)

theorem within_bookCluster (bin q : Nat) (hc : .bCel ∈ ps) (hl : .ledTile ∈ ps) : (bookCluster bin q).Within rg ps := by
  refine within_dyn fun _ => ?_
  split
  · exact within_on (within_seq (within_bookOut hl) (within_setBin hc))
  · exact within_nop

/-- A cluster not booked before leaves the TILE account with its 8 blocks (R81). -/
theorem bookCluster_books {bin q : Nat} {x : Bin} (hx : s.bin bin = some x) (hq : q ∉ x.booked) :
    ((bookCluster bin q).run s).led.tile = s.led.tile.book (.leave 8) := by
  have hnew : (!x.booked.contains q) = true := by simpa using hq
  rw [bookCluster, run_dyn, hx]
  simp only [hnew]
  rfl

theorem keeps_bookCluster {e : Evt} (bin q : Nat) : (bookCluster bin q).Keeps e := by
  refine keeps_dyn fun _ => ?_
  split
  · exact keeps_on (keeps_seq keeps_bookOut keeps_blk)
  · exact keeps_nop

theorem within_noteHead (num : Nat) (h : .bCask ∈ ps) : (noteHead num).Within rg ps := by
  refine within_dyn fun _ => ?_
  split
  · exact within_on (within_onCask h)
  · exact within_nop

/-! ### A cluster that decodes (R86) -/

/-- The cluster's pixels enter the cask, and its engine is free. -/
def storeAndFree (r : Run) (c : Cluster) (px : List Nat) (e : Nat) : Act :=
  .seq (storeCluster r c.q px) (freeEngine r.stripe.num e)

/-- The counts of a cluster that passes. -/
def countPass (c : Cluster) (e : Nat) : Act :=
  .seq (addR (R.PE_CLUSTERS e) 1) (on (c.attempt != 0) (addR R.PRS_CNT_RETRY_OK 1))

/-- Rows are released in order while their clusters have all passed. -/
def releaseAfter (r : Run) (c : Cluster) : Act :=
  acts [setRun r.stripe.num fun r => releaseRows (r.blockRows + 1) { r with passed := c.q :: r.passed },
    noteHead r.stripe.num, checkFill]

/-- What a cluster that passes brings about. -/
def passCluster (r : Run) (c : Cluster) (px : List Nat) (e : Nat) : Act :=
  acts [storeCluster r c.q px, freeEngine r.stripe.num e, addR (R.PE_CLUSTERS e) 1,
    on (c.attempt != 0) (addR R.PRS_CNT_RETRY_OK 1), bookCluster r.stripe.bin c.q,
    setRun r.stripe.num fun r => releaseRows (r.blockRows + 1) { r with passed := c.q :: r.passed },
    noteHead r.stripe.num, checkFill]

theorem passCluster_run (s : State) (r : Run) (c : Cluster) (px : List Nat) (e : Nat) : (passCluster r c px e).run s =
    (releaseAfter r c).run ((bookCluster r.stripe.bin c.q).run ((countPass c e).run ((storeAndFree r c px e).run s))) := by
  rw [passCluster, run_acts_cons, run_acts_cons, run_acts_cons, run_acts_cons, run_acts_cons, run_acts_cons, run_acts_cons,
    run_acts_cons, run_acts_nil, releaseAfter, run_acts_cons, run_acts_cons, run_acts_cons, run_acts_nil, countPass, run_seq,
    storeAndFree, run_seq]

theorem clusterPass_run {e : Fin 16} {r : Run} {c : Cluster} {px : List Nat} (h : s.onEngine e = some (r, c))
    (hd : s.decodeOn r c = .pass px) :
    exec (.clusterPass e) s = .next ((passCluster r c px e).run { s with out := [] }) := by
  have h' : ({ s with out := [] } : State).onEngine e = some (r, c) := h
  have hd' : ({ s with out := [] } : State).decodeOn r c = .pass px := hd
  show execClusterPass e s = _
  rw [execClusterPass, perform_eq, run_dyn, h']
  simp only [hd']
  rfl

theorem within_storeAndFree (r : Run) (c : Cluster) (px : List Nat) (e : Nat) :
    (storeAndFree r c px e).Within (fun a => [R.PE_STAT e].contains a) [.bCask, .bPress] :=
  within_seq (within_onCask (by decide)) (within_freeEngine (by simp) (by decide))

theorem within_countPass (c : Cluster) (e : Nat) :
    (countPass c e).Within (fun a => [R.PE_CLUSTERS e, R.PRS_CNT_RETRY_OK].contains a) [] :=
  within_seq (within_addR (by simp)) (within_on (within_addR (by simp)))

theorem within_releaseAfter (r : Run) (c : Cluster) : (releaseAfter r c).Within eventRegs (eventParts ++ [.bCask, .bPress]) :=
  within_cons (within_setRun (by decide)) (within_cons (within_noteHead _ (by decide))
    (within_cons (within_checkFill.mono (fun _ h => h) (by decide)) within_nil))

theorem countPass_clusters (s : State) (c : Cluster) (e : Nat) :
    ((countPass c e).run s).rd (R.PE_CLUSTERS e) = (s.rd (R.PE_CLUSTERS e) + 1) % 2 ^ 32 := by
  have hretry : (on (c.attempt != 0) (addR R.PRS_CNT_RETRY_OK 1)).Within (fun a => a == R.PRS_CNT_RETRY_OK) [] :=
    within_on (within_addR (by simp))
  rw [countPass, run_seq, (hretry _).2.1 _ (by simpa using engineReg_press 0x20104 e (by decide) (by decide)), rd_addR_same]

/-- A cluster that decodes frees its engine, and is counted and booked (R81, R86). -/
theorem passCluster_effect (s : State) (r : Run) (c : Cluster) (px : List Nat) (e : Nat) :
    ((passCluster r c px e).run s).flag (F.PE_STAT_BUSY e) = false ∧
      ((passCluster r c px e).run s).rd (R.PE_CLUSTERS e) = (s.rd (R.PE_CLUSTERS e) + 1) % 2 ^ 32 ∧
      (∀ x, s.bin r.stripe.bin = some x → c.q ∉ x.booked →
        ((passCluster r c px e).run s).led.tile = s.led.tile.book (.leave 8)) ∧
      framed (fun a => eventRegs a || [R.PE_STAT e, R.PE_CLUSTERS e, R.PRS_CNT_RETRY_OK].contains a)
        (eventParts ++ [.bCask, .bCel, .bPress, .ledTile]) s ((passCluster r c px e).run s) := by
  have hstat := engineReg_event 0x20100 e (by decide) (by decide)
  have hclusters := engineReg_event 0x20104 e (by decide) (by decide)
  rw [passCluster_run]
  have f₁ := within_storeAndFree r c px e s
  have hbusy : ((storeAndFree r c px e).run s).flag (F.PE_STAT_BUSY e) = false := by
    rw [storeAndFree, run_seq, freeEngine_busy]
  generalize (storeAndFree r c px e).run s = a at *
  have f₂ := within_countPass c e a
  have hcount := countPass_clusters a c e
  generalize (countPass c e).run a = b at *
  have f₃ : framed (fun _ => false) [.bCel, .ledTile] b ((bookCluster r.stripe.bin c.q).run b) :=
    within_bookCluster _ _ (by decide) (by decide) b
  have hbook := fun x => bookCluster_books (s := b) (bin := r.stripe.bin) (q := c.q) (x := x)
  generalize (bookCluster r.stripe.bin c.q).run b = d at *
  have f₄ := within_releaseAfter r c d
  generalize (releaseAfter r c).run d = u at *
  have hcel : b.b.cel = s.b.cel := (f₂.2.2 .bCel (by decide)).trans (f₁.2.2 .bCel (by decide))
  have htile : b.led.tile = s.led.tile := (f₂.2.2 .ledTile (by decide)).trans (f₁.2.2 .ledTile (by decide))
  refine ⟨?_, ?_, fun x hx hq => ?_, ?_⟩
  · rw [framed_flag f₄ (F.PE_STAT_BUSY e) hstat, framed_flag f₃ (F.PE_STAT_BUSY e) rfl,
      framed_flag f₂ (F.PE_STAT_BUSY e) ?_, hbusy]
    simp only [List.contains_eq_mem, List.mem_pair, decide_eq_false_iff_not, not_or]
    exact ⟨engineReg_ne e (by decide), engineReg_press 0x20100 e (by decide) (by decide)⟩
  · rw [f₄.2.1 _ hclusters, f₃.2.1 _ rfl, hcount, f₁.2.1 _ ?_]
    simp
  · have hxb : b.bin r.stripe.bin = some x := by
      rw [← hx, State.bin, State.bin, hcel]
    exact (f₄.2.2 .ledTile (by decide)).trans ((hbook x hxb hq).trans (by rw [htile]))
  · refine framed_trans (framed_mono (fun r hr => ?_) (by decide) f₁) (framed_trans (framed_mono (fun r hr => ?_) (by decide) f₂)
      (framed_trans (framed_mono (by simp) (by decide) f₃) (framed_mono (fun r hr => by simp [hr]) (by decide) f₄)))
    · simp only [List.contains_eq_mem, List.mem_singleton, decide_eq_true_eq] at hr
      simp [hr]
    · simp only [List.contains_eq_mem, decide_eq_true_eq] at hr
      simp [List.mem_cons_of_mem _ hr]

/-! ### A cluster that fails (R89 to R93) -/

/-- The count of a failure's kind (R89). -/
def failureCount (kind : Nat) : Nat :=
  if kind = 1 then R.PRS_CNT_SAFFRON else if kind = 2 then R.PRS_CNT_POISON else R.PRS_CNT_DECODE

/-- The event of a failure's kind (R89). -/
def failureEvent (kind : Nat) : Evt := if kind = 1 then E.PRS_SAFFRON else if kind = 2 then E.PRS_POISON else E.PRS_DECODE

theorem failureCount_cases (kind : Nat) : failureCount kind ∈ [R.PRS_CNT_SAFFRON, R.PRS_CNT_POISON, R.PRS_CNT_DECODE] := by
  unfold failureCount
  split
  · decide
  · split <;> decide

theorem failureEvent_bit (kind : Nat) : (failureEvent kind).bit < 32 := by
  unfold failureEvent
  split
  · decide
  · split <;> decide

/-- The error that an engine's fault notes besides the cluster's: that of its SRAM (R347). -/
def faultNote : EngineFault → Act
  | .sram w => sramError 3 w.toNat true
  | _ => .nop

theorem within_faultNote (fault : EngineFault) : (faultNote fault).Within
    (fun a => eventRegs a || [R.MEM_SRAM_UE_CNT, R.MEM_SRAM_LOC].contains a) eventParts := by
  cases fault with
  | sram w => exact within_sramError ⟨fun a h => by simp [h], fun _ h => h⟩ (by decide) (by decide)
  | _ => exact within_nop

/-- What every failure notes, whether or not a retry follows: the engine is free, the failure is counted, raised and recorded,
and counted against its engine. -/
def noteFailure (r : Run) (c : Cluster) (kind detail computed : Nat) : Act :=
  acts [freeEngine r.stripe.num c.engine, addR (failureCount kind) 1, raise (failureEvent kind),
    pressRecord r.stripe.num c.q kind detail c.attempt c.engine computed, engineFailed r c]

/-- A failed cluster waits for its retry (R90). -/
def retryLater (r : Run) (c : Cluster) : Act :=
  setRun r.stripe.num fun r => { r with retry := r.retry ++ [{ c with attempt := c.attempt + 1, poisoned := false }] }

/-- A failed cluster is lost (R91). -/
def loseCluster (r : Run) (c : Cluster) (solo : Bool) : Act :=
  acts [bookCluster r.stripe.bin c.q, setRun r.stripe.num fun r => { r with lost := c.q :: r.lost },
    addR R.PRS_CNT_LOST 1, pressRecord r.stripe.num c.q 4 0 c.attempt c.engine 0, raise E.PRS_LOST, on solo stopSafe]

theorem clusterFailed_run (s : State) (r : Run) (c : Cluster) (kind detail computed : Nat) :
    (clusterFailed r c kind detail computed).run s =
      (if c.attempt < s.fld F.PRS_CFG_RETRY then retryLater r c else loseCluster r c s.solo).run
        ((noteFailure r c kind detail computed).run s) := by
  rw [clusterFailed, run_dyn, run_acts_cons, run_acts_cons, run_acts_cons, run_acts_cons, run_acts_cons, run_acts_cons,
    run_acts_nil, noteFailure, run_acts_cons, run_acts_cons, run_acts_cons, run_acts_cons, run_acts_cons, run_acts_nil, retryLater,
    loseCluster, failureCount, failureEvent]

theorem clusterFail_run {e : Fin 16} {r : Run} {c : Cluster} {fault : EngineFault} {kind detail computed : Nat}
    (h : s.onEngine e = some (r, c)) (hf : (s.decodeOn r c).failure fault = some (kind, detail, computed)) :
    exec (.clusterFail e fault) s =
      .next ((clusterFailed r c kind detail computed).run ((faultNote fault).run { s with out := [] })) := by
  have h' : ({ s with out := [] } : State).onEngine e = some (r, c) := h
  have hf' : (({ s with out := [] } : State).decodeOn r c).failure fault = some (kind, detail, computed) := hf
  show execClusterFail e fault s = _
  unfold execClusterFail
  rw [perform_eq, run_dyn, h']
  simp only [hf']
  cases fault <;> rfl

/-! ### Records and retirement (R92, R93) -/

theorem within_pressRecord (ok : AllowsEvents rg ps) (h : rg R.PRS_ERR_LOST = true)
    (stripe q kind detail attempt engine computed : Nat) :
    (pressRecord stripe q kind detail attempt engine computed).Within rg ps :=
  within_dyn fun _ => within_ite (within_recordTo ok (within_addR h)) (within_addR h)

theorem keeps_pressRecord {e : Evt} (stripe q kind detail attempt engine computed : Nat) :
    (pressRecord stripe q kind detail attempt engine computed).Keeps e :=
  keeps_dyn fun _ => keeps_ite (keeps_recordTo keeps_addR) keeps_addR

theorem within_engineRetired (ok : AllowsEvents rg ps) {e : Nat} (h : rg R.PRS_ERR_LOST = true) (hs : rg (R.PE_STAT e) = true)
    (stripe q attempt : Nat) : (engineRetired e stripe q attempt).Within rg ps :=
  within_cons (within_setB hs) (within_cons (within_raise ok)
    (within_cons (within_pressRecord ok h _ _ _ _ _ _ _) within_nil))

/-- What a failure brings its engine besides the count: the stripe's own count, and retirement (R92). -/
def engineTried (r : Run) (c : Cluster) (newest retires : Bool) (n : Nat) : Act :=
  acts [setRun r.stripe.num fun x => { x with fails := spPut (fun _ => 0) x.fails c.engine n },
    on newest (setF (F.PE_STAT_STRIPE_FAILS c.engine) (min n 15)),
    on retires (engineRetired c.engine r.stripe.num c.q c.attempt)]

theorem engineFailed_run (s : State) (r : Run) (c : Cluster) : ∃ newest retires n,
    (engineFailed r c).run s = (engineTried r c newest retires n).run ((addR (R.PE_FAILS c.engine) 1).run s) :=
  ⟨_, _, _, rfl⟩

/-- The registers that a failure may change on its engine, but for the count of the engine's failures. -/
def triedRegs (e a : Nat) : Bool := eventRegs a || [R.PE_STAT e, R.PRS_ERR_LOST].contains a

theorem triedAllows (e : Nat) : AllowsEvents (triedRegs e) (eventParts ++ [.bPress]) :=
  ⟨fun a h => by simp [triedRegs, h], by decide⟩

theorem within_engineTried (r : Run) (c : Cluster) (newest retires : Bool) (n : Nat) :
    (engineTried r c newest retires n).Within (triedRegs c.engine) (eventParts ++ [.bPress]) :=
  within_cons (within_setRun (by decide)) (within_cons (within_on (within_setF (by simp [triedRegs])))
    (within_cons (within_on (within_engineRetired (triedAllows _) (by simp [triedRegs]) (by simp [triedRegs]) _ _ _))
      within_nil))

theorem keeps_engineFailed {e : Evt} (hb : e.bit < 32) (r : Run) (c : Cluster) : (engineFailed r c).Keeps e :=
  keeps_dyn fun _ => keeps_cons keeps_addR (keeps_cons keeps_blk (keeps_cons (keeps_on keeps_setF)
    (keeps_cons (keeps_on (keeps_cons keeps_setB (keeps_cons (keeps_raise hb)
      (keeps_cons (keeps_pressRecord _ _ _ _ _ _ _) keeps_nil)))) keeps_nil)))

/-- An event leaves an engine as busy as it was. -/
theorem raise_busy (s : State) (x : Evt) (e : Nat) :
    ((raise x).run s).flag (F.PE_STAT_BUSY e) = s.flag (F.PE_STAT_BUSY e) :=
  framed_flag (raise_framed s x) (F.PE_STAT_BUSY e) (engineReg_event 0x20100 e (by decide) (by decide))

/-- A record leaves an engine as busy as it was. -/
theorem pressRecord_busy (s : State) (stripe q kind detail attempt engine computed e : Nat) :
    ((pressRecord stripe q kind detail attempt engine computed).run s).flag (F.PE_STAT_BUSY e) = s.flag (F.PE_STAT_BUSY e) := by
  exact framed_flag (within_pressRecord (rg := fun a => eventRegs a || [R.PRS_ERR_LOST].contains a) (ps := eventParts ++ [])
    eventFrame_allows (by decide) stripe q kind detail attempt engine computed s) (F.PE_STAT_BUSY e)
    (eventRegs_or_notMem (engineReg_event 0x20100 e (by decide) (by decide))
      (mt List.mem_singleton.mp (engineReg_press 0x20100 e (by decide) (by decide))))

theorem engineRetired_busy (s : State) (e stripe q attempt : Nat) :
    ((engineRetired e stripe q attempt).run s).flag (F.PE_STAT_BUSY e) = s.flag (F.PE_STAT_BUSY e) := by
  rw [engineRetired, run_acts_cons, run_acts_cons, run_acts_cons, run_acts_nil, pressRecord_busy,
    raise_busy, State.flag,
    fld_setB_bits _ (F.PE_STAT_RETIRED e) (F.PE_STAT_BUSY e) _ rfl (show 2 ≤ 32 by decide) (.inr (show 1 ≤ 1 by decide)), State.flag]

/-- An engine's failure leaves it as busy as it was. -/
theorem engineTried_busy (s : State) (r : Run) (c : Cluster) (newest retires : Bool) (n : Nat) :
    ((engineTried r c newest retires n).run s).flag (F.PE_STAT_BUSY c.engine) = s.flag (F.PE_STAT_BUSY c.engine) := by
  have hfails : ∀ u : State, ((on newest (setF (F.PE_STAT_STRIPE_FAILS c.engine) (min n 15))).run u).flag
      (F.PE_STAT_BUSY c.engine) = u.flag (F.PE_STAT_BUSY c.engine) := fun u => by
    cases newest with
    | false => rfl
    | true =>
      rw [on_true, State.flag, fld_setF_bits _ (F.PE_STAT_STRIPE_FAILS c.engine) (F.PE_STAT_BUSY c.engine) _ rfl
        (show 8 ≤ 32 by decide) (.inr (show 1 ≤ 4 by decide)), State.flag]
  rw [engineTried, run_acts_cons, run_acts_cons, run_acts_cons, run_acts_nil]
  cases retires with
  | false => exact hfails _
  | true => exact (engineRetired_busy _ _ _ _ _).trans (hfails _)

/-! ### What every failure notes (R89, R92, R93) -/

/-- The registers that a failure on an engine may change besides those of events. -/
def failureRegs (e kind : Nat) : List Nat := [R.PE_STAT e, R.PRS_ERR_LOST, R.PE_FAILS e, failureCount kind]

theorem within_noteFailure (r : Run) (c : Cluster) (kind detail computed : Nat) :
    (noteFailure r c kind detail computed).Within (fun a => eventRegs a || (failureRegs c.engine kind).contains a)
      (eventParts ++ [.bPress]) := by
  have hrest := fun newest retires n => (within_engineTried r c newest retires n).mono
    (rg' := fun a => eventRegs a || (failureRegs c.engine kind).contains a) (fun a ha => by
      simp only [triedRegs, failureRegs, Bool.or_eq_true, List.contains_eq_mem, decide_eq_true_eq] at ha ⊢
      exact ha.imp_right fun ha => List.mem_append_left [R.PE_FAILS c.engine, failureCount kind] ha) fun _ h => h
  have hfailed : (engineFailed r c).Within (fun a => eventRegs a || (failureRegs c.engine kind).contains a)
      (eventParts ++ [.bPress]) := fun s => by
    obtain ⟨newest, retires, n, hrun⟩ := engineFailed_run s r c
    rw [hrun]
    exact framed_trans (within_addR (by simp [failureRegs]) s) (hrest newest retires n _)
  exact within_cons (within_freeEngine (by simp [failureRegs]) (by decide)) (within_cons (within_addR (by simp [failureRegs]))
    (within_cons (within_raise eventFrame_allows) (within_cons (within_pressRecord eventFrame_allows (by simp [failureRegs])
      _ _ _ _ _ _ _) (within_cons hfailed within_nil))))

/-- The first notes of a failure: the engine is free, and the failure is counted, raised and recorded. -/
def firstNotes (r : Run) (c : Cluster) (kind detail computed : Nat) : Act :=
  acts [freeEngine r.stripe.num c.engine, addR (failureCount kind) 1, raise (failureEvent kind),
    pressRecord r.stripe.num c.q kind detail c.attempt c.engine computed]

theorem noteFailure_run (s : State) (r : Run) (c : Cluster) (kind detail computed : Nat) :
    (noteFailure r c kind detail computed).run s = (engineFailed r c).run ((firstNotes r c kind detail computed).run s) := by
  rw [noteFailure, run_acts_cons, run_acts_cons, run_acts_cons, run_acts_cons, run_acts_cons, run_acts_nil, firstNotes,
    run_acts_cons, run_acts_cons, run_acts_cons, run_acts_cons, run_acts_nil]

/-- The count of a failure's kind is no register of events, of records or of an engine. -/
theorem failureCount_kept (kind : Nat) : (eventRegs (failureCount kind) || [R.PRS_ERR_LOST].contains (failureCount kind)) = false ∧
    failureCount kind < 0x20000 := by
  have h : ∀ a ∈ [R.PRS_CNT_SAFFRON, R.PRS_CNT_POISON, R.PRS_CNT_DECODE],
      (eventRegs a || [R.PRS_ERR_LOST].contains a) = false ∧ a < 0x20000 := by decide
  exact h _ (failureCount_cases kind)

theorem firstNotes_effect (s : State) (r : Run) (c : Cluster) (kind detail computed : Nat) :
    ((firstNotes r c kind detail computed).run s).flag (F.PE_STAT_BUSY c.engine) = false ∧
      ((firstNotes r c kind detail computed).run s).rd (failureCount kind) = (s.rd (failureCount kind) + 1) % 2 ^ 32 ∧
      ((firstNotes r c kind detail computed).run s).rd (R.PE_FAILS c.engine) = s.rd (R.PE_FAILS c.engine) ∧
      ((firstNotes r c kind detail computed).run s).raised (failureEvent kind) = true := by
  obtain ⟨hkept, hlt⟩ := failureCount_kept kind
  have hevent := engineReg_event 0x20108 c.engine (by decide) (by decide)
  have hrecord := within_pressRecord (rg := fun a => eventRegs a || [R.PRS_ERR_LOST].contains a) (ps := eventParts ++ [])
    eventFrame_allows (by decide) r.stripe.num c.q kind detail c.attempt c.engine computed
  have hfree : (freeEngine r.stripe.num c.engine).Within (fun a => a == R.PE_STAT c.engine) [.bPress] :=
    within_freeEngine (by simp) (by decide)
  rw [firstNotes, run_acts_cons, run_acts_cons, run_acts_cons, run_acts_cons, run_acts_nil]
  refine ⟨?_, ?_, ?_, keeps_pressRecord _ _ _ _ _ _ _ _ (raise_raised (failureEvent_bit kind) _)⟩
  · rw [pressRecord_busy, raise_busy, State.flag, State.fld, rd_addR_ne _ _ _ _ (engineReg_press 0x20100 c.engine (by decide) hlt).symm]
    exact freeEngine_busy s r.stripe.num c.engine
  · rw [(hrecord _).2.1 _ hkept, raise_rd _ _ _ (Bool.or_eq_false_iff.mp hkept).1, rd_addR_same, (hfree s).2.1 _ ?_]
    simpa using (engineReg_press 0x20100 c.engine (by decide) hlt).symm
  · rw [(hrecord _).2.1 _ (eventRegs_or_notMem hevent (mt List.mem_singleton.mp
        (engineReg_press 0x20108 c.engine (by decide) (by decide)))),
      raise_rd _ _ _ hevent, rd_addR_ne _ _ _ _ (engineReg_press 0x20108 c.engine (by decide) hlt).symm, (hfree s).2.1 _ (by simp)]

/-- What every failure notes: its engine is free, it is counted by its kind and against its engine, and it is raised. -/
theorem noteFailure_effect (s : State) (r : Run) (c : Cluster) (kind detail computed : Nat) :
    ((noteFailure r c kind detail computed).run s).flag (F.PE_STAT_BUSY c.engine) = false ∧
      ((noteFailure r c kind detail computed).run s).rd (failureCount kind) = (s.rd (failureCount kind) + 1) % 2 ^ 32 ∧
      ((noteFailure r c kind detail computed).run s).rd (R.PE_FAILS c.engine) = (s.rd (R.PE_FAILS c.engine) + 1) % 2 ^ 32 ∧
      ((noteFailure r c kind detail computed).run s).raised (failureEvent kind) = true := by
  obtain ⟨hbusy, hcount, hfails, hraised⟩ := firstNotes_effect s r c kind detail computed
  obtain ⟨hkept, hlt⟩ := failureCount_kept kind
  have hlast := keeps_engineFailed (failureEvent_bit kind) r c _ hraised
  rw [noteFailure_run]
  generalize (firstNotes r c kind detail computed).run s = u at *
  obtain ⟨newest, retires, n, hrun⟩ := engineFailed_run u r c
  rw [hrun] at hlast ⊢
  have hrest := within_engineTried r c newest retires n ((addR (R.PE_FAILS c.engine) 1).run u)
  refine ⟨?_, ?_, ?_, hlast⟩
  · rw [engineTried_busy, State.flag, State.fld, rd_addR_ne _ _ _ _ (engineReg_ne c.engine (by decide))]
    exact hbusy
  · rw [hrest.2.1 _ ?_, rd_addR_ne _ _ _ _ (engineReg_press 0x20108 c.engine (by decide) hlt), hcount]
    obtain ⟨hevent, hlost⟩ := Bool.or_eq_false_iff.mp hkept
    refine eventRegs_or_notMem hevent fun hl => ?_
    rcases List.mem_pair.mp hl with h | h
    · exact engineReg_press 0x20100 c.engine (by decide) hlt h.symm
    · rw [h] at hlost
      cases hlost
  · rw [hrest.2.1 _ ?_, rd_addR_same, hfails]
    refine eventRegs_or_notMem (engineReg_event 0x20108 c.engine (by decide) (by decide)) ?_
    rw [List.mem_pair, not_or]
    exact ⟨engineReg_ne c.engine (by decide), engineReg_press 0x20108 c.engine (by decide) (by decide)⟩

/-- The registers of a failure lie on the pages of the press and of its engine. -/
theorem failureRegs_pages {e : Nat} (he : e < 16) (kind : Nat) {a : Nat} (h : a ∈ failureRegs e kind) :
    [0x14, 0x18, 0x20 + e].contains (a / 0x1000) = true := by
  have counts : ∀ a ∈ [R.PRS_CNT_SAFFRON, R.PRS_CNT_POISON, R.PRS_CNT_DECODE], a / 0x1000 = 0x18 := by decide
  simp only [failureRegs, List.mem_cons, List.not_mem_nil, or_false] at h
  simp only [List.contains_eq_mem, List.mem_cons, List.not_mem_nil, or_false, decide_eq_true_eq]
  rcases h with rfl | rfl | rfl | rfl
  · exact .inr (.inr (engineReg_page 0x20100 e (by decide) (by decide) he))
  · exact .inr (.inl (by decide))
  · exact .inr (.inr (engineReg_page 0x20108 e (by decide) (by decide) he))
  · exact .inr (.inl (counts _ (failureCount_cases kind)))

/-- Of the registers of a failure, an error of an engine's SRAM changes none. -/
theorem faultNote_rd (s : State) (fault : EngineFault) {a : Nat}
    (h : eventRegs a = false) (hm : a / 0x1000 ≠ 0x14) : ((faultNote fault).run s).rd a = s.rd a := by
  refine (within_faultNote fault s).2.1 a (eventRegs_or_notMem h fun hl => ?_)
  rcases List.mem_pair.mp hl with rfl | rfl <;> exact hm (by decide)

/-! ### Retry and loss (R90, R91) -/

/-- A cluster that fails with retries left frees its engine, is counted, and waits (R90). -/
theorem clusterFail_retries {e : Fin 16} {r : Run} {c : Cluster} {fault : EngineFault} {kind detail computed : Nat}
    (h : s.onEngine e = some (r, c)) (hf : (s.decodeOn r c).failure fault = some (kind, detail, computed))
    (ha : c.attempt < s.fld F.PRS_CFG_RETRY) :
    ∃ t, exec (.clusterFail e fault) s = .next t ∧ t.flag (F.PE_STAT_BUSY e) = false ∧
      t.rd (failureCount kind) = (s.rd (failureCount kind) + 1) % 2 ^ 32 ∧
      t.rd (R.PE_FAILS e) = (s.rd (R.PE_FAILS e) + 1) % 2 ^ 32 ∧ t.raised (failureEvent kind) = true ∧
      t.led.tile = s.led.tile ∧ pagesFrame [0x14, 0x18, 0x20 + e] [.bPress] s t := by
  have hkept := Bool.or_eq_false_iff.mp (failureCount_kept kind).1
  have hpage : failureCount kind / 0x1000 ≠ 0x14 := by
    have counts : ∀ a ∈ [R.PRS_CNT_SAFFRON, R.PRS_CNT_POISON, R.PRS_CNT_DECODE], a / 0x1000 ≠ 0x14 := by decide
    exact counts _ (failureCount_cases kind)
  have he : c.engine = e := onEngine_engine h
  refine ⟨_, clusterFail_run h hf, ?_⟩
  have f₀ := framed_clear s (by decide) (within_faultNote fault { s with out := [] })
  have hcount₀ := faultNote_rd { s with out := [] } fault hkept.1 hpage
  have hfails₀ := faultNote_rd { s with out := [] } fault (engineReg_event 0x20108 e (by decide) (by decide))
    (by rw [engineReg_page 0x20108 e (by decide) (by decide) e.isLt]; omega)
  have hcfg := framed_fld f₀ F.PRS_CFG_RETRY (by decide)
  generalize (faultNote fault).run { s with out := [] } = u at *
  rw [clusterFailed_run, hcfg, if_pos ha]
  have hnotes := within_noteFailure r c kind detail computed u
  obtain ⟨hbusy, hcount, hfails, hraised⟩ := noteFailure_effect u r c kind detail computed
  rw [he] at hbusy hfails hnotes
  generalize (noteFailure r c kind detail computed).run u = v at *
  have hlast : framed (fun _ => false) [.bPress] v ((retryLater r c).run v) := within_setRun (by decide) v
  have hframe : pagesFrame [0x14, 0x18, 0x20 + e] [.bPress] s ((retryLater r c).run v) := by
    refine framed_trans (framed_mono (fun a ha => ?_) (by decide) f₀) (framed_trans (framed_mono (fun a ha => ?_) (by decide) hnotes)
      (framed_mono (by simp) (by decide) hlast))
    · simp only [Bool.or_eq_true, List.contains_eq_mem, List.mem_cons, List.not_mem_nil, or_false, decide_eq_true_eq] at ha ⊢
      exact ha.imp_right fun ha => .inl (by rcases ha with rfl | rfl <;> decide)
    · rw [Bool.or_eq_true] at ha ⊢
      exact ha.imp_right fun ha => failureRegs_pages e.isLt kind (by simpa using ha)
  exact ⟨hbusy, hcount.trans (by rw [hcount₀]; rfl), hfails.trans (by rw [hfails₀]; rfl), hraised,
    hframe.2.2 .ledTile (by decide), hframe⟩

/-- The loss of a cluster is counted once and raised, whatever stop it brings (R91). -/
theorem loseCluster_effect (s : State) (r : Run) (c : Cluster) (solo : Bool) :
    ((loseCluster r c solo).run s).rd R.PRS_CNT_LOST = (s.rd R.PRS_CNT_LOST + 1) % 2 ^ 32 ∧
      ((loseCluster r c solo).run s).raised E.PRS_LOST = true := by
  have hbook : (bookCluster r.stripe.bin c.q).Within (fun _ => false) [.bCel, .ledTile] :=
    within_bookCluster _ _ (by decide) (by decide)
  have hrun : (setRun r.stripe.num fun r => { r with lost := c.q :: r.lost }).Within (fun _ => false) [.bPress] :=
    within_setRun (by decide)
  have hrecord := within_pressRecord (rg := fun a => eventRegs a || [R.PRS_ERR_LOST].contains a) (ps := eventParts ++ [])
    eventFrame_allows (by decide) r.stripe.num c.q 4 0 c.attempt c.engine 0
  rw [loseCluster, run_acts_cons, run_acts_cons, run_acts_cons, run_acts_cons, run_acts_cons, run_acts_cons, run_acts_nil]
  generalize hv : (pressRecord r.stripe.num c.q 4 0 c.attempt c.engine 0).run _ = v
  have hstop := ((allows_on stopScope ((raise E.PRS_LOST).run v) solo stopSafe).mpr fun _ => allows_stopSafe _).rel
  refine ⟨?_, hstop.raised _ (by decide) (raise_raised (by decide) v)⟩
  rw [hstop.rd _ (by decide), raise_rd _ _ _ (by decide), ← hv, (hrecord _).2.1 _ (by decide), rd_addR_same, (hrun _).2.1 _ rfl,
    (hbook _).2.1 _ rfl]

/-- A cluster that fails with no retry left is lost (R91). -/
theorem clusterFail_loses {e : Fin 16} {r : Run} {c : Cluster} {fault : EngineFault} {kind detail computed : Nat}
    (h : s.onEngine e = some (r, c)) (hf : (s.decodeOn r c).failure fault = some (kind, detail, computed))
    (ha : s.fld F.PRS_CFG_RETRY ≤ c.attempt) :
    ∃ t, exec (.clusterFail e fault) s = .next t ∧ t.rd R.PRS_CNT_LOST = (s.rd R.PRS_CNT_LOST + 1) % 2 ^ 32 ∧
      t.raised E.PRS_LOST = true := by
  refine ⟨_, clusterFail_run h hf, ?_⟩
  have f₀ := framed_clear s (by decide) (within_faultNote fault { s with out := [] })
  generalize (faultNote fault).run { s with out := [] } = u at *
  rw [clusterFailed_run, framed_fld f₀ F.PRS_CFG_RETRY (by decide), if_neg (Nat.not_lt.mpr ha)]
  obtain ⟨hcount, hraised⟩ := loseCluster_effect ((noteFailure r c kind detail computed).run u) r c u.solo
  refine ⟨hcount.trans ?_, hraised⟩
  have counts : ∀ a ∈ [R.PRS_CNT_SAFFRON, R.PRS_CNT_POISON, R.PRS_CNT_DECODE], R.PRS_CNT_LOST ≠ a := by decide
  rw [(within_noteFailure r c kind detail computed u).2.1 R.PRS_CNT_LOST (eventRegs_or_notMem (by decide) ?_),
    f₀.2.1 _ (by decide)]
  simp only [failureRegs, List.mem_cons, List.not_mem_nil, or_false, not_or]
  exact ⟨(engineReg_press 0x20100 c.engine (by decide) (by decide)).symm, by decide,
    (engineReg_press 0x20108 c.engine (by decide) (by decide)).symm, counts _ (failureCount_cases kind)⟩

/-- Settles O23: a stripe's start, a dispatch, and the two ways in which a cluster ends. -/
theorem pressStartsDispatchesPassesAndFailsClusters : Obligations.PressStartsDispatchesPassesAndFailsClusters := by
  refine fun s => ⟨fun e x h tb hn hcap hp hm hfree => ?_, fun num q e hp hr hc he hb faults => ?_, fun e r c px h hd => ?_,
    fun e r c fault kind detail computed h hf => ⟨clusterFail_retries h hf, clusterFail_loses h hf⟩⟩
  · exact ⟨_, pressStripeStart_run hn hcap hp hm hfree, rfl, rfl, fun y hy hy' => startStripe_bins _ _ _ _ hy hy',
      startStripe_curStripe _ _ _ _, plainFrame_run s (within_startStripe _ _ _)⟩
  · exact ⟨_, pressDispatch_run hp hr hc he faults,
      dispatchNext_takes (s := { s with out := [] }) (nextCluster_run hc) hb e faults⟩
  · obtain ⟨hbusy, hcount, hbook, hframe⟩ := passCluster_effect { s with out := [] } r c px e
    exact ⟨_, clusterPass_run h hd, hbusy, hcount, hbook, framed_clear s (by decide) hframe⟩

end Sys2Proof.Machine
end

section
/-! SUPPORT. O29 fails where a ring that is not a submission ring holds a descriptor: its completion goes into the ring that
was reset. -/

namespace Sys2Proof.Machine

/-- A descriptor that has ended and asks for a completion entry. -/
def endedDesc (ring : Nat) : InFlight where
  ring := ring
  dindex := 0
  desc := { src := 0, dst := 0, len := 0, progress := 0, tag := 0, op := 4, flags := 1, bin := 0, wrap := 0 }
  ended := some 0

/-- The completions of every submission ring go to ring 64, and those of ring 64 go to ring 0, which has room. Ring 64 holds a
descriptor that has ended. -/
def crossLinked : State :=
  { State.reset with
    dev := .ready
    prevDev := .reset
    regs := (R.RNG_CFG 0, BitVec.ofNat 32 (2 ^ 31 + 64 * 2 ^ 8 + 12)) ::
      (List.range 63).map fun r => (R.RNG_CFG (r + 1), BitVec.ofNat 32 (64 * 2 ^ 8))
    b := { dma := { inflight := [endedDesc 64] } } }

/-- The counterexample keeps the invariant that every step keeps. -/
theorem crossLinked_inv : crossLinked.Inv := ⟨rfl, by decide +kernel, rfl⟩

/-- The hypotheses of the clause on submission rings hold for ring 0. -/
theorem crossLinked_links : crossLinked.reaches 0xA = true ∧ ∀ r < 64, 64 ≤ crossLinked.fld (F.RNG_CFG_LINK r) := by
  decide +kernel

/-- After the reset of ring 0 the descriptor of ring 64 completes into it. -/
theorem crossLinked_pi : ((ringReset 0 []).run (crossLinked.served 0xA)).pi 0 = 1 := by decide +kernel

/-- Refutes O29: the statement bounds the completion rings of the submission rings alone. A descriptor that ring 64 holds
completes into ring 0 once ring 0 has been reset, and RNG_PI of ring 0 ends at 1, not 0. No command puts a descriptor into a ring
from 64 on, but the statement is on every state, and does not rule such a record out. -/
theorem not_ringAndLinkResetsEndTransfersAndKeepStripes : ¬ Obligations.RingAndLinkResetsEndTransfersAndKeepStripes := by
  intro h
  obtain ⟨hreach, hlinks⟩ := crossLinked_links
  obtain ⟨submission, -⟩ := (h crossLinked).1 0 [] hreach
  obtain ⟨t, ht, hpi, -⟩ := submission (by decide) hlinks
  have hrun : exec (.ringReset 0 []) crossLinked = .next ((ringReset 0 []).run (crossLinked.served 0xA)) :=
    perform_toPage crossLinked 0xA (ringReset 0 []) hreach
  obtain rfl : t = (ringReset 0 []).run (crossLinked.served 0xA) := by simpa [ht] using hrun
  have hone : ((ringReset 0 []).run (crossLinked.served 0xA)).pi 0 = 1 := crossLinked_pi
  exact absurd (hone.symm.trans hpi) (by decide)

end Sys2Proof.Machine
end

section
/-! SUPPORT. Scopes of the DMA engine: what follows once bytes were confirmed, and the end of descriptors, leave every block but
the engine's as it was (R108, R110, R118). -/

namespace Sys2Proof.Machine

variable {s : State}

@[simp] theorem allows_onDma (A : Scope) (s : State) (f : DmaBlk → DmaBlk) :
    A.Allows (onDma f) s ↔ A.blocks s.b { s.b with dma := f s.b.dma } := Iff.rfl

/-- What settling leaves of the engine: no descriptor is new, one that has not ended stays, and every channel stays with its
descriptor. -/
structure DmaBlk.Settles (d e : DmaBlk) : Prop where
  old : ∀ f ∈ e.inflight, f ∈ d.inflight
  stays : ∀ f ∈ d.inflight, f.ended = none → f ∈ e.inflight
  chans : ∀ c ∈ d.chans, ∃ c' ∈ e.chans, c'.ch = c.ch ∧ c'.ring = c.ring ∧ c'.dindex = c.dindex

theorem DmaBlk.Settles.refl (d : DmaBlk) : d.Settles d where
  old _ h := h
  stays _ h _ := h
  chans c h := ⟨c, h, rfl, rfl, rfl⟩

theorem DmaBlk.Settles.trans {d e g : DmaBlk} (h : d.Settles e) (k : e.Settles g) : d.Settles g where
  old f hf := h.old f (k.old f hf)
  stays f hf he := k.stays f (h.stays f hf he) he
  chans c hc := by
    obtain ⟨c', hc', h1, h2, h3⟩ := h.chans c hc
    obtain ⟨c'', hc'', k1, k2, k3⟩ := k.chans c' hc'
    exact ⟨c'', hc'', k1.trans h1, k2.trans h2, k3.trans h3⟩

/-- Every block but the engine's and the network's is the same. -/
def onlyDma (b c : Blocks) : Prop := c = { b with dma := c.dma, net := c.net }

theorem onlyDma.trans {b c d : Blocks} (h : onlyDma b c) (k : onlyDma c d) : onlyDma b d := by
  rw [onlyDma] at h k ⊢
  rw [k, h]

/-- The registers of the DMA page. -/
def dmaRegs (a : Nat) : Bool := a / 0x1000 == 9

/-- What settling may touch. -/
def settleScope : Scope where
  regs := dmaRegs
  parts := []
  blocks b c := onlyDma b c ∧ b.dma.Settles c.dma
  refl _ := ⟨rfl, .refl _⟩
  trans h k := ⟨h.1.trans k.1, h.2.trans k.2⟩
  net _ _ := ⟨rfl, .refl _⟩

/-- What the end of descriptors may touch. -/
def endScope : Scope where
  regs := dmaRegs
  parts := [.ledCreditDma]
  blocks := onlyDma
  refl _ := rfl
  trans := onlyDma.trans
  net _ _ := rfl

theorem settleScope_le_endScope : settleScope.Le endScope where
  regs _ h := h
  parts := by simp [settleScope]
  strobes h := h
  blocks _ _ h := h.1

/-- The registers of a channel lie on the DMA page. -/
theorem dmaRegs_chan (i o : Nat) (h : 0x9100 ≤ o) (h' : o < 0x9140) : dmaRegs (o + i % 32 * 0x40) = true := by
  have := Nat.mod_lt i (show 32 > 0 by decide)
  simp only [dmaRegs, beq_iff_eq]
  omega

/-- A change of the engine's block that settling allows. -/
theorem settles_onDma {f : DmaBlk → DmaBlk} (h : s.b.dma.Settles (f s.b.dma)) : settleScope.Allows (onDma f) s :=
  ⟨rfl, h⟩

theorem DmaBlk.settles_sameWork {d e : DmaBlk} (hf : e.inflight = d.inflight) (hc : e.chans = d.chans) : d.Settles e where
  old _ h := hf ▸ h
  stays _ h _ := hf ▸ h
  chans c h := ⟨c, hc ▸ h, rfl, rfl, rfl⟩

/-- A change of channels that keeps the descriptor of each. -/
theorem DmaBlk.settles_mapChans (d : DmaBlk) {g : Chan → Chan}
    (hg : ∀ c, (g c).ch = c.ch ∧ (g c).ring = c.ring ∧ (g c).dindex = c.dindex) :
    d.Settles { d with chans := d.chans.map g } where
  old _ h := h
  stays _ h _ := h
  chans c h := ⟨g c, List.mem_map_of_mem h, hg c⟩

/-! ### Completions (R108, R110) -/

theorem allows_writeCompletion (A : Scope) (s : State) (cq : Nat) (bytes : List Nat) (irq : Bool) :
    A.Allows (writeCompletion cq bytes irq) s := by
  simp [writeCompletion]

theorem allows_flushRing (r fuel : Nat) : settleScope.Allows (flushRing r fuel) s := by
  induction fuel generalizing s with
  | zero => trivial
  | succ fuel ih =>
    rw [flushRing, allows_dyn]
    split
    · next f hf =>
      split
      · next st hst =>
        simp only [allows_ite, allows_nop, allows_seq, allows_raise, allows_cons, allows_on, allows_nil, implies_true,
          true_and, and_true]
        refine fun _ => ⟨fun _ => settles_onDma (DmaBlk.settles_sameWork rfl rfl), fun _ => ⟨fun _ => allows_writeCompletion _ _ _ _ _,
          fun t => ⟨settles_onDma ⟨fun g hg => List.mem_of_mem_erase hg, fun g hg he => ?_, fun c hc => ⟨c, hc, rfl, rfl, rfl⟩⟩,
            fun u => ⟨?_, fun _ => ih⟩⟩⟩⟩
        · refine (List.mem_erase_of_ne ?_).mpr hg
          rintro rfl
          rw [he] at hst
          cases hst
        · simp [consumeEntry, Ledger.part, eventParts]
      · trivial
    · trivial

theorem allows_flushRings : settleScope.Allows flushRings s :=
  allows_each _ _ fun _ _ _ => allows_flushRing _ _

/-! ### Channels (R101, R102, R118) -/

theorem allows_preemptBy (ch : Nat) : settleScope.Allows (preemptBy ch) s := by
  rw [preemptBy, allows_dyn, allows_cons]
  refine ⟨allows_each _ _ fun c _ t => ?_, fun t => ⟨settles_onDma (DmaBlk.settles_mapChans _ fun _ => ⟨rfl, rfl, rfl⟩),
    fun _ => trivial⟩⟩
  rw [allows_addR]
  simp [settleScope, dmaRegs_chan c.ch 0x910c (by decide) (by decide)]

theorem allows_startChannel (ch ring dindex : Nat) : settleScope.Allows (startChannel ch ring dindex) s := by
  refine ⟨settles_onDma ⟨fun _ h => h, fun _ h _ => h, fun c h => ⟨c, List.mem_append_left _ h, rfl, rfl, rfl⟩⟩, fun t => ⟨?_,
    fun _ => ⟨allows_preemptBy ch, fun _ => trivial⟩⟩⟩
  rw [allows_setR]
  simp [settleScope, dmaRegs_chan ch 0x9108 (by decide) (by decide)]

theorem allows_assignHeld : settleScope.Allows assignHeld s := by
  refine allows_each _ _ fun f _ t => ?_
  rw [allows_dyn]
  split
  · exact allows_startChannel _ _ _
  · trivial

theorem allows_endPoolWait : settleScope.Allows endPoolWait s :=
  ⟨settles_onDma (DmaBlk.settles_mapChans _ fun c => by split <;> exact ⟨rfl, rfl, rfl⟩),
    fun _ => allows_each _ _ fun _ _ _ => allows_preemptBy _⟩

theorem allows_resumePreempted : settleScope.Allows resumePreempted s := by
  rw [resumePreempted, allows_dyn]
  exact settles_onDma (DmaBlk.settles_mapChans _ fun _ => ⟨rfl, rfl, rfl⟩)

/-- Settling touches the DMA page, the engine and what events take alone. -/
theorem allows_dmaSettle : settleScope.Allows dmaSettle s :=
  ⟨allows_endPoolWait, fun _ => ⟨allows_assignHeld, fun _ => ⟨allows_resumePreempted, fun _ => ⟨allows_flushRings, fun _ => trivial⟩⟩⟩⟩

/-- What settling leaves as it was. -/
theorem dmaSettle_rel (s : State) : settleScope.Rel s (dmaSettle.run s) := allows_dmaSettle.rel

/-! ### The end of descriptors (R112) -/

theorem allows_endDesc (ring dindex status : Nat) : endScope.Allows (endDesc ring dindex status) s := by
  rw [endDesc, allows_dyn]
  split
  · simp only [allows_ite, allows_nop, allows_cons, allows_bookOut, allows_on, allows_raise, allows_onDma, allows_nil,
      implies_true, true_and, and_true]
    exact fun _ => ⟨by decide, fun _ _ => rfl⟩
  · trivial

theorem allows_endHeld (gen status : Nat) : endScope.Allows (endHeld gen status) s :=
  ⟨allows_each _ _ fun _ _ _ => allows_endDesc _ _ _, fun _ => allows_flushRings.mono settleScope_le_endScope⟩

end Sys2Proof.Machine
end

section
/-! SUPPORT. What the link and the clocks report (R98, R388, R389, R435), and the statement on it. -/

namespace Sys2Proof.Machine

variable {s : State}

/-- Raising an event under a condition leaves the registers that events leave. -/
theorem on_raise_rd (s : State) (c : Bool) (e : Evt) (a : Nat) (h : eventRegs a = false) :
    ((on c (raise e)).run s).rd a = s.rd a := by
  cases c
  · rfl
  · exact raise_rd s e a h

/-! ### The link (R98, R435) -/

/-- HIF_LINK of a link that is up. -/
def linkWord (speed : Fin 6) (width : Fin 17) : Nat :=
  2 ^ 31 + speed.val * 2 ^ 24 + width.val * 2 ^ 16 + (if width.val < 8 ∨ speed.val < 4 then 64 else 0)

theorem linkWord_lt (speed : Fin 6) (width : Fin 17) : linkWord speed width < 2 ^ 32 := by
  unfold linkWord
  split <;> omega

/-- A report that the link is up: the link's word, the retrain where the link was up, and the change where there is one. -/
def noteLink (was w : Nat) : Act :=
  acts [setR R.HIF_LINK w, on (was / 2 ^ 31 == 1) (addR R.HIF_RETRAIN_CNT 1), on (was / 2 ^ 16 != w / 2 ^ 16) (raise E.HIF_LINK_CHANGE)]

theorem linkChange_run (speed : Fin 6) (width : Fin 17) (h : s.powered 3 = true) : exec (.linkChange true speed width) s =
    .next ((noteLink (s.rd R.HIF_LINK) (linkWord speed width)).run { s with out := [] }) := by
  have hp : ({ s with out := [] } : State).powered 3 = true := h
  show execLinkChange true speed width s = _
  rw [execLinkChange, perform_eq, run_dyn, hp, on_true]
  simp only [if_true, Bool.true_and, Bool.or_eq_true, decide_eq_true_eq]
  rfl

theorem within_noteLink (was w : Nat) : (noteLink was w).Within
    (fun a => eventRegs a || [R.HIF_LINK, R.HIF_RETRAIN_CNT].contains a) (eventParts ++ []) :=
  within_cons (within_setR (by decide)) (within_cons (within_on (within_addR (by decide)))
    (within_cons (within_on (within_raise eventFrame_allows)) within_nil))

theorem noteLink_link (s : State) (was : Nat) {w : Nat} (h : w < 2 ^ 32) : ((noteLink was w).run s).rd R.HIF_LINK = w := by
  rw [noteLink, run_acts_cons, run_acts_cons, run_acts_cons, run_acts_nil, on_raise_rd _ _ _ _ (by decide)]
  have hcount : ∀ (c : Bool) (u : State), ((on c (addR R.HIF_RETRAIN_CNT 1)).run u).rd R.HIF_LINK = u.rd R.HIF_LINK := by
    rintro (_ | _) u
    · rfl
    · exact rd_addR_ne _ _ _ _ (by decide)
  rw [hcount, rd_setR_same, Nat.mod_eq_of_lt h]

theorem noteLink_raises (s : State) {was w : Nat} (h : was / 2 ^ 16 ≠ w / 2 ^ 16) :
    ((noteLink was w).run s).raised E.HIF_LINK_CHANGE = true := by
  rw [noteLink, run_acts_cons, run_acts_cons, run_acts_cons, run_acts_nil, on_pos (by simpa using h)]
  exact raise_raised (by decide) _

/-! ### A PLL that loses lock (R389) -/

@[simp] theorem onPwr_rd (s : State) (f : PwrBlk → PwrBlk) (a : Nat) : ((onPwr f).run s).rd a = s.rd a := rfl
@[simp] theorem onPwr_fld (s : State) (f : PwrBlk → PwrBlk) (g : Fld) : ((onPwr f).run s).fld g = s.fld g := rfl

/-- A loss of lock of a PLL whose loss is no fault. -/
def noteUnlock (d : Nat) : Act := .dyn fun s =>
  acts [setF F.CLK_STAT_LOCKED (Nat.xor (s.fld F.CLK_STAT_LOCKED) (2 ^ d)), addR R.CLK_UNLOCK_CNT 1, setR R.CLK_LAST_UNLOCK (2 ^ d),
    onPwr fun p => { p with unlocked := d :: p.unlocked, tryAt := spPut (fun _ => 0) p.tryAt d s.b.tim.ticks },
    raise E.CLK_CLK_UNLOCK]

theorem pllUnlock_run {d : Fin 8} (hr : s.dev = .ready) (h0 : d ≠ 0) (h5 : d ≠ 5) (hp : s.powered d = true)
    (hl : (s.fld F.CLK_STAT_LOCKED).testBit d = true) :
    exec (.pllUnlock d) s = .next ((noteUnlock d).run { s with out := [] }) := by
  have hj : s.inJob = false := by simp only [State.inJob, hr]; rfl
  have h0' : (d.val != 0) = true := bne_iff_ne.mpr fun h => h0 (Fin.ext h)
  have h5' : (d.val == 5) = false := beq_eq_false_iff_ne.mpr fun h => h5 (Fin.ext h)
  show execPllUnlock d s = _
  rw [execPllUnlock, perform_eq]
  replace hp : ({ s with out := [] } : State).powered d = true := hp
  replace hl : (({ s with out := [] } : State).fld F.CLK_STAT_LOCKED).testBit d = true := hl
  replace hj : ({ s with out := [] } : State).inJob = false := hj
  generalize ({ s with out := [] } : State) = u at *
  rw [run_dyn, noteUnlock, run_dyn]
  dsimp only
  rw [hp, hl, hj, h0', h5']
  rfl

theorem within_noteUnlock (d : Nat) : (noteUnlock d).Within
    (fun a => eventRegs a || [R.CLK_STAT, R.CLK_UNLOCK_CNT, R.CLK_LAST_UNLOCK].contains a) (eventParts ++ [.bPwr]) :=
  within_dyn fun _ => within_cons (within_setF (by decide)) (within_cons (within_addR (by decide))
    (within_cons (within_setR (by decide)) (within_cons (within_onPwr (by decide))
      (within_cons (within_raise eventFrame_allows) within_nil))))

theorem noteUnlock_counts (s : State) (d : Fin 8) :
    ((noteUnlock d).run s).rd R.CLK_UNLOCK_CNT = (s.rd R.CLK_UNLOCK_CNT + 1) % 2 ^ 32 ∧
      ((noteUnlock d).run s).rd R.CLK_LAST_UNLOCK = 2 ^ d.val ∧ ((noteUnlock d).run s).raised E.CLK_CLK_UNLOCK = true := by
  have hd : 2 ^ d.val < 2 ^ 32 := Nat.pow_lt_pow_right (by decide) (by omega)
  rw [noteUnlock, run_dyn, run_acts_cons, run_acts_cons, run_acts_cons, run_acts_cons, run_acts_cons, run_acts_nil]
  refine ⟨?_, ?_, raise_raised (by decide) _⟩
  · rw [raise_rd _ _ _ (by decide), onPwr_rd, rd_setR_ne _ _ _ _ (by decide), rd_addR_same, rd_setF_ne _ _ _ _ (by decide)]
  · rw [raise_rd _ _ _ (by decide), onPwr_rd, rd_setR_same, Nat.mod_eq_of_lt hd]

/-- Once the loss is noted the domain does not run, and CLK_STAT shows it. -/
theorem noteUnlock_stops (s : State) (d : Fin 8) (hl : (s.fld F.CLK_STAT_LOCKED).testBit d = true) :
    (((noteUnlock d).run s).fld F.CLK_STAT_LOCKED).testBit d = false ∧ ((noteUnlock d).run s).powered d = false := by
  rw [noteUnlock, run_dyn, run_acts_cons, run_acts_cons, run_acts_cons, run_acts_cons, run_acts_cons, run_acts_nil]
  refine ⟨?_, ?_⟩
  · rw [raise_fld _ _ _ (by decide), onPwr_fld, fld_setR_addr _ _ _ _ (by decide), State.fld, rd_addR_ne _ _ _ _ (by decide),
      ← State.fld, fld_setF_same _ _ _ (by decide), Nat.testBit_mod_two_pow]
    generalize s.fld F.CLK_STAT_LOCKED = locked at *
    have hx : (locked.xor (2 ^ d.val)).testBit d.val = false :=
      (Nat.testBit_xor locked (2 ^ d.val) d.val).trans (by simp [hl, Nat.testBit_two_pow_self])
    rw [hx, Bool.and_false]
  · rw [State.powered, (raise_framed _ _).2.2 .bPwr (by decide)]
    simp

/-! ### A PLL that locks again (R389) -/

/-- Time advances to a try to lock, which is noted. -/
def tryAgain (d at' : Nat) : Act :=
  .seq (advanceToTick at') (.dyn fun t => onPwr fun p => { p with tryAt := spPut (fun _ => 0) p.tryAt d t.b.tim.ticks })

/-- A PLL locks. -/
def showLocked (d locked : Nat) : Act :=
  .seq (onPwr fun p => { p with unlocked := p.unlocked.filter fun e => e != d }) (setF F.CLK_STAT_LOCKED (Nat.lor locked (2 ^ d)))

/-- A try that succeeds. -/
def relock (d : Nat) : Act := .dyn fun s =>
  .seq (tryAgain d (spGet (fun _ => 0) s.b.pwr.tryAt d + 250000)) (showLocked d (s.fld F.CLK_STAT_LOCKED))

theorem pllRelockTry_run {d : Fin 8} (hr : s.dev = .ready) (h5 : d ≠ 5) (hu : s.b.pwr.unlocked.contains d.val = true) :
    exec (.pllRelockTry d true) s = .next (dmaSettle.run ((relock d).run { s with out := [] })) := by
  have h5' : (d.val != 5) = true := bne_iff_ne.mpr fun h => h5 (Fin.ext h)
  show execPllRelockTry d true s = _
  rw [execPllRelockTry, perform_eq]
  replace hr : ({ s with out := [] } : State).dev = .ready := hr
  replace hu : ({ s with out := [] } : State).b.pwr.unlocked.contains d.val = true := hu
  generalize ({ s with out := [] } : State) = u at *
  rw [run_dyn, relock, run_dyn]
  dsimp only
  rw [hr, hu, h5', beq_self_eq_true, Bool.true_and, Bool.true_or, Bool.true_and, on_true, on_true]
  generalize spGet (fun _ => 0) u.b.pwr.tryAt d + 250000 = at'
  simp only [tryAgain, showLocked, run_acts_cons, run_acts_nil, run_seq]

theorem within_tryAgain (d at' : Nat) : (tryAgain d at').Within (fun _ => false) [.bTim, .bAge, .bPos, .bPwr] :=
  within_seq (within_dyn fun _ => within_advance (by decide) (by decide) (by decide) _) (within_dyn fun _ => within_onPwr (by decide))

theorem showLocked_locks (s : State) (d : Fin 8) (locked : Nat) :
    ((showLocked d locked).run s).b.pwr.unlocked.contains d.val = false ∧
      (((showLocked d locked).run s).fld F.CLK_STAT_LOCKED).testBit d = true ∧ ((showLocked d locked).run s).dev = s.dev := by
  rw [showLocked, run_seq]
  refine ⟨?_, ?_, rfl⟩
  · rw [setF_b, run_onPwr]
    simp
  · have hx : (locked.lor (2 ^ d.val)).testBit d.val = true :=
      (Nat.testBit_or locked (2 ^ d.val) d.val).trans (by simp [Nat.testBit_two_pow_self])
    rw [fld_setF_same _ _ _ (by decide), Nat.testBit_mod_two_pow, hx, Bool.and_true, decide_eq_true_eq]
    exact d.isLt

theorem relock_locks (s : State) (d : Fin 8) : ((relock d).run s).b.pwr.unlocked.contains d.val = false ∧
    (((relock d).run s).fld F.CLK_STAT_LOCKED).testBit d = true ∧ ((relock d).run s).dev = s.dev := by
  rw [relock, run_dyn, run_seq]
  generalize spGet (fun _ => 0) s.b.pwr.tryAt d + 250000 = at'
  obtain ⟨hu, hl, hd⟩ := showLocked_locks ((tryAgain d at').run s) d (s.fld F.CLK_STAT_LOCKED)
  exact ⟨hu, hl, hd.trans ((within_tryAgain d at' s).2.2 .dev (by decide))⟩

theorem pllRelockTry_locks {d : Fin 8} (hr : s.dev = .ready) (h5 : d ≠ 5) (hu : s.b.pwr.unlocked.contains d.val = true) :
    ∃ t, exec (.pllRelockTry d true) s = .next t ∧ t.b.pwr.unlocked.contains d.val = false ∧
      (t.fld F.CLK_STAT_LOCKED).testBit d = true ∧ t.dev = .ready := by
  obtain ⟨hunl, hlock, hdev⟩ := relock_locks { s with out := [] } d
  have hrel := dmaSettle_rel ((relock d).run { s with out := [] })
  refine ⟨_, pllRelockTry_run hr h5 hu, ?_, ?_, (hrel.part .dev (by decide) (by decide)).trans (hdev.trans hr)⟩
  · rw [congrArg Blocks.pwr hrel.blocks.1]
    exact hunl
  · rw [State.fld, hrel.rd _ (by decide)]
    exact hlock

/-! ### DEVCLK (R388) -/

/-- DEVCLK comes or goes. -/
def noteDevclk (p : Bool) : Act := acts [onPwr fun b => { b with devclk := p }, setB F.CLK_STAT_DEVCLK p, timeSource]

theorem devclkPresence_run (p : Bool) (h : s.dev ≠ .off) :
    exec (.devclkPresence p) s = .next ((noteDevclk p).run { s with out := [] }) := by
  show execDevclkPresence p s = _
  rw [execDevclkPresence, perform_eq, run_dyn, on_pos (by simpa using h)]
  rfl

theorem within_timeSource : timeSource.Within (fun a => eventRegs a || [R.CLK_STAT, R.POS_STAT].contains a) (eventParts ++ [.bPwr]) :=
  within_dyn fun _ => within_on (within_cons (within_setB (by decide)) (within_cons (within_setB (by decide))
    (within_cons (within_raise eventFrame_allows) within_nil)))

theorem within_noteDevclk (p : Bool) :
    (noteDevclk p).Within (fun a => eventRegs a || [R.CLK_STAT, R.POS_STAT].contains a) (eventParts ++ [.bPwr]) :=
  within_cons (within_onPwr (by decide)) (within_cons (within_setB (by decide)) (within_cons within_timeSource within_nil))

/-- The source of the TIME clock stands in bits of their own. -/
theorem timeSource_devclk (s : State) : (timeSource.run s).b.pwr = s.b.pwr ∧
    (timeSource.run s).flag F.CLK_STAT_DEVCLK = s.flag F.CLK_STAT_DEVCLK := by
  rw [timeSource, run_dyn]
  generalize hsrc : (s.b.pwr.devclk && s.flag F.CLK_DEVCLK_EN) = src
  dsimp only
  by_cases h : (src != s.flag F.CLK_STAT_TIME_SRC) = true
  · rw [on_pos h, run_acts_cons, run_acts_cons, run_acts_cons, run_acts_nil]
    refine ⟨?_, ?_⟩
    · have hb := (raise_framed ((setB F.POS_STAT_SYSREF_OK false).run
        ((setB F.CLK_STAT_TIME_SRC src).run s)) E.CLK_TIME_SRC).2.2 .bPwr (by decide)
      rwa [Part.same, setB_b, setB_b] at hb
    · rw [framed_flag (raise_framed _ _) _ (by decide), State.flag, State.fld, rd_setB_ne _ _ _ _ (by decide), ← State.fld,
        fld_setB_bits s F.CLK_STAT_TIME_SRC F.CLK_STAT_DEVCLK src rfl (by decide) (by decide), ← State.flag]
  · rw [on_neg (by simpa using h)]
    exact ⟨rfl, rfl⟩

theorem noteDevclk_effect (s : State) (p : Bool) : ((noteDevclk p).run s).b.pwr.devclk = p ∧
    ((noteDevclk p).run s).flag F.CLK_STAT_DEVCLK = p := by
  rw [noteDevclk, run_acts_cons, run_acts_cons, run_acts_cons, run_acts_nil, (timeSource_devclk _).1, (timeSource_devclk _).2]
  exact ⟨rfl, flag_setB_same _ _ _ (by decide) (by decide)⟩

/-! ### The link's sleep in DORMANT (R98, R394) -/

/-- The link goes to L1.2 where it has idled long enough. -/
def linkSleeps : Act := .dyn fun s =>
  acts [advanceToTick (s.b.pwr.linkAt + 25000), setB F.HIF_LINK_L12 true, .emit (.link 12)]

theorem l12Return_run (hd : s.dev = .dormant) (hu : s.flag F.HIF_LINK_UP = true) (hl : s.flag F.HIF_LINK_L12 = false) :
    exec .l12Return s = .next (linkSleeps.run { s with out := [] }) := by
  show execL12Return s = _
  rw [execL12Return, perform_eq]
  replace hd : ({ s with out := [] } : State).dev = .dormant := hd
  replace hu : ({ s with out := [] } : State).flag F.HIF_LINK_UP = true := hu
  replace hl : ({ s with out := [] } : State).flag F.HIF_LINK_L12 = false := hl
  generalize ({ s with out := [] } : State) = u at *
  rw [run_dyn, hd, hu, hl, beq_self_eq_true, Bool.true_and, Bool.true_and, Bool.not_false, on_true, linkSleeps, run_dyn]

/-- Outside WRITING time that passes adds to no count of hours. -/
theorem advanceToTick_framed (s : State) (h : s.dev ≠ .writing) (k : Nat) :
    framed (fun _ => false) [.bTim, .bPos] s ((advanceToTick k).run s) := by
  rw [advanceToTick, run_dyn, advance, run_dyn]
  dsimp only
  rw [run_acts_cons, run_acts_cons, run_acts_cons, run_acts_nil, on_neg (by simpa using h), run_nop]
  have ht : ∀ f, (onTim f).Within (fun _ => false) [.bTim, .bPos] := fun _ => within_onTim (by decide)
  have hp : ∀ f, (onPos f).Within (fun _ => false) [.bTim, .bPos] := fun _ => within_onPos (by decide)
  exact framed_trans (ht _ s) (hp _ _)

theorem linkSleeps_effect (h : s.dev ≠ .writing) : (linkSleeps.run s).flag F.HIF_LINK_L12 = true ∧
    (linkSleeps.run s).out = s.out ++ [.link 12] ∧
    framed (fun a => [R.HIF_LINK].contains a) (.out :: [.bTim, .bPos]) s (linkSleeps.run s) := by
  rw [linkSleeps, run_dyn]
  generalize s.b.pwr.linkAt + 25000 = k
  have hf := advanceToTick_framed s h k
  rw [run_acts_cons, run_acts_cons, run_acts_cons, run_acts_nil]
  generalize (advanceToTick k).run s = u at *
  refine ⟨flag_setB_same _ _ _ (by decide) (by decide), ?_, framed_trans
    (framed_mono (fun _ h => by cases h) (fun p h => List.mem_cons_of_mem _ h) hf)
    (within_seq (a := setB F.HIF_LINK_L12 true) (b := .emit (.link 12)) (within_setB (by decide)) (within_emit (by decide)) u)⟩
  rw [run_emit, setB_out]
  exact congrArg (· ++ [Out.link 12]) (hf.2.2 .out (by decide))

theorem l12Return_sleeps (hd : s.dev = .dormant) (hu : s.flag F.HIF_LINK_UP = true) (hl : s.flag F.HIF_LINK_L12 = false) :
    ∃ t, exec .l12Return s = .next t ∧ t.flag F.HIF_LINK_L12 = true ∧ t.out = [.link 12] ∧
      plainFrame [R.HIF_LINK] [.bTim, .bPos] s t := by
  have hnw : ({ s with out := [] } : State).dev ≠ .writing := by simp [hd]
  obtain ⟨hflag, hout, hframe⟩ := linkSleeps_effect hnw
  exact ⟨_, l12Return_run hd hu hl, hflag, hout, framed_clear s (by decide) hframe⟩

/-! ### AER (R435) -/

theorem aerReport_run (ue : Bool) (h : s.dev ≠ .off) : exec (.aerReport ue) s = .next ((raise E.HIF_AER).run
    ((addR (if ue then R.HIF_AER_UE_CNT else R.HIF_AER_CE_CNT) 1).run { s with out := [] })) := by
  show execAerReport ue s = _
  rw [execAerReport, perform_eq, run_dyn, on_pos (by simpa using h)]
  rfl

theorem aerReport_counts (ue : Bool) (h : s.dev ≠ .off) : ∃ t, exec (.aerReport ue) s = .next t ∧ t.raised E.HIF_AER = true ∧
    (let r := if ue then R.HIF_AER_UE_CNT else R.HIF_AER_CE_CNT
     t.rd r = (s.rd r + 1) % 2 ^ 32 ∧ eventFrame [r] [] s t) := by
  refine ⟨_, aerReport_run ue h, raise_raised (by decide) _, ?_⟩
  have hr : eventRegs (if ue then R.HIF_AER_UE_CNT else R.HIF_AER_CE_CNT) = false := by cases ue <;> decide
  generalize (if ue then R.HIF_AER_UE_CNT else R.HIF_AER_CE_CNT) = r at *
  refine ⟨?_, eventFrame_run s (a := .seq (addR r 1) (raise E.HIF_AER)) (within_seq (within_addR (by simp))
    (within_raise eventFrame_allows))⟩
  rw [raise_rd _ _ _ hr, rd_addR_same]
  rfl

/-- Settles O12: each report's effect is read off the few registers that it writes. -/
theorem linkAndClockOccurrencesAreRecorded : Obligations.LinkAndClockOccurrencesAreRecorded := by
  refine fun s => ⟨fun speed width hp => ?_, fun d hr h0 h5 hp hl => ?_, fun d hr h5 hu => pllRelockTry_locks hr h5 hu,
    fun p h => ?_, l12Return_sleeps, fun ue h => aerReport_counts ue h⟩
  · refine ⟨_, linkChange_run speed width hp, noteLink_link _ _ (linkWord_lt _ _), fun hne => noteLink_raises _ ?_,
      eventFrame_run s (within_noteLink _ _)⟩
    rwa [noteLink_link _ _ (linkWord_lt _ _)] at hne
  · obtain ⟨hcount, hlast, hraised⟩ := noteUnlock_counts { s with out := [] } d
    obtain ⟨hbit, hpow⟩ := noteUnlock_stops { s with out := [] } d hl
    exact ⟨_, pllUnlock_run hr h0 h5 hp hl, hcount, hlast, hbit, hraised, hpow, eventFrame_run s (within_noteUnlock _)⟩
  · obtain ⟨hclk, hflag⟩ := noteDevclk_effect { s with out := [] } p
    exact ⟨_, devclkPresence_run p h, hclk, hflag, eventFrame_run s (within_noteDevclk p)⟩

end Sys2Proof.Machine
end

section
/-! SUPPORT. The indices of rings (R105 to R107): what events and self-tests put into a reply ring moves no index but that
ring's RNG_PI (R301, R431). -/

namespace Sys2Proof.Machine

variable {s t u : State}

/-! ### Indices after a write -/

theorem pi_index_same (s : State) (ring v : Nat) : ((Act.index (2 * ring) v).run s).pi ring = v := by
  simp [State.pi]

theorem ci_index_same (s : State) (ring v : Nat) : ((Act.index (2 * ring + 1) v).run s).ci ring = v := by
  simp [State.ci]

theorem pi_index_ci (s : State) (ring r v : Nat) : ((Act.index (2 * r + 1) v).run s).pi ring = s.pi ring := by
  simp only [State.pi, run_index]
  exact spGet_spPut_ne _ _ _ _ _ (by omega)

theorem ci_index_pi (s : State) (ring r v : Nat) : ((Act.index (2 * r) v).run s).ci ring = s.ci ring := by
  simp only [State.ci, run_index]
  exact spGet_spPut_ne _ _ _ _ _ (by omega)

theorem pi_congr (h : t.rings = s.rings) (ring : Nat) : t.pi ring = s.pi ring := by rw [State.pi, State.pi, h]

theorem ci_congr (h : t.rings = s.rings) (ring : Nat) : t.ci ring = s.ci ring := by rw [State.ci, State.ci, h]

/-- An entry written to a ring moves that ring's RNG_PI by one, and no RNG_CI. -/
theorem ringWrite_indices (s : State) (ring : Nat) (bytes : List Nat) :
    ((ringWrite ring bytes).run s).pi ring = (s.pi ring + 1) % 2 ^ 32 ∧ ∀ r, ((ringWrite ring bytes).run s).ci r = s.ci r := by
  refine ⟨spGet_spPut_same _ _ _ _, fun r => spGet_spPut_ne _ _ _ _ _ (by omega)⟩

/-! ### Indices that events leave -/

/-- RNG_CFG of every ring is the same, and so is every index but RNG_PI of rings from the device to the host among the
control-message rings. -/
structure State.SameIndices (s t : State) : Prop where
  cfg : ∀ r, t.rd (R.RNG_CFG r) = s.rd (R.RNG_CFG r)
  ci : ∀ r, t.ci r = s.ci r
  pi : ∀ r, (r < 112 ∨ s.flag (F.RNG_CFG_DIR r) = false) → t.pi r = s.pi r

theorem State.SameIndices.flag (h : s.SameIndices t) (f : Fld) {r : Nat} (hf : f.addr = R.RNG_CFG r) : t.flag f = s.flag f := by
  rw [State.flag, State.fld, hf, h.cfg, State.flag, State.fld, hf]

theorem State.SameIndices.refl (s : State) : s.SameIndices s := ⟨fun _ => rfl, fun _ => rfl, fun _ _ => rfl⟩

theorem State.SameIndices.trans (h : s.SameIndices t) (k : t.SameIndices u) : s.SameIndices u where
  cfg r := (k.cfg r).trans (h.cfg r)
  ci r := (k.ci r).trans (h.ci r)
  pi r hr := (k.pi r (hr.imp_right fun hd => (h.flag _ rfl).trans hd)).trans (h.pi r hr)

/-- An effect moves no index but RNG_PI of rings from the device to the host. -/
def Act.KeepsIndices (a : Act) : Prop := ∀ s : State, s.SameIndices (a.run s)

theorem keepsIndices_nop : Act.nop.KeepsIndices := .refl

theorem keepsIndices_seq {a b : Act} (h : a.KeepsIndices) (k : b.KeepsIndices) : (Act.seq a b).KeepsIndices :=
  fun s => (h s).trans (k _)

theorem keepsIndices_dyn {f : State → Act} (h : ∀ s : State, s.SameIndices ((f s).run s)) : (Act.dyn f).KeepsIndices := h

theorem keepsIndices_nil : (acts []).KeepsIndices := .refl

theorem keepsIndices_cons {a : Act} {as : List Act} (h : a.KeepsIndices) (k : (acts as).KeepsIndices) :
    (acts (a :: as)).KeepsIndices := keepsIndices_seq h k

theorem keepsIndices_on {c : Bool} {a : Act} (h : a.KeepsIndices) : (on c a).KeepsIndices := by
  cases c
  · exact .refl
  · exact h

theorem keepsIndices_ite {c : Prop} [Decidable c] {a b : Act} (h : a.KeepsIndices) (k : b.KeepsIndices) :
    (if c then a else b).KeepsIndices := by
  split
  · exact h
  · exact k

theorem keepsIndices_each {α : Type} {l : List α} {f : α → Act} (h : ∀ x ∈ l, (f x).KeepsIndices) : (each l f).KeepsIndices := by
  induction l with
  | nil => exact .refl
  | cons x l ih => exact keepsIndices_seq (h x (by simp)) (ih fun y hy => h y (by simp [hy]))

/-- Indices stay where the ring table and RNG_CFG stay. -/
theorem sameIndices_of_framed {rg : Nat → Bool} {ps : List Part} (h : framed rg ps s t) (hp : .rings ∉ ps)
    (hr : ∀ r, rg (R.RNG_CFG r) = false) : s.SameIndices t where
  cfg r := h.2.1 _ (hr r)
  ci := ci_congr (h.2.2 .rings hp)
  pi r _ := pi_congr (h.2.2 .rings hp) r

theorem keepsIndices_of_within {rg : Nat → Bool} {ps : List Part} {a : Act} (h : a.Within rg ps) (hp : .rings ∉ ps)
    (hr : ∀ r, rg (R.RNG_CFG r) = false) : a.KeepsIndices := fun s => sameIndices_of_framed (h s) hp hr

theorem ringCfg_bounds (r : Nat) : 0xA108 ≤ R.RNG_CFG r ∧ R.RNG_CFG r < 0xC000 := by
  have := Nat.mod_lt r (show 128 > 0 by decide)
  simp only [R.RNG_CFG]
  omega

/-- RNG_CFG of no ring is a register outside the RNG pages. -/
theorem ringCfg_ne {a : Nat} (h : a < 0xA000 ∨ 0xC000 ≤ a) (r : Nat) : (fun b => [a].contains b) (R.RNG_CFG r) = false := by
  have := ringCfg_bounds r
  simp only [List.contains_cons, List.contains_nil, Bool.or_false, beq_eq_false_iff_ne]
  omega

theorem keepsIndices_setR {a v : Nat} (h : a < 0xA000 ∨ 0xC000 ≤ a) : (setR a v).KeepsIndices :=
  keepsIndices_of_within (ps := []) (within_setR (rg := fun b => [a].contains b) (by simp)) (by simp) (ringCfg_ne h)

theorem keepsIndices_setF {f : Fld} {v : Nat} (h : f.addr < 0xA000 ∨ 0xC000 ≤ f.addr) : (setF f v).KeepsIndices :=
  keepsIndices_dyn fun s => keepsIndices_setR h s

theorem keepsIndices_addR {a v : Nat} (h : a < 0xA000 ∨ 0xC000 ≤ a) : (addR a v).KeepsIndices :=
  keepsIndices_dyn fun s => keepsIndices_setR h s

theorem keepsIndices_emit {o : Out} : (Act.emit o).KeepsIndices :=
  keepsIndices_of_within (rg := fun _ => false) (ps := [.out]) (within_emit (by decide)) (by decide) fun _ => rfl

theorem keepsIndices_evt {f : EvtBlk → EvtBlk} : (Act.evt f).KeepsIndices :=
  keepsIndices_of_within (rg := fun _ => false) (ps := [.evt]) (within_evt (by decide)) (by decide) fun _ => rfl

theorem keepsIndices_blk {f : Blocks → Blocks} : (Act.blk f).KeepsIndices :=
  fun _ => ⟨fun _ => rfl, fun _ => rfl, fun _ _ => rfl⟩

/-- An entry written to a ring from the device to the host, among the control-message rings. -/
theorem ringWrite_sameIndices (bytes : List Nat) {r : Nat} (hr : 112 ≤ r) (hd : s.flag (F.RNG_CFG_DIR r) = true) :
    s.SameIndices ((ringWrite r bytes).run s) where
  cfg _ := rfl
  ci := (ringWrite_indices s r bytes).2
  pi q hq := by
    refine spGet_spPut_ne _ _ _ _ _ fun h => ?_
    obtain rfl : r = q := by omega
    rcases hq with hq | hq
    · omega
    · rw [hd] at hq
      cases hq

theorem replyRing_spec {r : Nat} (h : s.replyRing = some r) : 112 ≤ r ∧ s.flag (F.RNG_CFG_DIR r) = true := by
  have hmem := List.mem_of_find?_eq_some h
  have hp := List.find?_some h
  simp only [List.mem_map, List.mem_range, Bool.and_eq_true] at hmem hp
  obtain ⟨i, -, rfl⟩ := hmem
  exact ⟨by omega, hp.2⟩

/-! ### Events (R427, R431) -/

theorem keepsIndices_bumpSeq {x : Option Session} : (bumpSeq x).KeepsIndices := by
  cases x <;> exact keepsIndices_blk

theorem keepsIndices_netEmit {done : Nat → Act} (hd : ∀ p, (done p).KeepsIndices) {port partner type : Nat} {bytes : List Nat} :
    (netEmit done port partner type bytes).KeepsIndices := by
  have hcnt : R.NET_TX_CNT port < 0xA000 ∨ 0xC000 ≤ R.NET_TX_CNT port := by
    simp only [R.NET_TX_CNT]
    omega
  refine keepsIndices_dyn fun s => keepsIndices_ite keepsIndices_nop (keepsIndices_ite ?_ ?_) s
  · exact keepsIndices_cons (keepsIndices_addR hcnt) (keepsIndices_cons keepsIndices_blk (keepsIndices_cons (hd _) keepsIndices_nil))
  · exact keepsIndices_cons (keepsIndices_on (keepsIndices_addR hcnt)) (keepsIndices_cons (keepsIndices_on keepsIndices_emit)
      (keepsIndices_cons (keepsIndices_on keepsIndices_emit) (keepsIndices_cons (keepsIndices_on keepsIndices_emit)
      (keepsIndices_cons (keepsIndices_each fun _ _ => keepsIndices_emit) (keepsIndices_cons keepsIndices_blk
      (keepsIndices_cons (keepsIndices_on keepsIndices_blk) (keepsIndices_cons (keepsIndices_on (hd _)) keepsIndices_nil)))))))

theorem keepsIndices_netSendWith {done : Nat → Act} (hd : ∀ p, (done p).KeepsIndices) {ports : List Nat} {partner : Nat}
    {x : Option Session} {type flags corr : Nat} {payload : List Nat} :
    (netSendWith done ports partner x type flags corr payload).KeepsIndices :=
  keepsIndices_dyn fun s => keepsIndices_seq keepsIndices_bumpSeq (keepsIndices_each fun _ _ => keepsIndices_netEmit hd) s

theorem keepsIndices_msixSend {v : Nat} : (msixSend v).KeepsIndices :=
  keepsIndices_dyn fun s => keepsIndices_ite keepsIndices_evt keepsIndices_emit s

theorem keepsIndices_routeEvent {done : Nat → Act} (hd : ∀ p, (done p).KeepsIndices) {lost : Act} (hl : lost.KeepsIndices)
    {src page bit : Nat} {forced m1 m2 : Bool} : (routeEvent done lost src page bit forced m1 m2).KeepsIndices := by
  refine keepsIndices_dyn fun s => keepsIndices_cons (keepsIndices_on keepsIndices_msixSend) (keepsIndices_cons
    (keepsIndices_on (keepsIndices_ite hl (keepsIndices_each fun _ _ => keepsIndices_dyn fun t => keepsIndices_netSendWith hd t)))
    (keepsIndices_cons (keepsIndices_on (keepsIndices_dyn fun t => ?_)) keepsIndices_nil)) s
  split
  · next r hr =>
    obtain ⟨h112, hdir⟩ := replyRing_spec hr
    rw [run_ite]
    split
    · exact (keepsIndices_bumpSeq (x := none) t).trans (ringWrite_sameIndices _ h112 hdir)
    · exact hl t
  · exact hl t

theorem keepsIndices_raiseWith {done : Nat → Act} (hd : ∀ p, (done p).KeepsIndices) {lost : Act} (hl : lost.KeepsIndices)
    {page bit : Nat} {forced : Bool} : (raiseWith done lost page bit forced).KeepsIndices :=
  keepsIndices_dyn fun s => keepsIndices_seq (keepsIndices_dyn fun t => keepsIndices_evt t) (keepsIndices_dyn fun t =>
    keepsIndices_on (keepsIndices_dyn fun u => keepsIndices_ite keepsIndices_evt (keepsIndices_routeEvent hd hl) u) t) s

theorem keepsIndices_loseMessage : loseMessage.KeepsIndices :=
  keepsIndices_seq keepsIndices_evt (keepsIndices_raiseWith (fun _ => keepsIndices_nop) keepsIndices_evt)

theorem keepsIndices_netFijDone {port : Nat} : (netFijDone port).KeepsIndices := by
  have h1 : (F.NET_FIJ_CFG_KIND port).addr < 0xA000 ∨ 0xC000 ≤ (F.NET_FIJ_CFG_KIND port).addr := by
    simp only [R.NET_FIJ_CFG]
    omega
  have h2 : R.NET_FIJ_DONE port < 0xA000 ∨ 0xC000 ≤ R.NET_FIJ_DONE port := by
    simp only [R.NET_FIJ_DONE]
    omega
  exact keepsIndices_cons (keepsIndices_setF h1) (keepsIndices_cons (keepsIndices_addR h2) (keepsIndices_cons
    (keepsIndices_addR (by decide)) (keepsIndices_cons (keepsIndices_raiseWith (fun _ => keepsIndices_nop) keepsIndices_loseMessage)
      keepsIndices_nil)))

/-- Raising an event moves no index but RNG_PI of the ring that carries its message. -/
theorem keepsIndices_raise {e : Evt} : (raise e).KeepsIndices :=
  keepsIndices_raiseWith (fun _ => keepsIndices_netFijDone) keepsIndices_loseMessage

/-! ### Self-tests that give way (R375) -/

theorem keepsIndices_sliceCounted {k : Nat} : (sliceCounted k).KeepsIndices :=
  keepsIndices_dyn fun s => keepsIndices_cons keepsIndices_blk (keepsIndices_cons (keepsIndices_setF (by decide))
    (keepsIndices_cons (keepsIndices_on (keepsIndices_cons (keepsIndices_addR (by decide)) (keepsIndices_cons keepsIndices_raise
      keepsIndices_nil))) keepsIndices_nil)) s

/-- The PAGE_STAT of a slice that has a page alone is no ring's RNG_CFG. -/
theorem slicePageStat_outside {i : Nat} (h : i < 20) :
    pageReg (slicePage (84 + i)) 0x00C < 0xA108 ∨ 0xC000 ≤ pageReg (slicePage (84 + i)) 0x00C := by
  have : ∀ i < 20, pageReg (slicePage (84 + i)) 0x00C < 0xA108 ∨ 0xC000 ≤ pageReg (slicePage (84 + i)) 0x00C := by decide
  exact this i h

theorem keepsIndices_bistRequest {i : Nat} (h : i < 20) : (bistRequest (84 + i)).KeepsIndices := by
  have hstat : ∀ v, (setF (pageStat (slicePage (84 + i)) 10 1) v).KeepsIndices := fun v =>
    keepsIndices_of_within (ps := []) (within_setF (rg := fun b => b == pageReg (slicePage (84 + i)) 0x00C) (by simp [pageStat]))
      (by simp) fun r => by
        have := ringCfg_bounds r
        have := slicePageStat_outside h
        simp only [beq_eq_false_iff_ne]
        omega
  refine keepsIndices_dyn fun s => keepsIndices_seq keepsIndices_blk ?_ s
  split
  · exact keepsIndices_ite (keepsIndices_cons (keepsIndices_addR (by decide)) (keepsIndices_cons (hstat _)
      (keepsIndices_cons (keepsIndices_setF (by decide)) (keepsIndices_cons (keepsIndices_setF (by decide))
      (keepsIndices_cons keepsIndices_blk (keepsIndices_cons (keepsIndices_on (keepsIndices_cons (keepsIndices_addR (by decide))
      (keepsIndices_cons keepsIndices_raise (keepsIndices_cons keepsIndices_sliceCounted keepsIndices_nil)))) keepsIndices_nil))))))
      keepsIndices_nop
  · exact keepsIndices_nop

/-- A self-test that gives way to a request moves no index but that of a reply ring. -/
theorem keepsIndices_bistPage {page : Nat} : (bistPage page).KeepsIndices := by
  refine keepsIndices_each fun k hk => ?_
  obtain ⟨i, hi, rfl⟩ := List.mem_map.mp (List.mem_of_mem_filter hk)
  exact keepsIndices_bistRequest (List.mem_range.mp hi)

theorem keepsIndices_linkToL0 : linkToL0.KeepsIndices :=
  keepsIndices_dyn fun s => keepsIndices_seq (keepsIndices_on keepsIndices_blk)
    (keepsIndices_on (keepsIndices_seq (keepsIndices_setF (by decide)) keepsIndices_emit)) s

/-- A host access moves no index but that of a reply ring, before it reaches its page. -/
theorem served_sameIndices (s : State) (page : Nat) : s.SameIndices (s.served page) :=
  (State.SameIndices.trans (t := { s with out := [] }) ⟨fun _ => rfl, fun _ => rfl, fun _ _ => rfl⟩
    ((keepsIndices_linkToL0 _).trans (keepsIndices_bistPage _)))

/-! ### No self-test under way -/

/-- With no self-test under way a request only notes that it came. -/
theorem bistPage_idle (page : Nat) (h : s.b.bst.cur = none) : framed (fun _ => false) [.bBst] s ((bistPage page).run s) ∧
    ((bistPage page).run s).b.bst.cur = none := by
  rw [bistPage]
  generalize slicesOf page = l
  induction l generalizing s with
  | nil => exact ⟨framed_refl _ _ _, h⟩
  | cons k l ih =>
    have hk : (bistRequest k).run s = (onBst fun b => { b with used := spPut (fun _ => 0) b.used k s.b.tim.ticks }).run s := by
      rw [bistRequest, run_dyn, run_seq, h]
      rfl
    obtain ⟨hf, hc⟩ := ih (s := (bistRequest k).run s) (by rw [hk]; exact h)
    refine ⟨framed_trans ?_ hf, hc⟩
    rw [hk]
    exact within_onBst (by decide) s

/-- With no self-test under way a host access only brings the link to L0. -/
theorem served_idle (page : Nat) (h : s.b.bst.cur = none) :
    framed accessRegs [.bBst, .bPwr, .out] s (s.served page) ∧ (s.served page).b.bst.cur = none := by
  have hl := linkToL0_framed { s with out := [] } [.bPwr, .out] (by decide) fun _ => by decide
  obtain ⟨hf, hc⟩ := bistPage_idle page (s := linkToL0.run { s with out := [] })
    ((congrArg BstBlk.cur (hl.2.2 .bBst (by decide))).trans h)
  refine ⟨framed_clear s (by decide) (framed_trans (framed_mono (fun _ h => h) (by decide) hl)
    (framed_mono (fun _ h => by cases h) (by decide) hf)), hc⟩

end Sys2Proof.Machine
end

section
/-! SUPPORT. Writes of ring indices (R105 to R107, R122, R125), and the statement on them. -/

namespace Sys2Proof.Machine

variable {s t : State} {ring : Nat}

/-! ### A ring's figures, read from its indices and RNG_CFG -/

theorem State.SameIndices.hostWritten (h : s.SameIndices t) (ring : Nat) : t.hostWritten ring = s.hostWritten ring := by
  rw [State.hostWritten, State.hostWritten, h.flag (F.RNG_CFG_DIR ring) rfl]

theorem State.SameIndices.ringLen (h : s.SameIndices t) (ring : Nat) : t.ringLen ring = s.ringLen ring := by
  rw [State.ringLen, State.ringLen, State.fld, h.cfg, State.fld]

/-- RNG_PI of a ring that the host writes is no event's to move. -/
theorem State.SameIndices.pi_host (h : s.SameIndices t) (hw : s.hostWritten ring = true) : t.pi ring = s.pi ring := by
  refine h.pi ring ?_
  simp only [State.hostWritten, Bool.or_eq_true, decide_eq_true_eq, Bool.and_eq_true, Bool.not_eq_true'] at hw
  rcases hw with hw | ⟨-, hw⟩
  · exact .inl (by omega)
  · exact .inr hw

theorem ringUsed_of_indices (hp : t.pi ring = s.pi ring) (hc : t.ci ring = s.ci ring) : t.ringUsed ring = s.ringUsed ring := by
  rw [State.ringUsed, hp, hc, ← State.ringUsed]

theorem State.SameIndices.ringUsed_host (h : s.SameIndices t) (hw : s.hostWritten ring = true) :
    t.ringUsed ring = s.ringUsed ring := ringUsed_of_indices (h.pi_host hw) (h.ci ring)

theorem State.SameIndices.doorbellOk (h : s.SameIndices t) (hw : s.hostWritten ring = true) (pi : Nat) :
    t.doorbellOk ring pi = s.doorbellOk ring pi := by
  simp only [State.doorbellOk, State.ringRoom, h.ringUsed_host hw, h.pi_host hw, h.ringLen]

theorem ringUsed_congr (hr : t.rings = s.rings) (ring : Nat) : t.ringUsed ring = s.ringUsed ring :=
  ringUsed_of_indices (pi_congr hr ring) (ci_congr hr ring)

/-! ### Errors of the ring registers (R424) -/

/-- The registers of the rings lie on the pages of the rings. -/
theorem ringReg_page (i o : Nat) (h : 0xA100 ≤ o) (h' : o < 0xA120) :
    (if (o + i % 128 * 0x20) / 0x1000 = 0x00B then 0x00A else (o + i % 128 * 0x20) / 0x1000) = 0xA := by
  have := Nat.mod_lt i (show 128 > 0 by decide)
  split <;> omega

/-- The first error of the rings' page, of a register of either page of the rings. -/
theorem ringError_first (s : State) {reg code : Nat} (hp : (if reg / 0x1000 = 0x00B then 0x00A else reg / 0x1000) = 0xA)
    (hc : code < 256) (h : s.rd (pageReg 0xA 0x020) / 2 ^ 16 % 2 ^ 15 = 0) (hr : reg < 2 ^ 32) :
    ((err reg code).run s).rd (pageReg 0xA 0x020) = 2 ^ 16 + code ∧
      ((err reg code).run s).rd (pageReg 0xA 0x024) = reg - 0xA000 := by
  rw [err, errD, run_dyn, hp]
  dsimp only
  rw [if_pos h, run_acts_cons, run_acts_cons, run_acts_nil]
  refine ⟨?_, ?_⟩
  · rw [rd_setR_ne _ _ _ _ (by decide), rd_setR_same]
    omega
  · rw [rd_setR_same]
    omega

theorem err_rings (s : State) (reg code : Nat) : ((err reg code).run s).rings = s.rings :=
  ((within_errD (ps := []) (rg := fun _ => true) rfl rfl rfl : (err reg code).Within _ _) s).2.2 .rings (by decide)

/-- An error of a ring register is recorded on the rings' page. -/
theorem within_ringError {reg code : Nat} (hp : (if reg / 0x1000 = 0x00B then 0x00A else reg / 0x1000) = 0xA) {ps : List Part} :
    (err reg code).Within (fun a => accessRegs a || [pageReg 0xA 0x020, pageReg 0xA 0x024].contains a) ps :=
  within_errD hp (by decide) (by decide)

/-! ### Doorbells (R106) -/

/-- A recursion over fuel has at each argument what its body gives there. -/
theorem brecOn_of_body {α : Type} {P : α → Prop} (F : ∀ n, Nat.below (motive := fun _ => α) n → α) (h : ∀ n below, P (F n below))
    (n : Nat) : P (Nat.brecOn (motive := fun _ => α) n F) := by
  cases n with
  | zero => exact h _ _
  | succ n => exact h _ _

/-- A ring that is not read for control messages takes none. The body of the recursion is taken without its equations: to check
them the kernel would compute the number of entries that the ring holds, a difference modulo 2³². -/
theorem ctrlTake_unread (h : s.ctrlReads ring = false) (n : Nat) (es : List (List Nat)) : (ctrlTake ring n es).run s = s := by
  delta ctrlTake
  refine brecOn_of_body (P := fun f : List (List Nat) → Act => (f es).run s = s) _ (fun n below => ?_) n
  cases n with
  | zero => rfl
  | succ n =>
    delta ctrlTake._f
    dsimp only
    rw [run_dyn]
    generalize firstMessage (es.take (s.ringUsed ring)) = o
    cases o with
    | none => rfl
    | some x =>
      dsimp only
      rw [on_neg h, run_nop]

/-- A ring of descriptors holds no control messages, and no entries bring none. -/
theorem ctrlTake_none (s : State) {n : Nat} {es : List (List Nat)} (h : ring < 64 ∨ n = 0) : (ctrlTake ring n es).run s = s := by
  rcases h with hr | rfl
  · refine ctrlTake_unread ?_ n es
    simp only [State.ctrlReads, show ¬ 112 ≤ ring by omega, decide_false, Bool.false_and]
  · exact run_nop s

/-- The state in which a doorbell finds its ring. -/
def State.rung (s : State) : State := (bistPage 9).run (s.served 0xA)

theorem rung_sameIndices (s : State) : s.SameIndices s.rung := (served_sameIndices s 0xA).trans (keepsIndices_bistPage _)

theorem rung_framed (s : State) : framed accessRegs (accessParts s) s s.rung :=
  framed_trans (served_framed s 0xA) (framed_mono (fun _ h => h) (fun p h => by
    simp only [List.mem_cons] at h
    rcases h with rfl | h
    · simp [accessParts]
    · simp [accessParts, h]) (within_bistPage _))

/-- With no self-test under way the table of the rings is as it was. -/
theorem rung_idle (h : s.b.bst.cur = none) : framed accessRegs [.bBst, .bPwr, .out] s s.rung := by
  obtain ⟨hf, hc⟩ := served_idle 0xA h
  exact framed_trans hf (framed_mono (fun _ h => by cases h) (by decide) (bistPage_idle 9 hc).1)

theorem doorbell_run (ring : Fin 128) (w : Word) (entries : List (List Byte)) (hr : s.reaches 0xA = true)
    (he : ring.val < 64 ∨ entries = []) :
    exec (.doorbell ring w entries) s = .next ((doorbellIndex ring w.toNat).run s.rung) := by
  show execDoorbell ring w entries s = _
  rw [execDoorbell, perform_toPage _ _ _ hr, run_acts_cons, run_acts_cons, run_acts_cons, run_acts_nil,
    ctrlTake_none _ (he.imp_right fun h => by rw [h]; rfl), State.rung]

/-! A booking leaves the indices where the write before it put them. -/

theorem indexBooked_ring (s : State) (k v : Nat) (b : Booking) :
    ((Act.book .ring b).run ((Act.index k v).run s)).led.ring = s.led.ring.book b := rfl

theorem booked_pi (s : State) (b : Booking) (ring : Nat) : ((Act.book .ring b).run s).pi ring = s.pi ring := rfl

theorem booked_ci (s : State) (b : Booking) (ring : Nat) : ((Act.book .ring b).run s).ci ring = s.ci ring := rfl

/-- A doorbell that is accepted. -/
theorem doorbellIndex_accepts (hw : s.hostWritten ring = true) {pi : Nat} (hok : s.doorbellOk ring pi = true) :
    (doorbellIndex ring pi).run s =
      (Act.book .ring (.come ((pi + 2 ^ 32 - s.pi ring) % 2 ^ 32))).run ((Act.index (2 * ring) (pi % 2 ^ 32)).run s) := by
  rw [doorbellIndex, run_dyn, hw, Bool.not_true, if_neg Bool.false_ne_true, if_pos hok, run_seq, bookIn]

/-- A doorbell that is not. -/
theorem doorbellIndex_refuses (hw : s.hostWritten ring = true) {pi : Nat} (hok : s.doorbellOk ring pi = false) :
    (doorbellIndex ring pi).run s = (err (R.RNG_PI ring) Err.doorbell).run s := by
  rw [doorbellIndex, run_dyn, hw, Bool.not_true, if_neg Bool.false_ne_true, if_neg (by rw [hok]; exact Bool.false_ne_true)]

/-- RNG_PI of a ring that the device writes is read-only (R125). -/
theorem doorbellIndex_readOnly (hw : s.hostWritten ring = false) (pi : Nat) : (doorbellIndex ring pi).run s = s := by
  rw [doorbellIndex, run_dyn, hw, Bool.not_false, if_pos rfl, run_nop]

/-- What a moved index and its booking leave alone. -/
theorem within_indexBooked {regs : List Nat} {parts : List Part} (k v : Nat) (b : Booking) :
    (Act.seq (.index k v) (.book .ring b)).Within (fun a => accessRegs a || regs.contains a) (accessParts s ++ parts) :=
  within_seq (within_index (by simp [accessParts, eventParts])) (within_book (by simp [accessParts, eventParts, Ledger.part]))

theorem rung_accessFrame {regs : List Nat} {a : Act}
    (h : a.Within (fun a => accessRegs a || regs.contains a) (accessParts s ++ [])) : accessFrame regs [] s (a.run s.rung) :=
  framed_trans (framed_mono (fun a h => by simp [h]) (fun p h => by simp [h]) (rung_framed s)) (h _)

theorem doorbell_accepted (ring : Fin 128) (w : Word) (hw : s.hostWritten ring = true) (hok : s.doorbellOk ring w.toNat = true) :
    ((doorbellIndex ring w.toNat).run s.rung).pi ring = w.toNat ∧ ((doorbellIndex ring w.toNat).run s.rung).ci ring = s.ci ring ∧
      (s.b.bst.cur = none → ((doorbellIndex ring w.toNat).run s.rung).led.ring =
        s.led.ring.book (.come ((w.toNat + 2 ^ 32 - s.pi ring) % 2 ^ 32))) ∧
      accessFrame [] [] s ((doorbellIndex ring w.toNat).run s.rung) := by
  have hsame := rung_sameIndices s
  rw [doorbellIndex_accepts ((hsame.hostWritten ring).trans hw) ((hsame.doorbellOk hw w.toNat).trans hok), hsame.pi_host hw,
    Nat.mod_eq_of_lt w.isLt]
  generalize (w.toNat + 2 ^ 32 - s.pi ring) % 2 ^ 32 = n
  rw [booked_pi, booked_ci, pi_index_same, ci_index_pi, hsame.ci]
  refine ⟨rfl, rfl, fun hidle => ?_, ?_⟩
  · have hled := (rung_idle hidle).2.2 .ledRing (by decide)
    exact (indexBooked_ring s.rung (2 * ring) w.toNat (.come n)).trans (congrArg (fun x : Account => x.book (.come n)) hled)
  · exact rung_accessFrame (within_indexBooked _ _ _)

theorem doorbell_refused (ring : Fin 128) (w : Word) (hw : s.hostWritten ring = true) (hok : s.doorbellOk ring w.toNat = false)
    (hc : s.rd (pageReg 0xA 0x020) / 2 ^ 16 % 2 ^ 15 = 0) :
    ((doorbellIndex ring w.toNat).run s.rung).pi ring = s.pi ring ∧
      ((doorbellIndex ring w.toNat).run s.rung).rd (pageReg 0xA 0x020) = 2 ^ 16 + Err.doorbell ∧
      ((doorbellIndex ring w.toNat).run s.rung).rd (pageReg 0xA 0x024) = R.RNG_PI ring - 0xA000 ∧
      accessFrame [pageReg 0xA 0x020, pageReg 0xA 0x024] [] s ((doorbellIndex ring w.toNat).run s.rung) := by
  have hsame := rung_sameIndices s
  have hpage := ringReg_page ring 0xA10C (by decide) (by decide)
  have hlt : R.RNG_PI ring < 2 ^ 32 := by simp only [R.RNG_PI]; omega
  rw [doorbellIndex_refuses ((hsame.hostWritten ring).trans hw) ((hsame.doorbellOk hw w.toNat).trans hok)]
  obtain ⟨hcause, hdetail⟩ := ringError_first s.rung (code := Err.doorbell) hpage (by decide)
    (by rw [(rung_framed s).2.1 _ (by decide)]; exact hc) hlt
  exact ⟨(pi_congr (err_rings _ _ _) _).trans (hsame.pi_host hw), hcause, hdetail, rung_accessFrame (within_ringError hpage)⟩

/-! ### Consumer indices (R107) -/

theorem consumerIndexWrite_run (ring : Fin 128) (w : Word) (hr : s.reaches 0xA = true) :
    exec (.consumerIndexWrite ring w) s = .next ((consumerIndex ring w.toNat).run (s.served 0xA)) :=
  perform_toPage s 0xA (consumerIndex ring w.toNat) hr

/-- RNG_CI of a ring that the host writes is read-only (R125). -/
theorem consumerIndex_readOnly (hw : s.hostWritten ring = true) (ci : Nat) : (consumerIndex ring ci).run s = s := by
  rw [consumerIndex, run_dyn]
  dsimp only
  rw [if_pos hw, run_nop]

theorem consumerIndex_refuses (hw : s.hostWritten ring = false) {ci : Nat}
    (h : s.ringUsed ring < (ci + 2 ^ 32 - s.ci ring) % 2 ^ 32) :
    (consumerIndex ring ci).run s = (err (R.RNG_CI ring) Err.range).run s := by
  rw [consumerIndex, run_dyn]
  dsimp only
  rw [if_neg (by rw [hw]; exact Bool.false_ne_true), if_pos h]

theorem consumerIndex_accepts (hw : s.hostWritten ring = false) (hq : s.b.dma.replies = []) {ci : Nat}
    (h : (ci + 2 ^ 32 - s.ci ring) % 2 ^ 32 ≤ s.ringUsed ring) : (consumerIndex ring ci).run s =
      (Act.book .ring (.leave ((ci + 2 ^ 32 - s.ci ring) % 2 ^ 32))).run ((Act.index (2 * ring + 1) (ci % 2 ^ 32)).run s) := by
  rw [consumerIndex, run_dyn]
  dsimp only
  rw [if_neg (by rw [hw]; exact Bool.false_ne_true), if_neg (Nat.not_lt.mpr h), hq, run_acts_cons, run_acts_cons, run_acts_cons,
    run_acts_nil, List.length_nil, flushReplies, bookOut]
  cases decide (112 ≤ ring)
  · rw [on_false, run_nop]
  · rw [on_true, run_nop]

theorem consumerIndex_accepted (ring : Fin 128) (w : Word) (hw : s.hostWritten ring = false) (hq : s.b.dma.replies = [])
    (hidle : s.b.bst.cur = none) (hle : (w.toNat + 2 ^ 32 - s.ci ring) % 2 ^ 32 ≤ s.ringUsed ring) :
    ((consumerIndex ring w.toNat).run (s.served 0xA)).ci ring = w.toNat ∧
      ((consumerIndex ring w.toNat).run (s.served 0xA)).pi ring = s.pi ring ∧
      ((consumerIndex ring w.toNat).run (s.served 0xA)).led.ring =
        s.led.ring.book (.leave ((w.toNat + 2 ^ 32 - s.ci ring) % 2 ^ 32)) ∧
      accessFrame [] [] s ((consumerIndex ring w.toNat).run (s.served 0xA)) := by
  have hfix := (served_idle 0xA hidle).1
  have hrings : (s.served 0xA).rings = s.rings := hfix.2.2 .rings (by decide)
  have hdma : (s.served 0xA).b.dma = s.b.dma := hfix.2.2 .bDma (by decide)
  have hled : (s.served 0xA).led.ring = s.led.ring := hfix.2.2 .ledRing (by decide)
  have hci := ci_congr hrings ring
  have hpi := pi_congr hrings ring
  rw [consumerIndex_accepts (((served_sameIndices s 0xA).hostWritten ring).trans hw) (by rw [hdma, hq])
    (by rw [hci, ringUsed_congr hrings ring]; exact hle), hci, Nat.mod_eq_of_lt w.isLt]
  generalize (w.toNat + 2 ^ 32 - s.ci ring) % 2 ^ 32 = n
  rw [booked_pi, booked_ci, ci_index_same, pi_index_ci, hpi, indexBooked_ring, hled]
  exact ⟨rfl, rfl, rfl, accessFrame_run s 0xA (within_indexBooked (2 * ring + 1) w.toNat (.leave n))⟩

theorem consumerIndex_refused (ring : Fin 128) (w : Word) (hw : s.hostWritten ring = false) (hidle : s.b.bst.cur = none)
    (hlt : s.ringUsed ring < (w.toNat + 2 ^ 32 - s.ci ring) % 2 ^ 32) (hc : s.rd (pageReg 0xA 0x020) / 2 ^ 16 % 2 ^ 15 = 0) :
    ((consumerIndex ring w.toNat).run (s.served 0xA)).ci ring = s.ci ring ∧
      ((consumerIndex ring w.toNat).run (s.served 0xA)).pi ring = s.pi ring ∧
      ((consumerIndex ring w.toNat).run (s.served 0xA)).rd (pageReg 0xA 0x020) = 2 ^ 16 + Err.range ∧
      accessFrame [pageReg 0xA 0x020, pageReg 0xA 0x024] [] s ((consumerIndex ring w.toNat).run (s.served 0xA)) := by
  have hrings : (s.served 0xA).rings = s.rings := (served_idle 0xA hidle).1.2.2 .rings (by decide)
  have hci := ci_congr hrings ring
  have hpage := ringReg_page ring 0xA110 (by decide) (by decide)
  have hreg : R.RNG_CI ring < 2 ^ 32 := by simp only [R.RNG_CI]; omega
  rw [consumerIndex_refuses (((served_sameIndices s 0xA).hostWritten ring).trans hw)
    (by rw [hci, ringUsed_congr hrings ring]; exact hlt)]
  have hsame := err_rings (s.served 0xA) (R.RNG_CI ring) Err.range
  exact ⟨(ci_congr hsame ring).trans hci, (pi_congr hsame ring).trans (pi_congr hrings ring),
    (ringError_first (s.served 0xA) (code := Err.range) hpage (by decide) (by rw [served_rd s 0xA _ (by decide)]; exact hc) hreg).1,
    accessFrame_run s 0xA (within_ringError hpage)⟩

/-- Settles O24: each index write runs in the state that the access has reached, whose rings and RNG_CFG are as they were. -/
theorem ringIndexWritesMoveProducerAndConsumer : Obligations.RingIndexWritesMoveProducerAndConsumer := by
  refine fun s ring w hr => ⟨fun entries hw he => ⟨fun hok => ?_, fun hok hc => ?_⟩,
    fun hw hq hidle => ⟨fun hle => ?_, fun hlt hc => ?_⟩,
    fun hw hidle => ?_, fun hw => ?_⟩
  · exact ⟨_, doorbell_run ring w entries hr he, doorbell_accepted ring w hw hok⟩
  · exact ⟨_, doorbell_run ring w entries hr he, doorbell_refused ring w hw hok hc⟩
  · exact ⟨_, consumerIndexWrite_run ring w hr, consumerIndex_accepted ring w hw hq hidle hle⟩
  · exact ⟨_, consumerIndexWrite_run ring w hr, consumerIndex_refused ring w hw hidle hlt hc⟩
  · refine ⟨_, doorbell_run ring w [] hr (.inr rfl), ?_⟩
    rw [doorbellIndex_readOnly (((rung_sameIndices s).hostWritten ring).trans hw)]
    exact pi_congr ((rung_idle hidle).2.2 .rings (by decide)) ring
  · refine ⟨_, consumerIndexWrite_run ring w hr, ?_⟩
    rw [consumerIndex_readOnly (((served_sameIndices s 0xA).hostWritten ring).trans hw)]
    exact (served_sameIndices s 0xA).ci ring

end Sys2Proof.Machine
end

section
/-! SUPPORT. Cellar lines (R335, R338 to R345): what a rank that must be retired, a parity fault and the data of a line leave as
it was, and that a line which reads as it was stored is read without effect. -/

namespace Sys2Proof.Machine

variable {s t : State} {la : Nat}

/-! ### Scopes of the controllers -/

/-- The registers of the memory controllers, and the count of transitions that a stop advances. -/
def memoryRegs (a : Nat) : Bool := [0x10, 0x11, 0x12, 0x13, 0x14].contains (a / 0x1000) || a == R.TOP_TRANS_CNT

/-- What a rank that must be retired leaves as it was: every block but the controllers' and the job's, and of these the stored
errors, the waiting write-backs and the ranks retired before. -/
structure retireKeeps (b c : Blocks) : Prop where
  only : c = { b with ram := c.ram, job := c.job, net := c.net }
  job : c.job = { b.job with turnWait := c.job.turnWait, stopEnd := c.job.stopEnd }
  errs : c.ram.errs = b.ram.errs
  wb : c.ram.wb = b.ram.wb
  retired : ∀ r ∈ b.ram.retired, r ∈ c.ram.retired

theorem retireKeeps.refl (b : Blocks) : retireKeeps b b := ⟨rfl, rfl, rfl, rfl, fun _ h => h⟩

theorem retireKeeps.trans {b c d : Blocks} (h : retireKeeps b c) (k : retireKeeps c d) : retireKeeps b d where
  only := by rw [k.only, h.only]
  job := by rw [k.job, h.job]
  errs := k.errs.trans h.errs
  wb := k.wb.trans h.wb
  retired r hr := k.retired r (h.retired r hr)

theorem retireKeeps.of_job {b : Blocks} {w e : Bool} : retireKeeps b { b with job := { b.job with turnWait := w, stopEnd := e } } :=
  ⟨rfl, rfl, rfl, rfl, fun _ h => h⟩

theorem retireKeeps.of_ram {b : Blocks} {r : MemBlk} (he : r.errs = b.ram.errs) (hw : r.wb = b.ram.wb)
    (hr : ∀ x ∈ b.ram.retired, x ∈ r.retired) : retireKeeps b { b with ram := r } := ⟨rfl, rfl, he, hw, hr⟩

/-- What retiring a rank may touch. -/
def retireScope : Scope where
  regs a := a == R.MEM_STAT || a == R.MEM_REC_LOST || a == R.TOP_TRANS_CNT
  parts := [.dev, .prevDev]
  blocks := retireKeeps
  refl := .refl
  trans := .trans
  net _ _ := ⟨rfl, rfl, rfl, rfl, fun _ h => h⟩

@[simp] theorem allows_onRam (A : Scope) (s : State) (f : MemBlk → MemBlk) :
    A.Allows (onRam f) s ↔ A.blocks s.b { s.b with ram := f s.b.ram } := Iff.rfl

theorem allows_recordTo (A : Scope) (s : State) (e : Nat) (bytes : List Nat) {lost : Act} (h : A.Allows lost s) :
    A.Allows (recordTo e bytes lost) s := by
  simp [recordTo, h]

theorem allows_memRecord (A : Scope) (s : State) (h : A.regs R.MEM_REC_LOST = true) (kind source addr rank dev ch : Nat) :
    A.Allows (memRecord kind source addr rank dev ch) s := by
  have hl : A.Allows (addR R.MEM_REC_LOST 1) s := by simp [h]
  rw [memRecord, allows_dyn, allows_ite]
  exact ⟨fun _ => allows_recordTo A s _ _ hl, fun _ => hl⟩

theorem retire_stopAtEnd (s : State) : retireScope.Allows stopAtEnd s := by
  simp only [stopAtEnd, allows_dyn, allows_ite, allows_seq, allows_on, allows_onJob]
  exact ⟨fun _ => ⟨allows_enter _ s _ (by decide) (by decide) (by decide) (by decide), fun _ => .of_job⟩, fun _ _ => .of_job⟩

theorem memStat_retires : (eventRegs R.MEM_STAT || retireScope.regs R.MEM_STAT) = true := by decide

theorem allows_retireRank (s : State) (ch rank : Nat) : retireScope.Allows (retireRank ch rank) s := by
  have hrec := fun t => allows_memRecord retireScope t rfl
  simp only [retireRank, allows_dyn, allows_ite, allows_nop, allows_cons, allows_onRam, allows_raise, allows_on, allows_setB,
    allows_setF, allows_nil, implies_true, true_and, and_true, hrec, memStat_retires, retire_stopAtEnd]
  exact fun _ => ⟨.of_ram rfl rfl (fun _ h => List.mem_cons_of_mem _ h), fun t _ => .of_ram rfl rfl fun _ h => h⟩

theorem allows_spareFails (s : State) (ch : Nat) : retireScope.Allows (spareFails ch) s := by
  have hrec := fun t => allows_memRecord retireScope t rfl
  simp only [spareFails, allows_dyn, allows_cons, allows_onRam, allows_raise, allows_setB, allows_setF, allows_nil, implies_true,
    and_true, hrec, memStat_retires, retire_stopAtEnd]
  exact .of_ram rfl rfl fun _ h => h

/-- A rank that had to be retired is among those retired. -/
theorem retireRank_retired (s : State) (ch rank : Nat) : (ch, rank) ∈ ((retireRank ch rank).run s).b.ram.retired := by
  rw [retireRank, run_dyn, run_ite]
  split
  · next h => simpa using h
  · rw [run_acts_cons, run_acts_cons, run_acts_nil]
    have hrest := allows_retireRank s ch rank
    rw [retireRank, allows_dyn, allows_ite] at hrest
    have := (hrest.2 ‹_›).2 ((onRam fun m => { m with retired := (ch, rank) :: m.retired }).run s)
    exact this.rel.blocks.retired _ (List.mem_cons_self ..)

/-! ### Errors that a command names -/

@[simp] theorem faultAt_nil (la : Nat) : faultAt [] la = none := rfl

/-- A fault of a command's parity puts no error into DRAM. -/
theorem faultAt_parity {f : LineFault} (h : f.parity = true) (la : Nat) : faultAt [f] la = none := by
  simp [faultAt, h]

theorem lineErr_of_faultAt {faults : List LineFault} (h : faultAt faults la = none) (s : State) :
    s.lineErr faults la = s.lineErr [] la := by
  simp only [State.lineErr, h, faultAt_nil]

theorem decodeLine_of_faultAt {faults : List LineFault} (h : faultAt faults la = none) (s : State) :
    s.decodeLine faults la = s.decodeLine [] la := by
  rw [State.decodeLine, State.decodeLine, lineErr_of_faultAt h]

theorem readLine_of_faultAt {faults : List LineFault} (h : faultAt faults la = none) (s : State) :
    s.readLine faults la = s.readLine [] la := by
  rw [State.readLine, State.readLine, lineErr_of_faultAt h, decodeLine_of_faultAt h]

theorem readByte_of_faultAt {faults : List LineFault} {a : Nat} (h : faultAt faults (lineAddr a) = none) (s : State) :
    s.readByte faults a = s.readByte [] a := by
  simp only [State.readByte, readLine_of_faultAt h, lineErr_of_faultAt h, decodeLine_of_faultAt h]

theorem placeError_none {faults : List LineFault} (h : faultAt faults la = none) (s : State) : (placeError faults la).run s = s := by
  rw [placeError, h, run_nop]

/-! ### Lines that read as they were stored -/

/-- A line reads as it was stored where it is no poison, all its bytes are there, and neither an error nor a write-back waits. -/
theorem soundLine_iff : s.soundLine la ↔
    (s.b.cel.poison.contains la = false ∧ (s.lineBytes la).isSome = true) ∧ s.lineErr [] la = [] ∧ la ∉ s.b.ram.wb := by
  refine and_congr_left fun ⟨he, _⟩ => ?_
  rw [State.readLine, he, List.isEmpty_nil, if_pos rfl, State.poisoned]
  cases s.b.cel.poison.contains la with
  | true => simp
  | false =>
    cases s.lineBytes la with
    | some _ => simp
    | none =>
      simp only [Option.isNone_none, Bool.true_and, Bool.false_or, Option.isSome_none]
      split <;> simp

/-- Whether a line reads as it was stored is a matter of its bytes, its poison mark, its errors and its write-back alone. -/
theorem State.soundLine.congr (h : s.soundLine la) (hm : t.mem = s.mem) (hc : t.b.cel = s.b.cel) (he : t.b.ram.errs = s.b.ram.errs)
    (hw : t.b.ram.wb = s.b.ram.wb) : t.soundLine la := by
  rw [soundLine_iff] at h ⊢
  simpa only [State.lineBytes, State.lineErr, hm, hc, he, hw] using h

theorem State.soundLine.of_retire (h : s.soundLine la) (r : retireScope.Rel s t) : t.soundLine la :=
  h.congr (r.part .mem (by decide) (by decide)) (by rw [r.blocks.only]) r.blocks.errs r.blocks.wb

theorem writeBack_none (h : la ∉ s.b.ram.wb) : (writeBack [la]).run s = s := by
  have : s.b.ram.wb.filter [la].contains = [] := by
    rw [List.filter_eq_nil_iff]
    rintro x hx hc
    obtain rfl : x = la := by simpa using hc
    exact h hx
  rw [writeBack, run_dyn, this, each_nil]

/-- A line that reads as it was stored leaves its command's parity alone to be noted. -/
theorem lineNote_sound (h : s.soundLine la) {faults : List LineFault} (hf : faultAt faults la = none) (source : Nat) :
    (lineNote source faults la).run s = (parityNote source faults la).run s := by
  obtain ⟨hread, -, hwb⟩ := h
  rw [lineNote, run_dyn, run_acts_cons, run_acts_cons, run_acts_cons, run_acts_cons, run_acts_nil, writeBack_none hwb,
    placeError_none hf, readLine_of_faultAt hf, hread]
  rfl

/-- A command that passes parity leaves nothing behind. -/
theorem parityNote_passes {faults : List LineFault} (h : ∀ f ∈ faults, f.parity = true → lineAddr f.addr.toNat ≠ la)
    (source : Nat) (s : State) : (parityNote source faults la).run s = s := by
  have : (faults.any fun f => f.parity && lineAddr f.addr.toNat == la) = false := by
    simpa using h
  rw [parityNote, run_dyn]
  dsimp only
  rw [this, Bool.and_false, on_false, run_nop]

theorem lineNote_clean (h : s.soundLine la) (source : Nat) : (lineNote source [] la).run s = s :=
  (lineNote_sound h rfl source).trans (parityNote_passes (by simp) source s)

theorem each_fixed {α : Type} {l : List α} {f : α → Act} (h : ∀ x ∈ l, (f x).run s = s) : (each l f).run s = s := by
  induction l with
  | nil => rfl
  | cons x l ih => rw [each_cons, h x (by simp), ih fun y hy => h y (by simp [hy])]

theorem each_append {α : Type} (l m : List α) (f : α → Act) (s : State) : (each (l ++ m) f).run s = (each m f).run ((each l f).run s) := by
  induction l generalizing s with
  | nil => rfl
  | cons x l ih => exact ih _

/-- A byte of a line that reads as it was stored is the byte stored. -/
theorem readByte_sound {a : Nat} (h : s.soundLine (lineAddr a)) : s.readByte [] a = (cellGet s.mem a).map BitVec.toNat := by
  obtain ⟨hread, herr, -⟩ := h
  simp [State.readByte, hread, herr, LineRead.ok]

/-- Every byte of a line that reads as it was stored has been stored. -/
theorem State.soundLine.stored {a : Nat} (h : s.soundLine (lineAddr a)) : (cellGet s.mem a).isSome = true := by
  have hsome := (soundLine_iff.mp h).1.2
  rw [State.lineBytes] at hsome
  split at hsome
  · next hall =>
    have := List.all_eq_true.mp hall (a % 64) (by simp; omega)
    rwa [show lineAddr a + a % 64 = a by rw [lineAddr]; omega] at this
  · cases hsome

/-! ### The lines of a run of bytes -/

theorem mem_linesOf {a n x : Nat} : x ∈ linesOf a n ↔ x % 64 = 0 ∧ a < x + 64 ∧ x < a + n ∧ n ≠ 0 := by
  rw [linesOf]
  split
  · simp_all
  · next hn =>
    simp only [List.mem_map, List.mem_range]
    constructor
    · rintro ⟨i, hi, rfl⟩
      omega
    · rintro ⟨hx, h1, h2, -⟩
      exact ⟨x / 64 - a / 64, by omega, by omega⟩

theorem linesOf_nodup (a n : Nat) : (linesOf a n).Nodup := by
  rw [linesOf]
  split
  · exact List.nodup_nil
  · exact (List.nodup_range).map fun i j h => by simpa using h

theorem lineAddr_mem_linesOf {a n i : Nat} (h : i < n) : lineAddr (a + i) ∈ linesOf a n := by
  rw [mem_linesOf, lineAddr]
  omega

end Sys2Proof.Machine
end

section
/-! SUPPORT. BAR2 (R99, R341, R342), and the statement on the cellar's aperture. -/

namespace Sys2Proof.Machine

variable {s t : State} {la : Nat}

/-! ### Reads -/

/-- The answer to a BAR2 read of the bytes `bytes` (R99). -/
def bar2Answer (bytes : List (Option Nat)) (len : Nat) : Act :=
  if bytes.all fun b => b.isSome then .emit (.completion (bytes.map fun b => b.getD 0) false)
  else .emit (.completion (List.replicate len 0xFF) true)

theorem cellarHas_cleared (s : State) (off n : Nat) :
    State.cellarHas { s with out := [] } (State.apertureAddr { s with out := [] } off) n = s.cellarHas (s.apertureAddr off) n := rfl

theorem bar2Read_run (off : BitVec 28) (len : Fin 65) (faults : List LineFault) (ho : s.dev ≠ .off) (hd : s.dev ≠ .dormant)
    (hh : s.cellarHas (s.apertureAddr off.toNat) len = true) : exec (.bar2Read off len faults) s =
      .next ((bar2Answer ((List.range len).map fun i => s.readByte faults (s.apertureAddr off.toNat + i)) len).run
        ((each (linesOf (s.apertureAddr off.toNat) len) (lineNote 0 faults)).run { s with out := [] })) := by
  show execBar2Read off len faults s = _
  rw [execBar2Read, perform_eq, run_dyn]
  dsimp only
  rw [if_neg ho, if_neg hd, if_neg (by rw [cellarHas_cleared, hh]; exact Bool.false_ne_true), run_seq]
  rfl

theorem bar2Read_outside (off : BitVec 28) (len : Fin 65) (faults : List LineFault) (ho : s.dev ≠ .off) (hd : s.dev ≠ .dormant)
    (hh : s.cellarHas (s.apertureAddr off.toNat) len = false) : exec (.bar2Read off len faults) s =
      .next ((Act.emit (.completion (List.replicate len 0xFF) true)).run { s with out := [] }) := by
  show execBar2Read off len faults s = _
  rw [execBar2Read, perform_eq, run_dyn]
  dsimp only
  rw [if_neg ho, if_neg hd, if_pos (by rw [cellarHas_cleared, hh]; rfl)]

/-- The bytes of lines that read as they were stored are all there. -/
theorem bar2Answer_sound {a n : Nat} {faults : List LineFault} (hs : ∀ la ∈ linesOf a n, s.soundLine la)
    (hf : ∀ la, faultAt faults la = none) : bar2Answer ((List.range n).map fun i => s.readByte faults (a + i)) n =
      .emit (.completion ((List.range n).map fun i => (s.readByte [] (a + i)).getD 0) false) := by
  have hread : ∀ i, s.readByte faults (a + i) = s.readByte [] (a + i) := fun i => readByte_of_faultAt (hf _) s
  rw [bar2Answer, if_pos, List.map_map]
  · simp only [hread, Function.comp_def]
  · rw [List.all_eq_true]
    intro b hb
    obtain ⟨i, hi, rfl⟩ := List.mem_map.mp hb
    have hline := hs _ (lineAddr_mem_linesOf (a := a) (List.mem_range.mp hi))
    rw [hread, readByte_sound hline, Option.isSome_map]
    exact hline.stored

/-- Reading lines that read as they were stored changes nothing. -/
theorem linesNote_clean {l : List Nat} (h : ∀ la ∈ l, s.soundLine la) (source : Nat) : (each l (lineNote source [])).run s = s :=
  each_fixed fun la hla => lineNote_clean (h la hla) source

theorem emit_plainFrame (s : State) (o : Out) : plainFrame [] [] s ((Act.emit o).run { s with out := [] }) :=
  plainFrame_run s (within_emit (by simp))

/-! ### A read command that fails parity (R342) -/

/-- What a parity fault of the read command for a line brings: its count, its event, and its rank retired. -/
structure parityFailed (s t : State) (la : Nat) : Prop where
  count : t.rd (R.MC_CAPAR_CNT (lineChannel la)) = min (s.rd (R.MC_CAPAR_CNT (lineChannel la)) + 1) 0xFFFFFFFF
  raised : t.raised (E.MC_CA_PARITY (lineChannel la)) = true
  retired : (lineChannel la, s.lineRank la) ∈ t.b.ram.retired
  mem : t.mem = s.mem

/-- The counts of the channels' pages are no event's. -/
theorem caparCnt_plain (ch : Nat) : (eventRegs (R.MC_CAPAR_CNT ch) || retireScope.regs (R.MC_CAPAR_CNT ch)) = false := by
  have h : ∀ i < 4, (eventRegs (0x10124 + i * 0x1000) || retireScope.regs (0x10124 + i * 0x1000)) = false := by decide
  exact h _ (Nat.mod_lt _ (by decide))

/-- The line's own command: counted, reported, its rank retired; the line and every other read as before. -/
theorem parityNote_fails (s : State) {f : LineFault} (hp : f.parity = true) (hl : lineAddr f.addr.toNat = la)
    (hc : s.flag (F.MC_CFG_CAPAR (lineChannel la)) = true) (hb : s.belowPointer la = false) :
    parityFailed s ((parityNote 0 [f] la).run s) la ∧ ∀ x, s.soundLine x → ((parityNote 0 [f] la).run s).soundLine x := by
  have hspare : s.onSpare 0 la = false := by rw [State.onSpare, hb, Bool.and_false]
  have hrank : s.servingRank 0 la = s.lineRank la := by simp [State.servingRank, hspare]
  have hany : ([f].any fun f => f.parity && lineAddr f.addr.toNat == la) = true := by simp [hp, hl]
  rw [parityNote, run_dyn]
  dsimp only
  rw [hc, hany, Bool.and_self, on_true, hspare, if_neg Bool.false_ne_true, hrank, run_acts_cons, run_acts_cons, run_acts_cons,
    run_acts_cons, run_acts_nil]
  have hcount : ((satR (R.MC_CAPAR_CNT (lineChannel la)) 1).run s).rd (R.MC_CAPAR_CNT (lineChannel la)) =
      min (s.rd (R.MC_CAPAR_CNT (lineChannel la)) + 1) 0xFFFFFFFF := by
    rw [satR, run_dyn, rd_setR_same]
    omega
  have hsat : ∀ x, s.soundLine x → ((satR (R.MC_CAPAR_CNT (lineChannel la)) 1).run s).soundLine x := fun x h => h.congr rfl rfl rfl rfl
  have hmem : ((satR (R.MC_CAPAR_CNT (lineChannel la)) 1).run s).mem = s.mem := rfl
  generalize (satR (R.MC_CAPAR_CNT (lineChannel la)) 1).run s = u at *
  have hraise : retireScope.Rel u ((raise (E.MC_CA_PARITY (lineChannel la))).run u) := (allows_raise _ _ _).rel
  have hraised := raise_raised (e := E.MC_CA_PARITY (lineChannel la)) (show 2 < 32 by decide) u
  generalize (raise (E.MC_CA_PARITY (lineChannel la))).run u = v at *
  have hrest := (allows_memRecord retireScope v rfl 4 0 la (s.lineRank la) 15 (lineChannel la)).rel
  generalize (memRecord 4 0 la (s.lineRank la) 15 (lineChannel la)).run v = w at *
  have hretire := (allows_retireRank w (lineChannel la) (s.lineRank la)).rel
  have hrel := (hraise.trans hrest).trans hretire
  refine ⟨⟨?_, ?_, retireRank_retired w _ _, ?_⟩, fun x hx => (hsat x hx).of_retire hrel⟩
  · rw [hrel.rd _ (caparCnt_plain _), hcount]
  · exact (hrest.trans hretire).raised _ (show 2 < 32 by decide) hraised
  · rw [hrel.part .mem (by decide) (by decide), hmem]

/-- A run of lines that read as they were stored, the read command of one of which fails parity. -/
theorem linesNote_parity {l : List Nat} (hl : l.Nodup) {f : LineFault} (hp : f.parity = true) (hmem : lineAddr f.addr.toNat ∈ l)
    (hc : s.flag (F.MC_CFG_CAPAR (lineChannel (lineAddr f.addr.toNat))) = true) (hs : ∀ x ∈ l, s.soundLine x)
    (hb : s.belowPointer (lineAddr f.addr.toNat) = false) :
    parityFailed s ((each l (lineNote 0 [f])).run s) (lineAddr f.addr.toNat) := by
  have hother : ∀ (t : State) x, t.soundLine x → x ≠ lineAddr f.addr.toNat → (lineNote 0 [f] x).run t = t := fun t x hx hne =>
    (lineNote_sound hx (faultAt_parity hp x) 0).trans (parityNote_passes (by simpa [hp] using hne.symm) 0 t)
  obtain ⟨l₁, l₂, rfl⟩ := List.append_of_mem hmem
  obtain ⟨-, hnodup, hdisj⟩ := List.nodup_append.mp hl
  have h₁ : ∀ x ∈ l₁, x ≠ lineAddr f.addr.toNat := fun x hx => hdisj x hx _ (List.mem_cons_self ..)
  have h₂ : ∀ x ∈ l₂, x ≠ lineAddr f.addr.toNat := fun x hx h => (List.nodup_cons.mp hnodup).1 (h ▸ hx)
  obtain ⟨hfail, hkeep⟩ := parityNote_fails s hp rfl hc hb
  rw [each_append, each_cons, each_fixed fun x hx => hother s x (hs x (by simp [hx])) (h₁ x hx),
    lineNote_sound (hs _ hmem) (faultAt_parity hp _), each_fixed fun x hx => hother _ x (hkeep x (hs x (by simp [hx]))) (h₂ x hx)]
  exact hfail

/-! ### Writes -/

/-- A run of bytes stored one by one. -/
theorem storeCells_run (s : State) (a : Nat) (data : List Byte) (k : Nat) :
    ∃ m, (each ((List.range' k data.length).zip data) fun e => .cell (a + e.1) e.2).run s = { s with mem := m } ∧
      (∀ i < data.length, cellGet m (a + (k + i)) = data[i]?) ∧
      ∀ x, (x < a + k ∨ a + (k + data.length) ≤ x) → cellGet m x = cellGet s.mem x := by
  induction data generalizing s k with
  | nil => exact ⟨s.mem, rfl, fun i hi => absurd hi (Nat.not_lt_zero i), fun _ _ => rfl⟩
  | cons v data ih =>
    obtain ⟨m, hrun, hin, hout⟩ := ih { s with mem := cellPut s.mem (a + k) v } (k + 1)
    refine ⟨m, hrun, fun i hi => ?_, fun x hx => ?_⟩
    · cases i with
      | zero =>
        rw [hout _ (.inl (by omega)), Nat.add_zero, cellGet_cellPut_same, List.getElem?_cons_zero]
      | succ i =>
        rw [show a + (k + (i + 1)) = a + (k + 1 + i) by omega, hin i (by simpa using hi), List.getElem?_cons_succ]
    · rw [List.length_cons] at hx
      rw [hout x (by omega), cellGet_cellPut_ne _ _ _ _ (by omega)]

/-- The bytes that lie at an address after a run has been stored. -/
structure stored (s t : State) (a : Nat) (data : List Byte) : Prop where
  inside : ∀ i < data.length, cellGet t.mem (a + i) = data[i]?
  outside : ∀ x, (x < a ∨ a + data.length ≤ x) → cellGet t.mem x = cellGet s.mem x

theorem storeCells (s : State) (a : Nat) (data : List Byte) :
    ∃ m, (each ((List.range data.length).zip data) fun e => .cell (a + e.1) e.2).run s = { s with mem := m } ∧
      stored s { s with mem := m } a data := by
  obtain ⟨m, hrun, hin, hout⟩ := storeCells_run s a data 0
  rw [← List.range_eq_range'] at hrun
  exact ⟨m, hrun, fun i hi => by simpa using hin i hi, fun x hx => hout x (by simpa using hx)⟩

/-- Lines that a run of bytes covers in whole. -/
def wholeLines (a n : Nat) : List Nat := (linesOf a n).filter fun la => decide (a ≤ la) && decide (la + 64 ≤ a + n)

/-- Lines that it covers in part. -/
def partLines (a n : Nat) : List Nat := (linesOf a n).filter fun la => !(wholeLines a n).contains la

theorem mem_partLines {a n : Nat} : la ∈ partLines a n ↔ la ∈ linesOf a n ∧ (la < a ∨ a + n < la + 64) := by
  simp only [partLines, wholeLines, List.mem_filter, List.contains_eq_mem, Bool.not_eq_true', decide_eq_false_iff_not,
    Bool.and_eq_true, decide_eq_true_eq]
  constructor
  · rintro ⟨h, k⟩
    exact ⟨h, by by_contra hc; exact k ⟨h, by omega, by omega⟩⟩
  · rintro ⟨h, k⟩
    exact ⟨h, fun hw => by omega⟩

/-- A line that reads as it was stored is merged without effect. -/
theorem mergeRead_clean (h : s.soundLine la) (source : Nat) : (mergeRead source [] la).run s = s := by
  obtain ⟨hread, herr, -⟩ := id h
  have hok : (s.readLine [] la).ok = true := by rw [hread]; rfl
  rw [mergeRead, run_dyn, if_pos hok, run_seq, lineNote_clean h, correctLine, run_dyn, herr, List.isEmpty_nil, Bool.not_true,
    Bool.and_false, on_false, run_nop]

/-- Bytes that are written go out with their lines' poison, errors and write-backs taken away. -/
def storeEnd (a : Nat) (data : List Byte) : Act :=
  acts [each ((List.range data.length).zip data) fun e => .cell (a + e.1) e.2,
    onCel fun c => { c with poison := c.poison.filter fun la => !(wholeLines a data.length).contains la },
    lineFresh (linesOf a data.length)]

theorem storeRun_run (source a : Nat) (data : List Byte) (s : State) : (storeRun source [] a data).run s =
    (storeEnd a data).run ((each (partLines a data.length) (mergeRead source [])).run s) := by
  have : (each (wholeLines a data.length) (parityNote source [])).run s = s :=
    each_fixed fun x _ => parityNote_passes (by simp) source s
  exact congrArg (fun t => (storeEnd a data).run ((each (partLines a data.length) (mergeRead source [])).run t)) this

theorem storeEnd_stored (a : Nat) (data : List Byte) (s : State) : stored s ((storeEnd a data).run s) a data := by
  obtain ⟨m, hrun, hin, hout⟩ := storeCells s a data
  rw [storeEnd, run_acts_cons, hrun]
  exact ⟨hin, hout⟩

theorem storeEnd_framed (a : Nat) (data : List Byte) {regs : List Nat} :
    (storeEnd a data).Within (fun a => regs.contains a) [.out, .mem, .bCel, .bRam] :=
  within_cons (within_each fun _ => within_cell (by decide)) (within_cons (within_onCel (by decide))
    (within_cons (within_onRam (by decide)) within_nil))

/-- The data of a line that does not read raise UE. -/
theorem lineNote_bad (h : s.readLine [] la = .bad) (hwb : la ∉ s.b.ram.wb) (source : Nat) :
    ((lineNote source [] la).run s).raised (E.MC_UE (lineChannel la)) = true := by
  rw [lineNote, run_dyn, run_acts_cons, run_acts_cons, run_acts_cons, run_acts_cons, run_acts_nil, writeBack_none hwb,
    placeError_none (faultAt_nil la), parityNote_passes (by simp), h, dataNote, run_dyn]
  dsimp only
  rw [run_acts_cons, run_acts_cons, run_acts_cons, run_acts_cons, run_acts_cons, run_acts_nil]
  generalize Act.run (mcError _ _ _ _) _ = u
  have hraised := raise_raised (e := E.MC_UE (lineChannel la)) (show 1 < 32 by decide) u
  generalize (raise (E.MC_UE (lineChannel la))).run u = v at *
  have hrecord := (allows_memRecord retireScope v rfl 1 source la (s.servingRank source la) 15 (lineChannel la)).rel
  generalize (memRecord _ _ _ _ _ _).run v = w at *
  refine Scope.Rel.raised (A := retireScope) ?_ _ (show 1 < 32 by decide) (hrecord.raised _ (show 1 < 32 by decide) hraised)
  split
  · exact (allows_spareFails w _).rel
  · exact (allows_retireRank w _ _).rel

/-- A line written in part that does not read becomes poison. -/
theorem mergeRead_bad (h : s.readLine [] la = .bad) (hwb : la ∉ s.b.ram.wb) (source : Nat) :
    la ∈ ((mergeRead source [] la).run s).b.cel.poison ∧
      ((mergeRead source [] la).run s).raised (E.MC_UE (lineChannel la)) = true := by
  have hok : ¬ (s.readLine [] la).ok = true := by rw [h]; exact Bool.false_ne_true
  have hraised := lineNote_bad h hwb source
  rw [mergeRead, run_dyn, if_neg hok, run_seq]
  exact ⟨List.mem_cons_self .., hraised⟩

theorem storeEnd_keeps {a : Nat} {data : List Byte} (hn : wholeLines a data.length = []) (s : State) (e : Evt) :
    ((storeEnd a data).run s).b.cel.poison = s.b.cel.poison ∧ ((storeEnd a data).run s).raised e = s.raised e := by
  obtain ⟨m, hrun, -⟩ := storeCells s a data
  refine ⟨?_, raised_congr _ (congrArg EvtBlk.raw ((storeEnd_framed a data (regs := []) s).2.2 .evt (by decide)))⟩
  rw [storeEnd, run_acts_cons, hrun, hn]
  exact List.filter_eq_self.mpr fun _ _ => rfl

theorem wholeLines_short {a n : Nat} (h : n < 64) : wholeLines a n = [] := by
  rw [wholeLines, List.filter_eq_nil_iff]
  intro la _
  simp only [Bool.and_eq_true, decide_eq_true_eq]
  omega

theorem bar2Write_run (off : BitVec 28) (data : List Byte) (hd : s.dev = .ready)
    (hh : s.cellarHas (s.apertureAddr off.toNat) data.length = true) : exec (.bar2Write off ⟨data, []⟩) s =
      .next ((storeRun 0 [] (s.apertureAddr off.toNat) data).run { s with out := [] }) := by
  show execBar2Write off ⟨data, []⟩ s = _
  rw [execBar2Write, perform_eq, run_dyn]
  dsimp only
  rw [if_neg (by rw [hd]; decide), if_neg (by rw [hd]; decide), if_pos hd, cellarHas_cleared, hh, on_true]
  rfl

theorem bar2Write_dropped (off : BitVec 28) (x : CellarWrite) (ho : s.dev ≠ .off) (hd : s.dev ≠ .dormant) (hr : s.dev ≠ .ready) :
    exec (.bar2Write off x) s = .next ((raise E.CEL_BAR2_DROP).run ((err R.CEL_APERTURE Err.locked).run { s with out := [] })) := by
  show execBar2Write off x s = _
  rw [execBar2Write, perform_eq, run_dyn]
  dsimp only
  rw [if_neg ho, if_neg hd, if_neg hr, run_seq]

/-- A write in READY whose partly covered lines read as they were stored. -/
theorem bar2Write_stores (off : BitVec 28) (data : List Byte)
    (hs : ∀ la ∈ linesOf (s.apertureAddr off.toNat) data.length, la < s.apertureAddr off.toNat ∨
      s.apertureAddr off.toNat + data.length < la + 64 → s.soundLine la) :
    stored s ((storeRun 0 [] (s.apertureAddr off.toNat) data).run { s with out := [] }) (s.apertureAddr off.toNat) data ∧
      plainFrame [] [.mem, .bCel, .bRam] s ((storeRun 0 [] (s.apertureAddr off.toNat) data).run { s with out := [] }) := by
  have hpart : (each (partLines (s.apertureAddr off.toNat) data.length) (mergeRead 0 [])).run { s with out := [] } = { s with out := [] } :=
    each_fixed fun la hla => mergeRead_clean (s := { s with out := [] })
      (((hs la (mem_partLines.mp hla).1 (mem_partLines.mp hla).2)).congr rfl rfl rfl rfl) 0
  rw [storeRun_run, hpart]
  obtain ⟨hin, hout⟩ := storeEnd_stored (s.apertureAddr off.toNat) data { s with out := [] }
  exact ⟨⟨hin, hout⟩, plainFrame_run s (storeEnd_framed _ _)⟩

/-- A short write to a line that does not read. -/
theorem bar2Write_poisons (off : BitVec 28) (data : List Byte) (hn : data.length < 64)
    (hl : linesOf (s.apertureAddr off.toNat) data.length = [la]) (hbad : s.readLine [] la = .bad) (hwb : la ∉ s.b.ram.wb) :
    la ∈ ((storeRun 0 [] (s.apertureAddr off.toNat) data).run { s with out := [] }).b.cel.poison ∧
      ((storeRun 0 [] (s.apertureAddr off.toNat) data).run { s with out := [] }).raised (E.MC_UE (lineChannel la)) = true := by
  have hpart : partLines (s.apertureAddr off.toNat) data.length = [la] := by
    rw [partLines, wholeLines_short hn, hl]
    rfl
  obtain ⟨hpoison, hraised⟩ := mergeRead_bad (s := { s with out := [] }) hbad hwb 0
  rw [storeRun_run, hpart, each_cons, each_nil]
  obtain ⟨hp, he⟩ := storeEnd_keeps (wholeLines_short hn) ((mergeRead 0 [] la).run { s with out := [] }) (E.MC_UE (lineChannel la))
  rw [hp, he]
  exact ⟨hpoison, hraised⟩

/-- Settles O28: lines that read as they were stored are read and merged without effect. -/
theorem cellarApertureReadsAndWritesBytes : Obligations.CellarApertureReadsAndWritesBytes := by
  refine fun s off => ⟨fun len ho hd hh hs => ?_, fun len faults ho hd hh => ?_, fun len f ho hd hh hp hl hc hs hb => ?_,
    fun data => ⟨fun hd hh hs => ?_, fun la hd hh hn hl hbad hwb => ?_, fun faults ho hd hr => ?_⟩⟩
  · refine ⟨_, bar2Read_run off len [] ho hd hh, ?_⟩
    rw [linesNote_clean (s := { s with out := [] }) (fun la hla => (hs la hla).congr rfl rfl rfl rfl),
      bar2Answer_sound hs fun _ => rfl]
    exact ⟨rfl, emit_plainFrame s _⟩
  · exact ⟨_, bar2Read_outside off len faults ho hd hh, rfl, emit_plainFrame s _⟩
  · refine ⟨_, bar2Read_run off len [f] ho hd hh, ?_⟩
    rw [bar2Answer_sound hs (faultAt_parity hp)]
    obtain ⟨hcount, hraised, hretired, hmem⟩ := linesNote_parity (s := { s with out := [] }) (linesOf_nodup _ _) hp hl hc
      (fun la hla => (hs la hla).congr rfl rfl rfl rfl) hb
    exact ⟨hcount, hraised, hretired, List.mem_append_right _ (List.mem_singleton_self _), hmem⟩
  · obtain ⟨⟨hin, hout⟩, hframe⟩ := bar2Write_stores off data hs
    exact ⟨_, bar2Write_run off data hd hh, hin, hout, hframe⟩
  · exact ⟨_, bar2Write_run off data hd hh, bar2Write_poisons off data hn hl hbad hwb⟩
  · refine ⟨_, bar2Write_dropped off ⟨data, faults⟩ ho hd hr, raise_raised (by decide) _, fun hc => ?_, ?_⟩
    · rw [raise_rd _ _ _ (by decide)]
      exact (errD_first { s with out := [] } (page := 0x15) rfl (by decide) (by decide) (by decide) hc).1
    · exact eventFrame_run s (a := .seq (err R.CEL_APERTURE Err.locked) (raise E.CEL_BAR2_DROP))
        (within_seq (within_errD (page := 0x15) rfl (by decide) (by decide)) (within_raise eventFrame_allows))

end Sys2Proof.Machine
end

section
/-! SUPPORT. What reading and storing lines of the cellar leaves as it was (R335, R338 to R345): every block but the
controllers', the job's stop, and the poison marks; and, where no write-back waits, the cellar's bytes. -/

namespace Sys2Proof.Machine

variable {s t : State} {A : Scope}

/-! ### Effects within a scope, bytes of the cellar among them -/

/-- An effect does, from every state, no more than a scope says. -/
def Act.Stays (A : Scope) (a : Act) : Prop := ∀ s, A.Rel s (a.run s)

theorem stays_of_allows {a : Act} (h : ∀ s, A.Allows a s) : a.Stays A := fun s => (h s).rel

theorem stays_nop : Act.nop.Stays A := A.rel_refl

theorem stays_seq {a b : Act} (h : a.Stays A) (k : b.Stays A) : (Act.seq a b).Stays A := fun s => (h s).trans (k _)

theorem stays_nil : (acts []).Stays A := A.rel_refl

theorem stays_cons {a : Act} {as : List Act} (h : a.Stays A) (k : (acts as).Stays A) : (acts (a :: as)).Stays A := stays_seq h k

theorem stays_dyn {f : State → Act} (h : ∀ s, (f s).Stays A) : (Act.dyn f).Stays A := fun s => h s s

theorem stays_on {c : Bool} {a : Act} (h : a.Stays A) : (on c a).Stays A := by
  cases c
  · exact stays_nop
  · exact h

theorem stays_ite {c : Prop} [Decidable c] {a b : Act} (h : a.Stays A) (k : b.Stays A) : (if c then a else b).Stays A := by
  split
  · exact h
  · exact k

theorem stays_each {α : Type} {l : List α} {f : α → Act} (h : ∀ x, (f x).Stays A) : (each l f).Stays A := by
  induction l with
  | nil => exact stays_nop
  | cons x l ih => exact stays_seq (h x) ih

theorem stays_cell (h : .mem ∈ A.parts) (a : Nat) (v : Byte) : (Act.cell a v).Stays A := fun s =>
  { A.rel_refl s with part := fun p _ hn =>
      (within_cell (rg := fun _ => false) h s).2.2 p fun hp => hn (List.mem_append_right _ hp) }

/-! ### The notes of a line -/

/-- What the notes of lines leave as it was: every block but the controllers' and the job's; the only write-backs that are
new are those of the lines. -/
structure noteKeeps (las : List Nat) (b c : Blocks) : Prop where
  only : c = { b with ram := c.ram, job := c.job, net := c.net }
  job : c.job = { b.job with turnWait := c.job.turnWait, stopEnd := c.job.stopEnd }
  wb : ∀ la ∈ c.ram.wb, la ∈ las ∨ la ∈ b.ram.wb

/-- What the notes of lines may touch. -/
def noteScope (las : List Nat) : Scope where
  regs := memoryRegs
  parts := [.dev, .prevDev]
  blocks := noteKeeps las
  refl _ := ⟨rfl, rfl, fun _ h => .inr h⟩
  trans h k := ⟨by rw [k.only, h.only], by rw [k.job, h.job], fun la hla => (k.wb la hla).elim .inl (h.wb la)⟩
  net _ _ := ⟨rfl, rfl, fun _ h => .inr h⟩

variable (las : List Nat)

theorem retireScope_le_noteScope : retireScope.Le (noteScope las) where
  regs a h := by
    simp only [retireScope, Bool.or_eq_true, beq_iff_eq] at h
    rcases h with (rfl | rfl) | rfl
    · exact (by decide : memoryRegs R.MEM_STAT = true)
    · exact (by decide : memoryRegs R.MEM_REC_LOST = true)
    · exact (by decide : memoryRegs R.TOP_TRANS_CNT = true)
  parts := List.Subset.refl _
  strobes h := h
  blocks _ _ h := ⟨h.only, h.job, fun la hla => .inr (h.wb ▸ hla)⟩

/-- The registers of a channel's page are the controllers'. -/
theorem memoryRegs_channel (A : Scope) (hA : A.regs = memoryRegs) (o i : Nat) (h : 0x10000 ≤ o) (h' : o < 0x11000) :
    (eventRegs (o + i % 4 * 0x1000) || A.regs (o + i % 4 * 0x1000)) = true := by
  have := Nat.mod_lt i (show 4 > 0 by decide)
  rw [hA, memoryRegs]
  generalize ho : (o + i % 4 * 0x1000) / 0x1000 = p
  have hp : p = 0x10 ∨ p = 0x11 ∨ p = 0x12 ∨ p = 0x13 := by omega
  rcases hp with rfl | rfl | rfl | rfl <;> simp

theorem allows_noteRam {f : MemBlk → MemBlk} (h : ∀ m, ∀ la ∈ (f m).wb, la ∈ las ∨ la ∈ m.wb) :
    (noteScope las).Allows (onRam f) s := ⟨rfl, rfl, h _⟩

theorem allows_noteRecord (kind source addr rank dev ch : Nat) :
    (noteScope las).Allows (memRecord kind source addr rank dev ch) s :=
  allows_memRecord _ s (by decide : memoryRegs R.MEM_REC_LOST = true) _ _ _ _ _ _

theorem allows_lost (source la ch rank : Nat) :
    (noteScope las).Allows (if s.onSpare source la then spareFails ch else retireRank ch rank) t := by
  rw [allows_ite]
  exact ⟨fun _ => (allows_spareFails t ch).mono (retireScope_le_noteScope las),
    fun _ => (allows_retireRank t ch rank).mono (retireScope_le_noteScope las)⟩

theorem allows_satR (A : Scope) (s : State) (a v : Nat) : A.Allows (satR a v) s ↔ (eventRegs a || A.regs a) = true := Iff.rfl

theorem allows_parityNote (source : Nat) (faults : List LineFault) (la : Nat) :
    (noteScope las).Allows (parityNote source faults la) s := by
  rw [parityNote, allows_dyn, allows_on]
  exact fun _ => ⟨memoryRegs_channel _ rfl 0x10124 _ (by decide) (by decide), fun t => ⟨allows_raise _ t _, fun t =>
    ⟨allows_noteRecord las _ _ _ _ _ _, fun t => ⟨allows_lost las _ _ _ _, fun _ => trivial⟩⟩⟩⟩

theorem allows_placeError (faults : List LineFault) (la : Nat) : (noteScope las).Allows (placeError faults la) s := by
  rw [placeError]
  split
  · exact allows_noteRam las fun _ _ h => .inr h
  · trivial

theorem allows_mcError (la rank dev : Nat) (ue : Bool) : (noteScope las).Allows (mcError la rank dev ue) s :=
  ⟨memoryRegs_channel _ rfl 0x10128 _ (by decide) (by decide), fun _ =>
    ⟨memoryRegs_channel _ rfl 0x1012c _ (by decide) (by decide), fun _ => trivial⟩⟩

theorem allows_queueWriteBack {la : Nat} (h : la ∈ las) : (noteScope las).Allows (queueWriteBack la) s :=
  allows_noteRam las fun m x hx => by
    rcases List.mem_cons.mp hx with rfl | hx
    · exact .inl h
    · exact .inr (List.mem_of_mem_filter hx)

theorem allows_dataNote (source : Nat) (read : LineRead) {la : Nat} (h : la ∈ las) :
    (noteScope las).Allows (dataNote source read la) s := by
  rw [dataNote, allows_dyn]
  cases read with
  | clean => trivial
  | poison => exact allows_noteRecord las _ _ _ _ _ _
  | corrected dev =>
    refine ⟨?_, fun t => ⟨allows_mcError las _ _ _ _, fun t => ⟨allows_noteRam las fun _ _ h => .inr h, fun t => ⟨?_, fun t =>
      ⟨?_, fun _ => trivial⟩⟩⟩⟩⟩
    · rw [allows_satR]
      split
      · exact memoryRegs_channel _ rfl 0x10114 _ (by decide) (by decide)
      · exact memoryRegs_channel _ rfl 0x10118 _ (by decide) (by decide)
    · rw [allows_on]
      exact fun _ => allows_raise _ t _
    · rw [allows_on]
      exact fun _ => allows_queueWriteBack las h
  | bad =>
    refine ⟨?_, fun t => ⟨allows_mcError las _ _ _ _, fun t => ⟨allows_raise _ t _, fun t => ⟨allows_noteRecord las _ _ _ _ _ _,
      fun t => ⟨allows_lost las _ _ _ _, fun _ => trivial⟩⟩⟩⟩⟩
    rw [allows_satR]
    split
    · exact memoryRegs_channel _ rfl 0x1011c _ (by decide) (by decide)
    · exact memoryRegs_channel _ rfl 0x10120 _ (by decide) (by decide)

/-- A line for which no write-back waits is read without a change of the cellar's bytes. -/
theorem lineNote_notes {la : Nat} (h : la ∈ las) (hwb : la ∉ s.b.ram.wb) (source : Nat) (faults : List LineFault) :
    (noteScope las).Rel s ((lineNote source faults la).run s) := by
  rw [lineNote, run_dyn, run_acts_cons, run_acts_cons, run_acts_cons, run_acts_cons, run_acts_nil, writeBack_none hwb]
  exact ((allows_placeError las faults la).rel.trans (allows_parityNote las source faults la).rel).trans
    (allows_dataNote las source (s.readLine faults la) h).rel

/-- A run of lines, each once and with no write-back waiting. -/
theorem linesNote_notes {l : List Nat} (hl : l.Nodup) (hwb : ∀ la ∈ l, la ∉ s.b.ram.wb) (source : Nat) (faults : List LineFault) :
    (noteScope l).Rel s ((each l (lineNote source faults)).run s) := by
  suffices h : ∀ (m : List Nat), m.Nodup → ∀ t : State, (∀ la ∈ m, la ∉ t.b.ram.wb) →
      (noteScope m).Rel t ((each m (lineNote source faults)).run t)
    from h l hl s hwb
  intro m
  induction m with
  | nil => exact fun _ t _ => (noteScope []).rel_refl t
  | cons x m ih =>
    intro hm t ht
    obtain ⟨hx, hm⟩ := List.nodup_cons.mp hm
    have hnote := lineNote_notes (s := t) [x] (List.mem_singleton_self x) (ht x (by simp)) source faults
    have hrest := ih hm ((lineNote source faults x).run t) fun la hla hwb => by
      rcases hnote.blocks.wb la hwb with h | h
      · exact hx (List.mem_singleton.mp h ▸ hla)
      · exact ht la (by simp [hla]) h
    have hmono : ∀ {l m : List Nat} {t u : State}, l ⊆ m → (noteScope l).Rel t u → (noteScope m).Rel t u := fun hlm r =>
      ⟨r.rd, r.part, ⟨r.blocks.only, r.blocks.job, fun la hla => (r.blocks.wb la hla).imp_left fun h => hlm h⟩, r.raised, r.out, r.armed⟩
    exact (hmono (by simp) hnote).trans (hmono (by simp) hrest)

/-! ### Storing -/

/-- What storing leaves as it was: every block but the controllers', the job's stop, and the marks of poison. -/
structure storeKeeps (b c : Blocks) : Prop where
  only : c = { b with ram := c.ram, job := c.job, net := c.net, cel := c.cel }
  job : c.job = { b.job with turnWait := c.job.turnWait, stopEnd := c.job.stopEnd }
  cel : c.cel = { b.cel with poison := c.cel.poison }

/-- What storing may touch. -/
def storeScope : Scope where
  regs := memoryRegs
  parts := [.mem, .dev, .prevDev]
  blocks := storeKeeps
  refl _ := ⟨rfl, rfl, rfl⟩
  trans h k := ⟨by rw [k.only, h.only], by rw [k.job, h.job], by rw [k.cel, h.cel]⟩
  net _ _ := ⟨rfl, rfl, rfl⟩

theorem noteScope_le_storeScope : (noteScope las).Le storeScope where
  regs _ h := h
  parts := by simp [noteScope, storeScope]
  strobes h := h
  blocks b c h := ⟨by rw [h.only], h.job, by rw [h.only]⟩

theorem stays_storeRam {f : MemBlk → MemBlk} : (onRam f).Stays storeScope := stays_of_allows fun _ => ⟨rfl, rfl, rfl⟩

theorem stays_storePoison {f : CellarBlk → List Nat} : (onCel fun c => { c with poison := f c }).Stays storeScope :=
  stays_of_allows fun _ => ⟨rfl, rfl, rfl⟩

theorem stays_storeCell (a : Nat) (v : Byte) : (Act.cell a v).Stays storeScope := stays_cell (by decide) a v

theorem stays_rewriteLine (la : Nat) (line : List Nat) : (rewriteLine la line).Stays storeScope :=
  stays_cons (stays_each fun _ => stays_storeCell _ _) (stays_cons stays_storePoison (stays_cons stays_storeRam stays_nil))

theorem stays_correctLine (faults : List LineFault) (la : Nat) : (correctLine faults la).Stays storeScope :=
  stays_dyn fun _ => stays_on (stays_rewriteLine _ _)

theorem stays_writeBack : (writeBack las).Stays storeScope :=
  stays_dyn fun _ => stays_each fun _ => stays_seq stays_storeRam (stays_correctLine _ _)

theorem stays_parityNote (source : Nat) (faults : List LineFault) (la : Nat) : (parityNote source faults la).Stays storeScope :=
  stays_of_allows fun _ => (allows_parityNote [] source faults la).mono (noteScope_le_storeScope [])

/-- Reading a line stays within what storing may touch. -/
theorem stays_lineNote (source : Nat) (faults : List LineFault) (la : Nat) : (lineNote source faults la).Stays storeScope :=
  stays_dyn fun _ => stays_cons (stays_writeBack _)
    (stays_cons (stays_of_allows fun _ => (allows_placeError [la] faults la).mono (noteScope_le_storeScope [la]))
      (stays_cons (stays_parityNote _ _ _) (stays_cons
        (stays_of_allows fun _ => (allows_dataNote [la] source _ (List.mem_singleton_self la)).mono (noteScope_le_storeScope [la]))
        stays_nil)))

theorem stays_mergeRead (source : Nat) (faults : List LineFault) (la : Nat) : (mergeRead source faults la).Stays storeScope :=
  stays_dyn fun _ => stays_ite (stays_seq (stays_lineNote _ _ _) (stays_correctLine _ _))
    (stays_seq (stays_lineNote _ _ _) stays_storePoison)

theorem stays_storeRun (source : Nat) (faults : List LineFault) (a : Nat) (data : List Byte) :
    (storeRun source faults a data).Stays storeScope :=
  stays_cons (stays_each fun _ => stays_parityNote _ _ _) (stays_cons (stays_each fun _ => stays_mergeRead _ _ _)
    (stays_cons (stays_each fun _ => stays_storeCell _ _) (stays_cons stays_storePoison (stays_cons stays_storeRam stays_nil))))

end Sys2Proof.Machine
end

section
/-! SUPPORT. The cellar's layout, refused stripes and granted reservations (R78 to R81, R116, R119, R120), and the statement on
them. -/

namespace Sys2Proof.Machine

variable {s t : State}

/-! ### The layout (R116) -/

/-- A write of a register's low bits is read in a field that lies within them. -/
theorem fld_writeBits_within (s : State) {f : Fld} {k : Nat} (hf : f.lo + f.width ≤ k) (hk : k ≤ 32) (w : Word) :
    ((writeBits f.addr (2 ^ k - 1) w).run s).fld f = f.get w.toNat := by
  have hget : ∀ x, f.get x = x % 2 ^ k / 2 ^ f.lo % 2 ^ f.width := fun x => by
    obtain ⟨j, hj⟩ := Nat.exists_eq_add_of_le hf
    rw [Fld.get, hj, pow_add, pow_add, mul_assoc, Nat.mod_mul_right_div_self, Nat.mod_mul_right_mod]
  rw [writeBits, run_dyn, State.fld, rd_setR_same, hget, hget w.toNat, Nat.mod_mod_of_dvd _ (pow_dvd_pow 2 hk)]
  exact congrArg (fun x => x / 2 ^ f.lo % 2 ^ f.width) (maskedWrite_mod hk _ _)

/-- A write to an RWL register whose bits are its low ones, where nothing is locked. -/
theorem writeLocked_unlocked (s : State) {addr k : Nat} {d : RegDesc} (hd : regDesc addr = some d) (hm : Nat.lor d.rw d.rwl = 2 ^ k - 1)
    (h : s.locked = false) (w : Word) : (writeLocked addr w).run s = (writeBits addr (2 ^ k - 1) w).run s := by
  rw [writeLocked, run_dyn, hd]
  dsimp only
  rw [h, Bool.false_and, on_false, run_seq, if_neg Bool.false_ne_true, hm, run_nop]

/-- The buffers and MiB that a layout write asks for, from the words that it would leave. -/
def State.layoutSum (s : State) (pool : Bool) (w : Word) : Nat :=
  (if pool then s.fld F.CEL_BIN_CFG_NBINS * s.fld F.CEL_BIN_CFG_BIN_MIB
    else F.CEL_BIN_CFG_NBINS.get w.toNat * F.CEL_BIN_CFG_BIN_MIB.get w.toNat) +
  (if pool then F.CEL_POOL_UNITS_UNITS.get w.toNat else s.fld F.CEL_POOL_UNITS_UNITS)

/-- The register that a layout write is to. -/
def layoutReg (pool : Bool) : Nat := if pool then R.CEL_POOL_UNITS else R.CEL_BIN_CFG

theorem layoutReg_page (pool : Bool) : layoutReg pool / 0x1000 = 0x15 := by cases pool <;> decide

theorem celLayoutWrite_locked {pool : Bool} (w : Word) (h : s.dev ≠ .ready ∨ s.b.cel.bins ≠ []) :
    (celLayoutWrite pool w).run s = (err (layoutReg pool) Err.locked).run s := by
  rw [celLayoutWrite, run_dyn]
  dsimp only
  rw [if_pos (by simpa using h), layoutReg]

theorem celLayoutWrite_range {pool : Bool} (w : Word) (hr : s.dev = .ready) (hb : s.b.cel.bins = [])
    (h : s.fld F.CEL_CAPACITY_MIB < s.layoutSum pool w) : (celLayoutWrite pool w).run s = (err (layoutReg pool) Err.range).run s := by
  rw [celLayoutWrite, run_dyn]
  dsimp only
  rw [State.layoutSum] at h
  rw [if_neg (by simp [hr, hb]), State.poolUnits, if_pos h, layoutReg]

theorem celLayoutWrite_accepted {pool : Bool} (w : Word) (hr : s.dev = .ready) (hb : s.b.cel.bins = [])
    (h : s.layoutSum pool w ≤ s.fld F.CEL_CAPACITY_MIB) :
    (celLayoutWrite pool w).run s = (writeBits (layoutReg pool) (2 ^ (if pool then 19 else 26) - 1) w).run s := by
  have hlocked : s.locked = false := by rw [State.locked, hr]; rfl
  rw [State.layoutSum] at h
  rw [celLayoutWrite, run_dyn]
  dsimp only
  rw [if_neg (by simp [hr, hb]), State.poolUnits, if_neg (Nat.not_lt.mpr h)]
  cases pool with
  | true => exact writeLocked_unlocked s (addr := R.CEL_POOL_UNITS) (k := 19) rfl rfl hlocked w
  | false => exact writeLocked_unlocked s (addr := R.CEL_BIN_CFG) (k := 26) rfl rfl hlocked w

theorem celLayoutWrite_run (pool : Bool) (w : Word) (hr : s.reaches 0x15 = true) :
    exec (.celLayoutWrite pool w) s = .next ((celLayoutWrite pool w).run (s.served 0x15)) :=
  perform_toPage s 0x15 (celLayoutWrite pool w) hr

/-- An error of a register of the cellar's page, as a host access records it. -/
theorem cellarError_access (s : State) {reg code : Nat} (hp : reg / 0x1000 = 0x15) (hc : code < 256)
    (h : s.rd (pageReg 0x15 0x020) / 2 ^ 16 % 2 ^ 15 = 0) :
    ((err reg code).run (s.served 0x15)).rd (pageReg 0x15 0x020) = 2 ^ 16 + code ∧
      accessFrame [pageReg 0x15 0x020, pageReg 0x15 0x024] [] s ((err reg code).run (s.served 0x15)) :=
  ⟨(errD_first (s.served 0x15) hp (by decide) hc (by decide) (by rw [served_rd s 0x15 _ (by decide)]; exact h)).1,
    accessFrame_run s 0x15 (within_errD (by rw [hp, if_neg (by decide)]) (by decide) (by decide))⟩

/-- The fields that a layout write which is accepted leaves. -/
theorem celLayoutWrite_fields (pool : Bool) (w : Word) (u : State) :
    let t := (writeBits (layoutReg pool) (2 ^ (if pool then 19 else 26) - 1) w).run u
    if pool then t.fld F.CEL_POOL_UNITS_UNITS = F.CEL_POOL_UNITS_UNITS.get w.toNat
    else t.fld F.CEL_BIN_CFG_NBINS = F.CEL_BIN_CFG_NBINS.get w.toNat ∧ t.fld F.CEL_BIN_CFG_BIN_MIB = F.CEL_BIN_CFG_BIN_MIB.get w.toNat := by
  cases pool with
  | true => exact fld_writeBits_within u (f := F.CEL_POOL_UNITS_UNITS) (k := 19) (by decide) (by decide) w
  | false =>
    exact ⟨fld_writeBits_within u (f := F.CEL_BIN_CFG_NBINS) (k := 26) (by decide) (by decide) w,
      fld_writeBits_within u (f := F.CEL_BIN_CFG_BIN_MIB) (k := 26) (by decide) (by decide) w⟩

/-- What a layout write finds once its access has reached the page. -/
theorem served_layout (s : State) (pool : Bool) (w : Word) : (s.served 0x15).dev = s.dev ∧ (s.served 0x15).b.cel = s.b.cel ∧
    (s.served 0x15).fld F.CEL_CAPACITY_MIB = s.fld F.CEL_CAPACITY_MIB ∧ (s.served 0x15).layoutSum pool w = s.layoutSum pool w := by
  have hf := served_framed s 0x15
  have hparts : ∀ p ∈ [Part.dev, .bCel], p ∉ accessParts s := by
    unfold accessParts
    split <;> decide
  refine ⟨hf.2.2 .dev (hparts _ (by simp)), hf.2.2 .bCel (hparts _ (by simp)), served_fld s 0x15 _ (by decide), ?_⟩
  rw [State.layoutSum, served_fld s 0x15 F.CEL_BIN_CFG_NBINS (by decide), served_fld s 0x15 F.CEL_BIN_CFG_BIN_MIB (by decide),
    served_fld s 0x15 F.CEL_POOL_UNITS_UNITS (by decide), State.layoutSum]

/-! ### Refused stripes (R80, R81) -/

theorem within_discardBlocks (x : Bin) : (discardBlocks x).Within (fun _ => false) [.ledTile] := by
  rw [discardBlocks]
  split
  · exact within_bookOut (by decide)
  · exact within_nop

/-- A freed bin waits for no buffers. -/
theorem freeBin_waits (s : State) (n : Nat) : ∀ m ∈ ((freeBin n).run s).b.cel.waits, m ∈ s.b.cel.waits := by
  rw [freeBin, run_dyn]
  split
  · intro m hm
    exact List.mem_of_mem_filter hm
  · exact fun _ h => h

/-- What refusing the stripe of a bin with a code does (R80, R81). -/
structure refused (s t : State) (x : Bin) (code : Nat) : Prop where
  code : t.fld F.PRS_REFUSE_CODE = code % 16
  count : t.rd R.PRS_CNT_REFUSED = (s.rd R.PRS_CNT_REFUSED + 1) % 2 ^ 32
  stripe : t.rd R.PRS_REFUSE_STRIPE = x.stripe % 2 ^ 32
  raised : t.raised E.PRS_REFUSED = true
  bins : ∀ y ∈ t.b.cel.bins, y.num ≠ x.num
  waits : ∀ m ∈ t.b.cel.waits, m ∈ s.b.cel.waits
  queue : t.b.job.queue = s.b.job.queue.map fun e => if e.stripe == x.stripe then { e with missing := true } else e
  mem : t.mem = s.mem

/-- What the end of descriptors does later keeps a refusal. -/
theorem refused.then_ends {u : State} {x : Bin} {code : Nat} (h : refused s t x code) (r : endScope.Rel t u) : refused s u x code where
  code := by rw [State.fld, r.rd _ (by decide), ← State.fld, h.code]
  count := by rw [r.rd _ (by decide), h.count]
  stripe := by rw [r.rd _ (by decide), h.stripe]
  raised := r.raised _ (by decide) h.raised
  bins := by rw [r.blocks]; exact h.bins
  waits := by rw [r.blocks]; exact h.waits
  queue := by rw [r.blocks]; exact h.queue
  mem := (r.part .mem (by decide) (by decide)).trans h.mem

theorem refuseStripe_refuses {n : Nat} {x : Bin} (hx : s.bin n = some x) (code : Nat) :
    refused s ((refuseStripe n code).run s) x code := by
  have hnum : x.num = n := by simpa using List.find?_some hx
  rw [refuseStripe, run_dyn, hx]
  dsimp only
  rw [run_acts_cons, run_acts_cons, run_acts_cons, run_acts_cons, run_acts_cons, run_acts_cons, run_acts_cons, run_acts_cons,
    run_acts_nil]
  have hdiscard := within_discardBlocks x s
  generalize (discardBlocks x).run s = a at *
  have hfree := within_freeBin n a
  have hbins := freeBin_bins a n
  have hwaits := freeBin_waits a n
  generalize (freeBin n).run a = b at *
  have hab : framed (fun _ => false) [.ledTile, .ledCreditCel, .bCel] s b :=
    framed_trans (framed_mono (fun _ h => h) (by decide) hdiscard) (framed_mono (fun _ h => h) (by decide) hfree)
  have hrd : ∀ r, b.rd r = s.rd r := fun r => hab.2.1 r rfl
  refine refused.then_ends (t := (raise E.PRS_REFUSED).run ((addR R.PRS_CNT_REFUSED 1).run ((setR R.PRS_REFUSE_STRIPE x.stripe).run
    ((setF F.PRS_REFUSE_CODE code).run ((markMissing x.stripe).run b))))) ?_ (allows_endHeld x.gen 5).rel
  refine ⟨?_, ?_, ?_, raise_raised (by decide) _, ?_, ?_, ?_, ?_⟩
  · rw [raise_fld _ _ _ (by decide), State.fld, rd_addR_ne _ _ _ _ (by decide), rd_setR_ne _ _ _ _ (by decide), ← State.fld,
      fld_setF_same _ _ _ (by decide)]
    rfl
  · rw [raise_rd _ _ _ (by decide), rd_addR_same, rd_setR_ne _ _ _ _ (by decide), rd_setF_ne _ _ _ _ (by decide), ← hrd]
    rfl
  · rw [raise_rd _ _ _ (by decide), rd_addR_ne _ _ _ _ (by decide), rd_setR_same]
  · rw [(raise_framed _ _).2.2 .bCel (by decide), hnum]
    exact hbins
  · rw [(raise_framed _ _).2.2 .bCel (by decide), ← hdiscard.2.2 .bCel (by decide)]
    exact hwaits
  · rw [(raise_framed _ _).2.2 .bJob (by decide), ← hab.2.2 .bJob (by decide)]
    rfl
  · rw [(raise_framed _ _).2.2 .mem (by decide)]
    exact hab.2.2 .mem (by decide)

/-- What DROP finds once its access has reached the page. -/
theorem served_drop (s : State) : (s.served 0x15).fld F.CEL_BIN_SEL_BIN = s.fld F.CEL_BIN_SEL_BIN ∧ (s.served 0x15).b.cel = s.b.cel ∧
    (s.served 0x15).b.job = s.b.job ∧ (s.served 0x15).mem = s.mem ∧ (s.served 0x15).rd R.PRS_CNT_REFUSED = s.rd R.PRS_CNT_REFUSED := by
  have hf := served_framed s 0x15
  have hparts : ∀ p ∈ [Part.bCel, .bJob, .mem], p ∉ accessParts s := by
    unfold accessParts
    split <;> decide
  exact ⟨served_fld s 0x15 _ (by decide), hf.2.2 .bCel (hparts _ (by simp)), hf.2.2 .bJob (hparts _ (by simp)),
    hf.2.2 .mem (hparts _ (by simp)), served_rd s 0x15 _ (by decide)⟩

theorem drop_run (hr : s.reaches 0x15 = true) : exec .drop s = .next (dropCmd.run (s.served 0x15)) := perform_toPage s 0x15 dropCmd hr

/-- DROP of a FILLING bin refuses its stripe. -/
theorem dropCmd_refuses {x : Bin} (hx : s.bin (s.fld F.CEL_BIN_SEL_BIN) = some x) (hs : x.state = .filling) :
    refused s (dropCmd.run s) x 9 := by
  have hnum : x.num = s.fld F.CEL_BIN_SEL_BIN := by simpa using List.find?_some hx
  rw [dropCmd, run_dyn, hx]
  dsimp only
  rw [if_pos hs, run_seq]
  exact (refuseStripe_refuses (hnum ▸ hx) 9).then_ends (allows_dmaSettle.mono settleScope_le_endScope).rel

/-- DROP of any other bin is an error. -/
theorem dropCmd_error (h : ∀ x, s.bin (s.fld F.CEL_BIN_SEL_BIN) = some x → x.state ≠ .filling) :
    dropCmd.run s = (err R.CEL_BIN_CMD Err.refused).run s := by
  rw [dropCmd, run_dyn]
  split
  · next x hx => rw [if_neg (h x hx)]
  · rfl

/-! ### Granted reservations (R78, R120) -/

theorem pickUnits_length (draw n : Nat) (free : List Nat) : (pickUnits draw n free).length = n := by
  induction n generalizing free with
  | zero => rfl
  | succ n ih => rw [pickUnits, List.length_cons, ih]

/-- A bin's record as a change leaves it. -/
theorem setBin_bin (s : State) (n : Nat) {f : Bin → Bin} (hf : ∀ x, (f x).num = x.num) {x : Bin} (hx : s.bin n = some x) :
    ((setBin n f).run s).bin n = some (f x) := by
  have hnum : x.num = n := by simpa using List.find?_some hx
  show List.find? (fun y => y.num == n) (s.b.cel.bins.map fun y => if y.num == n then f y else y) = some (f x)
  rw [List.find?_map, show ((fun y : Bin => y.num == n) ∘ fun y => if y.num == n then f y else y) = fun y => y.num == n from ?_]
  · rw [show s.b.cel.bins.find? (fun y => y.num == n) = some x from hx]
    simp [hnum]
  · funext y
    by_cases hy : y.num = n <;> simp [hy, hf]

/-- What a granted reservation leaves: the bin with its buffers, off the list of those that wait. -/
structure granted (s t : State) (n : Nat) (x : Bin) (units : Nat) : Prop where
  bin : ∃ y, t.bin n = some y ∧ y.units.length = units ∧ y.hdr = x.hdr
  waits : n ∉ t.b.cel.waits
  count : t.rd R.PRS_CNT_REFUSED = s.rd R.PRS_CNT_REFUSED

theorem granted.then_stores {u : State} {n units : Nat} {x : Bin} (h : granted s t n x units) (r : storeScope.Rel t u) :
    granted s u n x units where
  bin := by
    rw [State.bin, r.blocks.cel]
    exact h.bin
  waits := by
    rw [r.blocks.cel]
    exact h.waits
  count := (r.rd _ (by decide)).trans h.count

/-- The bin takes its buffers, leaves the list, and the account of buffers is told. -/
theorem grantedUnits_granted {n : Nat} {x : Bin} {units : List Nat} {k : Nat} (hx : s.bin n = some x) (hlen : units.length = k) :
    granted s ((bookIn .creditCel units.length).run ((onCel fun c => { c with waits := c.waits.filter fun w => w != n }).run
      ((setBin n fun y => { y with units := units }).run (Act.draw.run s)))) n x k := by
  refine ⟨⟨{ x with units := units }, setBin_bin (Act.draw.run s) n (f := fun y => { y with units := units }) (fun _ => rfl) hx,
    hlen, rfl⟩, fun hm => ?_, rfl⟩
  simpa using (List.mem_filter.mp (show n ∈ s.b.cel.waits.filter fun w => w != n from hm)).2

theorem grantUnits_grants {n : Nat} {x : Bin} {h : StripeHdr} (hx : s.bin n = some x) (hh : x.hdr = some h) :
    granted s ((grantUnits n).run s) n x h.units := by
  rw [grantUnits, run_dyn, hx]
  dsimp only
  rw [hh]
  dsimp only
  rw [run_acts_cons, run_acts_cons, run_acts_cons, run_acts_cons, run_acts_cons, run_acts_nil]
  generalize hu : pickUnits _ _ _ = units
  have hlen : units.length = h.units := by rw [← hu, pickUnits_length]
  refine granted.then_stores ?_ (stays_each (fun k => stays_storeRun _ _ _ _) _)
  exact grantedUnits_granted hx hlen

theorem granted.congr {u : State} {n units : Nat} {x : Bin} (h : granted s t n x units) (hc : u.b.cel = t.b.cel)
    (hr : u.rd R.PRS_CNT_REFUSED = t.rd R.PRS_CNT_REFUSED) : granted s u n x units where
  bin := by
    rw [State.bin, hc]
    exact h.bin
  waits := by
    rw [hc]
    exact h.waits
  count := hr.trans h.count

theorem granted.then_ends {u : State} {n units : Nat} {x : Bin} (h : granted s t n x units) (r : endScope.Rel t u) :
    granted s u n x units := h.congr (by rw [r.blocks]) (r.rd _ (by decide))

/-- A change of the bin's record keeps its buffers and its header. -/
theorem granted.then_sets {n units : Nat} {x : Bin} (h : granted s t n x units) {f : Bin → Bin}
    (hf : ∀ y, (f y).num = y.num ∧ (f y).units = y.units ∧ (f y).hdr = y.hdr) : granted s ((setBin n f).run t) n x units := by
  obtain ⟨y, hy, hu, hh⟩ := h.bin
  exact ⟨⟨f y, setBin_bin t n (fun z => (hf z).1) hy, by rw [(hf y).2.1, hu], by rw [(hf y).2.2, hh]⟩, h.waits, h.count⟩

/-- What the grant of a reservation and the audit that follows come to: the bin holds its buffers, or its stripe is refused, by
the audit or for unequal digests. -/
def grantEnds (s t : State) (n units : Nat) : Prop :=
  n ∉ t.b.cel.waits ∧ ((∃ y ∈ t.b.cel.bins, y.num = n ∧ y.units.length = units) ∨
    t.rd R.PRS_CNT_REFUSED = (s.rd R.PRS_CNT_REFUSED + 1) % 2 ^ 32 ∨ t.raised E.PAR_STRIPE_DIGEST = true)

theorem granted.ends {n units : Nat} {x : Bin} (h : granted s t n x units) : grantEnds s t n units := by
  obtain ⟨y, hy, hu, -⟩ := h.bin
  exact ⟨h.waits, .inl ⟨y, List.mem_of_find?_eq_some hy, by simpa using List.find?_some hy, hu⟩⟩

theorem grantEnds.then_ends {u : State} {n units : Nat} (h : grantEnds s t n units) (r : endScope.Rel t u) : grantEnds s u n units := by
  obtain ⟨hw, hb⟩ := h
  rw [grantEnds, r.blocks]
  exact ⟨hw, hb.imp_right (Or.imp (fun hc => by rw [r.rd _ (by decide), hc]) fun hr => r.raised _ (by decide) hr)⟩

theorem granted.then_refused {n units code : Nat} {x : Bin} (h : granted s t n x units) :
    grantEnds s ((refuseStripe n code).run t) n units := by
  obtain ⟨y, hy, -⟩ := h.bin
  have href := refuseStripe_refuses hy code
  exact ⟨fun hm => h.waits (href.waits n hm), .inr (.inl (by rw [href.count, h.count]))⟩

theorem refuseDigest_raises {n : Nat} {x : Bin} (hx : s.bin n = some x) :
    ((refuseDigest n).run s).raised E.PAR_STRIPE_DIGEST = true ∧ ∀ m ∈ ((refuseDigest n).run s).b.cel.waits, m ∈ s.b.cel.waits := by
  rw [refuseDigest, run_dyn, hx]
  dsimp only
  rw [run_acts_cons, run_acts_cons, run_acts_cons, run_acts_cons, run_acts_cons, run_acts_nil]
  have hdiscard := within_discardBlocks x s
  generalize (discardBlocks x).run s = a at *
  have hwaits := freeBin_waits a n
  generalize (freeBin n).run a = b at *
  refine ⟨raise_raised (by decide) _, ?_⟩
  rw [(raise_framed _ _).2.2 .bCel (by decide), ← hdiscard.2.2 .bCel (by decide)]
  exact hwaits

/-- The comparison of digests leaves the bin, or refuses its stripe. -/
theorem granted.then_compares {n units : Nat} {x : Bin} (h : granted s t n x units) : grantEnds s ((compareSdig n).run t) n units := by
  obtain ⟨y, hy, -⟩ := id h.bin
  rw [compareSdig, run_dyn, hy]
  dsimp only
  split
  · next a b _ _ =>
    cases a != b with
    | false => exact h.ends
    | true =>
      obtain ⟨hraised, hwaits⟩ := refuseDigest_raises hy
      exact ⟨fun hm => h.waits (hwaits n hm), .inr (.inr hraised)⟩
  · exact h.ends

theorem granted.then_ready {n units : Nat} {x : Bin} (h : granted s t n x units) : grantEnds s ((binReady n).run t) n units := by
  obtain ⟨y, hy, -⟩ := id h.bin
  rw [binReady, run_dyn, hy]
  dsimp only
  rw [run_acts_cons, run_acts_cons, run_acts_cons, run_acts_cons, run_acts_cons, run_acts_cons, run_acts_cons, run_acts_nil]
  generalize crcOf crc64 _ = dig
  generalize Option.map _ _ = early
  have hset := h.then_sets (f := fun z => { z with state := .ready, sdig := some dig, mateSdig := early }) fun _ => ⟨rfl, rfl, rfl⟩
  generalize (setBin n _).run t = a at *
  have hearly : granted s ((onCel fun c => { c with earlySdig := c.earlySdig.filter fun e => e.1 != y.stripe }).run a) n x units :=
    ⟨hset.bin, hset.waits, hset.count⟩
  generalize (onCel _).run a = b at *
  have hqueue : ∀ f : JobBlk → JobBlk, granted s ((onJob f).run b) n x units := fun _ => hearly.congr rfl rfl
  replace hqueue := hqueue fun j => { j with queue := j.queue.map fun e => if e.stripe == y.stripe then { e with missing := false } else e }
  generalize (onJob _).run b = c at *
  have hraise : granted s ((raise E.CEL_BIN_READY).run c) n x units :=
    hqueue.congr ((raise_framed _ _).2.2 .bCel (by decide)) (raise_rd _ _ _ (by decide))
  generalize (raise E.CEL_BIN_READY).run c = d at *
  have hend := hraise.then_ends (allows_endHeld (s := d) y.gen 0).rel
  generalize (endHeld y.gen 0).run d = e at *
  have hsend : ∀ k, granted s ((on k (pairSend 9 y.stripe (leBytes 8 dig ++ List.replicate 8 0))).run e) n x units := by
    intro k
    cases k with
    | false => exact hend
    | true =>
      have hr := (allows_pairSend e 9 y.stripe (leBytes 8 dig ++ List.replicate 8 0)).rel
      exact hend.congr hr.blocks.cel (hr.rd _ (by decide))
  replace hsend := hsend t.pairLive
  generalize (on t.pairLive _).run e = g at *
  cases t.paired with
  | false => exact hsend.ends
  | true => exact hsend.then_compares

theorem granted.then_audits {n units : Nat} {x : Bin} {h : StripeHdr} (hg : granted s t n x units) (hh : x.hdr = some h)
    (faults : List LineFault) : grantEnds s ((audit n faults).run t) n units := by
  obtain ⟨y, hy, -, hyh⟩ := id hg.bin
  rw [hh] at hyh
  rw [audit, run_dyn, hy]
  dsimp only
  split
  · have hwaits : t.b.cel.waits.contains n = false := by simpa using hg.waits
    rw [run_seq, hyh, Option.isNone_some, Bool.false_and, on_false, run_nop, auditBody, run_dyn, hy]
    dsimp only
    rw [hyh]
    dsimp only
    rw [hwaits, if_neg Bool.false_ne_true, run_acts_cons, run_acts_cons, run_acts_cons, run_acts_nil]
    generalize ha : (each _ (lineNote 3 faults)).run t = a
    have hlines : granted s a n x units := ha ▸ hg.then_stores (stays_each (fun la => stays_lineNote 3 faults la) t)
    have hset := hlines.then_sets (f := fun z : Bin =>
      { z with audited := max z.audited (min (confirmedPrefix y.pieces (y.pieces.length + 1) 0) h.imageLen) })
      fun _ => ⟨rfl, rfl, rfl⟩
    generalize (setBin n _).run a = b at *
    split
    · exact hset.then_refused
    · split
      · exact hset.then_refused
      · split
        · exact hset.then_ready
        · exact hset.ends
  · exact hg.ends

theorem reservationGrant_run {n : Nat} {rest : List Nat} {x : Bin} {h : StripeHdr} (hw : s.b.cel.waits = n :: rest)
    (hx : s.bin n = some x) (hh : x.hdr = some h) (hfree : h.units ≤ s.poolFree) : exec .reservationGrant s =
      .next (dmaSettle.run ((audit n []).run ((grantUnits n).run { s with out := [] }))) := by
  show execReservationGrant s = _
  rw [execReservationGrant, perform_eq, run_dyn]
  dsimp only
  rw [hw]
  dsimp only
  rw [show State.bin { s with out := [] } n = some x from hx]
  dsimp only
  rw [hh]
  dsimp only
  rw [show State.poolFree { s with out := [] } = s.poolFree from rfl, decide_eq_true hfree, on_true, run_acts_cons, run_acts_cons,
    run_acts_cons, run_acts_nil]

/-- Settles O27: a layout write compares what it asks for, a refusal is what DROP leaves, and a grant is followed by the audit. -/
theorem cellarLayoutDropAndReservationsTakeEffect : Obligations.CellarLayoutDropAndReservationsTakeEffect := by
  refine fun s => ⟨fun pool w hr => ⟨fun hd hb hfit => ?_, fun hc => ⟨fun hl => ?_, fun hd hb hover => ?_⟩⟩,
    fun hr => ⟨fun x hx hs => ?_, fun hx hc => ?_⟩, fun n rest x h hw hx hh hfree => ?_⟩
  · obtain ⟨hdev, hcel, hcap, hsum⟩ := served_layout s pool w
    refine ⟨_, celLayoutWrite_run pool w hr, ?_⟩
    rw [celLayoutWrite_accepted w (hdev.trans hd) (by rw [hcel, hb]) (by rw [hcap, hsum]; exact hfit)]
    exact ⟨celLayoutWrite_fields pool w _, accessFrame_run s 0x15 (within_writeBits (by simp [layoutReg]))⟩
  · obtain ⟨hdev, hcel, -⟩ := served_layout s pool w
    refine ⟨_, celLayoutWrite_run pool w hr, ?_⟩
    rw [celLayoutWrite_locked w (by rwa [hdev, hcel])]
    exact cellarError_access s (layoutReg_page pool) (by decide) hc
  · obtain ⟨hdev, hcel, hcap, hsum⟩ := served_layout s pool w
    refine ⟨_, celLayoutWrite_run pool w hr, ?_⟩
    rw [celLayoutWrite_range w (hdev.trans hd) (by rw [hcel, hb]) (by rw [hcap, hsum]; exact hover)]
    exact cellarError_access s (layoutReg_page pool) (by decide) hc
  · obtain ⟨hsel, hcel, hjob, hmem, hcount⟩ := served_drop s
    have href := dropCmd_refuses (s := s.served 0x15) (x := x) (by rw [hsel, State.bin, hcel]; exact hx) hs
    refine ⟨_, drop_run hr, href.code, by rw [href.count, hcount], href.stripe, href.raised, href.bins, fun e he hes => ?_, ?_,
      href.mem.trans hmem⟩
    · rw [href.queue] at he
      obtain ⟨e', -, rfl⟩ := List.mem_map.mp he
      by_cases heq : e'.stripe = x.stripe
      · simp [heq]
      · simp [heq] at hes
    · rw [href.queue, List.length_map, hjob]
  · obtain ⟨hsel, hcel, -⟩ := served_drop s
    refine ⟨_, drop_run hr, ?_⟩
    rw [dropCmd_error (s := s.served 0x15) fun x h => hx x (by rw [hsel, State.bin, hcel] at h; exact h)]
    exact cellarError_access s (by decide) (by decide) hc
  · refine ⟨_, reservationGrant_run hw hx hh hfree, ?_⟩
    have hg := (grantUnits_grants (s := { s with out := [] }) hx hh).then_audits hh []
    exact hg.then_ends (allows_dmaSettle.mono settleScope_le_endScope).rel

end Sys2Proof.Machine
end

section
/-! SUPPORT. Descriptors in flight (R110, R112, R113, R118): what confirming bytes, ending a descriptor and settling leave. -/

namespace Sys2Proof.Machine

variable {s t : State} {ring dindex : Nat} {f : InFlight}

/-! ### Bookings -/

/-- An account from which nothing leaves is as it was. -/
theorem Account.book_leave_zero (a : Account) : a.book (.leave 0) = a := by
  simp [Account.book]

/-! ### Records of descriptors -/

theorem flight_spec (h : s.flight ring dindex = some f) : f ∈ s.b.dma.inflight ∧ f.ring = ring ∧ f.dindex = dindex := by
  have hp := List.find?_some h
  simp only [Bool.and_eq_true, beq_iff_eq] at hp
  exact ⟨List.mem_of_find?_eq_some h, hp⟩

/-- A descriptor's record as a change leaves it. -/
theorem setFlight_flight (s : State) {g : InFlight → InFlight} (hg : ∀ x, (g x).ring = x.ring ∧ (g x).dindex = x.dindex)
    (h : s.flight ring dindex = some f) : ((setFlight ring dindex g).run s).flight ring dindex = some (g f) := by
  obtain ⟨-, hr, hd⟩ := flight_spec h
  show List.find? (fun x => x.ring == ring && x.dindex == dindex)
    (s.b.dma.inflight.map fun x => if x.ring == ring && x.dindex == dindex then g x else x) = some (g f)
  rw [List.find?_map, show ((fun x : InFlight => x.ring == ring && x.dindex == dindex) ∘
    fun x => if x.ring == ring && x.dindex == dindex then g x else x) = fun x => x.ring == ring && x.dindex == dindex from ?_]
  · rw [show s.b.dma.inflight.find? (fun x => x.ring == ring && x.dindex == dindex) = some f from h]
    simp [hr, hd]
  · funext x
    by_cases hx : (x.ring == ring && x.dindex == dindex) = true
    · simp only [Function.comp_apply, if_pos hx, hg]
    · simp only [Function.comp_apply, if_neg hx]

/-- What the end of a descriptor does (R112, R121): its unconfirmed bytes leave, and no record of it goes on. -/
structure descEnded (s t : State) (f : InFlight) (status : Nat) : Prop where
  credit : t.led.creditDma = s.led.creditDma.book (.leave (f.desc.len.toNat - f.confirmed))
  ended : ∀ g ∈ t.b.dma.inflight, g.ring = f.ring → g.dindex = f.dindex → g.ended = some status
  error : status ≠ 0 → t.raised E.DMA_DESC_ERR = true

theorem endDesc_ends (h : s.flight ring dindex = some f) (he : f.ended = none) (status : Nat) :
    descEnded s ((endDesc ring dindex status).run s) f status := by
  obtain ⟨-, hr, hd⟩ := flight_spec h
  rw [endDesc, run_dyn, show s.b.dma.inflight.find? (fun x => x.ring == ring && x.dindex == dindex) = some f from h]
  dsimp only
  rw [he, Option.isSome_none, if_neg Bool.false_ne_true, run_acts_cons, run_acts_cons, run_acts_cons, run_acts_nil]
  have hbook : ((bookOut .creditDma (f.desc.len.toNat - f.confirmed)).run s).led.creditDma =
    s.led.creditDma.book (.leave (f.desc.len.toNat - f.confirmed)) := rfl
  generalize (bookOut .creditDma (f.desc.len.toNat - f.confirmed)).run s = a at *
  have hraise : endScope.Rel a ((on (status != 0) (raise E.DMA_DESC_ERR)).run a) := by
    cases status != 0 with
    | false => exact endScope.rel_refl a
    | true => exact (allows_raise endScope a _).rel
  have hcredit : ((on (status != 0) (raise E.DMA_DESC_ERR)).run a).led.creditDma = a.led.creditDma := by
    cases status != 0 with
    | false => rfl
    | true => exact (raise_framed a E.DMA_DESC_ERR).2.2 .ledCreditDma (by decide)
  have herror : status ≠ 0 → ((on (status != 0) (raise E.DMA_DESC_ERR)).run a).raised E.DMA_DESC_ERR = true := fun hs => by
    rw [show (status != 0) = true by simpa using hs, on_true]
    exact raise_raised (by decide) a
  generalize (on (status != 0) (raise E.DMA_DESC_ERR)).run a = b at *
  refine ⟨hcredit.trans hbook, fun g hg hgr hgd => ?_, herror⟩
  obtain ⟨g', -, rfl⟩ := List.mem_map.mp hg
  by_cases hx : g'.ring = ring ∧ g'.dindex = dindex
  · simp [hx]
  · have : ¬ (g'.ring == ring && g'.dindex == dindex) = true := by simpa using hx
    rw [if_neg this] at hgr hgd
    exact absurd ⟨hgr.trans hr, hgd.trans hd⟩ hx

/-- What settling does later keeps the end of a descriptor. -/
theorem descEnded.then_settles {u : State} {status : Nat} (h : descEnded s t f status) (r : settleScope.Rel t u) :
    descEnded s u f status where
  credit := (r.part .ledCreditDma (by decide) (by decide)).trans h.credit
  ended g hg := h.ended g (r.blocks.2.old g hg)
  error hs := r.raised _ (by decide) (h.error hs)

/-- Only a stripe's piece is noted in a bin when its descriptor ends. -/
theorem endFlight_other (hop : f.desc.op.toNat % 16 ≠ 1) (status : Nat) (s : State) :
    (endFlight f status).run s = (endDesc f.ring f.dindex status).run s := by
  have : (f.desc.op.toNat % 16 == 1) = false := by simpa using hop
  rw [endFlight, run_seq, endPiece, this, on_false, run_nop]

/-! ### Confirmed bytes (R113, R121) -/

/-- What confirming bytes of a descriptor does: they leave the account, and its record counts them. -/
structure bytesConfirmed (s t : State) (f : InFlight) (n : Nat) : Prop where
  credit : t.led.creditDma = s.led.creditDma.book (.leave n)
  flight : s.flight f.ring f.dindex = some f → t.flight f.ring f.dindex = some { f with confirmed := f.confirmed + n }
  frame : framed dmaRegs [.ledCreditDma, .bDma, .bCel] s t

theorem within_setR64 {rg : Nat → Bool} {ps : List Part} {lo hi v : Nat} (hl : rg lo = true) (hh : rg hi = true) :
    (setR64 lo hi v).Within rg ps := within_seq (within_setR hl) (within_setR hh)

/-- What a confirmation tells the stripe's bin (R113, R241). -/
def confirmBin (f : InFlight) (n : Nat) : Act :=
  on (f.desc.op.toNat % 16 == 1) (setBin f.desc.bin.toNat fun x =>
    if x.gen = f.gen then
      { x with
        pieces := x.pieces.map fun p =>
          if p.off = f.desc.dst.toNat ∧ !p.ended then { p with confirmed := p.confirmed + n } else p
        rate := match x.rate with | r :: rs => (r + n) :: rs | [] => [n] }
    else x)

/-- The registers of a channel that a confirmation writes. -/
def confirmRegs (ch done total : Nat) : Act :=
  .seq (setR (R.DMA_CH_DONE ch) done) (setR64 (R.DMA_CH_BYTES_LO ch) (R.DMA_CH_BYTES_HI ch) total)

theorem within_confirmRegs (ch done total : Nat) : (confirmRegs ch done total).Within dmaRegs [] :=
  within_seq (within_setR (dmaRegs_chan ch 0x9108 (by decide) (by decide)))
    (within_setR64 (dmaRegs_chan ch 0x9110 (by decide) (by decide)) (dmaRegs_chan ch 0x9114 (by decide) (by decide)))

theorem confirm_run (ch : Nat) (f : InFlight) (n : Nat) (s : State) : ∃ done total, (confirm ch f n).run s =
    (confirmBin f n).run ((confirmRegs ch done total).run ((bookOut .creditDma n).run
      ((setFlight f.ring f.dindex fun g => { g with confirmed := g.confirmed + n }).run s))) := by
  rw [confirm, run_dyn]
  dsimp only
  generalize s.rd64 _ _ + n = total
  generalize (match s.flight f.ring f.dindex with | some g => g.confirmed | none => 0) + n = done
  exact ⟨done, total, rfl⟩

theorem confirm_confirms (ch : Nat) (f : InFlight) (n : Nat) (s : State) : bytesConfirmed s ((confirm ch f n).run s) f n := by
  obtain ⟨done, total, hrun⟩ := confirm_run ch f n s
  rw [hrun]
  have hflight := setFlight_flight (ring := f.ring) (dindex := f.dindex) (f := f) s
    (g := fun g => { g with confirmed := g.confirmed + n }) fun _ => ⟨rfl, rfl⟩
  have hset : framed dmaRegs [.bDma] s ((setFlight f.ring f.dindex fun g => { g with confirmed := g.confirmed + n }).run s) :=
    within_onDma (by decide) s
  generalize (setFlight f.ring f.dindex _).run s = a at *
  have hbook : framed dmaRegs [.ledCreditDma] a ((bookOut .creditDma n).run a) := within_bookOut (by decide) a
  have hcredit : ((bookOut .creditDma n).run a).led.creditDma = a.led.creditDma.book (.leave n) := rfl
  generalize (bookOut .creditDma n).run a = b at *
  have hregs := within_confirmRegs ch done total b
  generalize (confirmRegs ch done total).run b = c at *
  have hbin : framed dmaRegs [.bCel] c ((confirmBin f n).run c) := within_on (within_setBin (by decide)) c
  generalize (confirmBin f n).run c = d at *
  have hdma : d.b.dma = a.b.dma :=
    (hbin.2.2 .bDma (by decide)).trans ((hregs.2.2 .bDma (by decide)).trans (hbook.2.2 .bDma (by decide)))
  refine ⟨?_, fun h => ?_, ?_⟩
  · rw [hbin.2.2 .ledCreditDma (by decide), hregs.2.2 .ledCreditDma (by decide), hcredit, hset.2.2 .ledCreditDma (by decide)]
  · rw [State.flight, hdma]
    exact hflight h
  · refine framed_trans (framed_mono (fun _ h => h) (by decide) hset) (framed_trans (framed_mono (fun _ h => h) (by decide) hbook)
      (framed_trans (framed_mono (fun _ h => h) (by decide) hregs) (framed_mono (fun _ h => h) (by decide) hbin)))

end Sys2Proof.Machine
end

section
/-! SUPPORT. Transfers that end (R99, R103, R109, R113, R119, R121), and the statement on them. -/

namespace Sys2Proof.Machine

variable {s t : State} {ch : Nat} {c : Chan} {f : InFlight}

/-- A transfer that moves its bytes, confirms them and is over as far as its channel goes. -/
theorem transferEnd_ok (hc : s.chan ch = some c) (hf : s.flight c.ring c.dindex = some f) (hp : c.parked = false)
    (hw : c.poolWait = false) (h1 : f.desc.op.toNat % 16 ≠ 1) {data : List Byte} {faults : List LineFault}
    (hopen : f.desc.op.toNat % 16 = 2 → s.windowOpen f.desc.dst.toNat = some true)
    (hwhole : f.desc.op.toNat % 16 = 3 ∨ f.left ≤ data.length) : (transferEnd ch data .ok faults).run s =
      (finish ch f faults).run ((moveBytes ch f (if f.desc.op.toNat % 16 = 3 then List.replicate f.left 0 else data) faults).run s) := by
  rw [transferEnd, run_dyn, hc]
  dsimp only
  rw [hf]
  dsimp only
  have hclosed : ¬ ((f.desc.op.toNat % 16 == 2 && s.windowOpen f.desc.dst.toNat != some true) = true) := by
    simpa using hopen
  have hall : (f.desc.op.toNat % 16 == 3 || decide (f.left ≤ data.length)) = true := by simpa using hwhole
  rw [hp, hw, if_neg Bool.false_ne_true, if_neg (fun h => h1 h.1), if_neg Bool.false_ne_true, if_neg hclosed, hall, on_true, run_seq]

theorem moveBytes_stripe (h : f.desc.op.toNat % 16 = 1) (ch : Nat) (data : List Byte) (faults : List LineFault) :
    moveBytes ch f data faults = moveStripe ch f (data.take f.left) faults := by
  rw [moveBytes, h]
  rfl

theorem moveBytes_table (h : f.desc.op.toNat % 16 = 2) (ch : Nat) (data : List Byte) (faults : List LineFault) :
    moveBytes ch f data faults = .seq (moveTable f (data.take f.left)) (confirm ch f (min data.length f.left / 4 * 4)) := by
  rw [moveBytes, h]
  rfl

theorem moveBytes_read (h : f.desc.op.toNat % 16 = 3) (ch : Nat) (data : List Byte) (faults : List LineFault) :
    moveBytes ch f data faults = .seq (moveRead f (min data.length f.left) faults) (confirm ch f (min data.length f.left)) := by
  rw [moveBytes, h]
  rfl

/-! ### READ (R99, R112) -/

theorem hostWrites_linear (base o : Nat) (data : List Nat) (hd : data ≠ []) (s : State) :
    (hostWrites 0 base (data.length + 1) o data).run s = (Act.emit (.host (base + o) data)).run s := by
  have hne : data.isEmpty = false := by simpa using hd
  have hlen : data.length ≠ 0 := by simpa using hd
  rw [hostWrites, hne, if_neg Bool.false_ne_true, run_seq, hostRun, if_pos rfl, hostAddr, if_pos rfl, List.take_length, List.drop_length]
  obtain ⟨k, hk⟩ := Nat.exists_eq_succ_of_ne_zero hlen
  rw [hk, hostWrites]
  rfl

/-- The bytes that a READ gives. -/
def readBytes (s : State) (f : InFlight) (n : Nat) (faults : List LineFault) : List Nat :=
  (List.range n).map fun i => (s.readByte faults (f.desc.src.toNat + f.confirmed + i)).getD 0xFF

/-- The lines of a READ that the cellar has. -/
def readLines (s : State) (f : InFlight) (n : Nat) : List Nat :=
  (linesOf (f.desc.src.toNat + f.confirmed) n).filter fun la => decide (la < s.fld F.CEL_CAPACITY_MIB * 2 ^ 20)

theorem moveRead_run (hw : f.desc.wrap = 0) {n : Nat} (hn : 0 < n) (faults : List LineFault) (s : State) :
    (moveRead f n faults).run s = (Act.emit (.host (f.desc.dst.toNat + f.confirmed) (readBytes s f n faults))).run
      ((each (readLines s f n) (lineNote 1 faults)).run s) := by
  have hwrap : f.desc.wrap.toNat = 0 := by rw [hw]; rfl
  have hlen : (readBytes s f n faults).length = n := by simp [readBytes]
  have hne : readBytes s f n faults ≠ [] := fun h => by rw [h] at hlen; exact absurd hlen (Nat.ne_of_lt hn)
  have hwrites := hostWrites_linear f.desc.dst.toNat f.confirmed (readBytes s f n faults) hne
    ((each (readLines s f n) (lineNote 1 faults)).run s)
  rw [hlen] at hwrites
  rw [moveRead, run_dyn]
  dsimp only
  rw [run_seq, hwrap]
  exact hwrites

theorem finish_other (h1 : f.desc.op.toNat % 16 ≠ 1) {g : InFlight} (hg : s.flight f.ring f.dindex = some g) (he : g.ended = none)
    (faults : List LineFault) : ∃ status, (finish ch f faults).run s = (endDesc f.ring f.dindex status).run s := by
  rw [finish, run_dyn, hg]
  dsimp only
  rw [he, Option.isSome_none, if_neg Bool.false_ne_true]
  split
  · next h => exact absurd h h1
  · exact ⟨_, endFlight_other h1 _ s⟩
  · exact ⟨_, endFlight_other h1 _ s⟩

/-- The last of a descriptor's bytes are confirmed, and it ends: what is left of them leaves its account, and no more. -/
theorem lastConfirmed_ends {u v : State} {status : Nat} (hf : s.flight f.ring f.dindex = some f) (he : f.ended = none)
    (hc : bytesConfirmed s u f f.left) (hv : v = (endDesc f.ring f.dindex status).run u) :
    v.led.creditDma = s.led.creditDma.book (.leave f.left) ∧
      ∀ g ∈ v.b.dma.inflight, g.ring = f.ring → g.dindex = f.dindex → g.ended.isSome = true := by
  obtain ⟨hcredit, hended, -⟩ := endDesc_ends (hc.flight hf) he status
  subst hv
  have hleft : f.desc.len.toNat - (f.confirmed + f.left) = 0 := by rw [InFlight.left]; omega
  refine ⟨?_, fun g hg hr hd => by rw [hended g hg hr hd]; rfl⟩
  rw [hcredit]
  dsimp only
  rw [hleft, Account.book_leave_zero, hc.credit]

/-- What a READ leaves: its bytes gone to the host, its descriptor ended, the cellar as it was. -/
structure readDone (s t : State) (f : InFlight) (faults : List LineFault) : Prop where
  credit : t.led.creditDma = s.led.creditDma.book (.leave f.left)
  ended : ∀ g ∈ t.b.dma.inflight, g.ring = f.ring → g.dindex = f.dindex → g.ended.isSome = true
  host : Out.host (f.desc.dst.toNat + f.confirmed) (readBytes s f f.left faults) ∈ t.out
  mem : t.mem = s.mem

/-- What follows within the engine keeps it. -/
theorem readDone.then_settles {u : State} {faults : List LineFault} (h : readDone s t f faults) (r : settleScope.Rel t u) :
    readDone s u f faults where
  credit := (r.part .ledCreditDma (by decide) (by decide)).trans h.credit
  ended g hg := h.ended g (r.blocks.2.old g hg)
  host := by
    obtain ⟨o, ho, -⟩ := r.out
    rw [ho]
    exact List.mem_append_left _ h.host
  mem := (r.part .mem (by decide) (by decide)).trans h.mem

/-- The lines that a READ takes are noted without a change of the cellar's bytes or of the engine. -/
theorem readLines_notes {n : Nat} (hwb : s.b.ram.wb = []) (faults : List LineFault) :
    (noteScope (readLines s f n)).Rel s ((each (readLines s f n) (lineNote 1 faults)).run s) :=
  linesNote_notes ((linesOf_nodup _ _).filter _) (fun _ _ => by simp [hwb]) 1 faults

theorem transferEnd_reads (hc : s.chan ch = some c) (hf : s.flight c.ring c.dindex = some f) (he : f.ended = none)
    (hp : c.parked = false) (hw : c.poolWait = false) (h3 : f.desc.op.toNat % 16 = 3) (hwrap : f.desc.wrap = 0)
    (hwb : s.b.ram.wb = []) (hn : 0 < f.left) (data : List Byte) (faults : List LineFault) :
    readDone s ((transferEnd ch data .ok faults).run s) f faults := by
  have h1 : f.desc.op.toNat % 16 ≠ 1 := by omega
  obtain ⟨-, hring, hdindex⟩ := flight_spec hf
  rw [← hring, ← hdindex] at hf
  rw [transferEnd_ok hc (by rw [← hring, ← hdindex]; exact hf) hp hw h1 (fun h => by omega) (.inl h3), if_pos h3, moveBytes_read h3,
    List.length_replicate, Nat.min_self, run_seq, moveRead_run hwrap hn]
  have hlines := readLines_notes (f := f) (n := f.left) hwb faults
  generalize (each (readLines s f f.left) (lineNote 1 faults)).run s = a at *
  have hdma : a.b.dma = s.b.dma := by rw [hlines.blocks.only]
  have hcredit : a.led.creditDma = s.led.creditDma := hlines.part .ledCreditDma (by decide)
    (show _ ∉ eventParts ++ [.dev, .prevDev] by decide)
  have hmem : a.mem = s.mem := hlines.part .mem (by decide) (show _ ∉ eventParts ++ [.dev, .prevDev] by decide)
  have hout : Out.host (f.desc.dst.toNat + f.confirmed) (readBytes s f f.left faults) ∈
      ((Act.emit (.host (f.desc.dst.toNat + f.confirmed) (readBytes s f f.left faults))).run a).out :=
    List.mem_append_right _ (List.mem_singleton_self _)
  have hemit : framed dmaRegs [.out] a ((Act.emit (.host (f.desc.dst.toNat + f.confirmed) (readBytes s f f.left faults))).run a) :=
    within_emit (by decide) a
  generalize (Act.emit _).run a = b at *
  have hfb : b.flight f.ring f.dindex = some f := by rwa [State.flight, hemit.2.2 .bDma (by decide), hdma]
  have hconfirm := confirm_confirms ch f f.left b
  have hcout : ((confirm ch f f.left).run b).out = b.out := hconfirm.frame.2.2 .out (by decide)
  generalize (confirm ch f f.left).run b = d at *
  obtain ⟨status, hfinish⟩ := finish_other (ch := ch) h1 (hconfirm.flight hfb) he faults
  rw [hfinish]
  obtain ⟨hcr, hend⟩ := lastConfirmed_ends hfb he hconfirm rfl
  have hrel := (allows_endDesc (s := d) f.ring f.dindex status).rel
  refine ⟨by rw [hcr, hemit.2.2 .ledCreditDma (by decide), hcredit], hend, ?_, ?_⟩
  · obtain ⟨o, ho, -⟩ := hrel.out
    rw [ho, hcout]
    exact List.mem_append_left _ hout
  · rw [hrel.part .mem (by decide) (by decide), hconfirm.frame.2.2 .mem (by decide), hemit.2.2 .mem (by decide), hmem]

/-! ### TABLE (R109, R351) -/

variable {k : Nat}

/-- A check unit's data register is no other window's. -/
theorem feed_other (k : Nat) : R.CK_FEED32 k ≠ R.LAT_DATA ∧ R.CK_FEED32 k ≠ R.TRK_DATA ∧ R.CK_FEED32 k ≠ R.IDN_DATA ∧
    R.CK_FEED32 k ≠ R.AGE_DATA ∧ R.CK_FEED32 k ≠ R.JOB_DATA := by
  have := Nat.mod_lt k (show 4 > 0 by decide)
  simp only [R.CK_FEED32, R.LAT_DATA, R.TRK_DATA, R.IDN_DATA, R.AGE_DATA, R.JOB_DATA]
  omega

theorem windowOpen_feed (k : Nat) (s : State) : s.windowOpen (R.CK_FEED32 k) = some true := by
  have hk := Nat.mod_lt k (show 4 > 0 by decide)
  have hany : ((List.range 4).any fun j => R.CK_FEED32 k == R.CK_FEED32 j) = true := by
    rw [List.any_eq_true]
    exact ⟨k % 4, List.mem_range.mpr hk, by simp⟩
  obtain ⟨h1, h2, h3, h4, h5⟩ := feed_other k
  rw [State.windowOpen, if_neg h1, if_neg h2, if_neg h3, if_neg h4, if_neg h5, if_pos hany]

theorem windowWrite_feed (k : Nat) (w : Word) (s : State) : (windowWrite (R.CK_FEED32 k) w).run s =
    (ckFeedWord (k % 4) w).run ((bistPage (0xC8 + k % 4)).run s) := by
  have hk := Nat.mod_lt k (show 4 > 0 by decide)
  have hpage : R.CK_FEED32 k / 0x1000 = 0xC8 + k % 4 := by simp only [R.CK_FEED32]; omega
  obtain ⟨h1, h2, h3, h4, h5⟩ := feed_other k
  rw [windowWrite, run_dyn, run_seq, hpage, if_neg h1, if_neg h2, if_neg h3, if_neg h4, if_neg h5, Nat.add_sub_cancel_left]

/-- The registers of the check units. -/
def checkRegs (a : Nat) : Bool := decide (0xC8 ≤ a / 0x1000) && decide (a / 0x1000 < 0xCC)

theorem checkRegs_unit {k o : Nat} (h : 0xC8000 ≤ o) (h' : o < 0xC9000) : checkRegs (o + k % 4 * 0x1000) = true := by
  have := Nat.mod_lt k (show 4 > 0 by decide)
  simp only [checkRegs, Bool.and_eq_true, decide_eq_true_eq]
  omega

theorem within_setCkVal (k v : Nat) : (setCkVal k v).Within checkRegs [] :=
  within_dyn fun _ => within_seq (within_setR (checkRegs_unit (by decide) (by decide)))
    (within_setR (checkRegs_unit (by decide) (by decide)))

theorem setCkVal_cnt (k v : Nat) (s : State) : ((setCkVal k v).run s).rd (R.CK_CNT k) = s.rd (R.CK_CNT k) := by
  rw [setCkVal, run_dyn]
  dsimp only
  generalize v % _ = x
  rw [run_seq, rd_setR_ne _ _ _ _ (by simp only [R.CK_VAL_HI, R.CK_CNT]; omega),
    rd_setR_ne _ _ _ _ (by simp only [R.CK_VAL_LO, R.CK_CNT]; omega)]

/-- A word that a check unit takes counts as four bytes. -/
theorem ckFeedWord_cnt (k : Nat) (w : Word) (s : State) :
    ((ckFeedWord k w).run s).rd (R.CK_CNT k) = (s.rd (R.CK_CNT k) + 4) % 2 ^ 32 ∧ framed checkRegs [] s ((ckFeedWord k w).run s) := by
  refine ⟨?_, within_seq (within_dyn fun _ => within_seq (within_setCkVal _ _) (within_addR (checkRegs_unit (by decide) (by decide))))
    (within_wr (checkRegs_unit (by decide) (by decide))) s⟩
  rw [ckFeedWord, run_seq, rd_wr_ne _ _ _ _ (by simp only [R.CK_FEED32, R.CK_CNT]; omega), ckTake, run_dyn, run_seq, rd_addR_same,
    setCkVal_cnt]
  rfl

theorem ckCnt_plain (k : Nat) : accessRegs (R.CK_CNT k) = false := by
  have h : ∀ i < 4, accessRegs (0xC8124 + i * 0x1000) = false := by decide
  exact h _ (Nat.mod_lt _ (by decide))

theorem ckCnt_dma (k : Nat) : dmaRegs (R.CK_CNT k) = false := by
  have := Nat.mod_lt k (show 4 > 0 by decide)
  simp only [dmaRegs, R.CK_CNT, beq_eq_false_iff_ne]
  omega

theorem ckCnt_settles (k : Nat) : (eventRegs (R.CK_CNT k) || dmaRegs (R.CK_CNT k)) = false := by
  have h := ckCnt_plain k
  simp only [accessRegs, Bool.or_eq_false_iff] at h
  rw [h.2, ckCnt_dma, Bool.or_self]

theorem feedWords_cnt (k : Nat) (words : List Word) (s : State) :
    ((each words (windowWrite (R.CK_FEED32 k))).run s).rd (R.CK_CNT k) = (s.rd (R.CK_CNT k) + 4 * words.length) % 2 ^ 32 ∧
      framed (fun a => accessRegs a || checkRegs a) (.bBst :: eventParts) s ((each words (windowWrite (R.CK_FEED32 k))).run s) := by
  induction words generalizing s with
  | nil => exact ⟨(Nat.mod_eq_of_lt (rd_lt s _)).symm, framed_refl _ _ _⟩
  | cons w words ih =>
    have hbist : framed accessRegs (.bBst :: eventParts) s ((bistPage (0xC8 + k % 4)).run s) := within_bistPage s
    obtain ⟨hcnt, hframe⟩ := ckFeedWord_cnt (k % 4) w ((bistPage (0xC8 + k % 4)).run s)
    rw [each_cons, windowWrite_feed]
    have hreg : R.CK_CNT (k % 4) = R.CK_CNT k := by simp only [R.CK_CNT, Nat.mod_mod]
    rw [hreg, hbist.2.1 _ (ckCnt_plain k)] at hcnt
    generalize (ckFeedWord (k % 4) w).run _ = u at *
    obtain ⟨hrest, hframes⟩ := ih u
    refine ⟨?_, framed_trans (framed_mono (fun a h => by simp [h]) (fun _ h => h) hbist)
      (framed_trans (framed_mono (fun a h => by simp [h]) (fun p h => by cases h) hframe) hframes)⟩
    rw [hrest, hcnt, List.length_cons]
    omega

theorem within_hostReads (wrap base fuel o n : Nat) : (hostReads wrap base fuel o n).Within (fun _ => false) [.out] := by
  induction fuel generalizing o n with
  | zero => exact within_nop
  | succ fuel ih =>
    rw [hostReads]
    exact within_ite within_nop (within_seq (within_emit (by decide)) (ih _ _))

/-- The words of a table that bytes make. -/
def tableWords (data : List Byte) : List Word :=
  (List.range (data.length / 4)).map fun i => BitVec.ofNat 32 (leAt (data.map BitVec.toNat) (4 * i) 4)

/-- Table words that reach a check unit. -/
theorem moveTable_feeds (hd : f.desc.dst.toNat = R.CK_FEED32 k) (data : List Byte) (s : State) :
    ((moveTable f data).run s).rd (R.CK_CNT k) = (s.rd (R.CK_CNT k) + 4 * (data.length / 4)) % 2 ^ 32 ∧
      framed (fun a => accessRegs a || checkRegs a) (.bBst :: eventParts) s ((moveTable f data).run s) := by
  have hreads := within_hostReads f.desc.wrap.toNat f.desc.src.toNat (data.length + 1) f.confirmed (4 * (tableWords data).length) s
  have hrun : (moveTable f data).run s = (each (tableWords data) (windowWrite f.desc.dst.toNat)).run
    ((hostReads f.desc.wrap.toNat f.desc.src.toNat (data.length + 1) f.confirmed (4 * (tableWords data).length)).run s) := rfl
  rw [hrun, hd]
  generalize (hostReads _ _ _ _ _).run s = a at *
  obtain ⟨hcnt, hframe⟩ := feedWords_cnt k (tableWords data) a
  refine ⟨?_, framed_trans (framed_mono (fun _ h => by cases h) (by decide) hreads) hframe⟩
  rw [hcnt, hreads.2.1 _ rfl, tableWords, List.length_map, List.length_range]

theorem transferEnd_feeds (hc : s.chan ch = some c) (hf : s.flight c.ring c.dindex = some f) (he : f.ended = none)
    (hp : c.parked = false) (hw : c.poolWait = false) (h2 : f.desc.op.toNat % 16 = 2) (hd : f.desc.dst.toNat = R.CK_FEED32 k)
    {data : List Byte} (h4 : f.left % 4 = 0) (hn : f.left ≤ data.length) :
    ((transferEnd ch data .ok []).run s).rd (R.CK_CNT k) = (s.rd (R.CK_CNT k) + f.left) % 2 ^ 32 ∧
      ((transferEnd ch data .ok []).run s).mem = s.mem ∧
      ((transferEnd ch data .ok []).run s).led.creditDma = s.led.creditDma.book (.leave f.left) := by
  have h1 : f.desc.op.toNat % 16 ≠ 1 := by omega
  have h3 : f.desc.op.toNat % 16 ≠ 3 := by omega
  obtain ⟨-, hring, hdindex⟩ := flight_spec hf
  rw [transferEnd_ok hc hf hp hw h1 (fun _ => by rw [hd]; exact windowOpen_feed k s) (.inr hn), if_neg h3, moveBytes_table h2,
    run_seq, Nat.min_eq_right hn, Nat.div_mul_cancel (Nat.dvd_of_mod_eq_zero h4)]
  rw [← hring, ← hdindex] at hf
  obtain ⟨hcnt, hframe⟩ := moveTable_feeds hd (data.take f.left) s
  rw [List.length_take, Nat.min_eq_left hn, Nat.mul_div_cancel' (Nat.dvd_of_mod_eq_zero h4)] at hcnt
  generalize (moveTable f (data.take f.left)).run s = a at *
  have hfa : a.flight f.ring f.dindex = some f := by rwa [State.flight, hframe.2.2 .bDma (by decide)]
  have hconfirm := confirm_confirms ch f f.left a
  generalize (confirm ch f f.left).run a = d at *
  obtain ⟨status, hfinish⟩ := finish_other (ch := ch) h1 (hconfirm.flight hfa) he []
  rw [hfinish]
  have hrel := (allows_endDesc (s := d) f.ring f.dindex status).rel
  refine ⟨?_, ?_, ?_⟩
  · rw [hrel.rd _ (ckCnt_settles k), hconfirm.frame.2.1 _ (ckCnt_dma k), hcnt]
  · rw [hrel.part .mem (by decide) (by decide), hconfirm.frame.2.2 .mem (by decide), hframe.2.2 .mem (by decide)]
  · rw [(lastConfirmed_ends hfa he hconfirm rfl).1, hframe.2.2 .ledCreditDma (by decide)]

end Sys2Proof.Machine
end

section
/-! SUPPORT. Stripe data cut short (R113, R116, R119, R121): its bytes stand confirmed in the cellar, and the rest of the piece is
missing. -/

namespace Sys2Proof.Machine

variable {s t : State} {ch : Nat} {c : Chan} {f : InFlight} {x : Bin}

/-! ### A run of whole lines (R339, R341) -/

theorem partLines_aligned {a n : Nat} (ha : a % 64 = 0) (hn : n % 64 = 0) : partLines a n = [] := by
  rw [List.eq_nil_iff_forall_not_mem]
  intro la hla
  obtain ⟨hline, hcut⟩ := mem_partLines.mp hla
  have := mem_linesOf.mp hline
  omega

theorem storeRun_aligned {a : Nat} {data : List Byte} (ha : a % 64 = 0) (hn : data.length % 64 = 0) (source : Nat) (s : State) :
    (storeRun source [] a data).run s = (storeEnd a data).run s := by
  rw [storeRun_run, partLines_aligned ha hn, each_nil]

/-- A line written whole reads as it was stored. -/
theorem storeEnd_sound {a la : Nat} {data : List Byte} (hla : la ∈ wholeLines a data.length) (s : State) :
    ((storeEnd a data).run s).soundLine la := by
  obtain ⟨hin, -⟩ := storeEnd_stored a data s
  have hline : la ∈ linesOf a data.length := (List.mem_filter.mp hla).1
  have hbounds : a ≤ la ∧ la + 64 ≤ a + data.length := by simpa using (List.mem_filter.mp hla).2
  obtain ⟨m, hrun, -⟩ := storeCells s a data
  rw [soundLine_iff]
  refine ⟨⟨?_, ?_⟩, ?_, ?_⟩
  · rw [storeEnd, run_acts_cons, hrun]
    show List.contains (s.b.cel.poison.filter fun x => !(wholeLines a data.length).contains x) la = false
    simp [hla]
  · rw [State.lineBytes, if_pos]
    · rfl
    · rw [List.all_eq_true]
      intro i hi
      have hi' : i < 64 := List.mem_range.mp hi
      have hlt : la + i - a < data.length := by omega
      rw [show la + i = a + (la + i - a) by omega, hin _ hlt, List.getElem?_eq_getElem hlt]
      rfl
  · have hnone : (s.b.ram.errs.filter fun e => !(linesOf a data.length).contains e.1).find? (fun e => e.1 == la) = none := by
      rw [List.find?_eq_none]
      intro e he hk
      obtain rfl : e.1 = la := by simpa using hk
      simp [hline] at he
    rw [storeEnd, run_acts_cons, hrun]
    show (if _ then [] else spGet (fun _ => []) (s.b.ram.errs.filter fun e => !(linesOf a data.length).contains e.1) la) = []
    rw [spGet, hnone]
    exact ite_self _
  · rw [storeEnd, run_acts_cons, hrun]
    show la ∉ s.b.ram.wb.filter fun x => !(linesOf a data.length).contains x
    simp [hline]

theorem storeEnd_bins (a : Nat) (data : List Byte) (s : State) : ((storeEnd a data).run s).b.cel.bins = s.b.cel.bins := by
  obtain ⟨m, hrun, -⟩ := storeCells s a data
  rw [storeEnd, run_acts_cons, hrun]
  rfl

theorem lastLine_whole {a n : Nat} (ha : a % 64 = 0) (hn : n % 64 = 0) (h : 0 < n) : lineAddr (a + (n - 1)) ∈ wholeLines a n := by
  rw [wholeLines, List.mem_filter, mem_linesOf, lineAddr]
  simp only [Bool.and_eq_true, decide_eq_true_eq]
  omega

/-! ### The audit of an image whose header is not complete (R79) -/

theorem confirmedPrefix_single (len n : Nat) (ended last : Bool) : confirmedPrefix [⟨0, len, n, ended, last⟩] 2 0 = n := by
  by_cases hn : n = 0
  · simp [confirmedPrefix, hn]
  · simp [confirmedPrefix, Nat.pos_of_ne_zero hn]

/-- With fewer than 256 bytes confirmed the audit waits. -/
theorem audit_waits {n : Nat} (hx : s.bin n = some x) (hh : x.hdr = none)
    (hc : confirmedPrefix x.pieces (x.pieces.length + 1) 0 < 256) (faults : List LineFault) : (audit n faults).run s = s := by
  rw [audit, run_dyn, hx]
  dsimp only
  split
  · rw [run_seq, hh, Option.isNone_none, Bool.true_and, decide_eq_false (Nat.not_le.mpr hc), on_false, run_nop, auditBody, run_dyn, hx]
    dsimp only
    rw [hh]
    rfl
  · rfl

/-! ### The bin of a piece -/

theorem flightBin_spec (h : s.flightBin f = some x) :
    s.bin f.desc.bin.toNat = some x ∧ x.num = f.desc.bin.toNat ∧ x.state = .filling ∧ x.gen = f.gen := by
  rw [State.flightBin] at h
  split at h
  · next y hy =>
    split at h
    · next hc =>
      cases h
      exact ⟨hy, by simpa using List.find?_some hy, hc⟩
    · cases h
  · cases h

/-- A bin with other pieces and other figures of its rate. -/
def Bin.withPieces (x : Bin) (ps : List Piece) (rate : List Nat) : Bin := { x with pieces := ps, rate := rate }

/-- A confirmation counts in the piece of the descriptor's offset. -/
theorem confirmBin_counts (h1 : f.desc.op.toNat % 16 = 1) (hx : s.bin f.desc.bin.toNat = some x) (hg : x.gen = f.gen)
    {len : Nat} {last : Bool} (hd : f.desc.dst = 0) (hp : x.pieces = [⟨0, len, 0, false, last⟩]) (n : Nat) :
    ∃ rate, ((confirmBin f n).run s).bin f.desc.bin.toNat = some (x.withPieces [⟨0, len, n, false, last⟩] rate) := by
  have hdst : f.desc.dst.toNat = 0 := by rw [hd]; rfl
  refine ⟨match x.rate with | r :: rs => (r + n) :: rs | [] => [n], ?_⟩
  rw [confirmBin, h1, beq_self_eq_true, on_true, setBin_bin s _ (fun y => by split <;> rfl) hx, if_pos hg, hp, hdst]
  simp [Bin.withPieces] <;> rfl

theorem confirm_counts (h1 : f.desc.op.toNat % 16 = 1) (hx : s.bin f.desc.bin.toNat = some x) (hg : x.gen = f.gen)
    {len : Nat} {last : Bool} (hd : f.desc.dst = 0) (hp : x.pieces = [⟨0, len, 0, false, last⟩]) (n ch : Nat) :
    ∃ rate, ((confirm ch f n).run s).bin f.desc.bin.toNat = some (x.withPieces [⟨0, len, n, false, last⟩] rate) := by
  obtain ⟨done, total, hrun⟩ := confirm_run ch f n s
  rw [hrun]
  have hregs := within_confirmRegs ch done total
    ((bookOut .creditDma n).run ((setFlight f.ring f.dindex fun g => { g with confirmed := g.confirmed + n }).run s))
  refine confirmBin_counts h1 ?_ hg hd hp n
  rw [State.bin, hregs.2.2 .bCel (by decide)]
  exact hx

/-- The end of a piece that stops early leaves the rest missing. -/
theorem endPiece_cuts (h1 : f.desc.op.toNat % 16 = 1) (hx : s.bin f.desc.bin.toNat = some x) (hg : x.gen = f.gen)
    {len n : Nat} {last : Bool} (hd : f.desc.dst = 0) (hp : x.pieces = [⟨0, len, n, false, last⟩]) :
    ((endPiece f true).run s).bin f.desc.bin.toNat = some (x.withPieces [⟨0, len, n, true, false⟩] x.rate) := by
  have hdst : f.desc.dst.toNat = 0 := by rw [hd]; rfl
  rw [endPiece, h1, beq_self_eq_true, on_true, setBin_bin s _ (fun y => by split <;> rfl) hx, if_pos hg, hp, hdst]
  simp [Bin.withPieces]

/-! ### Bytes that are moved (R113) -/

/-- An image without a header lies in one run of addresses. -/
theorem storeImage_once (hh : x.hdr = none) {data : List Byte} (hd : data ≠ []) (hn : data.length ≤ 2 ^ 32) (source o : Nat)
    (faults : List LineFault) (s : State) : (storeImage source faults x (data.length + 1) o data).run s =
      (storeRun source faults (x.num * s.binBytes + o) data).run s := by
  have hne : data.isEmpty = false := by simpa using hd
  have hlen : data.length ≠ 0 := by simpa using hd
  have haddr : s.imageAddr x o = x.num * s.binBytes + o := by rw [State.imageAddr, hh]
  have hrun : data.length ≤ runLength x o := by rw [runLength, hh]; exact hn
  generalize hr : runLength x o = r at hrun
  rw [storeImage, hne, if_neg Bool.false_ne_true, run_dyn, run_seq, hr, haddr, List.take_of_length_le hrun, List.drop_eq_nil_of_le hrun]
  obtain ⟨k, hk⟩ := Nat.exists_eq_succ_of_ne_zero hlen
  rw [hk, storeImage]
  rfl

/-- What has come of a stripe's first bytes: they stand confirmed in the cellar. -/
structure bytesPut (s t : State) (f : InFlight) (x : Bin) (data : List Byte) (last : Bool) : Prop where
  cells : stored s t (x.num * s.binBytes) data
  credit : t.led.creditDma = s.led.creditDma.book (.leave data.length)
  flight : t.flight f.ring f.dindex = some { f with confirmed := data.length }
  bin : ∃ rate, t.bin f.desc.bin.toNat = some (x.withPieces [⟨0, f.desc.len.toNat, data.length, false, last⟩] rate)

/-- The offer of a stripe's first piece, as its transfer finds it. -/
structure firstPiece (s : State) (f : InFlight) (x : Bin) (last : Bool) : Prop where
  flight : s.flight f.ring f.dindex = some f
  bin : s.flightBin f = some x
  hdr : x.hdr = none
  dst : f.desc.dst = 0
  confirmed : f.confirmed = 0
  pieces : x.pieces = [⟨0, f.desc.len.toNat, 0, false, last⟩]

theorem binBytes_aligned (s : State) (n : Nat) : n * s.binBytes % 64 = 0 := by
  have : n * s.binBytes = n * s.fld F.CEL_BIN_CFG_BIN_MIB * 2 ^ 14 * 64 := by rw [State.binBytes]; ring
  rw [this, Nat.mul_mod_left]

theorem putStripe_puts {last : Bool} (h : firstPiece s f x last) (h1 : f.desc.op.toNat % 16 = 1) {data : List Byte}
    (hn : data.length < 256) (hm : data.length % 64 = 0) (ch : Nat) : bytesPut s ((putStripe ch f x [] 0 data).run s) f x data last := by
  obtain ⟨hbin, -, -, hgen⟩ := flightBin_spec h.bin
  have hwithin : x.within 0 data.length = data.length := by rw [Bin.within, h.hdr]
  rw [putStripe]
  dsimp only
  rw [hwithin, List.take_length]
  by_cases hd : data = []
  · subst hd
    refine ⟨⟨fun i hi => absurd hi (Nat.not_lt_zero i), fun _ _ => rfl⟩, (Account.book_leave_zero _).symm, ?_, x.rate, ?_⟩
    · rw [List.isEmpty_nil, Bool.not_true, on_false, run_nop, h.flight]
      exact congrArg some (by rw [List.length_nil, ← h.confirmed])
    · rw [List.isEmpty_nil, Bool.not_true, on_false, run_nop, hbin]
      exact congrArg some (by rw [Bin.withPieces, List.length_nil, ← h.pieces])
  · have hne : data.isEmpty = false := by simpa using hd
    have hlen : 0 < data.length := List.length_pos_of_ne_nil hd
    have hbase := binBytes_aligned s x.num
    have hle : data.length ≤ 2 ^ 32 := Nat.le_trans (Nat.le_of_lt hn) (by norm_num)
    rw [hne, Bool.not_false, on_true, run_seq, storeImage_once h.hdr hd hle, Nat.add_zero, storeRun_aligned hbase hm, run_dyn]
    have hcells := storeEnd_stored (x.num * s.binBytes) data s
    have hsound := storeEnd_sound (lastLine_whole hbase hm hlen) s
    have hframe : framed (fun a => [].contains a) [.out, .mem, .bCel, .bRam] s ((storeEnd (x.num * s.binBytes) data).run s) :=
      storeEnd_framed _ _ s
    have hbins := storeEnd_bins (x.num * s.binBytes) data s
    generalize (storeEnd (x.num * s.binBytes) data).run s = b at *
    have haddr : b.imageAddr x (0 + data.length - 1) = x.num * s.binBytes + (data.length - 1) := by
      rw [State.imageAddr, h.hdr, Nat.zero_add, State.binBytes, framed_fld hframe _ rfl, ← State.binBytes]
    have hok : (b.readLine [] (lineAddr (x.num * s.binBytes + (data.length - 1)))).ok = true := by rw [hsound.1]; rfl
    rw [haddr, run_seq, lineNote_clean hsound, if_pos hok]
    have hconfirm := confirm_confirms ch f data.length b
    have hbinb : b.bin f.desc.bin.toNat = some x := by rw [State.bin, hbins]; exact hbin
    have hflight : b.flight f.ring f.dindex = some f := by rw [State.flight, hframe.2.2 .bDma (by decide)]; exact h.flight
    obtain ⟨rate, hcount⟩ := confirm_counts h1 hbinb hgen h.dst h.pieces data.length ch
    refine ⟨⟨fun i hi => ?_, fun a ha => ?_⟩, ?_, ?_, rate, hcount⟩
    · rw [hconfirm.frame.2.2 .mem (by decide)]
      exact hcells.inside i hi
    · rw [hconfirm.frame.2.2 .mem (by decide)]
      exact hcells.outside a ha
    · rw [hconfirm.credit, hframe.2.2 .ledCreditDma (by decide)]
    · rw [hconfirm.flight hflight, h.confirmed, Nat.zero_add]

/-- Bytes of a stripe that end before its header is complete are put, and the audit waits. -/
theorem moveStripe_puts {last : Bool} (h : firstPiece s f x last) (h1 : f.desc.op.toNat % 16 = 1) {data : List Byte}
    (hn : data.length < 256) (hm : data.length % 64 = 0) (ch : Nat) :
    bytesPut s ((moveStripe ch f data []).run s) f x data last := by
  have hoff : f.desc.dst.toNat + f.confirmed = 0 := by rw [h.dst, h.confirmed]; rfl
  obtain ⟨hbin, hnum, -⟩ := flightBin_spec h.bin
  rw [moveStripe, run_dyn, h.bin]
  dsimp only
  rw [hoff, h.hdr, Option.isNone_none, Bool.true_and, decide_eq_true (show 0 < 512 by decide), if_pos rfl,
    List.take_of_length_le (show data.length ≤ 512 - 0 by omega), List.drop_eq_nil_of_le (show data.length ≤ 512 - 0 by omega),
    List.isEmpty_nil, Bool.not_true, List.length_nil, decide_eq_true (show 0 < 512 - 0 by decide), on_true, run_acts_cons,
    run_acts_cons, run_acts_cons, run_acts_nil, run_seq]
  have hreads := within_hostReads f.desc.wrap.toNat f.desc.src.toNat (data.length + 1) f.confirmed data.length s
  generalize (hostReads f.desc.wrap.toNat f.desc.src.toNat (data.length + 1) f.confirmed data.length).run s = a at *
  have hbytes : a.binBytes = s.binBytes := by rw [State.binBytes, framed_fld hreads _ rfl, ← State.binBytes]
  have ha : firstPiece a f x last := ⟨by rw [State.flight, hreads.2.2 .bDma (by decide)]; exact h.flight,
    by rw [State.flightBin, State.bin, hreads.2.2 .bCel (by decide)]; exact h.bin, h.hdr, h.dst, h.confirmed, h.pieces⟩
  have hput := putStripe_puts ha h1 hn hm ch
  generalize (putStripe ch f x [] 0 data).run a = b at *
  obtain ⟨⟨hin, hout⟩, hcredit, hflight, rate, hcount⟩ := hput
  have haudit : (audit x.num []).run b = b :=
    audit_waits (x := x.withPieces _ rate) (hnum ▸ hcount) h.hdr ((confirmedPrefix_single _ _ _ _).trans_lt hn) []
  rw [haudit, run_dyn]
  suffices hput : bytesPut s b f x data last by
    cases b.flightBin f with
    | none => exact hput
    | some y =>
      dsimp only
      rw [on_false, decide_eq_false (Nat.not_lt_zero _), on_false]
      exact hput
  rw [hbytes] at hin hout
  refine ⟨⟨hin, fun i hi => ?_⟩, ?_, hflight, rate, hcount⟩
  · rw [hout i hi, hreads.2.2 .mem (by decide)]
  · rw [hcredit, hreads.2.2 .ledCreditDma (by decide)]

/-- Stripe data that its transfer cuts short: what came stands confirmed, the rest of the piece is missing. -/
structure stripeCut (s t : State) (f : InFlight) (x : Bin) (data : List Byte) : Prop where
  error : t.raised E.DMA_DESC_ERR = true
  cells : stored s t (x.num * s.binBytes) data
  bin : ∃ y ∈ t.b.cel.bins, y.num = x.num ∧ y.state = .filling ∧ y.pieces = [⟨0, f.desc.len.toNat, data.length, true, false⟩]
  credit : t.led.creditDma = (s.led.creditDma.book (.leave data.length)).book (.leave (f.desc.len.toNat - data.length))

theorem stripeCut.then_settles {u : State} {data : List Byte} (h : stripeCut s t f x data) (r : settleScope.Rel t u) :
    stripeCut s u f x data where
  error := r.raised _ (by decide) h.error
  cells := by
    obtain ⟨hin, hout⟩ := h.cells
    have hmem : u.mem = t.mem := r.part .mem (by decide) (by decide)
    exact ⟨hmem ▸ hin, hmem ▸ hout⟩
  bin := by
    rw [r.blocks.1]
    exact h.bin
  credit := (r.part .ledCreditDma (by decide) (by decide)).trans h.credit

theorem endEarly_cuts {u : State} {data : List Byte} {last : Bool} (hput : bytesPut s u f x data last) (hx : s.flightBin f = some x)
    (hh : x.hdr = none) (hd : f.desc.dst = 0) (h1 : f.desc.op.toNat % 16 = 1) (he : f.ended = none) (hn : data.length < 256) :
    stripeCut s ((endEarly f 2).run u) f x data := by
  obtain ⟨-, hnum, hstate, hgen⟩ := flightBin_spec hx
  obtain ⟨⟨hin, hout⟩, hcredit, hflight, rate, hbin⟩ := hput
  have hcut := endPiece_cuts (x := x.withPieces _ rate) h1 hbin hgen hd rfl
  have hpiece : framed (fun _ => false) [.bCel] u ((endPiece f true).run u) := within_on (within_setBin (by decide)) u
  rw [endEarly, run_seq, endFlight, run_seq, show ((2 : Nat) != 0) = true from rfl, h1, beq_self_eq_true, on_true]
  generalize (endPiece f true).run u = a at *
  have hfa : a.flight f.ring f.dindex = some { f with confirmed := data.length } := by
    rw [State.flight, hpiece.2.2 .bDma (by decide)]
    exact hflight
  obtain ⟨hleave, -, herror⟩ := endDesc_ends hfa he 2
  have hrel := (allows_endDesc (s := a) f.ring f.dindex 2).rel
  generalize (endDesc f.ring f.dindex 2).run a = b at *
  have hbb : b.bin f.desc.bin.toNat = a.bin f.desc.bin.toNat := by rw [State.bin, hrel.blocks, ← State.bin]
  rw [hcut] at hbb
  rw [audit_waits hbb hh ((confirmedPrefix_single _ _ _ _).trans_lt hn)]
  have hmem : b.mem = u.mem := (hrel.part .mem (by decide) (by decide)).trans (hpiece.2.2 .mem (by decide))
  refine ⟨herror (by decide), ⟨hmem ▸ hin, hmem ▸ hout⟩, ⟨_, List.mem_of_find?_eq_some hbb, rfl, hstate, rfl⟩, ?_⟩
  rw [hleave, hpiece.2.2 .ledCreditDma (by decide), hcredit]

theorem transferEnd_cut (hc : s.chan ch = some c) (hf : s.flight c.ring c.dindex = some f) (hp : c.parked = false)
    (hw : c.poolWait = false) (h1 : f.desc.op.toNat % 16 = 1) (hd : s.dev ≠ .fault) (data : List Byte) :
    (transferEnd ch data .busErr []).run s = (endEarly f 2).run ((moveBytes ch f data []).run s) := by
  rw [transferEnd, run_dyn, hc]
  dsimp only
  rw [hf]
  dsimp only
  have hclosed : ¬ ((f.desc.op.toNat % 16 == 2 && s.windowOpen f.desc.dst.toNat != some true) = true) := by
    simp [h1]
  rw [hp, hw, if_neg Bool.false_ne_true, if_neg (fun h => hd h.2), if_neg Bool.false_ne_true, if_neg hclosed, run_seq]

theorem transferEnd_cuts {last : Bool} (hc : s.chan ch = some c) (hf : s.flight c.ring c.dindex = some f) (he : f.ended = none)
    (hp : c.parked = false) (hw : c.poolWait = false) (h1 : f.desc.op.toNat % 16 = 1) (hdev : s.dev ≠ .fault)
    (hx : s.flightBin f = some x) (hh : x.hdr = none) (hdst : f.desc.dst = 0) (hconf : f.confirmed = 0)
    (hpieces : x.pieces = [⟨0, f.desc.len.toNat, 0, false, last⟩]) {data : List Byte} (hn : data.length < 256)
    (hm : data.length % 64 = 0) (hle : data.length ≤ f.desc.len.toNat) :
    stripeCut s ((transferEnd ch data .busErr []).run s) f x data := by
  obtain ⟨-, hring, hdindex⟩ := flight_spec hf
  have hleft : data.length ≤ f.left := by rw [InFlight.left, hconf]; exact hle
  have hfirst : firstPiece s f x last := ⟨by rw [hring, hdindex]; exact hf, hx, hh, hdst, hconf, hpieces⟩
  rw [transferEnd_cut hc hf hp hw h1 hdev, moveBytes_stripe h1, List.take_of_length_le hleft]
  exact endEarly_cuts (moveStripe_puts hfirst h1 hn hm ch) hx hh hdst h1 he hn

/-! ### The statement -/

theorem transferDone_run (ch : Fin 32) (data : List Byte) (res : XferEnd) (faults : List LineFault) :
    exec (.transferDone ch data res faults) s = .next (dmaSettle.run ((transferEnd ch data res faults).run { s with out := [] })) := by
  show execTransferDone ch data res faults s = _
  rw [execTransferDone, perform_eq, run_seq]

theorem hifCplTimeout_run {ch : Fin 32} (hc : s.chan ch = some c) (hf : s.flight c.ring c.dindex = some f)
    (h3 : f.desc.op.toNat % 16 ≠ 3) (data : List Byte) : exec (.hifCplTimeout ch data) s =
      .next (dmaSettle.run ((transferEnd ch data .busErr []).run { s with out := [] })) := by
  show execHifCplTimeout ch data s = _
  rw [execHifCplTimeout, perform_eq, run_dyn, show State.chan { s with out := [] } ch = some c from hc]
  dsimp only
  rw [show State.flight { s with out := [] } c.ring c.dindex = some f from hf]
  dsimp only
  rw [show (f.desc.op.toNat % 16 != 3) = true by simpa using h3, on_true, run_seq]

/-- Settles O26: a READ and a TABLE transfer confirm all their bytes and end; stripe data cut short end early. -/
theorem transfersMoveBytesAndKeepWhatWasConfirmed : Obligations.TransfersMoveBytesAndKeepWhatWasConfirmed := by
  refine fun s ch c f hc hf he hp hw => ⟨fun data faults h3 hwrap hwb hn => ?_, fun data k h2 hd h4 hn => ?_,
    fun data x last h1 hdev hx hh hdst hconf hpieces hn hm hle => ?_⟩
  · obtain ⟨hcredit, hended, hhost, hmem⟩ := (transferEnd_reads (s := { s with out := [] }) hc hf he hp hw h3 hwrap hwb hn data
      faults).then_settles (dmaSettle_rel _)
    refine ⟨_, transferDone_run ch data .ok faults, hcredit, ⟨_, hhost, by rw [readBytes, List.length_map, List.length_range]; rfl,
      fun i hi => ?_⟩, hended, hmem⟩
    rw [readBytes, List.getElem?_map, List.getElem?_range (show i < f.left from hi)]
    rfl
  · obtain ⟨hcnt, hmem, hcredit⟩ := transferEnd_feeds (s := { s with out := [] }) hc hf he hp hw h2 hd h4 hn
    have hrel := dmaSettle_rel ((transferEnd ch data .ok []).run { s with out := [] })
    exact ⟨_, transferDone_run ch data .ok [], by rw [hrel.rd _ (ckCnt_settles k)]; exact hcnt,
      (hrel.part .mem (by decide) (by decide)).trans hmem, (hrel.part .ledCreditDma (by decide) (by decide)).trans hcredit⟩
  · obtain ⟨herror, ⟨hin, hout⟩, hbin, hcredit⟩ := (transferEnd_cuts (s := { s with out := [] }) hc hf he hp hw h1 hdev hx hh hdst
      hconf hpieces hn hm hle).then_settles (dmaSettle_rel _)
    exact ⟨⟨_, transferDone_run ch data .busErr [], herror, hin, hout, hbin, hcredit⟩,
      _, hifCplTimeout_run hc hf (by omega) data, herror, hin, hout, hbin, hcredit⟩

end Sys2Proof.Machine
end

section
/-! SUPPORT. Completions and descriptors as they are taken (R107 to R112, R118, R121), and the statement on them. -/

namespace Sys2Proof.Machine

variable {s t : State} {f : InFlight} {st : Nat}

/-! ### Completion entries (R107, R108, R111) -/

/-- The entry that a completion ring takes next, as it is put out. -/
def State.entryOut (s : State) (cq : Nat) (bytes : List Nat) : Out :=
  .ring cq (s.pi cq) (s.entryAddr cq (s.pi cq)) (withPhase bytes (s.pi cq) (s.ringLen cq))

theorem ringWrite_out (s : State) (cq : Nat) (bytes : List Nat) :
    ((ringWrite cq bytes).run s).out = s.out ++ [s.entryOut cq bytes] := rfl

theorem within_plainRingWrite (cq : Nat) (bytes : List Nat) :
    (ringWrite cq bytes).Within (fun _ => false) [.out, .rings, .ledRing] :=
  within_dyn fun _ => within_cons (within_emit (by decide)) (within_cons (within_index (by decide))
    (within_cons (within_bookIn (by decide)) within_nil))

theorem within_writeCompletion (cq : Nat) (bytes : List Nat) (irq : Bool) : (writeCompletion cq bytes irq).Within eventRegs eventParts :=
  within_seq (within_ringWrite eventAllows) (within_on (within_raise eventAllows))

/-- What a completion entry does: it stands at RNG_PI of its ring. -/
structure entryWritten (s t : State) (cq : Nat) (bytes : List Nat) : Prop where
  pi : t.pi cq = (s.pi cq + 1) % 2 ^ 32
  out : s.entryOut cq bytes ∈ t.out

theorem writeCompletion_ci (cq : Nat) (bytes : List Nat) (irq : Bool) (s : State) (r : Nat) :
    ((writeCompletion cq bytes irq).run s).ci r = s.ci r := by
  rw [writeCompletion, run_seq]
  cases irq with
  | false => exact (ringWrite_indices s cq bytes).2 r
  | true => exact (keepsIndices_raise ((ringWrite cq bytes).run s)).ci r |>.trans ((ringWrite_indices s cq bytes).2 r)

theorem writeCompletion_writes {cq : Nat} (h : cq < 112) (bytes : List Nat) (irq : Bool) (s : State) :
    entryWritten s ((writeCompletion cq bytes irq).run s) cq bytes := by
  have hpi := (ringWrite_indices s cq bytes).1
  have hout := ringWrite_out s cq bytes
  rw [writeCompletion, run_seq]
  generalize (ringWrite cq bytes).run s = a at *
  have hmem : s.entryOut cq bytes ∈ a.out := by
    rw [hout]
    exact List.mem_append_right _ (List.mem_singleton_self _)
  cases irq with
  | false => exact ⟨hpi, hmem⟩
  | true =>
    have hkeep := keepsIndices_raise (e := E.RNG_CQ (cq - 64)) a
    obtain ⟨o, ho, -⟩ := (allows_raise endScope a (E.RNG_CQ (cq - 64))).rel.out
    rw [on_true]
    exact ⟨(hkeep.pi cq (.inl h)).trans hpi, by rw [ho]; exact List.mem_append_left _ hmem⟩

theorem consumeEntry_indices (s : State) (r q : Nat) :
    ((consumeEntry r).run s).ci r = (s.ci r + 1) % 2 ^ 32 ∧ ((consumeEntry r).run s).pi q = s.pi q := by
  rw [consumeEntry, run_dyn]
  generalize (s.ci r + 1) % 2 ^ 32 = v
  exact ⟨ci_index_same s r v, pi_index_ci s q r v⟩

theorem within_consumeEntry (r : Nat) : (consumeEntry r).Within eventRegs eventParts :=
  within_dyn fun _ => within_seq (within_index (by decide)) (within_bookOut (by decide))

/-! ### The only descriptor of a ring completes (R108) -/

/-- The completion entry of a descriptor, where it is to have one. -/
def completionOf (r cq st : Nat) (f : InFlight) : Act :=
  on (f.desc.flags.toNat.testBit 0 || st != 0)
    (writeCompletion cq (completionEntry f.desc.tag.toNat st r f.confirmed f.dindex) (f.desc.flags.toNat.testBit 2))

theorem flushRing_completes {r : Nat} (hi : s.b.dma.inflight = [f]) (hr : f.ring = r) (he : f.ended = some st)
    (hs : s.b.dma.stalled = [])
    (hroom : (f.desc.flags.toNat.testBit 0 || st != 0) = false ∨ s.cqRoom (s.fld (F.RNG_CFG_LINK r)) = true) :
    (flushRing r 1).run s = (consumeEntry r).run ((onDma fun d => { d with inflight := d.inflight.erase f }).run
      ((completionOf r (s.fld (F.RNG_CFG_LINK r)) st f).run s)) := by
  have hfind : s.b.dma.inflight.find? (fun g => g.ring == r) = some f := by rw [hi, List.find?_cons_of_pos (by simpa using hr)]
  have hwait : ¬ (((f.desc.flags.toNat.testBit 0 || st != 0) && !s.cqRoom (s.fld (F.RNG_CFG_LINK r))) = true) := by
    rcases hroom with h | h
    · rw [h, Bool.false_and]
      exact Bool.false_ne_true
    · rw [h, Bool.not_true, Bool.and_false]
      exact Bool.false_ne_true
  rw [flushRing, run_dyn, hfind]
  dsimp only
  rw [he]
  dsimp only
  rw [hs, List.contains_nil, if_neg Bool.false_ne_true, if_neg hwait, run_acts_cons, run_acts_cons, run_acts_cons, run_acts_cons,
    run_acts_nil, flushRing, run_nop, completionOf]

/-- What is left once the only descriptor has completed. -/
structure descCompleted (s t : State) (r : Nat) : Prop where
  inflight : t.b.dma.inflight = []
  stalled : t.b.dma.stalled = s.b.dma.stalled
  ci : t.ci r = (s.ci r + 1) % 2 ^ 32
  frame : framed eventRegs (eventParts ++ [.bDma]) s t

theorem completion_completes (r cq st : Nat) (hi : s.b.dma.inflight = [f]) :
    descCompleted s ((consumeEntry r).run ((onDma fun d => { d with inflight := d.inflight.erase f }).run
      ((completionOf r cq st f).run s))) r := by
  have hframe : framed eventRegs eventParts s ((completionOf r cq st f).run s) := within_on (within_writeCompletion _ _ _) s
  have hci : ((completionOf r cq st f).run s).ci r = s.ci r := by
    rw [completionOf]
    cases f.desc.flags.toNat.testBit 0 || st != 0 with
    | false => rfl
    | true => exact writeCompletion_ci _ _ _ s r
  generalize (completionOf r cq st f).run s = a at *
  have hdma : a.b.dma = s.b.dma := hframe.2.2 .bDma (by decide)
  have herase : framed eventRegs [.bDma] a ((onDma fun d => { d with inflight := d.inflight.erase f }).run a) :=
    within_onDma (by decide) a
  have hleft : ((onDma fun d => { d with inflight := d.inflight.erase f }).run a).b.dma.inflight = [] := by
    show a.b.dma.inflight.erase f = []
    rw [hdma, hi, List.erase_cons_head]
  have hstalled : ((onDma fun d => { d with inflight := d.inflight.erase f }).run a).b.dma.stalled = s.b.dma.stalled :=
    (show _ = a.b.dma.stalled from rfl).trans (congrArg DmaBlk.stalled hdma)
  have hci' := ci_congr (herase.2.2 .rings (by decide)) r
  generalize (onDma fun d => { d with inflight := d.inflight.erase f }).run a = b at *
  have hconsume := within_consumeEntry r b
  obtain ⟨hindex, -⟩ := consumeEntry_indices b r r
  rw [hci', hci] at hindex
  generalize (consumeEntry r).run b = c at *
  have hdone : c.b.dma = b.b.dma := hconsume.2.2 .bDma (by decide)
  refine ⟨by rw [hdone, hleft], by rw [hdone, hstalled], hindex, ?_⟩
  exact framed_trans (framed_mono (fun _ h => h) (by decide) hframe)
    (framed_trans (framed_mono (fun _ h => h) (by decide) herase) (framed_mono (fun _ h => h) (by decide) hconsume))

/-- A descriptor that asks for a completion has its entry written. -/
theorem completionOf_writes {r cq : Nat} (hcq : cq < 112) (hc : f.desc.flags.toNat.testBit 0 = true) (s : State) :
    entryWritten s ((completionOf r cq st f).run s) cq (completionEntry f.desc.tag.toNat st r f.confirmed f.dindex) := by
  rw [completionOf, hc, Bool.true_or, on_true]
  exact writeCompletion_writes hcq _ _ s

/-- What follows its entry moves no RNG_PI and puts nothing out. -/
theorem completionRest (r : Nat) (f : InFlight) (s : State) :
    (∀ q, ((consumeEntry r).run ((onDma fun d => { d with inflight := d.inflight.erase f }).run s)).pi q = s.pi q) ∧
      ((consumeEntry r).run ((onDma fun d => { d with inflight := d.inflight.erase f }).run s)).out = s.out := by
  have hpi : ∀ q, ((onDma fun d => { d with inflight := d.inflight.erase f }).run s).pi q = s.pi q := fun q => pi_congr rfl q
  have hout : ((onDma fun d => { d with inflight := d.inflight.erase f }).run s).out = s.out := rfl
  generalize (onDma fun d => { d with inflight := d.inflight.erase f }).run s = a at *
  exact ⟨fun q => (consumeEntry_indices a r q).2.trans (hpi q), hout⟩

/-! ### What a completion ring's room rests on -/

theorem ringLen_congr (h : ∀ a, t.rd a = s.rd a) (r : Nat) : t.ringLen r = s.ringLen r := by
  rw [State.ringLen, State.ringLen, State.fld, h, State.fld]

theorem ringRoom_congr (h : ∀ a, t.rd a = s.rd a) (hr : t.rings = s.rings) (r n : Nat) : t.ringRoom r n = s.ringRoom r n := by
  rw [State.ringRoom, ringUsed_congr hr r, ringLen_congr h r, State.ringRoom]

theorem flag_congr (h : ∀ a, t.rd a = s.rd a) (g : Fld) : t.flag g = s.flag g := by
  rw [State.flag, State.fld, h, ← State.fld, ← State.flag]

theorem cqRoom_congr (h : ∀ a, t.rd a = s.rd a) (hr : t.rings = s.rings) (ho : t.b.dma.owed = s.b.dma.owed) (cq : Nat) :
    t.cqRoom cq = s.cqRoom cq := by
  rw [State.cqRoom, flag_congr h, ringRoom_congr h hr, ho, State.cqRoom]

theorem entryOut_congr (h : ∀ a, t.rd a = s.rd a) (hr : t.rings = s.rings) (cq : Nat) (bytes : List Nat) :
    t.entryOut cq bytes = s.entryOut cq bytes := by
  rw [State.entryOut, pi_congr hr cq, ringLen_congr h cq, State.entryAddr, State.ringBase, State.fld, h, h, h, ← State.ringBase,
    ← State.fld, ← State.entryAddr, State.entryOut]

/-! ### FENCE (R109) -/

/-- The end of the only descriptor, with status OK. -/
theorem endDesc_only (hi : s.b.dma.inflight = [f]) (he : f.ended = none) :
    ((endDesc f.ring f.dindex 0).run s).b.dma.inflight = [{ f with ended := some 0, awaits := false }] ∧
      ((endDesc f.ring f.dindex 0).run s).b.dma.stalled = s.b.dma.stalled ∧
      ((endDesc f.ring f.dindex 0).run s).b.dma.owed = s.b.dma.owed ∧
      framed (fun _ => false) [.bDma, .ledCreditDma] s ((endDesc f.ring f.dindex 0).run s) := by
  have hfind : s.b.dma.inflight.find? (fun g => g.ring == f.ring && g.dindex == f.dindex) = some f := by
    rw [hi, List.find?_cons_of_pos (by simp)]
  rw [endDesc, run_dyn, hfind]
  dsimp only
  rw [he, Option.isSome_none, if_neg Bool.false_ne_true, show ((0 : Nat) != 0) = false from rfl, on_false, run_acts_cons, run_acts_cons,
    run_acts_cons, run_acts_nil, run_nop]
  have hbook : framed (fun _ => false) [.ledCreditDma] s ((bookOut .creditDma (f.desc.len.toNat - f.confirmed)).run s) :=
    within_bookOut (by decide) s
  generalize (bookOut .creditDma (f.desc.len.toNat - f.confirmed)).run s = a at *
  have hdma : a.b.dma = s.b.dma := hbook.2.2 .bDma (by decide)
  refine ⟨?_, (congrArg DmaBlk.stalled hdma : a.b.dma.stalled = _), (congrArg DmaBlk.owed hdma : a.b.dma.owed = _),
    framed_trans (framed_mono (fun _ h => h) (by decide) hbook) (within_onDma (by decide) a)⟩
  show (a.b.dma.inflight.map fun g => if g.ring == f.ring && g.dindex == f.dindex then
    { g with ended := some 0, awaits := false } else g) = _
  rw [hdma, hi]
  simp

theorem flushRings_only (hi : s.b.dma.inflight = [f]) : flushRings.run s = (flushRing f.ring 1).run s := by
  rw [flushRings, run_dyn, State.busyRings, hi]
  rfl

theorem fenceDone_run (hi : s.b.dma.inflight = [f]) {ring : Fin 64} (hr : f.ring = ring.val) (h4 : f.desc.op.toNat % 16 = 4)
    (he : f.ended = none) : exec (.fenceDone ring) s =
      .next (flushRings.run ((endDesc ring.val f.dindex 0).run { s with out := [] })) := by
  show execFenceDone ring s = _
  rw [execFenceDone, perform_eq, run_dyn, show List.find? (fun g => g.ring == ring.val) _ = some f from
    (congrArg (List.find? _) hi).trans (List.find?_cons_of_pos (by simpa using hr))]
  dsimp only
  rw [h4, he, Option.isNone_none, beq_self_eq_true, Bool.and_self, on_true, run_seq]

theorem fence_completes (hi : s.b.dma.inflight = [f]) (he : f.ended = none) (hs : s.b.dma.stalled = [])
    (hroom : f.desc.flags.toNat.testBit 0 = false ∨ s.cqRoom (s.fld (F.RNG_CFG_LINK f.ring)) = true) :
    (flushRings.run ((endDesc f.ring f.dindex 0).run s)).b.dma.inflight = [] ∧
      (flushRings.run ((endDesc f.ring f.dindex 0).run s)).ci f.ring = (s.ci f.ring + 1) % 2 ^ 32 ∧
      framed eventRegs (eventParts ++ [.bDma, .ledCreditDma]) s (flushRings.run ((endDesc f.ring f.dindex 0).run s)) := by
  obtain ⟨hinflight, hstalled, howed, hframe⟩ := endDesc_only hi he
  generalize (endDesc f.ring f.dindex 0).run s = a at *
  have hrings : a.rings = s.rings := hframe.2.2 .rings (by decide)
  have hregs : ∀ r, a.rd r = s.rd r := fun r => hframe.2.1 r rfl
  have hroom' : (f.desc.flags.toNat.testBit 0 || (0 : Nat) != 0) = false ∨ a.cqRoom (a.fld (F.RNG_CFG_LINK f.ring)) = true := by
    refine hroom.imp (fun h => by rw [h]; rfl) fun h => ?_
    rw [framed_fld hframe _ rfl, cqRoom_congr hregs hrings howed]
    exact h
  have hci := ci_congr hrings f.ring
  have hrun := flushRing_completes (r := f.ring) (f := { f with ended := some 0, awaits := false }) hinflight rfl rfl
    (hstalled.trans hs) hroom'
  obtain ⟨hleft, -, hindex, hdone⟩ :=
    completion_completes f.ring (a.fld (F.RNG_CFG_LINK f.ring)) 0 (f := { f with ended := some 0, awaits := false }) hinflight
  rw [← hrun] at hleft hindex hdone
  rw [flushRings_only hinflight]
  refine ⟨hleft, by rw [hindex, hci], ?_⟩
  exact framed_trans (framed_mono (fun _ h => by cases h) (by decide) hframe) (framed_mono (fun _ h => h) (by decide) hdone)

/-! ### A completion ring has room again (R108) -/

theorem stallEnd_run {cq : Nat} (hen : s.flag (F.RNG_CFG_EN cq) = true) (hroom : s.ringRoom cq 1 = true) : (stallEnd cq).run s =
    (each (((payOwed cq s.b.dma.owed.length).run s).b.dma.stalled.filter fun r =>
        ((payOwed cq s.b.dma.owed.length).run s).fld (F.RNG_CFG_LINK r) == cq) fun r => .dyn fun u =>
      on (u.cqRoom cq) (.seq (onDma fun d => { d with stalled := d.stalled.filter fun x => x != r })
        (flushRing r u.b.dma.inflight.length))).run ((payOwed cq s.b.dma.owed.length).run s) := by
  rw [stallEnd, run_dyn, hen, hroom, Bool.and_self, on_true, run_seq, run_dyn]

/-- An entry that is owed without an interrupt goes out. -/
theorem payOwed_one {cq : Nat} {bytes : List Nat} (hen : s.flag (F.RNG_CFG_EN cq) = true) (hroom : s.ringRoom cq 1 = true)
    (ho : s.b.dma.owed = [(cq, bytes, false)]) :
    (payOwed cq 1).run s = (ringWrite cq bytes).run ((onDma fun d => { d with owed := d.owed.erase (cq, bytes, false) }).run s) := by
  have hfind : s.b.dma.owed.find? (fun o => o.1 == cq) = some (cq, bytes, false) := by
    rw [ho, List.find?_cons_of_pos (by simp)]
  rw [payOwed, run_dyn, hfind]
  dsimp only
  rw [hen, hroom, Bool.and_self, on_true, run_acts_cons, run_acts_cons, run_acts_cons, run_acts_nil, payOwed, run_nop, writeCompletion,
    run_seq, on_false, run_nop]

theorem stallEnd_pays {cq : Nat} {bytes : List Nat} (hen : s.flag (F.RNG_CFG_EN cq) = true) (hroom : s.ringRoom cq 1 = true)
    (ho : s.b.dma.owed = [(cq, bytes, false)]) (hs : s.b.dma.stalled = []) :
    ((stallEnd cq).run s).b.dma.owed = [] ∧ ((stallEnd cq).run s).pi cq = (s.pi cq + 1) % 2 ^ 32 ∧
      ((stallEnd cq).run s).out = s.out ++ [s.entryOut cq bytes] ∧
      framed (fun _ => false) [.out, .bDma, .rings, .ledRing] s ((stallEnd cq).run s) := by
  have hpay := payOwed_one hen hroom ho
  rw [stallEnd_run hen hroom, show s.b.dma.owed.length = 1 by rw [ho]; rfl, hpay]
  have herase : framed (fun _ => false) [.bDma] s ((onDma fun d => { d with owed := d.owed.erase (cq, bytes, false) }).run s) :=
    within_onDma (by decide) s
  have hout : ((onDma fun d => { d with owed := d.owed.erase (cq, bytes, false) }).run s).out = s.out := rfl
  have howed : ((onDma fun d => { d with owed := d.owed.erase (cq, bytes, false) }).run s).b.dma.owed = [] := by
    show s.b.dma.owed.erase (cq, bytes, false) = []
    rw [ho, List.erase_cons_head]
  have hstalled : ((onDma fun d => { d with owed := d.owed.erase (cq, bytes, false) }).run s).b.dma.stalled = [] := hs
  generalize (onDma fun d => { d with owed := d.owed.erase (cq, bytes, false) }).run s = a at *
  have hrings : a.rings = s.rings := herase.2.2 .rings (by decide)
  have hregs : ∀ r, a.rd r = s.rd r := fun r => herase.2.1 r rfl
  have hwrite : framed (fun _ => false) [.out, .rings, .ledRing] a ((ringWrite cq bytes).run a) := within_plainRingWrite cq bytes a
  have hpi := (ringWrite_indices a cq bytes).1
  have hentry := ringWrite_out a cq bytes
  generalize (ringWrite cq bytes).run a = b at *
  have hdma : b.b.dma = a.b.dma := hwrite.2.2 .bDma (by decide)
  rw [hdma, hstalled, List.filter_nil, each_nil]
  refine ⟨by rw [hdma, howed], by rw [hpi, pi_congr hrings cq], by rw [hentry, hout, entryOut_congr hregs hrings], ?_⟩
  exact framed_trans (framed_mono (fun _ h => h) (by decide) herase) (framed_mono (fun _ h => h) (by decide) hwrite)

/-- The ring of a descriptor that waited for room goes on. -/
theorem stallEnd_goesOn {cq : Nat} (hcq : cq < 112) (hen : s.flag (F.RNG_CFG_EN cq) = true) (hroom : s.ringRoom cq 1 = true)
    (ho : s.b.dma.owed = []) (hs : s.b.dma.stalled = [f.ring]) (hi : s.b.dma.inflight = [f]) (he : f.ended = some st)
    (hl : s.fld (F.RNG_CFG_LINK f.ring) = cq) (hc : f.desc.flags.toNat.testBit 0 = true) :
    ((stallEnd cq).run s).b.dma.inflight = [] ∧ ((stallEnd cq).run s).b.dma.stalled = [] ∧
      ((stallEnd cq).run s).pi cq = (s.pi cq + 1) % 2 ^ 32 ∧ ((stallEnd cq).run s).ci f.ring = (s.ci f.ring + 1) % 2 ^ 32 ∧
      s.entryOut cq (completionEntry f.desc.tag.toNat st f.ring f.confirmed f.dindex) ∈ ((stallEnd cq).run s).out ∧
      framed eventRegs (eventParts ++ [.bDma]) s ((stallEnd cq).run s) := by
  have hcqRoom : s.cqRoom cq = true := by rw [State.cqRoom, hen, hroom, ho]; rfl
  have hfilter : ([f.ring].filter fun r => s.fld (F.RNG_CFG_LINK r) == cq) = [f.ring] :=
    List.filter_cons_of_pos (by simpa using hl)
  rw [stallEnd_run hen hroom, show s.b.dma.owed.length = 0 by rw [ho]; rfl, payOwed, run_nop, hs, hfilter, each_cons, each_nil, run_dyn,
    hcqRoom, on_true, run_seq, hi, List.length_singleton]
  have hgo : framed eventRegs [.bDma] s ((onDma fun d => { d with stalled := d.stalled.filter fun x => x != f.ring }).run s) :=
    within_onDma (by decide) s
  have hstalled : ((onDma fun d => { d with stalled := d.stalled.filter fun x => x != f.ring }).run s).b.dma.stalled = [] := by
    show s.b.dma.stalled.filter (fun x => x != f.ring) = []
    rw [hs]
    simp
  have hinflight : ((onDma fun d => { d with stalled := d.stalled.filter fun x => x != f.ring }).run s).b.dma.inflight = [f] := hi
  have howed : ((onDma fun d => { d with stalled := d.stalled.filter fun x => x != f.ring }).run s).b.dma.owed = s.b.dma.owed := rfl
  have hregs : ∀ r, ((onDma fun d => { d with stalled := d.stalled.filter fun x => x != f.ring }).run s).rd r = s.rd r := fun _ => rfl
  generalize (onDma fun d => { d with stalled := d.stalled.filter fun x => x != f.ring }).run s = a at *
  have hrings : a.rings = s.rings := hgo.2.2 .rings (by decide)
  have hlink : a.fld (F.RNG_CFG_LINK f.ring) = cq := by rw [State.fld, hregs, ← State.fld, hl]
  have hrun := flushRing_completes (r := f.ring) hinflight rfl he hstalled
    (.inr (by rw [hlink, cqRoom_congr hregs hrings howed]; exact hcqRoom))
  obtain ⟨hleft, hstall, hindex, hdone⟩ := completion_completes f.ring cq st hinflight
  have hwrite := completionOf_writes (r := f.ring) hcq hc (st := st) a
  have hrest := completionRest f.ring f ((completionOf f.ring cq st f).run a)
  rw [hlink] at hrun
  rw [← hrun] at hleft hstall hindex hdone hrest
  refine ⟨hleft, by rw [hstall, hstalled], ?_, by rw [hindex, ci_congr hrings], ?_, ?_⟩
  · rw [hrest.1, hwrite.pi, pi_congr hrings]
  · rw [hrest.2, ← entryOut_congr hregs hrings]
    exact hwrite.out
  · exact framed_trans (framed_mono (fun _ h => h) (by decide) hgo) hdone

end Sys2Proof.Machine
end

section
/-! SUPPORT. Descriptors as they are taken (R109, R110, R112, R118, R121), and the statement on descriptors. -/

namespace Sys2Proof.Machine

variable {s t : State} {ring dindex ch : Nat} {d : Desc}

/-! ### What taking rests on -/

theorem windowOpen_isNone (s t : State) (addr : Nat) : (t.windowOpen addr).isNone = (s.windowOpen addr).isNone := by
  rw [State.windowOpen, State.windowOpen]
  split_ifs <;> rfl

/-- A descriptor's form is no matter of the state (R112). -/
theorem descBad_same (s t : State) (d : Desc) : t.descBad d = s.descBad d := by
  rw [State.descBad, State.descBad, windowOpen_isNone s t]

/-- Whether a descriptor may be taken is no matter of what was put out before. -/
theorem mayTake_congr (h : ∀ a, t.rd a = s.rd a) (hr : t.rings = s.rings) (hd : t.dev = s.dev) (hb : t.b = s.b) (ring : Nat) :
    t.mayTake ring = s.mayTake ring := by
  simp only [State.mayTake, State.inJob, State.powered, State.pageWorks, State.ringStalled, State.cqFull, State.fld, hd, hb, h,
    flag_congr h, ringRoom_congr h hr, ringUsed_congr hr]

theorem idleChannel_congr (h : ∀ a, t.rd a = s.rd a) (hb : t.b = s.b) (ring : Nat) : t.idleChannel ring = s.idleChannel ring := by
  simp only [State.idleChannel, State.chan, hb, h, flag_congr h]

theorem binRefuses_congr (h : t.fld F.CEL_BIN_CFG_NBINS = s.fld F.CEL_BIN_CFG_NBINS) (hc : t.b.cel = s.b.cel) (hj : t.b.job = s.b.job)
    (ring : Nat) (d : Desc) : t.binRefuses ring d = s.binRefuses ring d := by
  simp only [State.binRefuses, State.bin, State.entryOf, h, hc, hj]

theorem takeDesc_run {n : Nat} (hmay : s.mayTake ring = true) (hidle : s.idleChannel ring = some ch) (h4 : d.op.toNat % 16 ≠ 4)
    (hd : (s.ci ring + (s.b.dma.inflight.filter fun f => f.ring == ring).length) % n = dindex) (hn : n = 2 ^ 32) :
    (takeDesc ring d).run s = dmaSettle.run ((placeDesc ring dindex d ch).run ((bookIn .creditDma d.len.toNat).run
      ((onDma fun b => { b with inflight := b.inflight ++ [⟨ring, dindex, d, 0, 0, none, false⟩] }).run
        ((bistPage 0xA).run ((bistPage 9).run s))))) := by
  subst hn
  rw [takeDesc, run_dyn, hmay, hidle]
  dsimp only
  rw [hd, if_neg h4, run_acts_cons, run_acts_cons, run_acts_cons, run_acts_cons, run_acts_cons, run_acts_cons, run_acts_nil]

/-- The record with which a descriptor is taken. -/
def newFlight (ring dindex : Nat) (d : Desc) : InFlight := ⟨ring, dindex, d, 0, 0, none, false⟩

/-- The state in which a taken descriptor is placed: it is on the list, its bytes are booked. -/
structure taken (s t : State) (ring dindex : Nat) (d : Desc) : Prop where
  dma : t.b.dma = { s.b.dma with inflight := s.b.dma.inflight ++ [newFlight ring dindex d] }
  credit : t.led.creditDma = s.led.creditDma.book (.come d.len.toNat)
  cel : t.b.cel = s.b.cel
  job : t.b.job = s.b.job
  dev : t.dev = s.dev
  nbins : t.fld F.CEL_BIN_CFG_NBINS = s.fld F.CEL_BIN_CFG_NBINS

theorem bookIn_taken (s : State) (ring dindex : Nat) (d : Desc) : taken s ((bookIn .creditDma d.len.toNat).run
    ((onDma fun b => { b with inflight := b.inflight ++ [⟨ring, dindex, d, 0, 0, none, false⟩] }).run
      ((bistPage 0xA).run ((bistPage 9).run s)))) ring dindex d := by
  have hbist : framed accessRegs (.bBst :: eventParts) s ((bistPage 0xA).run ((bistPage 9).run s)) :=
    framed_trans (within_bistPage s) (within_bistPage _)
  generalize (bistPage 0xA).run ((bistPage 9).run s) = a at *
  have hdma : a.b.dma = s.b.dma := hbist.2.2 .bDma (by decide)
  have hled : a.led.creditDma = s.led.creditDma := hbist.2.2 .ledCreditDma (by decide)
  exact ⟨hdma ▸ rfl, hled ▸ rfl, hbist.2.2 .bCel (by decide), hbist.2.2 .bJob (by decide), hbist.2.2 .dev (by decide),
    framed_fld hbist _ (by decide)⟩

/-! ### Where a taken descriptor goes -/

theorem placeDesc_bad (h : s.descBad d = true) : (placeDesc ring dindex d ch).run s = (endDesc ring dindex 1).run s := by
  rw [placeDesc, run_dyn, if_pos h]

theorem placeDesc_moves (h : s.descBad d = false) (h1 : d.op.toNat % 16 ≠ 1) (h4 : d.op.toNat % 16 ≠ 4) :
    (placeDesc ring dindex d ch).run s = (startChannel ch ring dindex).run s := by
  rw [placeDesc, run_dyn, if_neg (by rw [h]; exact Bool.false_ne_true), if_neg h4, if_neg h1]

theorem placeDesc_piece (h : s.descBad d = false) (h1 : d.op.toNat % 16 = 1) (hd : s.dev ≠ .fault) (hb : s.binRefuses ring d = false)
    (h0 : d.dst.toNat = 0) {f : InFlight} (hf : ((acceptPiece ring dindex d).run s).flight ring dindex = some f) (he : f.ended = none) :
    (placeDesc ring dindex d ch).run s = (startChannel ch ring dindex).run ((acceptPiece ring dindex d).run s) := by
  rw [placeDesc, run_dyn, if_neg (by rw [h]; exact Bool.false_ne_true), if_neg (by omega), if_pos h1, if_neg hd,
    if_neg (by rw [hb]; exact Bool.false_ne_true), run_seq, run_dyn, hf]
  dsimp only
  have hgo : (f.ended.isNone && decide (d.dst.toNat = 0)) = true := by simp [he, h0]
  rw [hgo, on_true]

/-- The channel that starts is at work on its descriptor, and stays so while the engine settles. -/
theorem startChannel_chan (s : State) (ch ring dindex : Nat) :
    ∃ c ∈ (dmaSettle.run ((startChannel ch ring dindex).run s)).b.dma.chans, c.ch = ch ∧ c.ring = ring ∧ c.dindex = dindex := by
  have hrest : ∀ t, settleScope.Allows (acts [setR (R.DMA_CH_DONE ch) 0, preemptBy ch]) t :=
    (allows_startChannel ch ring dindex (s := s)).2
  rw [startChannel, run_acts_cons]
  have hchan : (⟨ch, ring, dindex, false, false, false⟩ : Chan) ∈ ((onDma fun d => { d with
      chans := d.chans ++ [⟨ch, ring, dindex, false, false, false⟩] }).run s).b.dma.chans :=
    List.mem_append_right _ (List.mem_singleton_self _)
  generalize (onDma _).run s = a at *
  exact ((hrest a).rel.trans (dmaSettle_rel _)).blocks.2.chans _ hchan

/-- What starting a channel and settling leave of the engine's work and of everything else. -/
theorem startChannel_settles (s : State) (ch ring dindex : Nat) :
    settleScope.Rel s (dmaSettle.run ((startChannel ch ring dindex).run s)) :=
  (allows_startChannel ch ring dindex).rel.trans (dmaSettle_rel _)

/-- The first piece for a FREE bin of a queued entry starts a FILLING (R117, R118). -/
theorem acceptPiece_fills {n : Nat} (hn : n = d.bin.toNat) (hb : s.bin n = none) {e : JobEntry} (he : s.entryOf n = some e)
    {f : InFlight} (hf : s.flight ring dindex = some f) :
    (∃ x ∈ ((acceptPiece ring dindex d).run s).b.cel.bins, x.num = d.bin.toNat ∧ x.state = .filling ∧ x.sring = some ring ∧
      x.pieces = [⟨d.dst.toNat, d.len.toNat, 0, false, d.flags.toNat.testBit 1⟩]) ∧
      ∃ g, ((acceptPiece ring dindex d).run s).flight ring dindex = some g ∧ g.ended = f.ended := by
  subst hn
  rw [acceptPiece, run_dyn]
  dsimp only
  rw [hb, he]
  dsimp only
  rw [run_acts_cons, run_acts_cons, run_acts_nil]
  refine ⟨⟨_, List.mem_append_right _ (List.mem_singleton_self _), rfl, rfl, rfl, rfl⟩, ?_⟩
  generalize s.b.cel.fillings + 1 = gen
  have hflight : ∀ g : CellarBlk → CellarBlk, ((onCel g).run s).flight ring dindex = some f := fun _ => hf
  exact ⟨_, setFlight_flight _ (g := fun x => { x with gen := gen }) (fun _ => ⟨rfl, rfl⟩) (hflight _), rfl⟩

theorem binRefuses_free (h : s.binRefuses ring d = false) (h0 : d.dst.toNat = 0) :
    s.bin d.bin.toNat = none ∧ ∃ e, s.entryOf d.bin.toNat = some e := by
  rw [State.binRefuses, if_pos h0] at h
  simp only [Bool.or_eq_false_iff, Option.isSome_eq_false_iff, Option.isNone_iff_eq_none, Option.isNone_eq_false_iff] at h
  exact ⟨h.2.1.1, Option.isSome_iff_exists.mp h.2.1.2⟩

theorem taken_flight (h : taken s t ring dindex d) (hf : s.flight ring dindex = none) :
    t.flight ring dindex = some (newFlight ring dindex d) := by
  rw [State.flight, h.dma, List.find?_append, show s.b.dma.inflight.find? (fun f => f.ring == ring && f.dindex == dindex) = none from hf,
    Option.none_or, List.find?_cons_of_pos (by simp [newFlight])]

/-! ### The statement -/

/-- Taking a descriptor places it in a state that knows it. -/
theorem descriptorTake_run {ring : Fin 64} {bytes : BitVec 256} (hmay : s.mayTake ring = true) (hidle : s.idleChannel ring = some ch)
    (h4 : (parseDesc bytes).op.toNat % 16 ≠ 4)
    (hd : (s.ci ring + (s.b.dma.inflight.filter fun f => f.ring == ring.val).length) % 2 ^ 32 = dindex) :
    ∃ u, taken s u ring dindex (parseDesc bytes) ∧
      exec (.descriptorTake ring bytes) s = .next (dmaSettle.run ((placeDesc ring dindex (parseDesc bytes) ch).run u)) := by
  generalize hn : (2 : Nat) ^ 32 = n at hd
  have hregs : ∀ a, State.rd { s with out := [] } a = s.rd a := fun _ => rfl
  have hci := ci_congr (t := { s with out := [] }) (s := s) rfl ring
  have htaken := bookIn_taken { s with out := [] } ring dindex (parseDesc bytes)
  refine ⟨_, ⟨htaken.dma, htaken.credit, htaken.cel, htaken.job, htaken.dev, htaken.nbins⟩, ?_⟩
  show execDescriptorTake ring bytes s = _
  rw [execDescriptorTake, perform_eq]
  exact congrArg Host.Outcome.next (takeDesc_run ((mayTake_congr hregs rfl rfl rfl ring).trans hmay)
    ((idleChannel_congr hregs rfl ring).trans hidle) h4 (by rw [hci]; exact hd) hn.symm)

/-- A descriptor of READ or TABLE that is taken goes to its channel. -/
theorem taken_moves {u : State} (hu : taken s u ring dindex d) (hbad : s.descBad d = false)
    (hop : d.op.toNat % 16 = 2 ∨ d.op.toNat % 16 = 3) :
    let t := dmaSettle.run ((placeDesc ring dindex d ch).run u)
    newFlight ring dindex d ∈ t.b.dma.inflight ∧ (∃ c ∈ t.b.dma.chans, c.ch = ch ∧ c.ring = ring ∧ c.dindex = dindex) ∧
      t.led.creditDma = s.led.creditDma.book (.come d.len.toNat) := by
  dsimp only
  rw [placeDesc_moves ((descBad_same s u d).trans hbad) (by omega) (by omega)]
  have hrel := startChannel_settles u ch ring dindex
  refine ⟨hrel.blocks.2.stays _ ?_ rfl, startChannel_chan u ch ring dindex,
    (hrel.part .ledCreditDma (by decide) (by decide)).trans hu.credit⟩
  rw [hu.dma]
  exact List.mem_append_right _ (List.mem_singleton_self _)

/-- A descriptor of a bad form that is taken ends at once. -/
theorem taken_ends {u : State} (hu : taken s u ring dindex d) (hbad : s.descBad d = true) (hf : s.flight ring dindex = none) :
    let t := dmaSettle.run ((placeDesc ring dindex d ch).run u)
    t.raised E.DMA_DESC_ERR = true ∧ (∀ f ∈ t.b.dma.inflight, f.ring = ring → f.dindex = dindex → f.ended = some 1) ∧
      t.led.creditDma = (s.led.creditDma.book (.come d.len.toNat)).book (.leave d.len.toNat) := by
  dsimp only
  rw [placeDesc_bad ((descBad_same s u d).trans hbad)]
  obtain ⟨hcredit, hended, herror⟩ := (endDesc_ends (taken_flight hu hf) rfl 1).then_settles (dmaSettle_rel _)
  refine ⟨herror (by decide), hended, ?_⟩
  rw [hcredit, hu.credit]
  rfl

/-- A first piece for a FREE bin of a queued entry that is taken starts a FILLING, and its channel. -/
theorem taken_fills {u : State} (hu : taken s u ring dindex d) (hbad : s.descBad d = false) (h1 : d.op.toNat % 16 = 1)
    (h0 : d.dst.toNat = 0) (hf : s.flight ring dindex = none) (hdev : s.dev ≠ .fault) (hr : s.binRefuses ring d = false) :
    let t := dmaSettle.run ((placeDesc ring dindex d ch).run u)
    (∃ x ∈ t.b.cel.bins, x.num = d.bin.toNat ∧ x.state = .filling ∧ x.sring = some ring ∧
      x.pieces = [⟨0, d.len.toNat, 0, false, d.flags.toNat.testBit 1⟩]) ∧
      ∃ c ∈ t.b.dma.chans, c.ch = ch ∧ c.ring = ring ∧ c.dindex = dindex := by
  dsimp only
  have hru : u.binRefuses ring d = false := (binRefuses_congr hu.nbins hu.cel hu.job ring d).trans hr
  obtain ⟨hnone, e, he⟩ := binRefuses_free hru h0
  obtain ⟨hbin, g, hg, hge⟩ := acceptPiece_fills rfl hnone he (taken_flight hu hf)
  rw [placeDesc_piece ((descBad_same s u d).trans hbad) h1 (by rw [hu.dev]; exact hdev) hru h0 hg hge]
  generalize (acceptPiece ring dindex d).run u = a at *
  refine ⟨?_, startChannel_chan a ch ring dindex⟩
  rw [h0] at hbin
  rw [(startChannel_settles a ch ring dindex).blocks.1]
  exact hbin

theorem completionStallEnd_run (cq : Fin 32) :
    exec (.completionStallEnd cq) s = .next ((stallEnd (64 + cq)).run { s with out := [] }) := by
  show execCompletionStallEnd cq s = _
  rw [execCompletionStallEnd, perform_eq]

/-- Settles O25: a taken descriptor is placed in a state that knows it, and a completion takes the entry at RNG_PI. -/
theorem descriptorsAreTakenFencedAndCompletedInOrder : Obligations.DescriptorsAreTakenFencedAndCompletedInOrder := by
  refine fun s => ⟨fun ring bytes ch hmay hidle => ?_, fun ring f hi hr h4 he hroom hs => ?_,
    fun cq hen hroom => ⟨fun bytes ho hs => ?_, fun ring f st ho hs hi hr he hl hc => ?_⟩⟩
  · dsimp only
    generalize hd : (s.ci ring + (s.b.dma.inflight.filter fun f => f.ring == ring.val).length) % 2 ^ 32 = dindex
    refine ⟨fun hbad hop => ?_, fun hbad hf => ?_, fun hbad h1 h0 hf hdev hrefuse => ?_⟩
    · have h4 : (parseDesc bytes).op.toNat % 16 ≠ 4 := by omega
      obtain ⟨u, hu, hrun⟩ := descriptorTake_run hmay hidle h4 hd
      generalize parseDesc bytes = d at *
      exact ⟨_, hrun, taken_moves hu hbad hop⟩
    · have h4 : (parseDesc bytes).op.toNat % 16 ≠ 4 := fun h => by
        rw [State.descBad] at hbad
        simp [h] at hbad
      obtain ⟨u, hu, hrun⟩ := descriptorTake_run hmay hidle h4 hd
      generalize parseDesc bytes = d at *
      exact ⟨_, hrun, taken_ends hu hbad hf⟩
    · have h4 : (parseDesc bytes).op.toNat % 16 ≠ 4 := by omega
      obtain ⟨u, hu, hrun⟩ := descriptorTake_run hmay hidle h4 hd
      generalize parseDesc bytes = d at *
      exact ⟨_, hrun, taken_fills hu hbad h1 h0 hf hdev hrefuse⟩
  · rw [← hr] at hroom ⊢
    have hroom' : f.desc.flags.toNat.testBit 0 = false ∨
        State.cqRoom { s with out := [] } (State.fld { s with out := [] } (F.RNG_CFG_LINK f.ring)) = true :=
      hroom.imp_right fun h => (cqRoom_congr (s := s) (fun _ => rfl) rfl rfl _).trans h
    obtain ⟨hleft, hci, hframe⟩ := fence_completes (s := { s with out := [] }) hi he hs hroom'
    exact ⟨_, fenceDone_run hi hr h4 he, hr ▸ ⟨hleft, hci,
      framed_clear s (by decide) (framed_mono (fun a h => by simp [h]) (fun p h => h) hframe)⟩⟩
  · have hroom' := (ringRoom_congr (t := { s with out := [] }) (s := s) (fun _ => rfl) rfl (64 + cq) 1).trans hroom
    have hpi' := pi_congr (t := { s with out := [] }) (s := s) rfl (64 + cq)
    have hentry := entryOut_congr (t := { s with out := [] }) (s := s) (fun _ => rfl) rfl (64 + cq) bytes
    obtain ⟨howed, hpi, hout, hframe⟩ := stallEnd_pays (s := { s with out := [] }) hen hroom' ho hs
    refine ⟨_, completionStallEnd_run cq, howed, by rw [hpi, hpi'], ?_, framed_clear s (by decide) hframe⟩
    rw [hout, hentry, List.nil_append, State.entryOut]
  · have hroom' := (ringRoom_congr (t := { s with out := [] }) (s := s) (fun _ => rfl) rfl (64 + cq) 1).trans hroom
    have hpi' := pi_congr (t := { s with out := [] }) (s := s) rfl (64 + cq)
    have hci' := ci_congr (t := { s with out := [] }) (s := s) rfl f.ring
    have hentry := fun bytes => entryOut_congr (t := { s with out := [] }) (s := s) (fun _ => rfl) rfl (64 + cq) bytes
    rw [← hr] at hs hl ⊢
    obtain ⟨hleft, hstalled, hpi, hci, hout, hframe⟩ := stallEnd_goesOn (s := { s with out := [] }) (cq := 64 + cq.val) (by omega) hen
      hroom' ho hs hi he hl hc
    rw [hentry, State.entryOut] at hout
    exact ⟨_, completionStallEnd_run cq, hleft, hstalled, by rw [hpi, hpi'], by rw [hci, hci'], hout,
      framed_clear s (by decide) (framed_mono (fun a h => by simp [h]) (fun p h => h) hframe)⟩

end Sys2Proof.Machine
end

section
/-! SUPPORT. O9 fails where the wiring table feeds a plate input from a ball lane that the link does not have: the lane's status
register would then stand beyond the pages of the link. -/

namespace Sys2Proof.Machine

/-- A LANE_STAT record of plate input 63 that reports block lock, with its CRC-8 (R173, R174). -/
def lockRecord : BitVec 64 :=
  let w := 2 * 2 ^ 60 + 63 * 2 ^ 54 + 2 ^ 44
  BitVec.ofNat 64 (w + crcOf crc8 ((leBytes 8 w).drop 1))

/-- A READY device whose wiring table feeds plate input 63 from ball lane 132. -/
def miswired : State :=
  { State.reset with dev := .ready, prevDev := .reset, b := { plk := { ballOf := [(63, 132)] } } }

/-- The counterexample keeps the invariant that every step keeps. -/
theorem miswired_inv : miswired.Inv := ⟨rfl, rfl, rfl⟩

/-- The status of lane 132 would be a register of the TRK page, one that no access changes as it goes by. -/
theorem lqStat_miswired : R.LQ_STAT 132 = 0xB210C ∧ accessRegs 0xB210C = false := by decide +kernel

/-- The record is taken, and the register at the status address of lane 132 changes. -/
theorem laneStat_miswired : ∃ t, exec (.laneStat lockRecord) miswired = .next t ∧ t.rd 0xB210C ≠ miswired.rd 0xB210C :=
  ⟨_, rfl, by decide +kernel⟩

/-- Refutes O9: a LANE_STAT record shows its state at the status address of the ball lane that the wiring table names, and for
lane 132 that address is 0xB210C, on the TRK page. No command makes such a table, but the statement is on every state, and does
not rule one out. -/
theorem not_shotPathCommandsLeaveStoredDataAlone : ¬ Obligations.ShotPathCommandsLeaveStoredDataAlone := by
  intro h
  obtain ⟨t, ht, hchanged⟩ := laneStat_miswired
  obtain ⟨-, -, -, hregs⟩ := h miswired t 0 0 lockRecord 0 0 0 0 0 0 false (.laneStat lockRecord) (by simp) ht
  exact hchanged (hregs 0xB210C lqStat_miswired.2 (by decide))

end Sys2Proof.Machine
end

section
/-! SUPPORT. The scopes of what goes on behind a frame: the transfers stand, no frame leaves its lane, and no send check fails. -/

namespace Sys2Proof.Machine

/-- The transfers stand, and no frame leaves its lane. -/
structure keepsFrames (b c : Blocks) : Prop where
  dma : c.dma = b.dma
  queued : b.plk.txq ⊆ c.plk.txq

/-- The scope of building, sealing and cutting the frames of shots. -/
def frameScope : Scope where
  regs := sealScope.regs
  parts := [.ledFrame, .ledShot]
  blocks := keepsFrames
  refl _ := ⟨rfl, List.Subset.refl _⟩
  trans h k := ⟨k.dma.trans h.dma, List.Subset.trans h.queued k.queued⟩
  net _ _ := ⟨rfl, List.Subset.refl _⟩

/-- The scope of what a verdict or a failed check leads to. -/
def checkScope : Scope where
  regs a := a != R.PLK_SENDCHK_CNT
  parts := [.ledFrame, .ledShot, .dev, .prevDev, .role, .fresh]
  blocks := keepsFrames
  refl := frameScope.refl
  trans := frameScope.trans
  net := frameScope.net

@[simp] theorem frameScope_blocks (b c : Blocks) : frameScope.blocks b c ↔ c.dma = b.dma ∧ b.plk.txq ⊆ c.plk.txq :=
  ⟨fun h => ⟨h.dma, h.queued⟩, fun h => ⟨h.1, h.2⟩⟩

@[simp] theorem checkScope_blocks (b c : Blocks) : checkScope.blocks b c ↔ c.dma = b.dma ∧ b.plk.txq ⊆ c.plk.txq :=
  frameScope_blocks b c

theorem frameScope_le_checkScope : frameScope.Le checkScope where
  regs a h := by
    simp only [checkScope, bne_iff_ne, ne_eq]
    rintro rfl
    exact absurd h (by decide)
  parts := by decide
  strobes := by decide
  blocks _ _ h := h

section
variable (s : State)

/-! ### Frames, seals and cuts -/

theorem frameScope_parFijDone : frameScope.Allows parFijDone s := by
  simp only [parFijDone, allows_cons, allows_setF, allows_addR, allows_raise, allows_nil]
  exact ⟨by decide, fun _ => ⟨by decide, fun _ => ⟨by decide, by simp⟩⟩⟩

theorem frameScope_pairEmit (lane kind group word : Nat) (data : List Nat) :
    frameScope.Allows (pairEmit lane kind group word data) s := by
  simp only [pairEmit, allows_dyn, allows_cons, allows_on, allows_ite, allows_nop, allows_emit, Out.isStrobe, Bool.false_and,
    allows_onPar, frameScope_blocks, frameScope_parFijDone, allows_nil, List.Subset.refl, implies_true, and_true, true_and]
  exact fun _ _ _ _ t => allows_each _ t fun _ _ _ => rfl

theorem frameScope_pairSend (kind word : Nat) (data : List Nat) : frameScope.Allows (pairSend kind word data) s := by
  simp only [pairSend, allows_dyn, allows_on]
  exact fun _ => allows_each _ s fun _ _ t => frameScope_pairEmit t _ _ _ _ _

theorem frameScope_plkFijDone : frameScope.Allows plkFijDone s := by
  simp only [plkFijDone, allows_cons, allows_setF, allows_addR, allows_raise, allows_nil]
  exact ⟨by decide, fun _ => ⟨by decide, fun _ => ⟨by decide, by simp⟩⟩⟩

theorem frameScope_plkFijCount (lane : Nat) (counted acting : Bool) : frameScope.Allows (plkFijCount lane counted acting) s := by
  simp [plkFijCount, frameScope_plkFijDone]

theorem frameScope_queueFrame (f : TxFrame) : frameScope.Allows (queueFrame f) s := by
  simp [queueFrame, frameScope_plkFijCount]

theorem frameScope_stepCounts : frameScope.Allows stepCounts s := by
  have hvintage : (eventRegs F.PLK_VINTAGE_CURRENT.addr || frameScope.regs F.PLK_VINTAGE_CURRENT.addr) = true ∧
      (eventRegs F.PLK_VINTAGE_NEXT.addr || frameScope.regs F.PLK_VINTAGE_NEXT.addr) = true := by decide
  simp [stepCounts, hvintage]

theorem frameScope_takeFrames (m : Nat) (hold : Bool) : frameScope.Allows (takeFrames m hold) s := by
  simp only [takeFrames, allows_dyn]
  split
  · simp only [allows_cons, allows_putRec, allows_on, allows_bookIn, allows_onSht, frameScope_blocks, frameScope_stepCounts,
      allows_nil, List.Subset.refl, implies_true, and_true, true_and]
    exact fun _ => ⟨fun _ => by decide, fun t => allows_each _ t fun _ _ u => frameScope_queueFrame u _⟩
  · trivial

theorem frameScope_issueSeal (k verdict : Nat) : frameScope.Allows (issueSeal k verdict) s := by
  have hseal : ∀ n w t, frameScope.Allows (emitSeal n w) t := fun n w t => by
    simp [emitSeal, Out.isStrobe, frameScope_plkFijCount]
  simp only [issueSeal, allows_dyn, allows_cons, allows_setR, allows_putRec, allows_on, allows_addR, allows_onPar, allows_raise,
    frameScope_blocks, allows_nil, List.Subset.refl, implies_true, and_true, true_and]
  exact ⟨by decide, fun _ => ⟨by decide, fun t => ⟨allows_each _ t fun _ _ u => hseal _ _ u, fun _ _ => ⟨fun _ => by decide, fun _ =>
    ⟨fun _ => by decide, fun _ _ => by decide⟩⟩⟩⟩⟩

theorem frameScope_holdSeals (fuel m : Nat) : frameScope.Allows (holdSeals fuel m) s := by
  induction fuel generalizing m s with
  | zero => trivial
  | succ fuel ih => simp [holdSeals, frameScope_issueSeal, ih]

theorem frameScope_dropTaps (k : Nat) : frameScope.Allows (dropTaps k) s := by
  simp only [dropTaps, allows_dyn, allows_cons, allows_onCask, frameScope_blocks, allows_nil, List.Subset.refl, implies_true,
    and_true]
  exact allows_each _ s fun _ _ _ => by simp [Ledger.part, frameScope]

theorem frameScope_cutRecord (x : ShotRec) :
    frameScope.Allows (acts [putRec x.shot fun y => { y with withheld := some 0, rexp := true },
      on (x.triggered && x.withheld.isNone) (noteUnresolved x.shot)]) s := by
  simp [noteUnresolved]

theorem frameScope_abandonShots : frameScope.Allows abandonShots s := by
  have hshot : Ledger.shot.part ∈ eventParts ++ frameScope.parts := by decide
  simp [abandonShots, hshot]

/-- A cut comes to its safe point within the scope of frames. -/
theorem cutShots_frameScope (k : Nat) : ∃ w, (cutShots k).run s = safePoint.run w ∧ frameScope.Rel s w := by
  rw [cutShots, run_dyn]
  dsimp only
  rw [run_acts_cons, run_acts_cons, run_acts_cons, run_acts_cons, run_acts_cons, run_acts_cons, run_acts_nil]
  exact ⟨_, rfl, ((((((allows_onSht _ _ _).mpr (by simp)).rel.trans (frameScope_dropTaps _ _).rel).trans
    (allows_each _ _ fun x _ t => frameScope_cutRecord t x).rel).trans (frameScope_holdSeals _ _ _).rel).trans
      (frameScope_abandonShots _).rel)⟩

/-! ### Verdicts and failed checks -/

theorem checkScope_enter (d : DevState) (h : d ≠ .armed) : checkScope.Allows (enter d) s :=
  allows_enter _ s d h (by decide) (by decide) (by decide)

theorem checkScope_pairSend (kind word : Nat) (data : List Nat) : checkScope.Allows (pairSend kind word data) s :=
  (frameScope_pairSend s kind word data).mono frameScope_le_checkScope

theorem checkScope_dropTaps (k : Nat) : checkScope.Allows (dropTaps k) s :=
  (frameScope_dropTaps s k).mono frameScope_le_checkScope

theorem checkScope_holdSeals (fuel m : Nat) : checkScope.Allows (holdSeals fuel m) s :=
  (frameScope_holdSeals s fuel m).mono frameScope_le_checkScope

theorem checkScope_safePoint : checkScope.Allows safePoint s := by
  rw [safePoint, allows_dyn]
  split
  · simp [checkScope_enter]
  · trivial

theorem checkScope_cutShots (k : Nat) : checkScope.Allows (cutShots k) s := by
  simp only [cutShots, allows_dyn, allows_cons, allows_onSht, checkScope_blocks, checkScope_dropTaps, checkScope_holdSeals,
    checkScope_safePoint, allows_nil, List.Subset.refl, implies_true, and_true, true_and]
  exact fun _ t => ⟨allows_each _ t fun x _ u => (frameScope_cutRecord u x).mono frameScope_le_checkScope,
    fun _ u => (frameScope_abandonShots u).mono frameScope_le_checkScope⟩

theorem checkScope_stopMotion (p : Phase) : checkScope.Allows (stopMotion p) s := by simp [stopMotion]

theorem checkScope_stopSafeFrom (k : Nat) : checkScope.Allows (stopSafeFrom k) s := by
  simp [stopSafeFrom, checkScope_stopMotion, checkScope_cutShots]

theorem checkScope_stopSafe : checkScope.Allows stopSafe s := by
  simp [stopSafe, checkScope_pairSend, checkScope_stopSafeFrom]

theorem checkScope_startRacking (k cause : Nat) : checkScope.Allows (startRacking k cause) s := by
  have hregs : ∀ a ∈ [R.MOT_RACK_INFO, R.MOT_RACK_SHOT, R.MOT_RACK_CNT], (eventRegs a || checkScope.regs a) = true := by decide
  simp [startRacking, checkScope_enter, checkScope_stopMotion, hregs]

theorem checkScope_rackGo (k cause : Nat) : checkScope.Allows (rackGo k cause) s := by
  simp [rackGo, checkScope_stopSafe, checkScope_startRacking]

theorem checkScope_rackDue : checkScope.Allows rackDue s := by
  rw [rackDue, allows_dyn]
  split
  · simp [checkScope_rackGo]
  · trivial

theorem checkScope_rackTrigger (k cause : Nat) : checkScope.Allows (rackTrigger k cause) s := by
  simp [rackTrigger, checkScope_rackGo, checkScope_rackDue]

theorem checkScope_withhold (k cause : Nat) (rack : Bool) : checkScope.Allows (withhold k cause rack) s := by
  have hlate : (eventRegs R.PLK_LATE_CNT || checkScope.regs R.PLK_LATE_CNT) = true := by decide
  simp [withhold, noteUnresolved, hlate, checkScope_rackTrigger, checkScope_cutShots, checkScope_dropTaps, checkScope_holdSeals]

theorem checkScope_withdrawFrom (k : Nat) : checkScope.Allows (withdrawFrom k) s := by
  have hreg : (eventRegs R.PAR_WD_SHOT || checkScope.regs R.PAR_WD_SHOT) = true := by decide
  simp [withdrawFrom, hreg, checkScope_dropTaps]

theorem checkScope_splitOn (k cause : Nat) : checkScope.Allows (splitOn k cause) s := by
  have hregs : ∀ a ∈ [R.PAR_SPLIT_INFO, R.PAR_SPLIT_SHOT], (eventRegs a || checkScope.regs a) = true := by decide
  simp [splitOn, hregs]

theorem checkScope_sealShot (k verdict : Nat) : checkScope.Allows (sealShot k verdict) s :=
  ⟨(frameScope_issueSeal s k verdict).mono frameScope_le_checkScope, fun t => checkScope_holdSeals t _ _⟩

theorem checkScope_ownError (k detail : Nat) : checkScope.Allows (ownError k detail) s := by
  simp [ownError, checkScope_stopSafe, checkScope_withhold]

theorem checkScope_settle (k : Nat) : checkScope.Allows (settle k) s := by
  simp only [settle, allows_dyn, allows_ite, allows_nop, implies_true, true_and]
  intro _
  split
  · rw [allows_on]
    intro _
    split
    · exact checkScope_ownError s k _
    · trivial
  · simp [checkScope_withdrawFrom, checkScope_sealShot, checkScope_withhold, checkScope_splitOn, checkScope_stopSafeFrom]

theorem checkScope_tryVote (k : Nat) : checkScope.Allows (tryVote k) s := by
  simp [tryVote, checkScope_pairSend, checkScope_settle]

theorem checkScope_detectError (k detail : Nat) : checkScope.Allows (detectError k detail) s := by
  simp [detectError, checkScope_tryVote]

end

end Sys2Proof.Machine
end

section
/-! SUPPORT. The entry to FAULT of a SOLO device in ARMED, and of one whose taps do not fit (R131, R407). -/

namespace Sys2Proof.Machine

variable {s t : State}

/-- No safe point leads out of FAULT. -/
theorem safePoint_fault (hd : s.dev = .fault) : frameScope.Rel s (safePoint.run s) := by
  rw [safePoint, run_dyn]
  split
  · rename_i n _
    cases decide (n ≤ s.b.sht.first) with
    | false => exact frameScope.rel_refl s
    | true =>
      have hstay : (DevState.fault).edge .draining = false := rfl
      have henter : ∀ u : State, u.dev = .fault → (enter .draining).run u = u := fun u hu => by
        rw [enter, run_dyn, hu, hstay, on_false, run_nop]
      rw [on_true, run_seq, henter _ (by exact hd)]
      exact ((allows_onSht _ s _).mpr (by simp)).rel
  · exact frameScope.rel_refl s

theorem cutShots_fault (hd : s.dev = .fault) (k : Nat) : frameScope.Rel s ((cutShots k).run s) := by
  obtain ⟨w, hrun, hrel⟩ := cutShots_frameScope s k
  rw [hrun]
  exact hrel.trans (safePoint_fault ((hrel.part .dev (by decide) (by decide)).trans hd))

/-- What a SOLO device does from its entry to FAULT on lies within the scope of frames. -/
theorem faultEntry_solo (hd : s.dev = .armed) (hr : s.role = .solo) (cause page detail : Nat) :
    frameScope.Rel ((enter .fault).run ((setR R.TOP_FAULT (cause * 2 ^ 24 + page % 256 * 2 ^ 16 + detail % 65536)).run s))
      ((faultEntry cause page detail).run s) := by
  have hjob : s.inJob = true := by simp [State.inJob, hd]
  have hrole : (s.role == .active && !s.solo) = false := by simp [hr]
  rw [faultEntry, run_dyn, hjob, if_pos rfl, hrole, solo_of_role hr]
  simp only [run_acts_cons, run_acts_nil, Bool.not_true, on_false, run_nop, Bool.false_eq_true, if_false]
  generalize cause * 2 ^ 24 + page % 256 * 2 ^ 16 + detail % 65536 = v
  generalize hu : (enter .fault).run ((setR R.TOP_FAULT v).run s) = u
  have hfault : u.dev = .fault := by
    rw [← hu, enter_run _ (by simp [hd, DevState.edge])]
    exact raise_dev _ _
  have hframes := (allows_each frameScope u (l := (s.b.cask.slots.filter fun x =>
    !((s.shotRec x.shot).taken && !(s.shotRec x.shot).hold)).map fun x => x.shot) fun m _ v => frameScope_takeFrames v m true).rel
  have hcut := cutShots_fault ((hframes.part .dev (by decide) (by decide)).trans hfault) s.b.sht.first
  have hrest : ∀ v, frameScope.Allows (.seq (onSht fun b => { b with frozen := [], active := false, armed := false })
      (.seq (onJob fun j => { j with pendSafe := false, turnWait := false }) (stopMotion .stop))) v := fun v => by simp [stopMotion]
  exact (hframes.trans hcut).trans (hrest _).rel

/-- The cellar's bytes, OTP, the TILE account and the transfers stand. -/
structure State.SameStores (s t : State) : Prop where
  mem : t.mem = s.mem
  otp : t.otp = s.otp
  tile : t.led.tile = s.led.tile
  dma : t.b.dma = s.b.dma

theorem State.SameStores.trans {u : State} (h : s.SameStores t) (k : t.SameStores u) : s.SameStores u :=
  ⟨k.mem.trans h.mem, k.otp.trans h.otp, k.tile.trans h.tile, k.dma.trans h.dma⟩

theorem sameStores_of_framed {rg : Nat → Bool} {ps : List Part} (h : framed rg ps s t)
    (hp : ∀ p ∈ [Part.mem, .otp, .ledTile, .bDma], p ∉ ps) : s.SameStores t :=
  ⟨h.2.2 .mem (hp _ (by decide)), h.2.2 .otp (hp _ (by decide)), h.2.2 .ledTile (hp _ (by decide)), h.2.2 .bDma (hp _ (by decide))⟩

theorem sameStores_of_frameScope (h : frameScope.Rel s t) : s.SameStores t :=
  ⟨h.part .mem (by decide) (by decide), h.part .otp (by decide) (by decide), h.part .ledTile (by decide) (by decide),
    h.blocks.dma⟩

/-- What the entry to FAULT of an armed SOLO device does, as far as the statements speak of it. -/
structure State.Faults (s t : State) : Prop where
  dev : t.dev = .fault
  prevDev : t.prevDev = .armed
  count : t.rd R.TOP_TRANS_CNT = (s.rd R.TOP_TRANS_CNT + 1) % 2 ^ 32
  cause : t.rd (pageReg 0x30 0x020) = s.rd (pageReg 0x30 0x020)
  stores : s.SameStores t

theorem enterFault_faults (hd : s.dev = .armed) (v : Nat) : s.Faults ((enter .fault).run ((setR R.TOP_FAULT v).run s)) := by
  have hset : framed [R.TOP_FAULT].contains [] s ((setR R.TOP_FAULT v).run s) := within_setR (by decide) s
  generalize (setR R.TOP_FAULT v).run s = u at *
  have hud : u.dev = .armed := (hset.2.2 .dev (by decide)).trans hd
  have henter : framed (fun a => eventRegs a || [R.TOP_TRANS_CNT].contains a) (eventParts ++ [.dev, .prevDev]) u
      ((enter .fault).run u) := within_enter eventFrame_allows (by decide) (by decide) (by decide) u
  have hrun := enter_run u (d := .fault) (by simp [hud, DevState.edge])
  exact {
    dev := by rw [hrun]; exact raise_dev _ _
    prevDev := by rw [hrun, raise_prevDev]; exact hud
    count := by
      rw [hrun, raise_rd _ _ _ (by decide), rd_addR_same, ← hset.2.1 R.TOP_TRANS_CNT (by decide)]
      rfl
    cause := (henter.2.1 _ (by decide)).trans (hset.2.1 _ (by decide))
    stores := (sameStores_of_framed hset (by decide)).trans (sameStores_of_framed henter (by decide)) }

theorem faultEntry_faults (hd : s.dev = .armed) (hr : s.role = .solo) (cause page detail : Nat) :
    s.Faults ((faultEntry cause page detail).run s) := by
  have hfault := enterFault_faults hd (cause * 2 ^ 24 + page % 256 * 2 ^ 16 + detail % 65536)
  have h := faultEntry_solo hd hr cause page detail
  generalize (faultEntry cause page detail).run s = t at *
  generalize (enter .fault).run ((setR R.TOP_FAULT (cause * 2 ^ 24 + page % 256 * 2 ^ 16 + detail % 65536)).run s) = u at *
  exact {
    dev := (h.part .dev (by decide) (by decide)).trans hfault.dev
    prevDev := (h.part .prevDev (by decide) (by decide)).trans hfault.prevDev
    count := (h.rd _ (by decide)).trans hfault.count
    cause := (h.rd _ (by decide)).trans hfault.cause
    stores := hfault.stores.trans (sameStores_of_frameScope h) }

/-! ### Taps that do not fit -/

/-- An entry to ARMED is one transition. -/
theorem begun_transCnt (hd : s.dev = .ready) (e : JobEntry) :
    (s.begun e).rd R.TOP_TRANS_CNT = (s.rd R.TOP_TRANS_CNT + 1) % 2 ^ 32 := by
  rw [State.begun]
  have hslices := within_jobSlices s
  generalize (each jobSlices bistRequest).run s = a at *
  have had : a.dev = .ready := (hslices.2.2 .dev (by decide)).trans hd
  rw [(beginJob_begins _ e).frame.2.1 _ (by decide), (within_clearJobCounts _).2.1 _ (by decide),
    enter_run _ (by simp [had, DevState.edge]), raise_rd _ _ _ (by decide), rd_addR_same]
  exact congrArg (fun n => (n + 1) % 2 ^ 32) (hslices.2.1 _ (by decide))

/-- No fault is entered from FAULT. -/
theorem faultEntry_idle (h : s.inJob = false) (cause page detail : Nat) : (faultEntry cause page detail).run s = s := by
  rw [faultEntry, run_dyn, h]
  rfl

/-- The error of a fit that failed. -/
theorem within_fitError : (err R.CSK_FIT Err.fit).Within [pageReg 0x30 0x020, pageReg 0x30 0x024].contains [] :=
  within_errD (page := 0x30) rfl (by decide) (by decide)

/-- An entry to ARMED with taps that do not fit records the error, and then enters FAULT. -/
theorem armFaults_fit (hd : s.dev = .armed) (hr : s.role = .solo) (hfit : s.fld F.CSK_FIT_CODE ≠ 0) :
    ((err R.CSK_FIT Err.fit).run s).Faults (armFaults.run s) := by
  have hcode : (s.fld F.CSK_FIT_CODE != 0) = true := by simpa using hfit
  have herr := within_fitError s
  have hfaults := faultEntry_faults (s := (err R.CSK_FIT Err.fit).run s) ((herr.2.2 .dev (by decide)).trans hd)
    ((herr.2.2 .role (by decide)).trans hr) 8 0x30 0
  have hrun : armFaults.run s = (faultEntry 8 0x30 0).run ((err R.CSK_FIT Err.fit).run s) := by
    rw [armFaults, run_acts_cons, run_acts_cons, run_acts_nil, run_dyn (s := s), hcode, on_true, run_seq, run_dyn]
    split
    · exact faultEntry_idle (by simp [State.inJob, hfaults.dev]) _ _ _
    · rfl
  rwa [hrun]

/-- The registers that the end of a digest may change. -/
def digestRegs (a : Nat) : Bool :=
  eventRegs a || [R.PAR_DIGEST_LO, R.PAR_DIGEST_HI, R.PAR_FIJ_CFG, R.PAR_FIJ_DONE].contains a

/-- The end of a SOLO device's digest begins the job where ARM meets its conditions, and then looks at the taps (R19, R437). -/
theorem digestDone_begins (hd : s.dev = .ready) (hr : s.role = .solo) (ha : s.b.job.armReq = some 0)
    (hq : s.b.par.digestReq.isSome = true) (h : s.armRefusal = none) :
    ∃ u e, exec .digestDone s = .next (armFaults.run (u.begun e)) ∧ u.dev = .ready ∧
      framed digestRegs (eventParts ++ [.bPar]) s u := by
  have hrun : exec .digestDone s = .next (soloArm.run (digestDone.run { s with out := [] })) := by
    have hq' : ({ s with out := [] } : State).b.par.digestReq.isSome = true := hq
    show execDigestDone s = _
    rw [execDigestDone, perform_eq, run_dyn, hq', on_true, run_seq]
  have hf := framed_clear s (by decide) (within_digestDone { s with out := [] })
  have hreq := digestDone_digestReq { s with out := [] }
  rw [hrun]
  generalize digestDone.run { s with out := [] } = u at *
  have hsame : s.SameForArm u := sameForArm_of_framed hf (by decide) (by decide)
  have hjob : u.b.job = s.b.job := hf.2.2 .bJob (by decide)
  have hud : u.dev = .ready := (hf.2.2 .dev (by decide)).trans hd
  obtain ⟨e, henter⟩ := armNow_enters hud ((armRefusal_congr hr hsame).trans h)
  refine ⟨u, e, ?_, hud, hf⟩
  rw [soloArm, run_dyn, passes_of_role (hsame.role.trans hr), hjob, ha, hreq, ← enterArmed_run, ← henter]
  rfl

/-- Settles O8: the lattice that does not fit takes the device through ARMED into FAULT. -/
theorem armingALatticeThatDoesNotFitEndsInFault : Obligations.ArmingALatticeThatDoesNotFitEndsInFault := by
  intro s hd hr ha hq h hfit
  obtain ⟨u, e, hrun, hud, hu⟩ := digestDone_begins hd hr ha hq h
  have harms := begun_arms hud e
  have hcount := begun_transCnt hud e
  generalize u.begun e = b at *
  have hb := harms.frame
  have hfaults := armFaults_fit harms.dev ((hb.2.2 .role (by decide)).trans ((hu.2.2 .role (by decide)).trans hr))
    (by rwa [framed_fld hb _ (by decide), framed_fld hu _ (by decide)])
  have herr := within_fitError b
  have hstores : s.SameStores (armFaults.run b) := (((sameStores_of_framed hu (by decide)).trans
    (sameStores_of_framed hb (by decide))).trans (sameStores_of_framed herr (by decide))).trans hfaults.stores
  refine ⟨_, hrun, hfaults.dev, hfaults.prevDev, ?_, fun hfirst => ?_, hstores.mem, hstores.otp, hstores.tile, hstores.dma⟩
  · rw [hfaults.count, herr.2.1 _ (by decide), hcount, hu.2.1 _ (by decide)]
    omega
  · rw [hfaults.cause]
    refine (errD_first b (page := 0x30) rfl (by decide) (by decide) (by decide) ?_).1
    rwa [hb.2.1 _ (by decide), hu.2.1 _ (by decide)]

end Sys2Proof.Machine
end

section
/-! SUPPORT. The frames of a shot while no injection acts on the plate link, and take points (R162, R164, R172). -/

namespace Sys2Proof.Machine

variable {s t : State} {r : Run} {m : Nat}

/-! ### Queueing frames -/

/-- A frame joins its lane while no injection acts and no lane holds a frame back. -/
theorem queueFrame_run (hi : s.injecting 0x90 = false) (hh : s.b.plk.swapHeld = []) (f : TxFrame) :
    (queueFrame f).run s = (onPlk fun p => { p with txq := p.txq ++ [f] }).run s := by
  have hoff : s.plkFij false f.lane = (false, false) := by simp [State.plkFij, hi]
  rw [queueFrame, run_dyn, hoff]
  simp only [Bool.false_and, Bool.false_eq_true, if_false, hh, List.filter_nil, List.append_nil, run_seq, plkFijCount, run_dyn,
    run_acts_cons, run_acts_nil, on_false, run_nop, run_onPlk]

theorem each_queueFrame_run (hi : s.injecting 0x90 = false) (hh : s.b.plk.swapHeld = []) (l : List Nat) (g : Nat → TxFrame) :
    (each l fun n => queueFrame (g n)).run s = (onPlk fun p => { p with txq := p.txq ++ l.map g }).run s := by
  induction l generalizing s with
  | nil => simp
  | cons n l ih =>
    rw [each_cons, queueFrame_run hi hh, ih (by exact hi) (by exact hh)]
    simp

/-! ### Taking the frames of a shot (R162, R164) -/

/-- The record of a shot whose frames are taken. -/
def ShotRec.take (hold : Bool) (count : Nat) (x : ShotRec) : ShotRec :=
  { x with taken := true, hold := hold, count := count, unsent := List.range 64 }

/-- The blocks once the frames of a shot are taken. -/
def State.withFrames (s : State) (r : Run) (m : Nat) (hold : Bool) : Blocks :=
  { s.b with
    sht := { s.b.sht.put m (ShotRec.take hold s.nextCount) with takeNext := m + 1 }
    plk := { s.b.plk with
      txq := s.b.plk.txq ++ (List.range 64).map (frameOf s r m hold)
      before := s.b.plk.counts, counts := s.b.plk.counts.map (· + 1) } }

theorem takeFrames_run (hr : s.run = some r) (hi : s.injecting 0x90 = false) (hh : s.b.plk.swapHeld = [])
    (hc : s.nextCount ≠ 0xFFFFFFFF) (hold : Bool) :
    (takeFrames m hold).run s = { (on hold (bookIn .frame 64)).run s with b := s.withFrames r m hold } := by
  have hstep : ∀ u : State, u.nextCount ≠ 0xFFFFFFFF →
      stepCounts.run u = (onPlk fun p => { p with before := p.counts, counts := p.counts.map fun c => c + 1 }).run u :=
    fun u hu => by rw [stepCounts, run_dyn, if_neg hu]
  rw [takeFrames, run_dyn, hr]
  dsimp only
  rw [run_acts_cons, run_acts_cons, run_acts_cons, run_acts_cons, run_acts_cons, run_acts_nil, run_putRec]
  cases hold with
  | false => rw [on_false, run_nop, run_nop, each_queueFrame_run (by exact hi) (by exact hh), hstep _ (by exact hc)]; rfl
  | true => rw [on_true, each_queueFrame_run (by exact hi) (by exact hh), hstep _ (by exact hc)]; rfl

theorem withFrames_framed (s : State) (r : Run) (m : Nat) (hold : Bool) :
    framed (fun _ => false) [.bPlk, .bSht] s { s with b := s.withFrames r m hold } :=
  ⟨rfl, fun _ _ => rfl, fun p hp => by cases p <;> first | rfl | exact absurd (by decide) hp⟩

/-- The record of a shot whose frames have been taken. -/
theorem withFrames_rec (s : State) (r : Run) (m : Nat) (hold : Bool) :
    (s.withFrames r m hold).sht.rec' m = (s.shotRec m).take hold s.nextCount := by
  have h := s.b.sht.rec_put m m (f := ShotRec.take hold s.nextCount) fun _ => rfl
  rw [if_pos rfl] at h
  exact h

/-! ### The take point (R162, R172) -/

/-- A shot whose frames are taken at its take point: the stripe has it, no stop and no withheld shot precede it, no error of it is
known, and nothing holds frames back. -/
structure State.Takeable (s : State) (r : Run) (m : Nat) : Prop where
  run : s.run = some r
  cap : s.b.lat.cap.isSome = true
  shots : m < r.stripe.shots
  stoppedAt : s.stoppedAt m = false
  heldFrom : s.heldFrom m = false
  wdSelf : s.b.par.wdSelf = false
  det : (s.shotRec m).det = none
  injecting : s.injecting 0x90 = false
  swapHeld : s.b.plk.swapHeld = []
  count : s.nextCount ≠ 0xFFFFFFFF

/-- A shot has all that its data frames show. -/
def State.completeAt (s : State) (m : Nat) : Bool := match s.slot m with | some x => x.complete | none => false

theorem takeShot_complete (h : s.Takeable r m) (hc : s.completeAt m = true) : (takeShot m).run s = (takeFrames m false).run s := by
  obtain ⟨c, hcap⟩ := Option.isSome_iff_exists.mp h.cap
  rw [takeShot, run_dyn, h.run, hcap]
  simp only [if_neg h.shots.not_ge, h.stoppedAt, h.heldFrom, h.wdSelf, h.det, Option.isSome_none, Bool.false_eq_true,
    or_self, if_false]
  exact congrArg (fun a : Act => a.run s) (if_pos hc)

theorem takeShot_incomplete (h : s.Takeable r m) (hc : s.completeAt m = false) :
    ∃ cause, (takeShot m).run s = (withhold m cause true).run ((takeFrames m true).run s) := by
  obtain ⟨c, hcap⟩ := Option.isSome_iff_exists.mp h.cap
  refine ⟨if (s.slot m).isNone && !rowsReady c r m then 5 else 3, ?_⟩
  rw [takeShot, run_dyn, h.run, hcap]
  simp only [if_neg h.shots.not_ge, h.stoppedAt, h.heldFrom, h.wdSelf, h.det, Option.isSome_none, Bool.false_eq_true,
    or_self, if_false]
  exact congrArg (fun a : Act => a.run s) (if_neg (Bool.eq_false_iff.mp hc))

/-- A state that agrees with another on all that taking frames reads. -/
structure State.SameForFrames (s t : State) : Prop where
  rd : ∀ a, t.rd a = s.rd a
  dev : t.dev = s.dev
  lat : t.b.lat = s.b.lat
  cask : t.b.cask = s.b.cask
  press : t.b.press = s.b.press
  par : t.b.par = s.b.par
  plk : t.b.plk = s.b.plk
  recs : t.b.sht.recs = s.b.sht.recs
  stopFrom : t.b.sht.stopFrom = s.b.sht.stopFrom
  floor : t.b.sht.floor = s.b.sht.floor

theorem atEdge_sameForFrames (s : State) (edge : Int) (rest : List (Int × Int)) : s.SameForFrames (s.atEdge edge rest) := by
  have h := atEdge_framed s edge rest
  have hs := atEdge_sht s edge rest
  generalize s.atEdge edge rest = t at *
  exact ⟨fun a => h.2.1 a rfl, h.2.2 .dev (by decide), h.2.2 .bLat (by decide), h.2.2 .bCask (by decide), h.2.2 .bPress (by decide),
    h.2.2 .bPar (by decide), h.2.2 .bPlk (by decide), by rw [hs], by rw [hs], by rw [hs]⟩

theorem State.Takeable.of_same (h : s.Takeable r m) (k : s.SameForFrames t) : t.Takeable r m where
  run := by rw [State.run, k.press]; exact h.run
  cap := by rw [k.lat]; exact h.cap
  shots := h.shots
  stoppedAt := by rw [State.stoppedAt, k.stopFrom]; exact h.stoppedAt
  heldFrom := by rw [State.heldFrom, k.floor]; exact h.heldFrom
  wdSelf := by rw [k.par]; exact h.wdSelf
  det := by rw [State.shotRec, k.recs]; exact h.det
  injecting := by
    have hi := h.injecting
    simp only [State.injecting, State.flag, State.fld] at hi ⊢
    rw [k.rd, k.rd, k.dev]
    exact hi
  swapHeld := by rw [k.plk]; exact h.swapHeld
  count := by rw [State.nextCount, k.plk]; exact h.count

theorem frameOf_congr (k : s.SameForFrames t) (r : Run) (m : Nat) (hold : Bool) : frameOf t r m hold = frameOf s r m hold := by
  have hslot : t.slot m = s.slot m := by rw [State.slot, k.cask]; rfl
  have hrec : t.shotRec m = s.shotRec m := by rw [State.shotRec, k.recs]; rfl
  have hdepth : t.depth = s.depth := by
    simp only [State.depth, State.fld, k.lat, k.rd]
  have hvintage : t.fld F.PLK_VINTAGE_CURRENT = s.fld F.PLK_VINTAGE_CURRENT := by simp only [State.fld, k.rd]
  funext lane
  simp only [frameOf, hslot, hrec, hdepth, hvintage, k.plk]

/-- A take point of a device that is not racking (R162). -/
theorem takePoint_run {k edge : Int} {rest : List (Int × Int)} (hz : s.b.sht.frozen = (k, edge) :: rest)
    (hk : k < (s.b.sht.runStart : Int)) (hd : s.dev ≠ .racking) :
    exec .takePoint s = .next ((takeShot (k + 2).toNat).run (s.atEdge edge rest)) := by
  have hd' : (s.dev == .racking && k + 2 == (s.b.sht.runStart : Int)) = false := by simp [hd]
  show execTakePoint s = _
  rw [execTakePoint, perform_eq, run_dyn]
  simp only [hz, if_neg (not_le.mpr hk), hd', on_false]
  rw [run_acts_cons, run_acts_cons, run_acts_cons, run_acts_cons, run_acts_nil]
  rfl

/-! ### Withholding, for any cause (R172) -/

/-- A shot that may be withheld is withheld, by a cut where a stop stands and the shot is taken. -/
theorem withhold_withholds {k : Nat} (h : s.Withholdable k) (hs : s.b.sht.stopFrom = none ∨ (s.shotRec k).taken = true)
    (cause : Nat) (rack : Bool) : (((withhold k cause rack).run s).shotRec k).withheld.isSome = true := by
  cases hstop : s.b.sht.stopFrom with
  | none =>
    rw [withhold_run h hstop]
    have hrec := (noteWithheld_rec s k cause).1
    generalize (noteWithheld k cause).run s = u at *
    have htaps := (allows_dropTaps u k).rel
    generalize (dropTaps k).run u = v at *
    have hlate := (lateNote_framed v cause).2.2 .bSht (by decide)
    generalize (lateNote cause).run v = w at *
    have hseals := (allows_holdSeals w (s.b.sht.recs.length + 1) k).rel
    generalize (holdSeals (s.b.sht.recs.length + 1) k).run w = x at *
    have hrack : stopScope.Rel x ((on rack (rackTrigger k cause)).run x) :=
      ((allows_on _ _ _ _).mpr fun _ => allows_rackTrigger x k cause).rel
    refine hrack.blocks.sht.withheld k ?_
    rw [hseals.blocks.sht.withheld, show w.b.sht = v.b.sht from hlate, htaps.blocks.sht.withheld, hrec]
    rfl
  | some n =>
    have ht : (s.shotRec k).taken = true := by simpa [hstop] using hs
    have hsame : ((lateNote cause).run s).b.sht = s.b.sht := (lateNote_framed s cause).2.2 .bSht (by decide)
    rw [withhold_cut_run h (by simp [hstop])]
    refine cutShots_withholds _ ?_ ?_
    · rwa [shotRec_eq, hsame]
    · rw [hsame]
      exact h.first

/-! ### The two ways a take point ends -/

section
variable {k edge : Int} {rest : List (Int × Int)}

/-- A complete shot's data frames are taken, with the next COUNT of every lane. -/
theorem takePoint_takes (hz : s.b.sht.frozen = (k, edge) :: rest) (hk : k < (s.b.sht.runStart : Int)) (hd : s.dev ≠ .racking)
    (h : s.Takeable r (k + 2).toNat) (hc : s.completeAt (k + 2).toNat = true) :
    ∃ t, exec .takePoint s = .next t ∧ t.b.sht.frozen = rest ∧ t.b.sht.takeNext = (k + 2).toNat + 1 ∧
      t.shotRec (k + 2).toNat = (s.shotRec (k + 2).toNat).take false s.nextCount ∧
      t.b.plk.counts = s.b.plk.counts.map (· + 1) ∧
      t.b.plk.txq = s.b.plk.txq ++ (List.range 64).map (frameOf s r (k + 2).toNat false) ∧
      plainFrame [] [.bPlk, .bSht, .bPos, .bTim, .bAge] s t := by
  rw [takePoint_run hz hk hd]
  generalize (k + 2).toNat = m at *
  have hsame := atEdge_sameForFrames s edge rest
  have hrec := atEdge_shotRec s edge rest m
  have hfrozen : (s.atEdge edge rest).b.sht.frozen = rest := by rw [atEdge_sht]
  have hf := atEdge_framed s edge rest
  generalize s.atEdge edge rest = a at *
  have ha := h.of_same hsame
  have hca : a.completeAt m = true := by rw [← hc, State.completeAt, State.slot, hsame.cask]; rfl
  rw [takeShot_complete ha hca, takeFrames_run ha.run ha.injecting ha.swapHeld ha.count, on_false, run_nop]
  refine ⟨_, rfl, hfrozen, rfl, ?_, ?_, ?_, ?_⟩
  · rw [shotRec_eq, withFrames_rec, hrec, State.nextCount, hsame.plk]
    rfl
  · rw [← hsame.plk]
    rfl
  · rw [← hsame.plk, ← frameOf_congr hsame]
    rfl
  · exact framed_trans (framed_mono (by simp) (by decide) hf) (framed_mono (by simp) (by decide) (withFrames_framed a r m false))

/-- A shot that is not complete is withheld, and a HOLD frame of it goes on every lane. -/
theorem takePoint_withholds (hz : s.b.sht.frozen = (k, edge) :: rest) (hk : k < (s.b.sht.runStart : Int)) (hd : s.dev ≠ .racking)
    (h : s.Takeable r (k + 2).toNat) (hc : s.completeAt (k + 2).toNat = false) (hfirst : s.b.sht.first ≤ (k + 2).toNat) :
    ∃ t, exec .takePoint s = .next t ∧ (t.shotRec (k + 2).toNat).withheld.isSome = true ∧
      (List.range 64).map (frameOf s r (k + 2).toNat true) ⊆ t.b.plk.txq := by
  rw [takePoint_run hz hk hd]
  generalize (k + 2).toNat = m at *
  have hsame := atEdge_sameForFrames s edge rest
  have hfirst' : (s.atEdge edge rest).b.sht.first ≤ m := by rw [atEdge_sht]; exact hfirst
  generalize s.atEdge edge rest = a at *
  have ha := h.of_same hsame
  have hca : a.completeAt m = false := by rw [← hc, State.completeAt, State.slot, hsame.cask]; rfl
  obtain ⟨cause, hrun⟩ := takeShot_incomplete ha hca
  have hu := takeFrames_run (m := m) ha.run ha.injecting ha.swapHeld ha.count true
  rw [hrun]
  generalize (takeFrames m true).run a = u at *
  have hb : u.b = a.withFrames r m true := by rw [hu]
  have hrunning : u.run.isSome = true := by
    rw [State.run, hb]
    exact Option.isSome_iff_exists.mpr ⟨r, ha.run⟩
  have hw : u.Withholdable m := ⟨hrunning, by rw [hb]; exact hfirst', by rw [State.stoppedAt, hb]; exact ha.stoppedAt,
    by rw [State.heldFrom, hb]; exact ha.heldFrom⟩
  have htaken : (u.shotRec m).taken = true := by
    rw [shotRec_eq, hb, withFrames_rec]
    rfl
  refine ⟨_, rfl, withhold_withholds hw (.inr htaken) cause true,
    List.Subset.trans ?_ (checkScope_withhold u m cause true).rel.blocks.queued⟩
  rw [hb, ← frameOf_congr hsame]
  exact List.subset_append_right _ _

end

end Sys2Proof.Machine
end

section
/-! SUPPORT. Frames that are sent (R167, R169), and the statement on frames. -/

namespace Sys2Proof.Machine

variable {s t : State} {f : TxFrame} {lane : Fin 64}

/-! ### A frame that is sent (R169, R192) -/

/-- A frame is of the shot that has an index and whose frames of this COUNT are being sent. -/
def State.ownsFrame (s : State) (f : TxFrame) : Bool :=
  (s.shotRec f.shot).taken && (s.shotRec f.shot).count == f.count && f.shot != 0xFFFFFFFF

/-- The record of a shot once one lane has sent its frame. -/
def ShotRec.sendOn (lane : Nat) (x : ShotRec) : ShotRec := { x with unsent := x.unsent.filter fun n => n != lane }

/-- A frame leaves its lane and is booked, and its shot's record shows it. -/
def leaveLane (lane : Nat) (f : TxFrame) (own : Bool) : Act :=
  acts [onPlk fun p => { p with txq := p.txq.erase f }, emitFrame f, setR R.PLK_COUNT f.count, bookOut .frame 1,
    on own (putRec f.shot (ShotRec.sendOn lane))]

/-- What follows a frame that has left its lane: its send check, and the vote on its shot. -/
def afterFrame (f : TxFrame) (own error : Bool) : Act :=
  acts [on (error && !f.hold) (sramErrorAt 5 true),
    on ((own || f.corrupted) && f.failsCheck error) (sendCheckFailed f.shot (own && !f.hold)), on own (tryVote f.shot)]

theorem frameSent_run (h : s.b.plk.txq.find? (fun x => x.lane == lane.val) = some f) (error : Bool) :
    exec (.frameSent lane error) s = .next
      ((afterFrame f (s.ownsFrame f) error).run ((leaveLane lane f (s.ownsFrame f)).run { s with out := [] })) := by
  have h' : ({ s with out := [] } : State).b.plk.txq.find? (fun x => x.lane == lane.val) = some f := h
  show execFrameSent lane error s = _
  rw [execFrameSent, perform_eq, run_dyn]
  simp only [h', leaveLane, afterFrame, run_acts_cons, run_acts_nil]
  rfl

theorem within_leaveLane (lane : Nat) (f : TxFrame) (own : Bool) :
    (leaveLane lane f own).Within [R.PLK_COUNT].contains [.out, .bPlk, .bSht, .ledFrame] :=
  within_cons (within_onPlk (by decide)) (within_cons (within_on (within_emit (by decide))) (within_cons (within_setR (by decide))
    (within_cons (within_bookOut (by decide)) (within_cons (within_on
      (within_dyn fun _ => within_ite (within_onSht (by decide)) (within_onSht (by decide)))) within_nil))))

/-- What a frame that leaves its lane shows of itself. -/
theorem leaveLane_effect (s : State) (lane : Nat) (own : Bool) (hf : f.inj.1 = 0) :
    ((leaveLane lane f own).run s).out = s.out ++ [.frame f.lane f.wire] ∧
      ((leaveLane lane f own).run s).b.plk.txq = s.b.plk.txq.erase f ∧
      ((leaveLane lane f own).run s).led.frame = s.led.frame.book (.leave 1) ∧
      ((leaveLane lane f own).run s).rd R.PLK_COUNT = f.count % 2 ^ 32 ∧
      ((leaveLane lane f own).run s).b.sht = if own then s.b.sht.put f.shot (ShotRec.sendOn lane) else s.b.sht := by
  have hemit : (f.inj.1 != 1) = true := by simp [hf]
  rw [leaveLane, emitFrame, hemit, on_true]
  simp only [run_acts_cons, run_acts_nil]
  have hcount := fun u : State => rd_setR_same (s := u) R.PLK_COUNT f.count
  cases own with
  | false => exact ⟨rfl, rfl, rfl, hcount _, rfl⟩
  | true =>
    rw [on_true, run_putRec]
    exact ⟨rfl, rfl, rfl, hcount _, rfl⟩

/-- A frame whose check holds is followed by the vote on its shot alone. -/
theorem afterFrame_ok (s : State) (own : Bool) (hf : f.inj.1 = 0) (hsig : f.hold = true ∨ f.linkSig = f.sig) :
    (afterFrame f own false).run s = (on own (tryVote f.shot)).run s := by
  have hcorrupted : f.corrupted = false := by simp [TxFrame.corrupted, hf]
  have hcheck : f.failsCheck false = false := by
    rcases hsig with h | h <;> simp [TxFrame.failsCheck, hcorrupted, h]
  simp only [afterFrame, hcheck, Bool.and_false, Bool.false_and, on_false, run_acts_cons, run_acts_nil, run_nop]

/-! ### The vote of a device that is not of a pair (R164, R227) -/

/-- A shot that settles alone: it stands open, and all its frames are sent without an error (R167). -/
structure State.SettlesAlone (s : State) (k : Nat) : Prop where
  verdict : (s.shotRec k).verdict = none
  sealed : (s.shotRec k).sealed = none
  heldFrom : s.heldFrom k = false
  stoppedAt : s.stoppedAt k = false
  allSent : (s.shotRec k).allSent = true
  det : (s.shotRec k).det = none

theorem tryVote_unpaired (hp : s.paired = false) (k : Nat) : (tryVote k).run s = (settle k).run s := by
  rw [tryVote, run_dyn]
  simp [hp]

/-- A shot of a device that is not of a pair settles SOLO or stays open. -/
theorem settle_unpaired (hp : s.paired = false) (k : Nat) :
    (settle k).run s = s ∨ (settle k).run s = (putRec k fun y => { y with verdict := some 3 }).run s := by
  rw [settle, run_dyn]
  have hv : s.verdictOf (s.shotRec k) = none ∨ s.verdictOf (s.shotRec k) = some 3 := by
    simp only [State.verdictOf, hp, Bool.not_false, if_true]
    split <;> simp
  dsimp only
  rw [run_ite]
  split
  · exact .inl rfl
  · rcases hv with hv | hv
    · exact .inl (by rw [hv, hp]; rfl)
    · exact .inr (by rw [hv]; rfl)

theorem settle_solo (hp : s.paired = false) {k : Nat} (h : s.SettlesAlone k) :
    (settle k).run s = (putRec k fun y => { y with verdict := some 3 }).run s := by
  have hv : s.verdictOf (s.shotRec k) = some 3 := by simp [State.verdictOf, hp, h.allSent, h.det]
  rw [settle, run_dyn]
  simp only [h.verdict, h.sealed, h.heldFrom, h.stoppedAt, Option.isSome_none, Bool.or_self, Bool.false_eq_true, if_false, hv]
  rfl

theorem tryVote_unpaired_framed (hp : s.paired = false) (k : Nat) : framed (fun _ => false) [.bSht] s ((tryVote k).run s) := by
  rw [tryVote_unpaired hp]
  rcases settle_unpaired hp k with h | h
  · rw [h]
    exact framed_refl _ _ s
  · rw [h]
    exact (within_dyn fun _ => within_ite (within_onSht (by decide)) (within_onSht (by decide)) :
      (putRec k fun y => { y with verdict := some 3 }).Within _ _) s

/-! ### The frame that ends a shot, and the frame whose check fails -/

/-- A frame that is sent leaves its lane's queue and is booked, on a device that is not of a pair. -/
theorem frameSent_books (h : s.b.plk.txq.find? (fun x => x.lane == lane.val) = some f) (hp : s.paired = false) (hf : f.inj.1 = 0)
    (hsig : f.hold = true ∨ f.linkSig = f.sig) :
    ∃ t, exec (.frameSent lane false) s = .next t ∧ t.out = [.frame lane f.wire] ∧
      t.b.plk.txq = s.b.plk.txq.erase f ∧ t.led.frame = s.led.frame.book (.leave 1) ∧ t.rd R.PLK_COUNT = f.count % 2 ^ 32 ∧
      (s.ownsFrame f = true → (s.shotRec f.shot).unsent = [lane.val] → (s.shotRec f.shot).det = none →
        (s.shotRec f.shot).verdict = none → (s.shotRec f.shot).sealed = none → s.heldFrom f.shot = false →
        s.stoppedAt f.shot = false → (t.shotRec f.shot).unsent = [] ∧ (t.shotRec f.shot).verdict = some 3) ∧
      plainFrame [R.PLK_COUNT] [.bPlk, .bSht, .ledFrame] s t := by
  have hlane : f.lane = lane.val := by simpa using List.find?_some h
  obtain ⟨hout, htxq, hled, hcount, hsht⟩ := leaveLane_effect { s with out := [] } lane.val (s.ownsFrame f) hf
  have hleave := within_leaveLane lane.val f (s.ownsFrame f) { s with out := [] }
  rw [frameSent_run h, afterFrame_ok _ _ hf hsig]
  generalize (leaveLane lane f (s.ownsFrame f)).run { s with out := [] } = u at *
  have hpu : u.paired = false := by rw [State.paired, hleave.2.2 .role (by decide)]; exact hp
  have hvote : framed (fun _ => false) [.bSht] u ((on (s.ownsFrame f) (tryVote f.shot)).run u) := by
    cases s.ownsFrame f with
    | false => exact framed_refl _ _ u
    | true => exact tryVote_unpaired_framed hpu f.shot
  refine ⟨_, rfl, (hvote.2.2 .out (by decide)).trans (by rw [hout, hlane]; rfl),
    (congrArg PlateBlk.txq (hvote.2.2 .bPlk (by decide))).trans htxq, (hvote.2.2 .ledFrame (by decide)).trans hled,
    (hvote.2.1 _ rfl).trans hcount, fun hown hunsent hdet hverdict hsealed hheld hstop => ?_, ?_⟩
  · rw [hown, if_pos rfl] at hsht
    have hrec : u.shotRec f.shot = (s.shotRec f.shot).sendOn lane := by
      have hput := s.b.sht.rec_put f.shot f.shot (f := ShotRec.sendOn lane) fun _ => rfl
      rw [if_pos rfl] at hput
      rw [shotRec_eq, hsht]
      exact hput
    have hempty : ((s.shotRec f.shot).sendOn lane).unsent = [] := by simp [ShotRec.sendOn, hunsent]
    have htaken : (s.shotRec f.shot).taken = true := by
      simp only [State.ownsFrame, Bool.and_eq_true] at hown
      exact hown.1.1
    have hsettles : u.SettlesAlone f.shot := {
      verdict := by rw [hrec]; exact hverdict
      sealed := by rw [hrec]; exact hsealed
      heldFrom := by rw [State.heldFrom, hsht]; exact hheld
      stoppedAt := by rw [State.stoppedAt, hsht]; exact hstop
      allSent := by rw [hrec, ShotRec.allSent, hempty]; simpa [ShotRec.sendOn] using htaken
      det := by rw [hrec]; exact hdet }
    rw [hown, on_true, tryVote_unpaired hpu, settle_solo hpu hsettles, run_putRec, shotRec_eq,
      ShotBlk.rec_put _ _ _ (by exact fun _ => rfl), if_pos rfl]
    exact ⟨by rw [← hempty, ← hrec]; rfl, rfl⟩
  · exact framed_clear s (by decide) (framed_trans hleave (framed_mono (by simp) (by decide) hvote))

/-- An uncorrectable error in an SRAM raises its event, and is not a failed send check. -/
theorem sramErrorAt_uncorrectable (s : State) (array : Nat) :
    ((sramErrorAt array true).run s).raised E.MEM_SRAM_UE = true ∧
      ((sramErrorAt array true).run s).rd R.PLK_SENDCHK_CNT = s.rd R.PLK_SENDCHK_CNT := by
  rw [sramErrorAt, run_dyn, run_seq]
  generalize Config.unstated 12 s.fresh = word
  have herror : (sramError array word true).Within (fun a => eventRegs a || [R.MEM_SRAM_UE_CNT, R.MEM_SRAM_LOC].contains a)
      (eventParts ++ []) := within_sramError eventFrame_allows (by decide) (by decide)
  exact ⟨(sramError_uncorrectable _ array word).2.2, (herror _).2.1 R.PLK_SENDCHK_CNT (by decide)⟩

/-- A failed send check is counted and raised, whatever comes of it. -/
theorem sendCheckFailed_effect (s : State) (k : Nat) (mine : Bool) :
    ((sendCheckFailed k mine).run s).rd R.PLK_SENDCHK_CNT = (s.rd R.PLK_SENDCHK_CNT + 1) % 2 ^ 32 ∧
      ((sendCheckFailed k mine).run s).raised E.PLK_SEND_CHECK = true ∧ s.keepsRaised ((sendCheckFailed k mine).run s) := by
  rw [sendCheckFailed, run_dyn, run_acts_cons, run_acts_cons, run_acts_cons, run_acts_nil]
  have hraise : checkScope.Rel ((addR R.PLK_SENDCHK_CNT 1).run s)
    ((raise E.PLK_SEND_CHECK).run ((addR R.PLK_SENDCHK_CNT 1).run s)) := (allows_raise _ _ _).rel
  have hraised : ((raise E.PLK_SEND_CHECK).run ((addR R.PLK_SENDCHK_CNT 1).run s)).raised E.PLK_SEND_CHECK = true :=
    raise_raised (by decide) _
  have hcount : ((addR R.PLK_SENDCHK_CNT 1).run s).rd R.PLK_SENDCHK_CNT = (s.rd R.PLK_SENDCHK_CNT + 1) % 2 ^ 32 :=
    rd_addR_same _ _ _
  have hkeeps : s.keepsRaised ((addR R.PLK_SENDCHK_CNT 1).run s) := fun _ _ h => h
  generalize (addR R.PLK_SENDCHK_CNT 1).run s = u at *
  generalize (raise E.PLK_SEND_CHECK).run u = v at *
  have hrest : checkScope.Allows (on (mine && decide (s.b.sht.first ≤ k) && s.run.isSome)
      (if s.solo then withhold k 6 true else detectError k 2)) v := by
    simp [checkScope_withhold, checkScope_detectError]
  exact ⟨(hrest.rel.rd _ (by decide)).trans ((hraise.rd _ (by decide)).trans hcount), hrest.rel.raised _ (by decide) hraised,
    fun e he h => hrest.rel.raised e he (hraise.raised e he (hkeeps e he h))⟩

/-- An internal error in a frame of a shot counts as a failed send check. -/
theorem frameSent_fails (h : s.b.plk.txq.find? (fun x => x.lane == lane.val) = some f) (hf : f.hold = false)
    (hown : s.ownsFrame f = true) :
    ∃ t, exec (.frameSent lane true) s = .next t ∧ t.rd R.PLK_SENDCHK_CNT = (s.rd R.PLK_SENDCHK_CNT + 1) % 2 ^ 32 ∧
      t.raised E.PLK_SEND_CHECK = true ∧ t.raised E.MEM_SRAM_UE = true := by
  have hcheck : f.failsCheck true = true := by simp [TxFrame.failsCheck, hf]
  have hleave : ((leaveLane lane f (s.ownsFrame f)).run { s with out := [] }).rd R.PLK_SENDCHK_CNT = s.rd R.PLK_SENDCHK_CNT :=
    (within_leaveLane lane.val f (s.ownsFrame f) { s with out := [] }).2.1 _ (by decide)
  rw [frameSent_run h]
  refine ⟨_, rfl, ?_⟩
  generalize (leaveLane lane f (s.ownsFrame f)).run { s with out := [] } = u at *
  rw [afterFrame, hown, hcheck, hf]
  simp only [Bool.not_false, Bool.and_true, Bool.true_or, on_true, run_acts_cons, run_acts_nil]
  obtain ⟨herror, hcount⟩ := sramErrorAt_uncorrectable u 5
  generalize (sramErrorAt 5 true).run u = v at *
  obtain ⟨hfailed, hraised, hkeeps⟩ := sendCheckFailed_effect v f.shot true
  have hvote := (checkScope_tryVote ((sendCheckFailed f.shot true).run v) f.shot).rel
  exact ⟨by rw [hvote.rd _ (by decide), hfailed, hcount, hleave], hvote.raised _ (by decide) hraised,
    hvote.raised _ (by decide) (hkeeps _ (by decide) herror)⟩

/-- A frame that a swap held back alone goes on its lane. -/
theorem swapHoldExpiry_releases (s : State) (lane : Fin 64) : ∃ t, exec (.swapHoldExpiry lane) s = .next t ∧
    t.b.plk.txq = s.b.plk.txq ++ (s.b.plk.swapHeld.filter fun f => f.lane == lane.val) ∧
    (∀ f ∈ t.b.plk.swapHeld, f.lane ≠ lane.val) ∧ plainFrame [] [.bPlk] s t := by
  refine ⟨_, rfl, rfl, fun f hf => ?_, plainFrame_run s (within_onPlk (by decide))⟩
  have hkept : f ∈ s.b.plk.swapHeld.filter fun f => f.lane != lane.val := hf
  simpa using (List.mem_filter.mp hkept).2

/-- Settles O30: take points, frames that are sent, and frames that a swap held back. -/
theorem framesAreTakenSentAndBooked : Obligations.FramesAreTakenSentAndBooked := by
  refine fun s => ⟨fun k edge rest r c m hz hk hd hr hcap hm hshots hstop hinj hswap hcount => ?_, fun lane f h => ⟨?_, ?_⟩,
    swapHoldExpiry_releases s⟩
  · subst hm
    have take : s.heldFrom (k + 2).toNat = false → s.b.par.wdSelf = false → (s.shotRec (k + 2).toNat).det = none →
        s.Takeable r (k + 2).toNat := fun hheld hwd hdet =>
      ⟨hr, by rw [hcap]; rfl, hshots, hstop, hheld, hwd, hdet, hinj, hswap, hcount⟩
    refine ⟨fun x hx hready hheld hwd hdet => ?_, fun hslot hfirst hheld hwd hdet => ?_⟩
    · obtain ⟨t, hrun, hfrozen, hnext, hrec, hcounts, hqueue, hframe⟩ :=
        takePoint_takes hz hk hd (take hheld hwd hdet) (by rw [State.completeAt, hx]; exact hready)
      exact ⟨t, hrun, hfrozen, hnext, congrArg ShotRec.taken hrec, congrArg ShotRec.hold hrec, congrArg ShotRec.count hrec,
        congrArg ShotRec.unsent hrec, hcounts, hqueue, hframe⟩
    · obtain ⟨t, hrun, hwithheld, hframes⟩ :=
        takePoint_withholds hz hk hd (take hheld hwd hdet) (by rw [State.completeAt, hslot]) hfirst
      exact ⟨t, hrun, hwithheld, fun lane hlane => ⟨frameOf s r (k + 2).toNat true lane,
        hframes (List.mem_map_of_mem (List.mem_range.mpr hlane)), rfl, rfl, rfl⟩⟩
  · intro hp hf hsig
    obtain ⟨t, hrun, hout, hqueue, hled, hcount, hsettles, hframe⟩ := frameSent_books h hp hf hsig
    refine ⟨t, hrun, hout, hqueue, hled, hcount, ?_, hframe⟩
    rintro x rfl hshot htaken hx hunsent hdet hverdict hsealed hheld hstop
    exact hsettles (by simp [State.ownsFrame, htaken, hx, hshot]) hunsent hdet hverdict hsealed hheld hstop
  · intro hf hshot htaken hcount
    exact frameSent_fails h hf (by simp [State.ownsFrame, htaken, hcount, hshot])

end Sys2Proof.Machine
end

section
/-! SUPPORT. O32 fails where the wiring table feeds a plate input from a ball lane that the link does not have: the lane's count of
CRC errors would then stand at the address of another count, which the event that the record raises may advance. -/

namespace Sys2Proof.Machine

/-- A READY device that sends PLK.FOM_LOW to a host on NET0, where an injection drops the next message (R324, R431), and whose
wiring table feeds plate input 63 from ball lane 190. -/
def overlaid : State :=
  (acts [setB (F.EVT_ROUTE_MSG (evtSource 0x90 3)) true, setB (F.NET_STAT_LINK 0) true, setB (F.NET_CFG_V6 0) true,
    setB F.FIJ_ARM_ARM true, setB (pageCtrl 0xC0 3) true, setF (F.NET_FIJ_CFG_KIND 0) 1, setB (F.NET_FIJ_CFG_ALL 0) true]).run
    { State.reset with
      dev := .ready, prevDev := .reset, evt := { en := [(0x90, 8)] }
      b := { plk := { ballOf := [(63, 190)] }, net := { partners := [⟨0, 0, 1, 0, 1, 0, 0, 0, 0, 0⟩] } } }

/-- The counterexample keeps the invariant that every step keeps. -/
theorem overlaid_inv : overlaid.Inv := ⟨rfl, by decide +kernel, rfl⟩

/-- The count of CRC errors of lane 190 would be that of the injections made on NET0. -/
theorem lqCrcErr_overlaid : R.LQ_CRC_ERR (overlaid.feeds 63) = R.NET_FIJ_DONE 0 ∧ overlaid.rd (R.NET_FIJ_DONE 0) = 0 := by
  decide +kernel

/-- The record is a LANE_STAT of input 63 with no CRC errors (R174). -/
theorem lockRecord_reports : recordOk lockRecord.toNat = true ∧ recKind lockRecord.toNat = 2 ∧
    recBits lockRecord.toNat 54 6 = 63 ∧ recBits lockRecord.toNat 28 8 = 0 := by decide +kernel

/-- The record's figure of merit raises FOM_LOW, whose message the injection drops and counts. -/
theorem laneStat_overlaid : ∃ t, exec (.laneStat lockRecord) overlaid = .next t ∧ t.rd (R.NET_FIJ_DONE 0) = 1 :=
  ⟨_, rfl, by decide +kernel⟩

/-- Refutes O32: a LANE_STAT record adds its CRC errors at the count's address of the ball lane that the wiring table names. For lane
190 that address is NET_FIJ_DONE of NET0, which an injection that the record's own event meets advances afterwards. No command
makes such a table, but the statement is on every state, and does not rule one out. -/
theorem not_returnRecordsAreShownCountedAndActedOn : ¬ Obligations.ReturnRecordsAreShownCountedAndActedOn := by
  intro h
  obtain ⟨hok, hkind, hinput, herrors⟩ := lockRecord_reports
  obtain ⟨hreg, hbefore⟩ := lqCrcErr_overlaid
  obtain ⟨-, -, -, -, lanes, -⟩ := h overlaid
  obtain ⟨t, ht, -, hcount, -⟩ := lanes lockRecord (by decide +kernel) hok hkind
  obtain ⟨u, hu, hdone⟩ := laneStat_overlaid
  obtain rfl : t = u := Host.Outcome.next.inj (ht.symm.trans hu)
  rw [hinput, hreg, herrors, hbefore, hdone] at hcount
  exact absurd hcount (by decide)

end Sys2Proof.Machine
end

section
/-! SUPPORT. Bring-up of the plate link and its injections (R178, R181, R191), and the statement on them. -/

namespace Sys2Proof.Machine

variable {s t : State}

/-! ### Fields of a masked write (R11) -/

theorem Fld.get_and (f : Fld) (x y : Nat) : f.get (x &&& y) = f.get x &&& f.get y := by
  simp only [Fld.get, ← Nat.shiftRight_eq_div_pow, Nat.shiftRight_and_distrib, Nat.and_mod_two_pow]

theorem Fld.get_or (f : Fld) (x y : Nat) : f.get (x ||| y) = f.get x ||| f.get y := by
  simp only [Fld.get, ← Nat.shiftRight_eq_div_pow, Nat.shiftRight_or_distrib, Nat.or_mod_two_pow]

theorem Fld.get_mod (f : Fld) {n : Nat} (hf : f.lo + f.width ≤ n) (x : Nat) : f.get (x % 2 ^ n) = f.get x := by
  obtain ⟨k, rfl⟩ := Nat.exists_eq_add_of_le hf
  rw [Fld.get, Nat.add_assoc, pow_add, Nat.mod_mul_right_div_self, pow_add, Nat.mod_mul_right_mod, Fld.get]

/-- A field that lies wholly in the mask of a write reads as written. -/
theorem fld_writeBits_of_mask (s : State) {f : Fld} {mask : Nat} (hf : f.lo + f.width ≤ 32) (hin : f.get mask = 2 ^ f.width - 1)
    (hout : f.get (0xFFFFFFFF - mask) = 0) (w : Word) : ((writeBits f.addr mask w).run s).fld f = f.get w.toNat := by
  have hmod : f.get w.toNat % 2 ^ f.width = f.get w.toNat := Nat.mod_mod _ _
  rw [writeBits, run_dyn, State.fld, rd_setR_same, f.get_mod hf]
  show f.get (s.rd f.addr &&& (0xFFFFFFFF - mask) ||| w.toNat &&& mask) = _
  rw [f.get_or, f.get_and, f.get_and, hout, hin, Nat.and_zero, Nat.zero_or, Nat.and_two_pow_sub_one_eq_mod, hmod]

/-! ### Steps of a bring-up (R178) -/

section
variable {rg : Nat → Bool} {ps : List Part} (ok : AllowsEvents rg ps) (hstat : rg R.PLK_STAT = true) (hplk : .bPlk ∈ ps)
include ok hstat hplk

theorem within_stepSetup (step : Nat) : (stepSetup step).Within rg ps :=
  within_dyn fun _ => within_cons (within_setF hstat) (within_cons (within_onPlk hplk) (within_cons (within_on (within_onPlk hplk))
    (within_cons (within_on (within_dyn fun _ => within_onPlk hplk)) (within_cons (within_emit (ok.2 _ (by decide))) within_nil))))

theorem within_bringupDone : bringupDone.Within rg ps :=
  within_cons (within_onPlk hplk) (within_cons (within_setF hstat) (within_cons (within_emit (ok.2 _ (by decide)))
    (within_cons (within_raise ok) within_nil)))

theorem within_stepPassed (fuel : Nat) : (stepPassed fuel).Within rg ps := by
  induction fuel with
  | zero => exact within_nop
  | succ fuel ih =>
    refine within_dyn fun s => ?_
    split
    · exact within_bringupDone ok hstat hplk
    · exact within_seq (within_onPlk hplk) (within_seq (within_stepSetup ok hstat hplk _) (within_on ih))

theorem within_startBringup (steps : List Nat) : (startBringup steps).Within rg ps :=
  within_seq (within_onPlk hplk) (within_stepPassed ok hstat hplk 2)

theorem within_linkIdle : linkIdle.Within rg ps :=
  within_cons (within_onPlk hplk) (within_cons (within_setF hstat) (within_cons (within_emit (ok.2 _ (by decide))) within_nil))

end

/-- A bring-up shows the step that runs, and has the given steps before it. -/
def State.bringsUp (s : State) (running : Nat) (steps : List Nat) : Prop :=
  s.fld F.PLK_STAT_BRINGUP = running ∧ s.b.plk.steps = steps

/-- A step that starts shows itself, and leaves the steps to come as they are. -/
theorem stepSetup_bringsUp (s : State) {step : Nat} (h : step < 16) : ((stepSetup step).run s).bringsUp step s.b.plk.steps := by
  have hstep : ((setF F.PLK_STAT_BRINGUP step).run s).fld F.PLK_STAT_BRINGUP = step := by
    rw [fld_setF_same _ _ _ (by decide)]
    exact Nat.mod_eq_of_lt h
  rw [stepSetup, run_dyn]
  simp only [run_acts_cons, run_acts_nil]
  cases step == 3 <;> cases step == 5 <;> exact ⟨hstep, rfl⟩

/-- The step after one that has passed starts; step 1 passes at once while all return lanes are locked. -/
theorem stepPassed_next {done next : Nat} {more : List Nat} (hs : s.b.plk.steps = done :: next :: more) (hn : next < 16)
    (fuel : Nat) : ∃ u : State, u.bringsUp next (next :: more) ∧
      (stepPassed (fuel + 1)).run s = if next = 1 ∧ 4 ≤ s.b.plk.retLock.length then (stepPassed fuel).run u else u := by
  have hpass : on (next == 1 && decide (4 ≤ s.b.plk.retLock.length)) (stepPassed fuel) =
      if next = 1 ∧ 4 ≤ s.b.plk.retLock.length then stepPassed fuel else .nop := by simp [on]
  refine ⟨_, stepSetup_bringsUp ((onPlk fun x => { x with steps := next :: more }).run s) hn, ?_⟩
  rw [stepPassed, run_dyn, hs]
  dsimp only [List.tail_cons]
  rw [hpass, run_seq, run_seq, run_ite, run_nop]

/-- A bring-up starts at step 1, or at step 2 while all return lanes are locked (R178, R181). -/
theorem startBringup_bringsUp (s : State) (rest : List Nat) : ((startBringup (1 :: 2 :: rest)).run s).bringsUp
    (if 4 ≤ s.b.plk.retLock.length then 2 else 1) (if 4 ≤ s.b.plk.retLock.length then 2 :: rest else 1 :: 2 :: rest) := by
  obtain ⟨u, hfirst, hrun⟩ := stepPassed_next
    (s := (onPlk fun x => { x with steps := 0 :: 1 :: 2 :: rest, adapt := [] }).run s) rfl (by decide) 1
  rw [startBringup, run_seq, hrun]
  by_cases h : 4 ≤ s.b.plk.retLock.length
  · obtain ⟨v, hsecond, hpass⟩ := stepPassed_next hfirst.2 (by decide) 0
    rw [if_pos h, if_pos h, if_pos ⟨rfl, h⟩, hpass, if_neg (by simp)]
    exact hsecond
  · rw [if_neg h, if_neg h, if_neg fun hboth => h hboth.2]
    exact hfirst

/-! ### The commands of PLK_CMD (R178, R181) -/

/-- In READY a command of a page that is reached has its effect while no bring-up runs, and ABORT whether or not one runs. -/
theorem plkCmd_run (hr : s.reaches 0x90 = true) (hd : s.dev = .ready) {cmd : Nat} (hs : s.b.plk.steps = [] ∨ cmd = 4) (a : Act) :
    perform (plkCmd cmd a) s = .next (a.run (s.served 0x90)) := by
  have hready : ((s.served 0x90).dev != .ready) = false := by simp [hd]
  have hidle : ((s.served 0x90).bringing && cmd != 4) = false := by
    rcases hs with hs | rfl <;> simp [State.bringing, *]
  rw [plkCmd, perform_toPage s _ _ hr, run_dyn, hready, hidle]
  rfl

/-- TRAIN in READY (R178). -/
theorem train_starts (hr : s.reaches 0x90 = true) (hd : s.dev = .ready) (hs : s.b.plk.steps = []) :
    ∃ t, exec .train s = .next t ∧ t.bringsUp (if 4 ≤ s.b.plk.retLock.length then 2 else 1)
      (if 4 ≤ s.b.plk.retLock.length then [2, 3, 4, 5, 6] else [1, 2, 3, 4, 5, 6]) ∧ accessFrame [R.PLK_STAT] [.bPlk] s t := by
  have hstarts := startBringup_bringsUp (s.served 0x90) [3, 4, 5, 6]
  rw [served_plk] at hstarts
  exact ⟨_, plkCmd_run hr hd (.inl hs) _, hstarts,
    accessFrame_run s 0x90 (within_startBringup (accessFrame_allows s) (by decide) (by simp) _)⟩

/-- RELOCK in READY puts aside the wiring that step 3 decoded, and starts (R181). -/
theorem relock_starts (hr : s.reaches 0x90 = true) (hd : s.dev = .ready) (hs : s.b.plk.steps = []) :
    ∃ t, exec .relock s = .next t ∧ t.bringsUp (if 4 ≤ s.b.plk.retLock.length then 2 else 1)
      (if 4 ≤ s.b.plk.retLock.length then [2, 4, 6] else [1, 2, 4, 6]) ∧ accessFrame [R.PLK_STAT] [.bPlk] s t := by
  have hstarts := startBringup_bringsUp ((onPlk fun x => { x with ballOf := [] }).run (s.served 0x90)) [4, 6]
  have hlock : ((onPlk fun x => { x with ballOf := [] }).run (s.served 0x90)).b.plk.retLock = s.b.plk.retLock := by
    rw [← served_plk s 0x90]
    rfl
  rw [hlock] at hstarts
  exact ⟨_, plkCmd_run hr hd (.inl hs) _, hstarts, accessFrame_run s 0x90 (within_seq (within_onPlk (by simp))
    (within_startBringup (accessFrame_allows s) (by decide) (by simp) _))⟩

/-- A link that returns to IDLE (R193). -/
theorem linkIdle_idles (s : State) : (linkIdle.run s).bringsUp 0 [] ∧ .lanes 0 ∈ (linkIdle.run s).out := by
  refine ⟨⟨?_, rfl⟩, List.mem_append_right _ (List.mem_singleton.mpr rfl)⟩
  exact fld_setF_same ((onPlk fun x => { x with steps := [], adapt := [] }).run s) F.PLK_STAT_BRINGUP 0 (by decide)

/-- IDLE in READY (R193). -/
theorem idle_idles (hr : s.reaches 0x90 = true) (hd : s.dev = .ready) (hs : s.b.plk.steps = []) :
    ∃ t, exec .idle s = .next t ∧ t.fld F.PLK_STAT_BRINGUP = 0 ∧ .lanes 0 ∈ t.out ∧ accessFrame [R.PLK_STAT] [.bPlk] s t := by
  obtain ⟨⟨hshown, -⟩, hout⟩ := linkIdle_idles (s.served 0x90)
  exact ⟨_, plkCmd_run hr hd (.inl hs) _, hshown, hout,
    accessFrame_run s 0x90 (within_linkIdle (accessFrame_allows s) (by decide) (by simp))⟩

/-- ABORT in READY returns the link to IDLE where a bring-up runs, and does nothing where none runs (R181). -/
theorem bringupAbort_aborts (hr : s.reaches 0x90 = true) (hd : s.dev = .ready) :
    ∃ t, exec .bringupAbort s = .next t ∧ t.b.plk.steps = [] ∧
      t.fld F.PLK_STAT_BRINGUP = (if s.b.plk.steps = [] then s.bringup else 0) ∧ accessFrame [R.PLK_STAT] [.bPlk] s t := by
  have hframe := accessFrame_run (a := .dyn fun s => on s.bringing linkIdle) (regs := [R.PLK_STAT]) (parts := [.bPlk]) s 0x90
    (within_dyn fun _ => within_on (within_linkIdle (accessFrame_allows s) (by decide) (by simp)))
  have hsame : (s.served 0x90).bringing = s.bringing := by rw [State.bringing, served_plk, State.bringing]
  refine ⟨_, plkCmd_run hr hd (.inr rfl) _, ?_⟩
  rw [run_dyn, hsame] at *
  by_cases hs : s.b.plk.steps = []
  · rw [if_pos hs, on_neg (by simp [State.bringing, hs]), run_nop] at *
    exact ⟨by rw [served_plk, hs], served_fld _ _ _ (by decide), hframe⟩
  · rw [if_neg hs, on_pos (by simp [State.bringing, hs])] at *
    obtain ⟨⟨hshown, hsteps⟩, -⟩ := linkIdle_idles (s.served 0x90)
    exact ⟨hsteps, hshown, hframe⟩

/-- The commands of PLK_CMD, by their numbers (R193). -/
theorem plkCommands_plkCmd (s : State) : ∀ c ∈ [(Instr.train, 1), (.relock, 2), (.idle, 3), (.bringupAbort, 4)],
    c.2 < 256 ∧ ∃ a, exec c.1 s = perform (plkCmd c.2 a) s := by
  simp only [List.forall_mem_cons, List.not_mem_nil, false_imp_iff, implies_true, and_true]
  exact ⟨⟨by decide, _, rfl⟩, ⟨by decide, _, rfl⟩, ⟨by decide, _, rfl⟩, by decide, _, rfl⟩

/-- A command that its page's state does not allow is recorded in TOP_REFUSE, and REQ_REFUSED is raised (R424, R436). -/
theorem refuseCmd_refuses (s : State) (reg : Nat) {cmd : Nat} (hp : reg / 0x1000 < 256) (hc : cmd < 256) :
    ((refuseCmd reg cmd).run s).rd R.TOP_REFUSE = reg / 0x1000 * 2 ^ 24 + cmd * 2 ^ 16 + 0x10 * 2 ^ 8 + s.dev.code ∧
      ((refuseCmd reg cmd).run s).raised E.TOP_REQ_REFUSED = true := by
  have hdev : ((err reg Err.refused).run s).dev = s.dev :=
    (within_errD (ps := []) (rg := fun _ => true) rfl rfl rfl s).2.2 .dev (by simp)
  have hcode : s.dev.code < 256 := by cases s.dev <;> decide
  rw [refuseCmd, run_seq, refuseState, run_dyn, hdev, refuse, run_acts_cons, run_acts_cons, run_acts_nil]
  refine ⟨?_, raise_raised (by decide) _⟩
  rw [raise_rd _ _ _ (by decide), rd_setR_same]
  omega

/-- Outside READY a command of PLK_CMD is refused (R21, R178). -/
theorem plkCmd_refused (hr : s.reaches 0x90 = true) (hd : s.dev ≠ .ready) {cmd : Nat} (hc : cmd < 256) (a : Act) :
    ∃ t, perform (plkCmd cmd a) s = .next t ∧ t.rd R.TOP_REFUSE = 0x90 * 2 ^ 24 + cmd * 2 ^ 16 + 0x10 * 2 ^ 8 + s.dev.code ∧
      t.raised E.TOP_REQ_REFUSED = true ∧
      accessFrame [R.TOP_REFUSE, pageReg 0x90 0x020, pageReg 0x90 0x024] [] s t := by
  have hrun : perform (plkCmd cmd a) s = .next ((refuseCmd R.PLK_CMD cmd).run (s.served 0x90)) := by
    have hstate : ((s.served 0x90).dev != .ready) = true := by simpa using hd
    rw [plkCmd, perform_toPage s _ _ hr, run_dyn, hstate]
    rfl
  obtain ⟨hrefuse, hraised⟩ := refuseCmd_refuses (s.served 0x90) R.PLK_CMD (by decide) hc
  rw [served_dev] at hrefuse
  exact ⟨_, hrun, hrefuse, hraised, accessFrame_run s 0x90 (within_seq (within_errD (page := 0x90) rfl (by decide) (by decide))
    (within_refuseState (accessFrame_allows s) (by decide)))⟩

/-! ### Injections (R191) -/

@[simp] theorem served_injecting (s : State) (page : Nat) : (s.served page).injecting 0x90 = s.injecting 0x90 := by
  rw [State.injecting, served_flag _ _ _ (by decide), served_rd _ _ _ (by decide), served_dev, State.injecting]

/-- A CORRUPT_POST of one lane is armed while injections are (R191). -/
theorem plkFijCfgWrite_arms (hr : s.reaches 0x90 = true) (hi : s.injecting 0x90 = true) {w : Word}
    (hkind : F.PLK_FIJ_CFG_KIND.get w.toNat = 3) (hall : F.PLK_FIJ_CFG_ALL.get w.toNat = 0) :
    ∃ t, exec (.plkFijCfgWrite w) s = .next t ∧ t.fld F.PLK_FIJ_CFG_KIND = 3 ∧
      t.b.plk.fijLeft = [(F.PLK_FIJ_CFG_LANE.get w.toNat, max 1 (s.rd R.PLK_FIJ_N))] ∧ accessFrame [R.PLK_FIJ_CFG] [.bPlk] s t := by
  have hrun : exec (.plkFijCfgWrite w) s = .next ((Act.seq (writeBits R.PLK_FIJ_CFG 0xFC00003F w) (onPlk fun x =>
      { x with fijLeft := [(F.PLK_FIJ_CFG_LANE.get w.toNat, max 1 (s.rd R.PLK_FIJ_N))] })).run (s.served 0x90)) := by
    have harmed : (s.served 0x90).injecting 0x90 = true := by rw [served_injecting, hi]
    show execPlkFijCfgWrite w s = _
    rw [execPlkFijCfgWrite, perform_toPage s _ _ hr, plkFijWrite, run_dyn, harmed, hkind, hall, served_rd _ _ _ (by decide)]
    dsimp only
    rw [if_neg (by decide), if_neg (by simp), if_neg (by decide)]
    rfl
  refine ⟨_, hrun, ?_, rfl, accessFrame_run s 0x90 (within_seq (within_writeBits (by decide)) (within_onPlk (by simp)))⟩
  exact (fld_writeBits_of_mask (s.served 0x90) (f := F.PLK_FIJ_CFG_KIND) (by decide) (by decide) (by decide) w).trans hkind

/-- With no injections armed a write that would arm one is an error (R191). -/
theorem plkFijCfgWrite_ignored (hr : s.reaches 0x90 = true) (hi : s.injecting 0x90 = false) {w : Word}
    (hkind : F.PLK_FIJ_CFG_KIND.get w.toNat ≠ 0) (hc : s.rd (pageReg 0x90 0x020) / 2 ^ 16 % 2 ^ 15 = 0) :
    ∃ t, exec (.plkFijCfgWrite w) s = .next t ∧ t.rd (pageReg 0x90 0x020) = 2 ^ 16 + Err.inject ∧
      accessFrame [pageReg 0x90 0x020, pageReg 0x90 0x024] [] s t := by
  have hrun : exec (.plkFijCfgWrite w) s = .next ((err R.PLK_FIJ_CFG Err.inject).run (s.served 0x90)) := by
    show execPlkFijCfgWrite w s = _
    rw [execPlkFijCfgWrite, perform_toPage s _ _ hr, plkFijWrite, run_dyn]
    dsimp only
    rw [if_neg hkind, if_pos (.inl (by rw [served_injecting, hi]))]
  have hcount : (s.served 0x90).rd (pageReg 0x90 0x020) / 2 ^ 16 % 2 ^ 15 = 0 := by rwa [served_rd _ _ _ (by decide)]
  exact ⟨_, hrun, (errD_first (s.served 0x90) (by decide) (by decide) (by decide) (by decide) hcount).1,
    accessFrame_run s 0x90 (within_errD (page := 0x90) rfl (by decide) (by decide))⟩

/-! ### A step that runs out of time (R178) -/

/-- A bring-up that fails shows its code and the input concerned. -/
theorem bringupFail_fails (s : State) {code : Nat} (hc : code < 16) (p : Nat) :
    ((bringupFail code p).run s).fld F.PLK_STAT_BRINGUP = 8 ∧ ((bringupFail code p).run s).fld F.PLK_STAT_ERR = code ∧
      ((bringupFail code p).run s).b.plk.steps = [] ∧ ((bringupFail code p).run s).rd (pageReg 0x90 0x024) = p % 2 ^ 32 ∧
      ((bringupFail code p).run s).raised E.PLK_BRINGUP_FAIL = true := by
  rw [bringupFail, plkErrInfo]
  simp only [run_acts_cons, run_acts_nil]
  refine ⟨?_, ?_, ?_, ?_, raise_raised (by decide) _⟩
  · rw [raise_fld _ _ _ (by decide), fld_setR_addr _ _ _ _ (by decide), fld_setF_bits _ _ _ _ (by decide) (by decide) (by decide),
      fld_setF_same _ _ _ (by decide)]
    rfl
  · rw [raise_fld _ _ _ (by decide), fld_setR_addr _ _ _ _ (by decide), fld_setF_same _ _ _ (by decide)]
    exact Nat.mod_eq_of_lt hc
  · rw [(raise_framed _ _).2.2 .bPlk (by decide)]
    rfl
  · rw [raise_rd _ _ _ (by decide), rd_setR_same]

theorem bringupStepTimeout_fails {step : Nat} {rest : List Nat} (hs : s.b.plk.steps = step :: rest) (hstep : step < 16) :
    ∃ t, exec .bringupStepTimeout s = .next t ∧ t.fld F.PLK_STAT_BRINGUP = 8 ∧ t.fld F.PLK_STAT_ERR = step ∧
      t.b.plk.steps = [] ∧ t.rd (pageReg 0x90 0x024) = s.stepInput step % 2 ^ 32 ∧ t.raised E.PLK_BRINGUP_FAIL = true ∧
      eventFrame [R.PLK_STAT, pageReg 0x90 0x024] [.bPlk] s t := by
  have hrun : exec .bringupStepTimeout s = .next ((bringupFail step (s.stepInput step)).run { s with out := [] }) := by
    have hs' : ({ s with out := [] } : State).b.plk.steps = step :: rest := hs
    show execBringupStepTimeout s = _
    rw [execBringupStepTimeout, perform_eq, run_dyn, hs']
    rfl
  obtain ⟨hshown, hcode, hsteps, hinput, hraised⟩ := bringupFail_fails { s with out := [] } hstep (s.stepInput step)
  exact ⟨_, hrun, hshown, hcode, hsteps, hinput, hraised, eventFrame_run s (within_cons (within_onPlk (by decide))
    (within_cons (within_setF (by decide)) (within_cons (within_setF (by decide)) (within_cons (within_setR (by decide))
      (within_cons (within_raise eventFrame_allows) within_nil)))))⟩

/-- Settles O33: each command of PLK_CMD in READY and outside it, injections armed and ignored, and a step's timeout. -/
theorem bringupCommandsAndPlateInjectionsTakeEffect : Obligations.BringupCommandsAndPlateInjectionsTakeEffect := by
  intro s
  refine ⟨fun hr => ⟨fun hd hs => ⟨?_, ?_⟩, idle_idles hr, bringupAbort_aborts hr, fun c hmem hd => ?_, fun w =>
      ⟨fun hi => plkFijCfgWrite_arms hr hi, fun hi => plkFijCfgWrite_ignored hr hi⟩⟩,
    fun step rest hs hstep => bringupStepTimeout_fails hs (by omega)⟩
  · obtain ⟨t, hrun, ⟨hshown, hsteps⟩, hframe⟩ := train_starts hr hd hs
    exact ⟨t, hrun, hshown, hsteps, hframe⟩
  · obtain ⟨t, hrun, ⟨hshown, hsteps⟩, hframe⟩ := relock_starts hr hd hs
    exact ⟨t, hrun, hshown, hsteps, hframe⟩
  · obtain ⟨hcmd, a, hexec⟩ := plkCommands_plkCmd s c hmem
    rw [hexec]
    exact plkCmd_refused hr hd hcmd a

end Sys2Proof.Machine
end

section
/-! SUPPORT. The four axes (R201 to R204, R210, R211): one axis changed leaves the others, and effects on the axes one after
another. -/

namespace Sys2Proof.Machine

/-! ### One axis changed -/

@[simp] theorem PosBlk.axis_setAxis_same (p : PosBlk) (i : Nat) (f : Axis → Axis) : (p.setAxis i f).axis i = f (p.axis i) := by
  rcases i with _ | _ | _ | _ | i <;> rfl

theorem PosBlk.axis_setAxis_ne (p : PosBlk) {i j : Nat} (hi : i < 4) (hj : j < 4) (h : j ≠ i) (f : Axis → Axis) :
    (p.setAxis i f).axis j = p.axis j := by
  rcases i with _ | _ | _ | _ | i <;> rcases j with _ | _ | _ | _ | j <;> first | rfl | omega

@[simp] theorem run_onAxis (s : State) (i : Nat) (f : Axis → Axis) :
    (onAxis i f).run s = { s with b := { s.b with pos := s.b.pos.setAxis i f } } := rfl

theorem within_onAxis {rg : Nat → Bool} {ps : List Part} (h : .bPos ∈ ps) (i : Nat) (f : Axis → Axis) :
    (onAxis i f).Within rg ps := within_onPos h

theorem mem_axisList {i : Nat} : i ∈ axisList ↔ i < 4 := by
  simp only [axisList, List.mem_cons, List.not_mem_nil, or_false]
  omega

/-! ### One effect for each axis -/

/-- What every effect of a list keeps holds after all of them. -/
theorem each_keeps {α : Type} {P : State → Prop} {f : α → Act} {l : List α} (hk : ∀ y ∈ l, ∀ s, P s → P ((f y).run s))
    {s : State} (h : P s) : P ((each l f).run s) := by
  induction l generalizing s with
  | nil => exact h
  | cons y l ih => exact ih (fun z hz => hk z (by simp [hz])) (hk y (by simp) s h)

/-- Where every effect of a list keeps `Q`, and the others keep `P`, what one of them brings about under `Q` holds after all
of them. -/
theorem each_brings_under {α : Type} {P Q : State → Prop} {f : α → Act} {l : List α} {x : α} (hx : x ∈ l)
    (hq : ∀ y ∈ l, ∀ s, Q s → Q ((f y).run s)) (hb : ∀ s, Q s → P ((f x).run s))
    (hk : ∀ y ∈ l, y ≠ x → ∀ s, P s → P ((f y).run s)) {s : State} (h : Q s) : P ((each l f).run s) := by
  induction l generalizing s with
  | nil => exact absurd hx (by simp)
  | cons y l ih =>
    have hq' : ∀ z ∈ l, ∀ s, Q s → Q ((f z).run s) := fun z hz => hq z (by simp [hz])
    have hk' : ∀ z ∈ l, z ≠ x → ∀ s, P s → P ((f z).run s) := fun z hz => hk z (by simp [hz])
    rcases List.mem_cons.mp hx with rfl | hx
    · refine (each_keeps (P := fun u => Q u ∧ P u) (fun z hz u hu => ⟨hq' z hz u hu.1, ?_⟩) ⟨hq _ (by simp) s h, hb s h⟩).2
      by_cases hzx : z = x
      · exact hzx ▸ hb u hu.1
      · exact hk' z hz hzx u hu.2
    · exact ih hx hq' hk' (hq y (by simp) s h)

end Sys2Proof.Machine
end

section
/-! SUPPORT. Commits of candidates (R210, R211). -/

namespace Sys2Proof.Machine

variable {s t u : State} {i j : Nat}

/-! ### A candidate becomes the working parameters of its axis (R210, R211) -/

/-- What a commit does for one axis: its candidate, given by its two words, is brought into force. -/
def takeCandidate (i pq rs : Nat) : Act :=
  acts [commitAxis i (heyOf pq rs), setR (R.AX_HEY_PQ i) pq, setR (R.AX_HEY_RS i) rs, setB (F.AX_STAT_CAND_VALID i) false]

/-- The registers that a commit of an axis may change. -/
def candidateRegs (i : Nat) : List Nat := [R.CAL_STAT, R.AX_STAT i, R.AX_HEY_PQ i, R.AX_HEY_RS i]

theorem within_commitAxis (i : Nat) (h : Hey) : (commitAxis i h).Within [R.CAL_STAT].contains [.bPos] :=
  within_dyn fun _ => within_ite (within_onAxis (by decide) _ _) (within_ite
    (within_cons (within_onPos (by decide)) (within_cons (within_setB (by decide)) within_nil)) (within_onAxis (by decide) _ _))

theorem within_takeCandidate (i pq rs : Nat) : (takeCandidate i pq rs).Within (candidateRegs i).contains [.bPos] :=
  within_cons ((within_commitAxis i _).mono (fun a h => by simp_all [candidateRegs]) fun _ h => h)
    (within_cons (within_setR (by simp [candidateRegs])) (within_cons (within_setR (by simp [candidateRegs]))
      (within_cons (within_setB (by simp [candidateRegs])) within_nil)))

theorem takeCandidate_pos (u : State) (i pq rs : Nat) :
    ((takeCandidate i pq rs).run u).b.pos = ((commitAxis i (heyOf pq rs)).run u).b.pos := rfl

/-- A commit of one axis leaves the others. -/
theorem takeCandidate_axis_ne (u : State) (hi : i < 4) (hj : j < 4) (h : j ≠ i) (pq rs : Nat) :
    ((takeCandidate i pq rs).run u).b.pos.axis j = u.b.pos.axis j := by
  rw [takeCandidate_pos, commitAxis, run_dyn, run_ite, run_ite]
  split
  · exact PosBlk.axis_setAxis_ne _ hi hj h _
  · split
    · rw [run_acts_cons, run_acts_cons, run_acts_nil, setB_b, run_onPos]
      rfl
    · exact PosBlk.axis_setAxis_ne _ hi hj h _

/-- Outside ARMED, WRITING and RACKING a step brings the parameters into force at once (R211). -/
theorem takeCandidate_steps (hr : (u.fld F.CAL_CFG_RAMP).testBit i = false) (hl : u.locked = false) (pq rs : Nat) :
    (((takeCandidate i pq rs).run u).b.pos.axis i).cur = heyOf pq rs ∧
      (((takeCandidate i pq rs).run u).b.pos.axis i).ramp = none := by
  rw [takeCandidate_pos, commitAxis, run_dyn]
  dsimp only
  rw [hr, hl, if_neg Bool.false_ne_true, if_neg Bool.false_ne_true, run_onAxis]
  dsimp only
  rw [PosBlk.axis_setAxis_same]
  exact ⟨rfl, rfl⟩

theorem axisRegs_distinct (hi : i < 4) : R.AX_HEY_PQ i ≠ R.AX_HEY_RS i ∧ R.AX_STAT i ≠ R.AX_HEY_PQ i ∧
    R.AX_STAT i ≠ R.AX_HEY_RS i := by
  revert i
  decide

/-- The candidate is valid no more, and its words stand in the working registers. -/
theorem takeCandidate_shown (u : State) (hi : i < 4) {pq rs : Nat} (hpq : pq < 2 ^ 32) (hrs : rs < 2 ^ 32) :
    ((takeCandidate i pq rs).run u).flag (F.AX_STAT_CAND_VALID i) = false ∧
      ((takeCandidate i pq rs).run u).rd (R.AX_HEY_PQ i) = pq ∧ ((takeCandidate i pq rs).run u).rd (R.AX_HEY_RS i) = rs := by
  obtain ⟨hwords, hstat, hstat'⟩ := axisRegs_distinct hi
  rw [takeCandidate]
  simp only [run_acts_cons, run_acts_nil]
  refine ⟨flag_setB_same _ _ _ (by simp) (by simp), ?_, ?_⟩
  · rw [rd_setB_ne _ _ _ _ hstat, rd_setR_ne _ _ _ _ hwords.symm, rd_setR_same, Nat.mod_eq_of_lt hpq]
  · rw [rd_setB_ne _ _ _ _ hstat', rd_setR_same, Nat.mod_eq_of_lt hrs]

/-! ### Every valid candidate of a mask (R210) -/

/-- The axes that a commit takes: those of its mask with a valid candidate. -/
def State.committed (s : State) (mask : Nat) : List Nat :=
  axisList.filter fun i => mask.testBit i && s.flag (F.AX_STAT_CAND_VALID i)

/-- What a commit does for each of its axes. -/
def takeCandidates (s : State) (mask : Nat) : Act :=
  each (s.committed mask) fun i => takeCandidate i (s.rd (R.AX_CAND_PQ i)) (s.rd (R.AX_CAND_RS i))

/-- What a commit shows and reports once its axes are taken. -/
def noteCommit (temp cause axes : Nat) (waits : Bool) : Act :=
  acts [noteRamps, setF F.CAL_TREF_TEMP temp, setF F.CAL_STAT_CAUSE cause, setF F.CAL_STAT_AXES axes, addR R.CAL_CNT 1,
    raise E.CAL_COMMIT, on waits (raise E.CAL_COMMIT_DEFERRED)]

theorem commitNow_run (s : State) (mask cause : Nat) : ∃ axes waits, (commitNow mask cause).run s =
    (noteCommit s.calTemp cause axes waits).run ((takeCandidates s mask).run s) := ⟨_, _, rfl⟩

theorem committed_lt {mask : Nat} (h : i ∈ s.committed mask) : i < 4 := mem_axisList.mp (List.mem_of_mem_filter h)

/-- A commit of every axis takes each axis whose candidate is valid. -/
theorem mem_committed_all (hi : i < 4) : i ∈ s.committed 15 ↔ s.flag (F.AX_STAT_CAND_VALID i) = true := by
  have hbit : (15 : Nat).testBit i = true := by revert i; decide
  simp [State.committed, mem_axisList, hi, hbit]

/-- The registers that bringing candidates into force may change. -/
def takenRegs : List Nat := [R.CAL_STAT] ++ (List.range 4).map R.AX_STAT ++ (List.range 4).map R.AX_HEY_PQ ++
  (List.range 4).map R.AX_HEY_RS

/-- The registers that a commit may change. -/
def commitRegs : List Nat := [R.CAL_CNT, R.CAL_STAT, R.CAL_TREF] ++ (List.range 4).map R.AX_STAT ++
  (List.range 4).map R.AX_HEY_PQ ++ (List.range 4).map R.AX_HEY_RS

theorem takenRegs_sub : takenRegs ⊆ commitRegs := by decide

theorem candidateRegs_sub (hi : i < 4) : candidateRegs i ⊆ takenRegs := by
  revert i
  decide

theorem within_takeCandidates (s : State) (mask : Nat) : (takeCandidates s mask).Within takenRegs.contains [.bPos] :=
  within_eachMem fun i hi => (within_takeCandidate i _ _).mono
    (fun a h => by simpa using candidateRegs_sub (committed_lt hi) (by simpa using h)) fun _ h => h

/-- The registers of one axis are not among those of another. -/
theorem candidateRegs_other (hi : i < 4) (hj : j < 4) (h : j ≠ i) :
    (candidateRegs j).contains (R.AX_STAT i) = false ∧ (candidateRegs j).contains (R.AX_HEY_PQ i) = false ∧
      (candidateRegs j).contains (R.AX_HEY_RS i) = false := by
  have all : ∀ i < 4, ∀ j < 4, j ≠ i → (candidateRegs j).contains (R.AX_STAT i) = false ∧
    (candidateRegs j).contains (R.AX_HEY_PQ i) = false ∧ (candidateRegs j).contains (R.AX_HEY_RS i) = false := by decide
  exact all i hi j hj h

/-- What a commit brings about for an axis that it takes. -/
structure State.Commits (s : State) (i : Nat) (t : State) : Prop where
  taken : t.flag (F.AX_STAT_CAND_VALID i) = false
  pq : t.rd (R.AX_HEY_PQ i) = s.rd (R.AX_CAND_PQ i)
  rs : t.rd (R.AX_HEY_RS i) = s.rd (R.AX_CAND_RS i)
  step : (s.fld F.CAL_CFG_RAMP).testBit i = false → s.locked = false →
    (t.b.pos.axis i).cur = heyOf (s.rd (R.AX_CAND_PQ i)) (s.rd (R.AX_CAND_RS i)) ∧ (t.b.pos.axis i).ramp = none

theorem takeCandidates_commits {mask : Nat} (hi : i ∈ s.committed mask) : s.Commits i ((takeCandidates s mask).run s) := by
  have hi4 := committed_lt hi
  refine each_brings_under (Q := fun u => u.fld F.CAL_CFG_RAMP = s.fld F.CAL_CFG_RAMP ∧ u.dev = s.dev) hi ?_ ?_ ?_ ⟨rfl, rfl⟩
  · intro j hj u hu
    have hf := within_takeCandidate j (s.rd (R.AX_CAND_PQ j)) (s.rd (R.AX_CAND_RS j)) u
    have hcfg : ∀ j < 4, (candidateRegs j).contains R.CAL_CFG = false := by decide
    exact ⟨(framed_fld hf _ (hcfg j (committed_lt hj))).trans hu.1, (hf.2.2 .dev (by decide)).trans hu.2⟩
  · intro u hu
    obtain ⟨htaken, hpq, hrs⟩ := takeCandidate_shown u hi4 (rd_lt s (R.AX_CAND_PQ i)) (rd_lt s (R.AX_CAND_RS i))
    exact ⟨htaken, hpq, hrs, fun hr hl => takeCandidate_steps (by rwa [hu.1]) (by simpa [State.locked, hu.2] using hl) _ _⟩
  · intro j hj hne u hu
    have hj4 := committed_lt hj
    have hf := within_takeCandidate j (s.rd (R.AX_CAND_PQ j)) (s.rd (R.AX_CAND_RS j)) u
    obtain ⟨hstat, hpq, hrs⟩ := candidateRegs_other hi4 hj4 hne
    exact {
      taken := (framed_flag hf _ hstat).trans hu.taken
      pq := (hf.2.1 _ hpq).trans hu.pq
      rs := (hf.2.1 _ hrs).trans hu.rs
      step := fun hr hl => by rw [takeCandidate_axis_ne u hj4 hi4 (Ne.symm hne)]; exact hu.step hr hl }

/-- A commit leaves every axis that it does not take. -/
theorem takeCandidates_axis {mask : Nat} (hi : i < 4) (h : i ∉ s.committed mask) :
    ((takeCandidates s mask).run s).b.pos.axis i = s.b.pos.axis i :=
  each_keeps (P := fun u => u.b.pos.axis i = s.b.pos.axis i) (fun _ hj u hu =>
    (takeCandidate_axis_ne u (committed_lt hj) hi (fun e => h (e ▸ hj)) _ _).trans hu) rfl

/-! ### COMMIT (R210) -/

section
variable (temp cause axes : Nat) (waits : Bool) (u : State)

theorem within_noteCommit : (noteCommit temp cause axes waits).Within
    (fun a => eventRegs a || [R.CAL_CNT, R.CAL_STAT, R.CAL_TREF].contains a) (eventParts ++ []) :=
  within_cons (within_dyn fun _ => within_setB (by decide)) (within_cons (within_setF (by decide)) (within_cons (within_setF (by decide))
    (within_cons (within_setF (by decide)) (within_cons (within_addR (by decide)) (within_cons (within_raise eventFrame_allows)
      (within_cons (within_on (within_raise eventFrame_allows)) within_nil))))))

/-- A commit is counted, its cause shown, and it is reported. -/
theorem noteCommit_counts (hc : cause < 4) :
    ((noteCommit temp cause axes waits).run u).rd R.CAL_CNT = (u.rd R.CAL_CNT + 1) % 2 ^ 32 ∧
      ((noteCommit temp cause axes waits).run u).fld F.CAL_STAT_CAUSE = cause ∧
      ((noteCommit temp cause axes waits).run u).raised E.CAL_COMMIT = true := by
  have hdeferred : ∀ v : State, framed eventRegs eventParts v ((on waits (raise E.CAL_COMMIT_DEFERRED)).run v) :=
    within_on (within_raise ⟨fun _ h => h, fun _ h => h⟩)
  rw [noteCommit]
  simp only [run_acts_cons, run_acts_nil]
  refine ⟨?_, ?_, keeps_on (keeps_raise (by decide)) _ (raise_raised (by decide) _)⟩
  · rw [(hdeferred _).2.1 _ (by decide), raise_rd _ _ _ (by decide), rd_addR_same, rd_setF_ne _ _ _ _ (by decide),
      rd_setF_ne _ _ _ _ (by decide), rd_setF_ne _ _ _ _ (by decide), noteRamps, run_dyn, rd_setB_ne _ _ _ _ (by decide)]
  · rw [framed_fld (hdeferred _) _ (by decide), raise_fld _ _ _ (by decide), addR, run_dyn, fld_setR_addr _ _ _ _ (by decide),
      fld_setF_bits _ _ _ _ (by decide) (by decide) (by decide), fld_setF_same _ _ _ (by decide)]
    exact Nat.mod_eq_of_lt hc

end

theorem served_commitMet (s : State) (page cause : Nat) : (s.served page).commitMet cause = s.commitMet cause := by
  rw [State.commitMet, served_pos, served_tim, State.commitMet]

/-- COMMIT of a SOLO device that meets a temperature's commit of the same tick makes no second one (R210). -/
theorem commit_meets (hr : s.reaches 0xD3 = true) (hs : s.role = .solo) (hm : s.commitMet 2 = true) :
    ∃ t, exec .commit s = .next t ∧ t.rd R.CAL_CNT = s.rd R.CAL_CNT ∧ t.fld F.CAL_STAT_CAUSE = 2 ∧
      accessFrame [R.CAL_STAT, R.CAL_TREF] [] s t := by
  have hrun : exec .commit s = .next ((Act.seq (setF F.CAL_TREF_TEMP (s.served 0xD3).calTemp) (setF F.CAL_STAT_CAUSE 2)).run
      (s.served 0xD3)) := by
    show execCommit s = _
    rw [execCommit, perform_toPage s _ _ hr, commitTrigger, run_dyn, served_commitMet, hm, if_pos rfl,
      solo_of_role (by rwa [served_role]), if_pos rfl]
  have hframe := accessFrame_run (regs := [R.CAL_STAT, R.CAL_TREF]) (parts := []) s 0xD3
    (a := .seq (setF F.CAL_TREF_TEMP (s.served 0xD3).calTemp) (setF F.CAL_STAT_CAUSE 2))
    (within_seq (within_setF (by decide)) (within_setF (by decide)))
  refine ⟨_, hrun, hframe.2.1 _ (by decide), ?_, hframe⟩
  rw [run_seq, fld_setF_same _ _ _ (by decide)]
  rfl

theorem served_axisWord (s : State) (page : Nat) (hi : i < 4) :
    (s.served page).rd (R.AX_CAND_PQ i) = s.rd (R.AX_CAND_PQ i) ∧ (s.served page).rd (R.AX_CAND_RS i) = s.rd (R.AX_CAND_RS i) ∧
      (s.served page).rd (R.AX_HEY_PQ i) = s.rd (R.AX_HEY_PQ i) ∧ (s.served page).rd (R.AX_HEY_RS i) = s.rd (R.AX_HEY_RS i) ∧
      (s.served page).flag (F.AX_STAT_CAND_VALID i) = s.flag (F.AX_STAT_CAND_VALID i) := by
  have h : ∀ i < 4, accessRegs (R.AX_CAND_PQ i) = false ∧ accessRegs (R.AX_CAND_RS i) = false ∧
      accessRegs (R.AX_HEY_PQ i) = false ∧ accessRegs (R.AX_HEY_RS i) = false ∧ accessRegs (R.AX_STAT i) = false := by decide
  obtain ⟨h1, h2, h3, h4, h5⟩ := h i hi
  exact ⟨served_rd _ _ _ h1, served_rd _ _ _ h2, served_rd _ _ _ h3, served_rd _ _ _ h4, served_flag _ _ _ h5⟩

/-- COMMIT of a SOLO device takes every valid candidate, and is counted and raised (R210). -/
theorem commit_commits (hr : s.reaches 0xD3 = true) (hs : s.role = .solo) (hm : s.commitMet 2 = false) :
    ∃ t, exec .commit s = .next t ∧ t.rd R.CAL_CNT = (s.rd R.CAL_CNT + 1) % 2 ^ 32 ∧ t.fld F.CAL_STAT_CAUSE = 2 ∧
      t.raised E.CAL_COMMIT = true ∧ (∀ i < 4, s.flag (F.AX_STAT_CAND_VALID i) = true → s.Commits i t) ∧
      (∀ i < 4, s.flag (F.AX_STAT_CAND_VALID i) = false → t.b.pos.axis i = s.b.pos.axis i) ∧
      accessFrame commitRegs [.bPos] s t := by
  generalize hu : (onPos fun p => { p with calAt := some (s.b.tim.ticks, 2) }).run (s.served 0xD3) = u
  obtain ⟨axes, waits, hcommit⟩ := commitNow_run u 15 2
  have hrun : exec .commit s = .next ((noteCommit u.calTemp 2 axes waits).run ((takeCandidates u 15).run u)) := by
    show execCommit s = _
    rw [execCommit, perform_toPage s _ _ hr, commitTrigger, run_dyn, served_commitMet, hm, if_neg Bool.false_ne_true]
    dsimp only
    rw [run_seq, served_tim, hu, solo_of_role (by rwa [served_role]), if_pos rfl, hcommit]
  have hsu : accessFrame commitRegs [.bPos] s u := hu ▸ accessFrame_run s 0xD3 (within_onPos (by simp))
  have huaxis : ∀ i, u.b.pos.axis i = s.b.pos.axis i := fun i => by rw [← hu, run_onPos, ← served_pos s 0xD3]; rfl
  have huword : ∀ i < 4, u.rd (R.AX_CAND_PQ i) = s.rd (R.AX_CAND_PQ i) ∧ u.rd (R.AX_CAND_RS i) = s.rd (R.AX_CAND_RS i) ∧
      u.flag (F.AX_STAT_CAND_VALID i) = s.flag (F.AX_STAT_CAND_VALID i) := fun i hi => by
    obtain ⟨hpq, hrs, -, -, hvalid⟩ := served_axisWord s 0xD3 hi
    subst hu
    exact ⟨hpq, hrs, hvalid⟩
  have huv := within_takeCandidates u 15 u
  have htaken : ∀ i ∈ u.committed 15, u.Commits i ((takeCandidates u 15).run u) := fun i hi => takeCandidates_commits hi
  have hleft : ∀ i < 4, i ∉ u.committed 15 → ((takeCandidates u 15).run u).b.pos.axis i = u.b.pos.axis i :=
    fun i hi h => takeCandidates_axis hi h
  generalize (takeCandidates u 15).run u = v at *
  have hvt := within_noteCommit u.calTemp 2 axes waits v
  have hpos : ((noteCommit u.calTemp 2 axes waits).run v).b.pos = v.b.pos := hvt.2.2 .bPos (by decide)
  obtain ⟨hcnt, hcause, hraised⟩ := noteCommit_counts u.calTemp 2 axes waits v (by decide)
  refine ⟨_, hrun, ?_, hcause, hraised, fun i hi hvalid => ?_, fun i hi hvalid => ?_, ?_⟩
  · have hserved : u.rd R.CAL_CNT = s.rd R.CAL_CNT := by subst hu; exact served_rd _ _ _ (by decide)
    rw [hcnt, huv.2.1 _ (by decide), hserved]
  · have h := htaken i ((mem_committed_all hi).mpr ((huword i hi).2.2.trans hvalid))
    obtain ⟨hpq, hrs, -⟩ := huword i hi
    have hkept : ∀ i < 4, ∀ a ∈ [R.AX_STAT i, R.AX_HEY_PQ i, R.AX_HEY_RS i],
      (eventRegs a || [R.CAL_CNT, R.CAL_STAT, R.CAL_TREF].contains a) = false := by decide
    exact {
      taken := (framed_flag hvt _ (hkept i hi _ (by simp))).trans h.taken
      pq := (hvt.2.1 _ (hkept i hi _ (by simp))).trans (h.pq.trans hpq)
      rs := (hvt.2.1 _ (hkept i hi _ (by simp))).trans (h.rs.trans hrs)
      step := fun hr hl => by
        have hdev : u.dev = s.dev := hsu.2.2 .dev (by simp [accessParts, eventParts])
        rw [hpos, ← hpq, ← hrs]
        exact h.step ((congrArg (fun n => n.testBit i) (framed_fld hsu _ (by decide))).trans hr)
          (by simpa [State.locked, hdev] using hl) }
  · have hout : i ∉ u.committed 15 := fun h => by
      have hin := (mem_committed_all hi).mp h
      rw [(huword i hi).2.2, hvalid] at hin
      exact absurd hin Bool.false_ne_true
    rw [hpos, hleft i hi hout, huaxis]
  · have hregs : ∀ a, (eventRegs a || [R.CAL_CNT, R.CAL_STAT, R.CAL_TREF].contains a) = true →
        (accessRegs a || commitRegs.contains a) = true := fun a h => by
      simp only [Bool.or_eq_true, accessRegs] at h ⊢
      refine h.imp .inr fun h => ?_
      have hsub : [R.CAL_CNT, R.CAL_STAT, R.CAL_TREF] ⊆ commitRegs := by decide
      simpa using hsub (by simpa using h)
    exact framed_trans (framed_trans hsu (framed_mono (fun a h => by
      have := takenRegs_sub (by simpa using h)
      simp [this]) (fun p h => by simp [h]) huv)) (framed_mono hregs (fun p h => by simp_all [accessParts]) hvt)

end Sys2Proof.Machine
end

section
/-! SUPPORT. LOAD, steps that waited and ramps that have run (R211, R213), and the statement on calibration. -/

namespace Sys2Proof.Machine

variable {s t u : State} {i j : Nat}

/-! ### LOAD (R213) -/

/-- LOAD of one axis: the written values become its parameters in force and its candidate. -/
def loadAxis (i : Nat) : Act := .dyn fun t =>
  acts [onAxis i fun x => { x with cur := heyOf (t.rd (R.AX_HEY_PQ i)) (t.rd (R.AX_HEY_RS i)), ramp := none, win := [] },
    setR (R.AX_CAND_PQ i) (t.rd (R.AX_HEY_PQ i)), setR (R.AX_CAND_RS i) (t.rd (R.AX_HEY_RS i)),
    setB (F.AX_STAT_CAND_VALID i) false]

/-- The registers that LOAD of an axis may change. -/
def loadedAxisRegs (i : Nat) : List Nat := [R.AX_STAT i, R.AX_CAND_PQ i, R.AX_CAND_RS i]

theorem within_loadAxis (i : Nat) : (loadAxis i).Within (loadedAxisRegs i).contains [.bPos] :=
  within_dyn fun _ => within_cons (within_onAxis (by decide) _ _) (within_cons (within_setR (by simp [loadedAxisRegs]))
    (within_cons (within_setR (by simp [loadedAxisRegs])) (within_cons (within_setB (by simp [loadedAxisRegs])) within_nil)))

theorem loadAxis_axis (u : State) (i : Nat) : ((loadAxis i).run u).b.pos = u.b.pos.setAxis i fun x =>
    { x with cur := heyOf (u.rd (R.AX_HEY_PQ i)) (u.rd (R.AX_HEY_RS i)), ramp := none, win := [] } := by
  rw [loadAxis, run_dyn, run_acts_cons, run_acts_cons, run_acts_cons, run_acts_cons, run_acts_nil, setB_b, setR_b, setR_b,
    run_onAxis]

/-- What LOAD brings about for an axis (R213). -/
structure State.Loads (s : State) (i : Nat) (t : State) : Prop where
  cur : (t.b.pos.axis i).cur = heyOf (s.rd (R.AX_HEY_PQ i)) (s.rd (R.AX_HEY_RS i))
  pq : t.rd (R.AX_CAND_PQ i) = s.rd (R.AX_HEY_PQ i)
  rs : t.rd (R.AX_CAND_RS i) = s.rd (R.AX_HEY_RS i)
  taken : t.flag (F.AX_STAT_CAND_VALID i) = false

theorem loadAxis_loads (u : State) (hi : i < 4) : u.Loads i ((loadAxis i).run u) := by
  have hdistinct : ∀ i < 4, R.AX_STAT i ≠ R.AX_CAND_PQ i ∧ R.AX_STAT i ≠ R.AX_CAND_RS i ∧
    R.AX_CAND_RS i ≠ R.AX_CAND_PQ i := by decide
  obtain ⟨hpq, hrs, hwords⟩ := hdistinct i hi
  refine ⟨by rw [loadAxis_axis, PosBlk.axis_setAxis_same], ?_, ?_, ?_⟩ <;>
    rw [loadAxis, run_dyn, run_acts_cons, run_acts_cons, run_acts_cons, run_acts_cons, run_acts_nil]
  · rw [rd_setB_ne _ _ _ _ hpq, rd_setR_ne _ _ _ _ hwords, rd_setR_same, Nat.mod_eq_of_lt (rd_lt _ _)]
  · rw [rd_setB_ne _ _ _ _ hrs, rd_setR_same, Nat.mod_eq_of_lt (rd_lt _ _)]
  · exact flag_setB_same _ _ _ (by simp) (by simp)

/-- LOAD of every axis. -/
theorem loadAxes_loads (u : State) (hi : i < 4) : u.Loads i ((each axisList loadAxis).run u) := by
  refine each_brings_under (Q := fun v => v.rd (R.AX_HEY_PQ i) = u.rd (R.AX_HEY_PQ i) ∧
    v.rd (R.AX_HEY_RS i) = u.rd (R.AX_HEY_RS i)) (mem_axisList.mpr hi) ?_ ?_ ?_ ⟨rfl, rfl⟩
  · intro j hj v hv
    have hkept : ∀ j < 4, ∀ i < 4, (loadedAxisRegs j).contains (R.AX_HEY_PQ i) = false ∧
      (loadedAxisRegs j).contains (R.AX_HEY_RS i) = false := by decide
    obtain ⟨hpq, hrs⟩ := hkept j (mem_axisList.mp hj) i hi
    exact ⟨((within_loadAxis j v).2.1 _ hpq).trans hv.1, ((within_loadAxis j v).2.1 _ hrs).trans hv.2⟩
  · intro v hv
    have h := loadAxis_loads v hi
    exact ⟨by rw [h.cur, hv.1, hv.2], h.pq.trans hv.1, h.rs.trans hv.2, h.taken⟩
  · intro j hj hne v hv
    have hkept : ∀ j < 4, ∀ i < 4, j ≠ i → (loadedAxisRegs j).contains (R.AX_CAND_PQ i) = false ∧
      (loadedAxisRegs j).contains (R.AX_CAND_RS i) = false ∧ (loadedAxisRegs j).contains (R.AX_STAT i) = false := by decide
    obtain ⟨hpq, hrs, hstat⟩ := hkept j (mem_axisList.mp hj) i hi hne
    have hf := within_loadAxis j v
    exact ⟨by rw [loadAxis_axis, PosBlk.axis_setAxis_ne _ (mem_axisList.mp hj) hi (Ne.symm hne)]; exact hv.cur,
      (hf.2.1 _ hpq).trans hv.pq, (hf.2.1 _ hrs).trans hv.rs, (framed_flag hf _ hstat).trans hv.taken⟩

/-- The registers that LOAD may change. -/
def loadedRegs : List Nat := [R.CAL_STAT] ++ (List.range 4).map R.AX_STAT ++ (List.range 4).map R.AX_CAND_PQ ++
  (List.range 4).map R.AX_CAND_RS

/-- LOAD in READY (R213). -/
theorem load_loads (hr : s.reaches 0xD3 = true) (hd : s.dev = .ready) :
    ∃ t, exec .load s = .next t ∧ t.flag F.CAL_STAT_RAMPING = false ∧ (∀ i < 4, s.Loads i t) ∧
      accessFrame loadedRegs [.bPos] s t := by
  have hrun : exec .load s = .next ((Act.seq (each axisList loadAxis) (setB F.CAL_STAT_RAMPING false)).run (s.served 0xD3)) := by
    have hstate : ((s.served 0xD3).dev != .ready) = false := by simp [hd]
    show execLoad s = _
    rw [execLoad, perform_toPage s _ _ hr, loadCmd, run_dyn, hstate, if_neg Bool.false_ne_true]
    rfl
  have hsub : ∀ i ∈ axisList, loadedAxisRegs i ⊆ loadedRegs := by decide
  have hframe : accessFrame loadedRegs [.bPos] s ((Act.seq (each axisList loadAxis) (setB F.CAL_STAT_RAMPING false)).run
      (s.served 0xD3)) := accessFrame_run s 0xD3 (within_seq (within_eachMem fun i hi => (within_loadAxis i).mono
    (fun a h => by simp [hsub i hi (by simpa using h)]) fun p h => by simp [h]) (within_setB (by decide)))
  refine ⟨_, hrun, flag_setB_same _ _ _ (by decide) (by decide), fun i hi => ?_, hframe⟩
  have h := loadAxes_loads (s.served 0xD3) hi
  obtain ⟨-, -, hpq, hrs, -⟩ := served_axisWord s 0xD3 hi
  have hne : ∀ i < 4, R.CAL_STAT ≠ R.AX_CAND_PQ i ∧ R.CAL_STAT ≠ R.AX_CAND_RS i ∧ R.CAL_STAT ≠ R.AX_STAT i := by decide
  obtain ⟨hne1, hne2, hne3⟩ := hne i hi
  exact {
    cur := h.cur.trans (by rw [hpq, hrs])
    pq := (rd_setB_ne _ _ _ _ hne1).trans (h.pq.trans hpq)
    rs := (rd_setB_ne _ _ _ _ hne2).trans (h.rs.trans hrs)
    taken := by rw [run_seq, State.flag, setB, fld_setF_addr _ _ _ _ hne3]; exact h.taken }

/-! ### Commands that a page's chapter allows only in READY (R424) -/

/-- A command that meets `refuseCmd` on its page is recorded in TOP_REFUSE. -/
theorem refused_recorded {page reg cmd : Nat} {a : Act} (hr : s.reaches page = true) (hp : reg / 0x1000 = page) (hb : page ≠ 0x00B)
    (hl : page < 256) (hc : cmd < 256) (ha : a.run (s.served page) = (refuseCmd reg cmd).run (s.served page)) :
    ∃ t, perform (toPage page a) s = .next t ∧
      t.rd R.TOP_REFUSE = page * 2 ^ 24 + cmd * 2 ^ 16 + 0x10 * 2 ^ 8 + s.dev.code ∧
      accessFrame [R.TOP_REFUSE, pageReg page 0x020, pageReg page 0x024] [] s t := by
  subst hp
  have hrefuse := (refuseCmd_refuses (s.served (reg / 0x1000)) reg hl hc).1
  rw [served_dev] at hrefuse
  exact ⟨_, (perform_toPage s _ _ hr).trans (congrArg _ ha), hrefuse, accessFrame_run s _ (within_seq
    (within_errD (page := reg / 0x1000) (if_neg hb) (by simp) (by simp)) (within_refuseState (accessFrame_allows s) (by simp)))⟩

/-- LOAD outside READY (R213). -/
theorem load_refused (hr : s.reaches 0xD3 = true) (hd : s.dev ≠ .ready) : ∃ t, exec .load s = .next t ∧
    t.rd R.TOP_REFUSE = 0xD3 * 2 ^ 24 + 2 * 2 ^ 16 + 0x10 * 2 ^ 8 + s.dev.code ∧
    accessFrame [R.TOP_REFUSE, pageReg 0xD3 0x020, pageReg 0xD3 0x024] [] s t := by
  have hstate : ((s.served 0xD3).dev != .ready) = true := by simpa using hd
  refine refused_recorded (reg := R.CAL_CMD) hr (by decide) (by decide) (by decide) (by decide) ?_
  rw [loadCmd, run_dyn, hstate, if_pos rfl]

/-! ### Steps that waited, and ramps that have run (R211) -/

theorem within_noteRamps {rg : Nat → Bool} {ps : List Part} (h : rg R.CAL_STAT = true) : noteRamps.Within rg ps :=
  within_dyn fun _ => within_setB h

@[simp] theorem noteRamps_b (s : State) : (noteRamps.run s).b = s.b := by
  rw [noteRamps, run_dyn, setB_b]

theorem noteRamps_flag (s : State) :
    (noteRamps.run s).flag F.CAL_STAT_RAMPING = axisList.any fun i => (s.b.pos.axis i).ramp.isSome := by
  rw [noteRamps, run_dyn, flag_setB_same _ _ _ (by decide) (by decide)]

/-- The steps that waited come into force. -/
def applySteps (steps : List (Nat × Hey)) : Act :=
  acts [each steps fun e => onAxis e.1 fun x => { x with cur := e.2, ramp := none, win := [] },
    onPos fun p => { p with stepWait := [] }, setB F.CAL_STAT_PENDING false, noteRamps]

theorem within_applySteps (steps : List (Nat × Hey)) : (applySteps steps).Within [R.CAL_STAT].contains [.out, .bPos] :=
  within_cons (within_each fun _ => within_onAxis (by decide) _ _) (within_cons (within_onPos (by decide))
    (within_cons (within_setB (by decide)) (within_cons (within_noteRamps (by decide)) within_nil)))

theorem applySteps_pos (u : State) (h : Hey) : ((applySteps [(i, h)]).run u).b.pos =
    { u.b.pos.setAxis i fun x => { x with cur := h, ramp := none, win := [] } with stepWait := [] } := by
  rw [applySteps, run_acts_cons, run_acts_cons, run_acts_cons, run_acts_cons, run_acts_nil, noteRamps_b, setB_b, run_onPos,
    each_cons, each_nil, run_onAxis]

theorem applySteps_pending (u : State) (steps : List (Nat × Hey)) :
    ((applySteps steps).run u).flag F.CAL_STAT_PENDING = false := by
  rw [applySteps, run_acts_cons, run_acts_cons, run_acts_cons, run_acts_cons, run_acts_nil, noteRamps, run_dyn, State.flag,
    fld_setB_bits _ _ _ _ (by decide) (by decide) (by decide)]
  exact flag_setB_same _ _ _ (by decide) (by decide)

/-- A step that waits is applied at a stripe boundary (R211). -/
theorem calStepApply_applies {h : Hey} (hi : i < 4) (hb : s.stripeBoundary = true) (hw : s.b.pos.stepWait = [(i, h)]) :
    ∃ t, exec .calStepApply s = .next t ∧ (t.b.pos.axis i).cur = h ∧ (t.b.pos.axis i).ramp = none ∧ t.b.pos.stepWait = [] ∧
      t.flag F.CAL_STAT_PENDING = false ∧ (∀ j < 4, j ≠ i → t.b.pos.axis j = s.b.pos.axis j) ∧
      plainFrame [R.CAL_STAT] [.bPos] s t := by
  have hrun : exec .calStepApply s = .next ((applySteps [(i, h)]).run { s with out := [] }) := by
    have hb' : ({ s with out := [] } : State).stripeBoundary = true := hb
    have hw' : ({ s with out := [] } : State).b.pos.stepWait = [(i, h)] := hw
    show execCalStepApply s = _
    rw [execCalStepApply, perform_eq, run_dyn, hb', hw']
    rfl
  have hpos := applySteps_pos (i := i) { s with out := [] } h
  have haxis : ∀ j, (((applySteps [(i, h)]).run { s with out := [] }).b.pos.axis j) =
      (s.b.pos.setAxis i fun x => { x with cur := h, ramp := none, win := [] }).axis j := fun j => by rw [hpos]; rfl
  refine ⟨_, hrun, ?_, ?_, by rw [hpos], applySteps_pending _ _, fun j hj hne => ?_, plainFrame_run s (within_applySteps _)⟩
  · rw [haxis, PosBlk.axis_setAxis_same]
  · rw [haxis, PosBlk.axis_setAxis_same]
  · rw [haxis, PosBlk.axis_setAxis_ne _ hi hj hne]

/-- A ramp that has run ends at its target (R211). -/
theorem calRampEnd_ends {ax : Fin 4} {r : Ramp} (hr : (s.b.pos.axis ax).ramp = some r) (hd : r.total ≤ r.done) :
    ∃ t, exec (.calRampEnd ax) s = .next t ∧ (t.b.pos.axis ax).cur = r.dst ∧ (t.b.pos.axis ax).ramp = none ∧
      t.flag F.CAL_STAT_RAMPING = (List.range 4).any (fun i => i != ax.val && (s.b.pos.axis i).ramp.isSome) ∧
      plainFrame [R.CAL_STAT] [.bPos] s t := by
  have hrun : exec (.calRampEnd ax) s =
      .next (noteRamps.run ((onAxis ax fun x => { x with cur := r.dst, ramp := none }).run { s with out := [] })) := by
    have hr' : (({ s with out := [] } : State).b.pos.axis ax).ramp = some r := hr
    show execCalRampEnd ax s = _
    rw [execCalRampEnd, perform_eq, run_dyn, hr']
    dsimp only
    rw [decide_eq_true hd, on_true, run_seq]
  refine ⟨_, hrun, ?_, ?_, ?_, plainFrame_run s (a := .seq (onAxis ax fun x => { x with cur := r.dst, ramp := none }) noteRamps)
    (within_seq (within_onAxis (by decide) _ _) (within_noteRamps (by decide)))⟩
  · rw [noteRamps_b, run_onAxis, PosBlk.axis_setAxis_same]
  · rw [noteRamps_b, run_onAxis, PosBlk.axis_setAxis_same]
  · rw [noteRamps_flag, run_onAxis]
    have hramp : ∀ i ∈ axisList, ((s.b.pos.setAxis ax fun x => { x with cur := r.dst, ramp := none }).axis i).ramp.isSome =
        (i != ax.val && (s.b.pos.axis i).ramp.isSome) := fun i hi => by
      by_cases hax : i = ax.val
      · rw [hax, PosBlk.axis_setAxis_same, bne_self_eq_false, Bool.false_and]
        rfl
      · rw [PosBlk.axis_setAxis_ne _ ax.isLt (mem_axisList.mp hi) hax, bne_iff_ne.mpr hax, Bool.true_and]
    rw [Bool.eq_iff_iff, List.any_eq_true, List.any_eq_true]
    exact exists_congr fun i => and_congr_right fun hi => by rw [hramp i hi]

/-- Settles O36: COMMIT and LOAD axis by axis, a step that waited, and a ramp that has run. -/
theorem calibrationCommitsLoadsAndEndsRamps : Obligations.CalibrationCommitsLoadsAndEndsRamps := by
  intro s
  refine ⟨fun hr => ⟨commit_meets hr, fun hs hm => ?_, fun hd => ?_, load_refused hr⟩, fun i h => calStepApply_applies,
    fun ax r => calRampEnd_ends⟩
  · obtain ⟨t, hrun, hcnt, hcause, hraised, htaken, hleft, hframe⟩ := commit_commits hr hs hm
    exact ⟨t, hrun, hcnt, hcause, hraised, fun i hi hv => ⟨(htaken i hi hv).taken, (htaken i hi hv).pq, (htaken i hi hv).rs,
      (htaken i hi hv).step⟩, hleft, hframe⟩
  · obtain ⟨t, hrun, hramping, hloaded, hframe⟩ := load_loads hr hd
    exact ⟨t, hrun, hramping, fun i hi => ⟨(hloaded i hi).cur, (hloaded i hi).pq, (hloaded i hi).rs, (hloaded i hi).taken⟩, hframe⟩

end Sys2Proof.Machine
end

section
/-! SUPPORT. Scopes with room for the shot path: in every scope that allows what frames and seals, stops, rackings and verdicts
may change, these lie, whatever else the scope keeps. -/

namespace Sys2Proof.Machine

variable {A : Scope} (s : State)

/-! ### Frames and seals -/

/-- A scope has room for frames and seals: they change the records of shots and which is taken next, and nothing of what is
known of the mate. -/
structure Scope.HasSeals (A : Scope) : Prop where
  regs : ∀ a, sealScope.regs a = true → A.regs a = true
  frame : .ledFrame ∈ A.parts
  plk : ∀ b x, A.blocks b { b with plk := x }
  cask : ∀ b x, A.blocks b { b with cask := x }
  par : ∀ b (x : PairBlk), x.mate = b.par.mate → x.mateFault = b.par.mateFault → x.mateSeq = b.par.mateSeq →
    A.blocks b { b with par := x }
  recs : ∀ b (x : ShotBlk), x = { b.sht with recs := x.recs, takeNext := x.takeNext } → A.blocks b { b with sht := x }

section
variable (h : A.HasSeals)
include h

theorem Scope.HasSeals.reg {a : Nat} (ha : sealScope.regs a = true) : (eventRegs a || A.regs a) = true := by simp [h.regs a ha]

theorem seals_putRec (k : Nat) (f : ShotRec → ShotRec) : A.Allows (putRec k f) s := (allows_putRec _ _ _ _).mpr (h.recs _ _ rfl)

theorem seals_parFijDone : A.Allows parFijDone s := by
  simp only [parFijDone, allows_cons, allows_setF, allows_addR, allows_raise, allows_nil, implies_true, and_true]
  exact ⟨h.reg (by decide), fun _ => ⟨h.reg (by decide), fun _ => by simp [show eventRegs R.FIJ_DONE = true by decide]⟩⟩

theorem seals_pairEmit (lane kind group word : Nat) (data : List Nat) : A.Allows (pairEmit lane kind group word data) s := by
  have hout : ∀ (l : List (Nat × List Nat)) t, A.Allows (each l fun x => .emit (.pair lane x.2)) t := fun l t =>
    allows_each _ t fun _ _ _ => rfl
  simp [pairEmit, Out.isStrobe, hout, h.par, seals_parFijDone _ h]

theorem seals_pairSend (kind word : Nat) (data : List Nat) : A.Allows (pairSend kind word data) s := by
  rw [pairSend, allows_dyn, allows_on]
  exact fun _ => allows_each _ s fun _ _ t => seals_pairEmit t h _ _ _ _ _

theorem seals_plkFijDone : A.Allows plkFijDone s := by
  simp only [plkFijDone, allows_cons, allows_setF, allows_addR, allows_raise, allows_nil, implies_true, and_true]
  exact ⟨h.reg (by decide), fun _ => ⟨h.reg (by decide), fun _ => by simp [show eventRegs R.FIJ_DONE = true by decide]⟩⟩

theorem seals_plkFijCount (lane : Nat) (counted acting : Bool) : A.Allows (plkFijCount lane counted acting) s := by
  simp [plkFijCount, h.plk, seals_plkFijDone _ h]

theorem seals_queueFrame (f : TxFrame) : A.Allows (queueFrame f) s := by
  simp [queueFrame, h.plk, seals_plkFijCount _ h]

theorem seals_stepCounts : A.Allows stepCounts s := by
  have hvintage : (eventRegs R.PLK_VINTAGE || A.regs R.PLK_VINTAGE) = true := h.reg (by decide)
  simp only [stepCounts, allows_dyn, allows_ite, allows_cons, allows_setF, allows_onPlk, allows_nil, hvintage, h.plk, implies_true,
    and_true]

theorem seals_takeFrames (m : Nat) (hold : Bool) : A.Allows (takeFrames m hold) s := by
  rw [takeFrames, allows_dyn]
  split
  · have hqueue : ∀ (f : Nat → TxFrame) t, A.Allows (each (List.range 64) fun n => queueFrame (f n)) t := fun f t =>
      allows_each _ t fun _ _ u => seals_queueFrame u h _
    simp [seals_putRec _ h, Ledger.part, h.frame, hqueue, seals_stepCounts _ h, h.recs]
  · trivial

theorem seals_emitSeal (lane word : Nat) : A.Allows (emitSeal lane word) s := by
  simp [emitSeal, Out.isStrobe, seals_plkFijCount _ h]

theorem seals_issueSeal (k verdict : Nat) : A.Allows (issueSeal k verdict) s := by
  have hseal : ∀ w t, A.Allows (each (List.range 64) fun n => emitSeal n w) t := fun w t =>
    allows_each _ t fun _ _ u => seals_emitSeal u h _ _
  have hregs : ∀ a ∈ [R.PLK_SEAL_LO, R.PLK_SEAL_HI, R.PAR_SOLE_CNT, R.PAR_WD_CNT, R.PAR_DEFER_CNT],
      (eventRegs a || A.regs a) = true := fun a ha => h.reg ((by decide : ∀ a ∈ [R.PLK_SEAL_LO, R.PLK_SEAL_HI, R.PAR_SOLE_CNT,
        R.PAR_WD_CNT, R.PAR_DEFER_CNT], sealScope.regs a = true) a ha)
  simp only [List.forall_mem_cons, List.not_mem_nil, false_imp_iff, implies_true, and_true] at hregs
  simp [issueSeal, hregs, hseal, seals_putRec _ h, h.par]

theorem seals_holdSeals (fuel m : Nat) : A.Allows (holdSeals fuel m) s := by
  induction fuel generalizing m s with
  | zero => trivial
  | succ fuel ih => simp [holdSeals, seals_issueSeal _ h, ih]

theorem seals_sealShot (k verdict : Nat) : A.Allows (sealShot k verdict) s :=
  ⟨seals_issueSeal s h _ _, fun t => seals_holdSeals t h _ _⟩

theorem seals_dropTaps (k : Nat) : A.Allows (dropTaps k) s := by
  have hout : ∀ (l : List Slot) t, A.Allows (each l fun _ => bookOut .frame 64) t := fun l t =>
    allows_each _ t fun _ _ _ => by simp [Ledger.part, h.frame]
  simp [dropTaps, hout, h.cask]

end

/-! ### Stops, rackings, withheld shots and verdicts -/

/-- The registers that stops, rackings, withheld shots and verdicts may change besides those of frames and seals. -/
def courseRegs : List Nat := [R.TOP_TRANS_CNT, R.MOT_RACK_INFO, R.MOT_RACK_SHOT, R.MOT_RACK_CNT, R.PLK_LATE_CNT, R.PAR_WD_SHOT,
  R.PAR_SPLIT_INFO, R.PAR_SPLIT_SHOT, R.SHT_LATE_MOVE]

/-- A scope has room for the course of a job's shots but its edges: the frozen edges stand. -/
structure Scope.HasCourse (A : Scope) : Prop extends A.HasSeals where
  course : ∀ a ∈ courseRegs, A.regs a = true
  parts : [Part.ledShot, .dev, .prevDev] ⊆ A.parts
  job : ∀ b x, A.blocks b { b with job := x }
  mot : ∀ b x, A.blocks b { b with mot := x }
  sht : ∀ b (x : ShotBlk), x.frozen = b.sht.frozen → A.blocks b { b with sht := x }

section
variable (h : A.HasCourse)
include h

theorem Scope.HasCourse.reg {a : Nat} (ha : a ∈ courseRegs) : (eventRegs a || A.regs a) = true := by simp [h.course a ha]

theorem Scope.HasCourse.shot : Ledger.shot.part ∈ eventParts ++ A.parts := List.mem_append_right _ (h.parts (by decide))

theorem course_enter {d : DevState} (hd : d ≠ .armed) : A.Allows (enter d) s :=
  allows_enter _ s d hd (h.course _ (by decide)) (h.parts (by decide)) (h.parts (by decide))

theorem course_noteUnresolved (k : Nat) : A.Allows (noteUnresolved k) s := (allows_onSht _ _ _).mpr (h.sht _ _ rfl)

theorem course_abandonShots : A.Allows abandonShots s := by
  simp [abandonShots, h.shot, h.sht, h.par]

theorem course_safePoint : A.Allows safePoint s := by
  rw [safePoint, allows_dyn]
  split
  · simp [h.sht, course_enter _ h]
  · trivial

theorem course_cutShots (k : Nat) : A.Allows (cutShots k) s := by
  have hcut : ∀ (l : List ShotRec) t, A.Allows (each l fun x => acts [putRec x.shot fun y => { y with withheld := some 0, rexp := true },
      on (x.triggered && x.withheld.isNone) (noteUnresolved x.shot)]) t := fun l t =>
    allows_each _ t fun _ _ u => by simp [seals_putRec _ h.toHasSeals, course_noteUnresolved _ h]
  simp [cutShots, h.sht, seals_dropTaps _ h.toHasSeals, hcut, seals_holdSeals _ h.toHasSeals, course_abandonShots _ h,
    course_safePoint _ h]

theorem course_stopMotion (p : Phase) : A.Allows (stopMotion p) s := by simp [stopMotion, h.mot]

theorem course_stopSafeFrom (k : Nat) : A.Allows (stopSafeFrom k) s := by
  simp [stopSafeFrom, h.job, course_stopMotion _ h, course_cutShots _ h]

theorem course_stopSafe : A.Allows stopSafe s := by
  simp [stopSafe, seals_pairSend _ h.toHasSeals, course_stopSafeFrom _ h]

theorem course_startRacking (k cause : Nat) : A.Allows (startRacking k cause) s := by
  have hregs : (eventRegs R.MOT_RACK_INFO || A.regs R.MOT_RACK_INFO) = true ∧
    (eventRegs R.MOT_RACK_SHOT || A.regs R.MOT_RACK_SHOT) = true ∧ (eventRegs R.MOT_RACK_CNT || A.regs R.MOT_RACK_CNT) = true := ⟨h.reg (by decide), h.reg (by decide), h.reg (by decide)⟩
  simp [startRacking, course_enter _ h, h.sht, hregs, course_stopMotion _ h, h.mot]

theorem course_rackGo (k cause : Nat) : A.Allows (rackGo k cause) s := by
  simp [rackGo, course_stopSafe _ h, course_startRacking _ h]

theorem course_rackDue : A.Allows rackDue s := by
  rw [rackDue, allows_dyn]
  split
  · simp [course_rackGo _ h]
  · trivial

theorem course_rackTrigger (k cause : Nat) : A.Allows (rackTrigger k cause) s := by
  simp [rackTrigger, course_rackGo _ h, course_rackDue _ h, h.sht]

theorem course_withhold (k cause : Nat) (rack : Bool) : A.Allows (withhold k cause rack) s := by
  have hlate : (eventRegs R.PLK_LATE_CNT || A.regs R.PLK_LATE_CNT) = true := h.reg (by decide)
  simp [withhold, hlate, h.sht, course_rackTrigger _ h, course_cutShots _ h, seals_putRec _ h.toHasSeals,
    course_noteUnresolved _ h, seals_dropTaps _ h.toHasSeals, seals_holdSeals _ h.toHasSeals]

theorem course_missDeadline (k : Nat) : A.Allows (missDeadline k) s := by simp [missDeadline, course_withhold _ h]

theorem course_heldTrigger (k : Nat) : A.Allows (heldTrigger k) s := by
  simp [heldTrigger, seals_putRec _ h.toHasSeals, course_noteUnresolved _ h, seals_holdSeals _ h.toHasSeals]

theorem course_lateMove (k : Nat) (edge : Int) : A.Allows (lateMove k edge) s := by
  have hlate : (eventRegs R.SHT_LATE_MOVE || A.regs R.SHT_LATE_MOVE) = true := h.reg (by decide)
  rw [lateMove, allows_dyn]
  split
  · simp [hlate, course_withhold _ h]
  · trivial

theorem course_withdrawFrom (k : Nat) : A.Allows (withdrawFrom k) s := by
  have hshot : (eventRegs R.PAR_WD_SHOT || A.regs R.PAR_WD_SHOT) = true := h.reg (by decide)
  simp [withdrawFrom, h.par, hshot, seals_dropTaps _ h.toHasSeals]

theorem course_splitOn (k cause : Nat) : A.Allows (splitOn k cause) s := by
  have hregs : (eventRegs R.PAR_SPLIT_INFO || A.regs R.PAR_SPLIT_INFO) = true ∧
    (eventRegs R.PAR_SPLIT_SHOT || A.regs R.PAR_SPLIT_SHOT) = true := ⟨h.reg (by decide), h.reg (by decide)⟩
  simp [splitOn, hregs, h.par]

theorem course_ownError (k detail : Nat) : A.Allows (ownError k detail) s := by
  simp [ownError, course_stopSafe _ h, course_withhold _ h]

theorem course_settle (k : Nat) : A.Allows (settle k) s := by
  rw [settle, allows_dyn, allows_ite]
  refine ⟨fun _ => trivial, fun _ => ?_⟩
  split
  · rw [allows_on]
    intro _
    split
    · exact course_ownError s h k _
    · trivial
  · simp [seals_putRec _ h.toHasSeals, course_withdrawFrom _ h, h.par, seals_sealShot _ h.toHasSeals, course_withhold _ h,
      course_splitOn _ h, course_stopSafeFrom _ h]

theorem course_tryVote (k : Nat) : A.Allows (tryVote k) s := by
  simp [tryVote, seals_putRec _ h.toHasSeals, seals_pairSend _ h.toHasSeals, course_settle _ h]

theorem course_settleAll : A.Allows settleAll s := allows_each _ s fun _ _ t => course_tryVote t h _

end

end Sys2Proof.Machine
end

section
/-! SUPPORT. Indices frozen and shots triggered (R214, R219, R221, R253). -/

namespace Sys2Proof.Machine

variable {s t u : State} {k e at' : Int} {n v : Nat}

/-! ### Time that advances -/

theorem advance_run (s : State) (n : Nat) : ∃ tim age pt, (advance n).run s =
    { s with b := { s.b with tim := tim, age := age, pos := { s.b.pos with pt := pt } } } := by
  cases hw : s.dev == .writing <;> exact ⟨_, _, _, by rw [advance, run_dyn, hw]; rfl⟩

/-- Time that advances to a moment brings PT there; of the positions it changes nothing else. -/
theorem advanceTo_run (s : State) (p : Int) : ∃ tim age pt, (advanceTo p).run s =
    { s with b := { s.b with tim := tim, age := age, pos := { s.b.pos with pt := pt } } } := by
  rw [advanceTo, run_dyn, run_ite, run_seq, run_onPos, run_nop]
  split
  · obtain ⟨tim, age, pt, h⟩ := advance_run s (p.fdiv 65536 - s.b.pos.pt.fdiv 65536).toNat
    exact ⟨tim, age, p, by rw [h]⟩
  · exact ⟨_, _, _, rfl⟩

/-! ### The freeze of an index (R219) -/

/-- The shot unit once an index is frozen at an edge. -/
def ShotBlk.freeze (k e : Int) (cross : List (Int × Int × Bool)) (x : ShotBlk) : ShotBlk :=
  { x with
    frozen := x.frozen ++ [(k, e)], armed := false, pred := none, next := k + 1, prevEdge := x.lastEdge, lastEdge := some e
    crossWait := x.crossWait ++ cross, freezeWait := false, reached := false, beyond := false }

/-- The crossing that SHT_PRED_ERR waits for after the freeze of a shot (R229). -/
def State.crossOf (s : State) (k e : Int) : List (Int × Int × Bool) :=
  match s.run with
  | some r => [(e, scan r.stripe.rev (shotPos r.stripe.rev r.stripe.y0 s.step k), r.stripe.rev)]
  | none => []

/-- The edge of a shot follows the one before it too soon (R221). -/
def State.tooFast (s : State) (k e : Int) : Bool :=
  decide ((s.b.sht.runStart : Int) < k) && match s.b.sht.lastEdge with
    | some p => decide (e - p < s.tMinUnits)
    | none => false

/-- SHT_EDGE shows the edge of a shot. -/
def showEdge (e : Int) : Act := .seq (setR R.SHT_EDGE_LO (ofSigned 64 e % 2 ^ 32)) (setR R.SHT_EDGE_HI (ofSigned 64 e / 2 ^ 32))

/-- The state in which an index has been frozen, before its shot is triggered. -/
def State.frozenAt (s : State) (k e : Int) : State :=
  (showEdge e).run { s with b := { s.b with sht := s.b.sht.freeze k e (s.crossOf k e) } }

/-- The freeze of a take point triggers nothing. -/
theorem freezeIndex_takePoint (h : k < (s.b.sht.runStart : Int)) :
    (freezeIndex k e false).run s = { s with b := { s.b with sht := s.b.sht.freeze k e [] } } := by
  have hshot : decide ((s.b.sht.runStart : Int) ≤ k) = false := by simpa using h
  rw [freezeIndex, run_dyn]
  dsimp only
  rw [run_acts_cons, run_acts_cons, run_acts_cons, run_acts_nil, hshot, on_false, Bool.false_and, on_false, run_nop, run_nop]
  cases s.run <;> rfl

/-- The freeze of a shot shows its edge and triggers it. -/
theorem freezeIndex_shot (h : (s.b.sht.runStart : Int) ≤ k) :
    (freezeIndex k e false).run s = (trigger k.toNat e (s.tooFast k e)).run (s.frozenAt k e) := by
  rw [freezeIndex, run_dyn]
  dsimp only
  rw [run_acts_cons, run_acts_cons, run_acts_cons, run_acts_nil, decide_eq_true h, on_true, Bool.false_or]
  unfold State.frozenAt State.crossOf
  cases s.run <;> rfl

theorem frozenAt_framed (s : State) (k e : Int) :
    framed [R.SHT_EDGE_LO, R.SHT_EDGE_HI].contains [.bSht] s (s.frozenAt k e) :=
  (within_seq (within_onSht (f := ShotBlk.freeze k e (s.crossOf k e)) (by decide))
    (within_seq (within_setR (by decide)) (within_setR (by decide)))) s

theorem frozenAt_lo (s : State) (k e : Int) : (s.frozenAt k e).rd R.SHT_EDGE_LO = ofSigned 64 e % 2 ^ 32 := by
  rw [State.frozenAt, showEdge, run_seq, rd_setR_ne _ _ _ _ (by decide), rd_setR_same, Nat.mod_mod]

theorem frozenAt_hi (s : State) (k e : Int) : (s.frozenAt k e).rd R.SHT_EDGE_HI = ofSigned 64 e / 2 ^ 32 % 2 ^ 32 :=
  rd_setR_same _ _ _

/-! ### The trigger of a shot (R219, R221, R227) -/

/-- The record of a shot once it is triggered. -/
def ShotRec.trigger (x : ShotRec) : ShotRec := { x with triggered := true }

/-- A trigger is booked, and noted in its shot's record. -/
def State.noteTrigger (s : State) (n : Nat) : State :=
  { s with led := { s.led with shot := s.led.shot.book (.come 1) }, b := { s.b with sht := s.b.sht.put n ShotRec.trigger } }

/-- What follows the trigger of a shot under no stop, besides an overspeed. -/
def afterTrigger (n : Nat) (e : Int) : Act := acts [missDeadline n, lateMove n e, heldTrigger n, rackDue]

/-- An overspeed is counted, reported, and withholds its shot (R221). -/
def overspeed (n : Nat) : Act := acts [addR R.SHT_OVERSPEED_CNT 1, raise E.SHT_OVERSPEED, withhold n 4 true]

theorem trigger_run (h : s.stoppedAt n = false) (fast : Bool) :
    (trigger n e fast).run s = (afterTrigger n e).run ((on fast (overspeed n)).run (s.noteTrigger n)) := by
  rw [trigger, run_dyn, h, if_neg (by decide)]
  rw [run_acts_cons, run_acts_cons, run_acts_cons, run_acts_nil, run_acts_cons, run_putRec]
  rfl

theorem noteTrigger_rec (s : State) (n m : Nat) :
    (s.noteTrigger n).shotRec m = if m = n then (s.shotRec n).trigger else s.shotRec m :=
  s.b.sht.rec_put n m (f := ShotRec.trigger) fun _ => rfl

theorem noteTrigger_framed (s : State) (n : Nat) : framed (fun _ => false) [.ledShot, .bSht] s (s.noteTrigger n) :=
  ⟨rfl, fun _ _ => rfl, fun p hp => by cases p <;> first | rfl | exact absurd (by decide) hp⟩

/-- A shot sealed in time, under no stop, no withholding and no racking trigger that waits, has nothing follow its trigger. -/
theorem afterTrigger_sealed (hs : (s.shotRec n).sealed = some (v, at')) (hl : s.sealLead ≤ e - at') (hh : s.heldFrom n = false)
    (hw : s.b.sht.rackWait = none) : (afterTrigger n e).run s = s := by
  have hmiss : (missDeadline n).run s = s := by simp [missDeadline, State.unsealed, hs]
  have hmove : (lateMove n e).run s = s := by
    have hintime : ¬ e - at' < s.sealLead := not_lt.mpr hl
    simp [lateMove, hs, hintime]
  have hheld : (heldTrigger n).run s = s := by simp [heldTrigger, hh]
  have hrack : rackDue.run s = s := by simp [rackDue, hw]
  rw [afterTrigger, run_acts_cons, run_acts_cons, run_acts_cons, run_acts_cons, run_acts_nil, hmiss, hmove, hheld, hrack]

/-! ### An edge that follows too soon (R221) -/

/-- What a trigger leaves alone: the frozen edges and the count of overspeeds. -/
def triggerScope : Scope where
  regs a := a != R.SHT_OVERSPEED_CNT
  parts := [.ledFrame, .ledShot, .dev, .prevDev]
  blocks b c := c.sht.frozen = b.sht.frozen
  refl _ := rfl
  trans h k := k.trans h
  net _ _ := rfl

theorem triggerScope_hasCourse : triggerScope.HasCourse where
  regs a ha := by
    simp only [triggerScope, bne_iff_ne]
    rintro rfl
    exact absurd ha (by decide)
  frame := by decide
  plk _ _ := rfl
  cask _ _ := rfl
  par _ _ _ _ _ := rfl
  recs _ x hx := by rw [hx]; rfl
  course := by decide
  parts := by decide
  job _ _ := rfl
  mot _ _ := rfl
  sht _ _ hx := hx

theorem triggerScope_afterTrigger (s : State) (n : Nat) (e : Int) : triggerScope.Allows (afterTrigger n e) s := by
  simp [afterTrigger, course_missDeadline _ triggerScope_hasCourse, course_lateMove _ triggerScope_hasCourse,
    course_heldTrigger _ triggerScope_hasCourse, course_rackDue _ triggerScope_hasCourse]

/-- The overspeed of a triggered shot, and what follows its trigger. -/
theorem overspeed_effect (s : State) (n : Nat) (e : Int) {t : State} (ht : t = (afterTrigger n e).run ((overspeed n).run s)) :
    t.b.sht.frozen = s.b.sht.frozen ∧ t.rd R.SHT_OVERSPEED_CNT = (s.rd R.SHT_OVERSPEED_CNT + 1) % 2 ^ 32 ∧
      t.raised E.SHT_OVERSPEED = true := by
  rw [overspeed, run_acts_cons, run_acts_cons, run_acts_cons, run_acts_nil] at ht
  have hcnt : ((raise E.SHT_OVERSPEED).run ((addR R.SHT_OVERSPEED_CNT 1).run s)).rd R.SHT_OVERSPEED_CNT =
      (s.rd R.SHT_OVERSPEED_CNT + 1) % 2 ^ 32 := by rw [raise_rd _ _ _ (by decide), rd_addR_same]
  have hraised := raise_raised (e := E.SHT_OVERSPEED) (by decide) ((addR R.SHT_OVERSPEED_CNT 1).run s)
  have hsht : ((raise E.SHT_OVERSPEED).run ((addR R.SHT_OVERSPEED_CNT 1).run s)).b.sht = s.b.sht := raise_sht _ _
  generalize (raise E.SHT_OVERSPEED).run ((addR R.SHT_OVERSPEED_CNT 1).run s) = a at *
  have rel : triggerScope.Rel a t := ht ▸ (course_withhold a triggerScope_hasCourse n 4 true).rel.trans
    (triggerScope_afterTrigger _ n e).rel
  exact ⟨rel.blocks.trans (congrArg _ hsht), (rel.rd _ (by decide)).trans hcnt, rel.raised _ (by decide) hraised⟩

/-! ### A racking that waits for the trigger (R252, R253, R279) -/

/-- What HOLD seals leave alone of a racking that waits. -/
def waitScope : Scope where
  regs a := sealScope.regs a
  parts := [.ledFrame]
  blocks b c := c.sht.rackN = b.sht.rackN ∧ c.sht.frozen = b.sht.frozen ∧ c.sht.runStart = b.sht.runStart
  refl _ := ⟨rfl, rfl, rfl⟩
  trans h k := ⟨k.1.trans h.1, k.2.1.trans h.2.1, k.2.2.trans h.2.2⟩
  net _ _ := ⟨rfl, rfl, rfl⟩

theorem waitScope_hasSeals : waitScope.HasSeals where
  regs _ h := h
  frame := by decide
  plk _ _ := ⟨rfl, rfl, rfl⟩
  cask _ _ := ⟨rfl, rfl, rfl⟩
  par _ _ _ _ _ := ⟨rfl, rfl, rfl⟩
  recs _ x hx := by rw [hx]; exact ⟨rfl, rfl, rfl⟩

/-- The racking that waits for the trigger of shot `n`, which has come, in WRITING with no earlier edge to come. -/
structure State.RackingDue (s : State) (n cause : Nat) : Prop where
  dev : s.dev = .writing
  wait : s.b.sht.rackWait = some (n, cause)
  fresh : s.b.sht.rackN ≠ some n
  past : s.edgesPast n = true
  triggered : (s.shotRec n).triggered = true

theorem State.edgesPast_congr (hz : t.b.sht.frozen = s.b.sht.frozen) (hr : t.b.sht.runStart = s.b.sht.runStart) (n : Nat) :
    t.edgesPast n = s.edgesPast n := by rw [State.edgesPast, State.edgesPast, hz, hr]

/-- The state in which the trigger of a withheld shot is held, before its HOLD seal. -/
def State.noteHeld (s : State) (n cause : Nat) : State :=
  { s with b := { s.b with
      sht := { s.b.sht.put n (ShotRec.withhold cause) with unresolved := s.b.sht.unresolved ++ [n] } } }

theorem heldTrigger_run (s : State) (n : Nat) : (heldTrigger n).run s = s ∨
    ∃ cause fuel, (heldTrigger n).run s = (holdSeals fuel n).run (s.noteHeld n cause) := by
  rw [heldTrigger, run_dyn]
  dsimp only
  cases s.heldFrom n && (s.shotRec n).withheld.isNone with
  | false => exact .inl rfl
  | true =>
    rw [on_true, run_acts_cons, run_acts_cons, run_acts_cons, run_acts_nil, run_putRec]
    exact .inr ⟨_, _, rfl⟩

theorem State.RackingDue.noteHeld {cause : Nat} (h : s.RackingDue n cause) (c : Nat) : (s.noteHeld n c).RackingDue n cause := by
  refine ⟨h.dev, h.wait, h.fresh, h.past, ?_⟩
  have hput := s.b.sht.rec_put n n (f := ShotRec.withhold c) fun _ => rfl
  rw [if_pos rfl] at hput
  exact (congrArg ShotRec.triggered hput).trans h.triggered

/-- The HOLD seal of a triggered shot that is withheld puts off no racking. -/
theorem State.RackingDue.heldTrigger {cause : Nat} (h : s.RackingDue n cause) :
    ((heldTrigger n).run s).RackingDue n cause ∧ ((Machine.heldTrigger n).run s).rd R.MOT_RACK_CNT = s.rd R.MOT_RACK_CNT := by
  rcases heldTrigger_run s n with hrun | ⟨c, fuel, hrun⟩ <;> rw [hrun]
  · exact ⟨h, rfl⟩
  have hstart := h.noteHeld c
  have hregs : (s.noteHeld n c).rd R.MOT_RACK_CNT = s.rd R.MOT_RACK_CNT := rfl
  generalize s.noteHeld n c = u at *
  have hseal := (allows_holdSeals u fuel n).rel
  have hwait := (seals_holdSeals u waitScope_hasSeals fuel n).rel
  obtain ⟨hn, hz, hr⟩ := hwait.blocks
  exact ⟨⟨(hseal.part .dev (by decide) (by decide)).trans hstart.dev, hseal.blocks.sht.rackWait.trans hstart.wait,
    hn.symm ▸ hstart.fresh, (State.edgesPast_congr hz hr n).trans hstart.past,
    (hseal.blocks.sht.triggered n).trans hstart.triggered⟩, (hseal.rd _ (by decide)).trans hregs⟩

theorem within_stopMotion {rg : Nat → Bool} {ps : List Part} (h : .bMot ∈ ps) (p : Phase) : (stopMotion p).Within rg ps :=
  within_dyn fun _ => within_onMot h

/-- A device that writes begins to rack (R253). -/
theorem startRacking_effect (h : s.dev = .writing) (cause : Nat) {t : State} (ht : t = (startRacking n cause).run s) :
    t.dev = .racking ∧ t.raised E.MOT_RACK_START = true ∧ t.rd R.MOT_RACK_CNT = (s.rd R.MOT_RACK_CNT + 1) % 2 ^ 32 ∧
      t.rd R.MOT_RACK_SHOT = n % 2 ^ 32 := by
  rw [startRacking, run_dyn] at ht
  dsimp only at ht
  rw [run_acts_cons, run_acts_cons, run_acts_cons, run_acts_cons, run_acts_cons, run_acts_cons, run_acts_cons, run_acts_cons,
    run_acts_nil] at ht
  have hedge : s.dev.edge .racking = true := by simp [h, DevState.edge]
  have hdev : ((enter .racking).run s).dev = .racking := by rw [enter_run s hedge, raise_dev]; rfl
  have hold : ((enter .racking).run s).rd R.MOT_RACK_CNT = s.rd R.MOT_RACK_CNT := by
    rw [enter_run s hedge, raise_rd _ _ _ (by decide), rd_addR_ne _ _ _ _ (by decide)]
    rfl
  generalize (enter .racking).run s = a at *
  generalize hb : (onSht _).run a = b at ht
  have hsht : framed (fun _ => false) [.bSht] a b := by
    rw [← hb]
    exact within_onSht (List.mem_singleton_self _) a
  generalize hc : (setR R.MOT_RACK_INFO _).run b = c at ht
  have hcold : c.rd R.MOT_RACK_CNT = s.rd R.MOT_RACK_CNT := by
    rw [← hc, rd_setR_ne _ _ _ _ (by decide), hsht.2.1 _ rfl, hold]
  have hcdev : c.dev = .racking := by
    rw [← hc]
    exact (setR_dev _ _ _).trans ((hsht.2.2 .dev (by decide)).trans hdev)
  have hcnt : ((addR R.MOT_RACK_CNT 1).run ((setR R.MOT_RACK_SHOT n).run c)).rd R.MOT_RACK_CNT =
      (s.rd R.MOT_RACK_CNT + 1) % 2 ^ 32 := by rw [rd_addR_same, rd_setR_ne _ _ _ _ (by decide), hcold]
  have hshot : ((addR R.MOT_RACK_CNT 1).run ((setR R.MOT_RACK_SHOT n).run c)).rd R.MOT_RACK_SHOT = n % 2 ^ 32 := by
    rw [rd_addR_ne _ _ _ _ (by decide), rd_setR_same]
  have hddev : ((addR R.MOT_RACK_CNT 1).run ((setR R.MOT_RACK_SHOT n).run c)).dev = .racking := by
    rw [addR_dev, setR_dev, hcdev]
  generalize (addR R.MOT_RACK_CNT 1).run ((setR R.MOT_RACK_SHOT n).run c) = d at *
  generalize he : (onMot _).run ((stopMotion .rack).run d) = e at ht
  have hmot : framed (fun _ => false) [.bMot] d e := by
    rw [← he]
    exact framed_trans (within_stopMotion (List.mem_singleton_self _) _ d) (within_onMot (List.mem_singleton_self _) _)
  subst ht
  exact ⟨(raise_dev _ _).trans ((hmot.2.2 .dev (by decide)).trans hddev), raise_raised (by decide) _,
    (raise_rd _ _ _ (by decide)).trans ((hmot.2.1 _ rfl).trans hcnt), (raise_rd _ _ _ (by decide)).trans ((hmot.2.1 _ rfl).trans hshot)⟩

/-- A racking that is due begins. -/
theorem State.RackingDue.rackDue_run {cause : Nat} (h : s.RackingDue n cause) : rackDue.run s = (startRacking n cause).run s := by
  have hfresh : (s.b.sht.rackN == some n) = false := by simpa using h.fresh
  rw [rackDue, run_dyn, h.wait]
  dsimp only
  rw [h.dev, h.triggered, h.past, show (DevState.writing == DevState.writing) = true from rfl, Bool.true_or, Bool.true_and,
    Bool.true_and, on_true, rackGo, run_dyn, hfresh, Bool.false_and, if_neg (by decide)]

/-- After the trigger of a withheld shot for which a racking waits, the racking begins. -/
theorem afterTrigger_racks {cause : Nat} (h : s.RackingDue n cause) (hh : s.heldFrom n = true) :
    ((afterTrigger n e).run s).dev = .racking ∧ ((afterTrigger n e).run s).raised E.MOT_RACK_START = true ∧
      ((afterTrigger n e).run s).rd R.MOT_RACK_CNT = (s.rd R.MOT_RACK_CNT + 1) % 2 ^ 32 ∧
      ((afterTrigger n e).run s).rd R.MOT_RACK_SHOT = n % 2 ^ 32 := by
  have hmiss : (missDeadline n).run s = s := by simp [missDeadline, State.unsealed, hh]
  have hmove : (lateMove n e).run s = s := by
    rw [lateMove, run_dyn, hh]
    cases (s.shotRec n).sealed <;> simp
  rw [afterTrigger, run_acts_cons, run_acts_cons, run_acts_cons, run_acts_cons, run_acts_nil, hmiss, hmove]
  obtain ⟨hdue, hold⟩ := h.heldTrigger
  rw [hdue.rackDue_run, ← hold]
  exact startRacking_effect hdue.dev cause rfl

/-! ### EDGE_FREEZE (R219) -/

/-- The state that a freeze finds: time has come to the tick of the freeze. -/
def State.atFreeze (s : State) (e : Int) : State := (advanceTo (freezeTick e)).run { s with out := [] }

theorem edgeFreeze_waits (hp : s.b.sht.pred = some e) (ha : s.b.sht.active = true) (hm : s.b.sht.armed = true)
    (hs : s.sampleIn (freezeTick e) = true) (hw : s.b.sht.freezeWait = false) :
    exec .edgeFreeze s = .next ((onSht fun b => { b with freezeWait := true }).run (s.atFreeze e)) := by
  have hs' : ({ s with out := [] } : State).sampleIn (freezeTick e) = true := hs
  show execEdgeFreeze s = _
  simp only [execEdgeFreeze, perform_eq, run_dyn, hp, ha, hm, hs', hw, Bool.and_self, Bool.not_false, on_true, run_seq, if_true]
  rfl

theorem edgeFreeze_freezes (hp : s.b.sht.pred = some e) (ha : s.b.sht.active = true) (hm : s.b.sht.armed = true)
    (hs : s.sampleIn (freezeTick e) = false ∨ s.b.sht.freezeWait = true) :
    exec .edgeFreeze s = .next ((freezeIndex s.b.sht.next e false).run (s.atFreeze e)) := by
  have hnow : (({ s with out := [] } : State).sampleIn (freezeTick e) && !s.b.sht.freezeWait) = false := by
    rcases hs with h | h
    · have h' : ({ s with out := [] } : State).sampleIn (freezeTick e) = false := h
      rw [h', Bool.false_and]
    · rw [h, Bool.not_true, Bool.and_false]
  show execEdgeFreeze s = _
  simp only [execEdgeFreeze, perform_eq, run_dyn, hp, ha, hm, hnow, Bool.and_self, on_true, run_seq]
  rfl

/-- A freeze finds the shot unit, the device and its registers as they were. -/
theorem atFreeze_run (s : State) (e : Int) : ∃ tim age pt, s.atFreeze e =
    { s with out := [], b := { s.b with tim := tim, age := age, pos := { s.b.pos with pt := pt } } } :=
  advanceTo_run { s with out := [] } _

theorem atFreeze_framed (s : State) (e : Int) : plainFrame [] [.bSht, .bPos, .bTim, .bAge] s (s.atFreeze e) :=
  framed_clear s (by decide) (framed_mono (by simp) (by decide) (advanceTo_framed _ _))

/-- A freeze in whose tick a sample arrives waits for it. -/
theorem edgeFreeze_meetsSample (hp : s.b.sht.pred = some e) (ha : s.b.sht.active = true) (hm : s.b.sht.armed = true)
    (hs : s.sampleIn (freezeTick e) = true) (hw : s.b.sht.freezeWait = false) :
    ∃ t, exec .edgeFreeze s = .next t ∧ t.b.sht.freezeWait = true ∧ t.b.sht.frozen = s.b.sht.frozen ∧
      plainFrame [] [.bSht, .bPos, .bTim, .bAge] s t := by
  refine ⟨_, edgeFreeze_waits hp ha hm hs hw, rfl, ?_, framed_trans (atFreeze_framed s e) (within_onSht (by decide) _)⟩
  obtain ⟨tim, age, pt, hu⟩ := atFreeze_run s e
  rw [hu]
  rfl

/-- The freeze of a take point (R214, R219). -/
theorem edgeFreeze_takePoint (hp : s.b.sht.pred = some e) (ha : s.b.sht.active = true) (hm : s.b.sht.armed = true)
    (hs : s.sampleIn (freezeTick e) = false ∨ s.b.sht.freezeWait = true) (hk : s.b.sht.next < (s.b.sht.runStart : Int)) :
    ∃ t, exec .edgeFreeze s = .next t ∧ t.b.sht.frozen = s.b.sht.frozen ++ [(s.b.sht.next, e)] ∧
      t.b.sht.next = s.b.sht.next + 1 ∧ t.b.sht.armed = false ∧ t.b.sht.lastEdge = some e ∧
      t.b.sht.prevEdge = s.b.sht.lastEdge ∧ plainFrame [] [.bSht, .bPos, .bTim, .bAge] s t := by
  refine ⟨_, edgeFreeze_freezes hp ha hm hs, ?_⟩
  have hframe := atFreeze_framed s e
  have hsht : (s.atFreeze e).b.sht = s.b.sht := by
    obtain ⟨tim, age, pt, hu⟩ := atFreeze_run s e
    rw [hu]
  generalize s.atFreeze e = u at *
  rw [freezeIndex_takePoint (by rw [hsht]; exact hk), hsht]
  exact ⟨rfl, rfl, rfl, rfl, rfl, framed_trans hframe
    (within_onSht (f := fun _ => ShotBlk.freeze s.b.sht.next e [] s.b.sht) (by decide) u)⟩

/-- The state in which the shot at hand is frozen and its trigger noted. -/
def State.triggeredAt (s : State) (e : Int) : State := ((s.atFreeze e).frozenAt s.b.sht.next e).noteTrigger s.b.sht.next.toNat

/-- The freeze of a shot under no stop triggers it (R219, R227). -/
theorem edgeFreeze_shot (hp : s.b.sht.pred = some e) (ha : s.b.sht.active = true) (hm : s.b.sht.armed = true)
    (hs : s.sampleIn (freezeTick e) = false ∨ s.b.sht.freezeWait = true) (hk : (s.b.sht.runStart : Int) ≤ s.b.sht.next)
    (hn : s.stoppedAt s.b.sht.next.toNat = false) :
    exec .edgeFreeze s = .next ((afterTrigger s.b.sht.next.toNat e).run
      ((on (s.tooFast s.b.sht.next e) (overspeed s.b.sht.next.toNat)).run (s.triggeredAt e))) := by
  rw [edgeFreeze_freezes hp ha hm hs, State.triggeredAt]
  obtain ⟨tim, age, pt, hu⟩ := atFreeze_run s e
  have hfast : (s.atFreeze e).tooFast s.b.sht.next e = s.tooFast s.b.sht.next e := by rw [hu]; rfl
  have hstart : ((s.atFreeze e).b.sht.runStart : Int) ≤ s.b.sht.next := by rw [hu]; exact hk
  have hstop : ((s.atFreeze e).frozenAt s.b.sht.next e).stoppedAt s.b.sht.next.toNat = false := by rw [hu]; exact hn
  rw [freezeIndex_shot hstart, trigger_run hstop, hfast]

theorem triggeredAt_framed (s : State) (e : Int) :
    plainFrame [R.SHT_EDGE_LO, R.SHT_EDGE_HI] [.bSht, .ledShot, .bPos, .bTim, .bAge] s (s.triggeredAt e) :=
  framed_trans (framed_mono (by simp) (by decide) (atFreeze_framed s e)) (framed_trans
    (framed_mono (fun _ h => h) (by decide) (frozenAt_framed _ _ e)) (framed_mono (by simp) (by decide) (noteTrigger_framed _ _)))

theorem triggeredAt_sht (s : State) (e : Int) : ∃ cross, (s.triggeredAt e).b.sht =
    (s.b.sht.freeze s.b.sht.next e cross).put s.b.sht.next.toNat ShotRec.trigger := by
  rw [State.triggeredAt]
  obtain ⟨tim, age, pt, hu⟩ := atFreeze_run s e
  rw [hu]
  exact ⟨_, rfl⟩

theorem triggeredAt_shot (s : State) (e : Int) : (s.triggeredAt e).led.shot = s.led.shot.book (.come 1) := by
  rw [State.triggeredAt]
  obtain ⟨tim, age, pt, hu⟩ := atFreeze_run s e
  rw [hu]
  rfl

theorem triggeredAt_rec (s : State) (e : Int) :
    (s.triggeredAt e).shotRec s.b.sht.next.toNat = (s.shotRec s.b.sht.next.toNat).trigger := by
  rw [State.triggeredAt, noteTrigger_rec, if_pos rfl]
  obtain ⟨tim, age, pt, hu⟩ := atFreeze_run s e
  rw [hu]
  rfl

theorem triggeredAt_lo (s : State) (e : Int) : (s.triggeredAt e).rd R.SHT_EDGE_LO = ofSigned 64 e % 2 ^ 32 :=
  frozenAt_lo (s.atFreeze e) s.b.sht.next e

theorem triggeredAt_hi (s : State) (e : Int) : (s.triggeredAt e).rd R.SHT_EDGE_HI = ofSigned 64 e / 2 ^ 32 % 2 ^ 32 :=
  frozenAt_hi (s.atFreeze e) s.b.sht.next e

section
variable (hp : s.b.sht.pred = some e) (ha : s.b.sht.active = true) (hm : s.b.sht.armed = true)
  (hs : s.sampleIn (freezeTick e) = false ∨ s.b.sht.freezeWait = true) (hk : (s.b.sht.runStart : Int) ≤ s.b.sht.next)
  (hn : s.stoppedAt s.b.sht.next.toNat = false)
include hp ha hm hs hk hn

/-- A shot's edge that follows too soon is frozen and is an overspeed (R221). -/
theorem edgeFreeze_tooFast (hf : s.tooFast s.b.sht.next e = true) :
    ∃ t, exec .edgeFreeze s = .next t ∧ t.b.sht.frozen = s.b.sht.frozen ++ [(s.b.sht.next, e)] ∧
      t.rd R.SHT_OVERSPEED_CNT = (s.rd R.SHT_OVERSPEED_CNT + 1) % 2 ^ 32 ∧ t.raised E.SHT_OVERSPEED = true := by
  refine ⟨_, edgeFreeze_shot hp ha hm hs hk hn, ?_⟩
  rw [hf, on_true]
  obtain ⟨hfrozen, hcnt, hraised⟩ := overspeed_effect (s.triggeredAt e) s.b.sht.next.toNat e rfl
  obtain ⟨cross, hsht⟩ := triggeredAt_sht s e
  refine ⟨by rw [hfrozen, hsht]; rfl, ?_, hraised⟩
  rw [hcnt, (triggeredAt_framed s e).2.1 _ (by decide)]

/-- The trigger of a withheld shot begins the racking that waits for it (R252, R253). -/
theorem edgeFreeze_racks {cause : Nat} (hf : s.tooFast s.b.sht.next e = false) (hh : s.heldFrom s.b.sht.next.toNat = true)
    (hd : s.dev = .writing) (hw : s.b.sht.rackWait = some (s.b.sht.next.toNat, cause))
    (hr : s.b.sht.rackN ≠ some s.b.sht.next.toNat) (hz : s.edgesPast s.b.sht.next.toNat = true) :
    ∃ t, exec .edgeFreeze s = .next t ∧ t.dev = .racking ∧ t.raised E.MOT_RACK_START = true ∧
      t.rd R.MOT_RACK_CNT = (s.rd R.MOT_RACK_CNT + 1) % 2 ^ 32 ∧ t.rd R.MOT_RACK_SHOT = s.b.sht.next.toNat % 2 ^ 32 := by
  refine ⟨_, edgeFreeze_shot hp ha hm hs hk hn, ?_⟩
  rw [hf, on_false, run_nop]
  have hframe := triggeredAt_framed s e
  have hrec := triggeredAt_rec s e
  obtain ⟨cross, hsht⟩ := triggeredAt_sht s e
  generalize s.triggeredAt e = u at *
  have hpast : u.edgesPast s.b.sht.next.toNat = true := by
    have hnext : 0 ≤ s.b.sht.next := by omega
    rw [State.edgesPast, hsht]
    show ((s.b.sht.frozen ++ [(s.b.sht.next, e)]).all _) = true
    rw [List.all_append, Bool.and_eq_true]
    exact ⟨hz, by simp [hnext]⟩
  have hdue : u.RackingDue s.b.sht.next.toNat cause := by
    refine ⟨(hframe.2.2 .dev (by decide)).trans hd, ?_, ?_, hpast, by rw [hrec]; rfl⟩ <;> rw [hsht]
    · exact hw
    · exact hr
  have hheld : u.heldFrom s.b.sht.next.toNat = true := by rw [State.heldFrom, hsht]; exact hh
  rw [← hframe.2.1 R.MOT_RACK_CNT (by decide)]
  exact afterTrigger_racks hdue hheld

/-- The freeze of a shot sealed in time shows its edge and books its trigger (R219, R227). -/
theorem edgeFreeze_sealed (hf : s.tooFast s.b.sht.next e = false)
    (hv : (s.shotRec s.b.sht.next.toNat).sealed = some (v, at')) (hl : s.sealLead ≤ e - at')
    (hh : s.heldFrom s.b.sht.next.toNat = false) (hw : s.b.sht.rackWait = none) :
    ∃ t, exec .edgeFreeze s = .next t ∧ t.b.sht.frozen = s.b.sht.frozen ++ [(s.b.sht.next, e)] ∧
      t.b.sht.next = s.b.sht.next + 1 ∧ (t.shotRec s.b.sht.next.toNat).triggered = true ∧
      t.led.shot = s.led.shot.book (.come 1) ∧ t.rd R.SHT_EDGE_LO = ofSigned 64 e % 2 ^ 32 ∧
      t.rd R.SHT_EDGE_HI = ofSigned 64 e / 2 ^ 32 % 2 ^ 32 ∧
      plainFrame [R.SHT_EDGE_LO, R.SHT_EDGE_HI] [.bSht, .ledShot, .bPos, .bTim, .bAge] s t := by
  refine ⟨_, edgeFreeze_shot hp ha hm hs hk hn, ?_⟩
  rw [hf, on_false, run_nop]
  have hframe := triggeredAt_framed s e
  have hrec := triggeredAt_rec s e
  have hshot := triggeredAt_shot s e
  have hlo := triggeredAt_lo s e
  have hhi := triggeredAt_hi s e
  obtain ⟨cross, hsht⟩ := triggeredAt_sht s e
  generalize s.triggeredAt e = u at *
  have hlead : u.sealLead = s.sealLead := by
    rw [State.sealLead, State.sealLead, framed_fld hframe _ (by decide)]
  rw [afterTrigger_sealed (by rw [hrec]; exact hv) (hlead.trans_le hl) (by rw [State.heldFrom, hsht]; exact hh) (by rw [hsht]; exact hw)]
  exact ⟨by rw [hsht]; rfl, by rw [hsht]; rfl, by rw [hrec]; rfl, hshot, hlo, hhi, hframe⟩

end

end Sys2Proof.Machine
end

section
/-! SUPPORT. The tracking deflection and its table (R224 to R226, R230), and the statement on the freeze and the deflection. -/

namespace Sys2Proof.Machine

variable {s t u : State}

/-! ### DAC samples (R224 to R226) -/

/-- A DAC sample that was limited is counted, and reported once (R225). -/
def noteClip (clipped : Bool) : Act := .dyn fun s =>
  on clipped (.seq (addR R.TRK_CLIP_CNT 1) (on (!s.b.pos.trkClipped)
    (.seq (onPos fun p => { p with trkClipped := true }) (raise E.TRK_TRK_CLIP))))

/-- The state in which a DAC sample is made. -/
def State.atDac (s : State) : State :=
  (onPos fun b => { b with trkN := b.trkN + 1 }).run
    ((advanceTo (s.dacTime s.b.pos.trkN)).run { s with out := [] })

theorem atDac_run (s : State) : ∃ tim age pt, s.atDac =
    { s with out := [], b := { s.b with tim := tim, age := age, pos := { s.b.pos with pt := pt, trkN := s.b.pos.trkN + 1 } } } := by
  obtain ⟨tim, age, pt, h⟩ := advanceTo_run { s with out := [] } (s.dacTime s.b.pos.trkN)
  exact ⟨tim, age, pt, by rw [State.atDac, h]; rfl⟩

theorem atDac_framed (s : State) : plainFrame [] [.bPos, .bTim, .bAge] s s.atDac :=
  framed_clear s (by decide) (framed_trans (framed_mono (by simp) (by decide) (advanceTo_framed _ _)) (within_onPos (by decide) _))

theorem shotPhase_lt (s : State) (p : Int) : s.shotPhase p < 2 ^ 12 := by
  rw [State.shotPhase]
  split
  · split
    · decide
    · unfold satI
      split
      · decide
      · split <;> omega
  · decide

/-- With no feedforward and no following error, a sample of the waveform is the RAMP entry with its offset. -/
theorem trackWave_run (hff : s.flag F.TRK_CFG_FF = false) (hfec : s.flag F.TRK_CFG_FEC = false)
    (hup : s.flag F.TRK_STAT_JTX_UP = true) (p : Int) :
    let r := s.rampEntry (s.shotPhase p)
    let off := toSigned 16 (if s.scanRev then s.fld F.TRK_OFFX_OFFX_R else s.fld F.TRK_OFFX_OFFX_F)
    (trackWave p).run s = (noteClip ((s.dacCode (r.1 + 4 * off)).2 || (s.dacCode r.2).2)).run
      ((Act.emit (.dac (s.dacCode (r.1 + 4 * off)).1 (s.dacCode r.2).1)).run
        ((setF F.TRK_STAT_INDEX (s.shotPhase p)).run (Act.draw.run s))) := by
  intro r off
  have hscale : s.rampScale = 0x4000 := by simp [State.rampScale, hff]
  have herr : s.trackError p = (0, false) := by simp [State.trackError, hfec]
  have hx : ∀ x : Int, (x * 0x4000).fdiv (2 ^ 14) = x := fun x => Int.mul_fdiv_cancel x (by decide)
  rw [trackWave, run_dyn]
  dsimp only
  rw [hscale, herr, hx, hx, hup, Bool.or_false, sub_zero, on_true]
  rfl

theorem within_noteClip (c : Bool) : (noteClip c).Within (fun a => eventRegs a || [R.TRK_STAT, R.TRK_CLIP_CNT].contains a)
    (eventParts ++ [.bPos, .bTim, .bAge, .fresh]) :=
  within_dyn fun _ => within_on (within_seq (within_addR (by decide)) (within_on (within_seq (within_onPos (by decide))
    (within_raise eventFrame_allows))))

theorem noteClip_keeps (c : Bool) (s : State) : ((noteClip c).run s).b.pos.trkN = s.b.pos.trkN ∧
    (∀ o ∈ s.out, o ∈ ((noteClip c).run s).out) ∧ ((noteClip c).run s).fld F.TRK_STAT_INDEX = s.fld F.TRK_STAT_INDEX := by
  have raised : ∀ u : State, ((raise E.TRK_TRK_CLIP).run u).b.pos = u.b.pos ∧
      (∀ o ∈ u.out, o ∈ ((raise E.TRK_TRK_CLIP).run u).out) ∧
      ((raise E.TRK_TRK_CLIP).run u).fld F.TRK_STAT_INDEX = u.fld F.TRK_STAT_INDEX := fun u => by
    obtain ⟨o, ho, -⟩ := (allows_raise triggerScope u E.TRK_TRK_CLIP).rel.out
    exact ⟨(raise_framed u _).2.2 .bPos (by decide), fun x hx => by rw [ho]; exact List.mem_append_left _ hx,
      raise_fld _ _ _ (by decide)⟩
  have counted : ∀ u : State, ((addR R.TRK_CLIP_CNT 1).run u).fld F.TRK_STAT_INDEX = u.fld F.TRK_STAT_INDEX := fun u => by
    rw [State.fld, State.fld, rd_addR_ne _ _ _ _ (by decide)]
  rw [noteClip, run_dyn]
  cases c with
  | false => exact ⟨rfl, fun _ h => h, rfl⟩
  | true =>
    rw [on_true, run_seq]
    cases s.b.pos.trkClipped with
    | true => exact ⟨rfl, fun _ h => h, counted s⟩
    | false =>
      rw [Bool.not_false, on_true, run_seq]
      obtain ⟨hpos, hout, hfld⟩ := raised ((onPos fun p => { p with trkClipped := true }).run ((addR R.TRK_CLIP_CNT 1).run s))
      exact ⟨by rw [hpos]; rfl, hout, hfld.trans (counted s)⟩

theorem trkSample_run (hp : s.powered 5 = true) : exec .trkSample s = .next
    ((if s.tracking then trackWave (s.dacTime s.b.pos.trkN + (s.rd R.TRK_DAC_LAT * 1024 : Nat))
      else on (s.flag F.TRK_STAT_JTX_UP) (.emit (.dac 0 0))).run s.atDac) := by
  have hp' : ({ s with out := [] } : State).powered 5 = true := hp
  show execTrkSample s = _
  rw [execTrkSample, perform_eq, run_dyn, hp', if_neg (by decide)]
  rfl

/-- While nothing tracks, a DAC sample is code 0 (R226). -/
theorem trkSample_idle (hp : s.powered 5 = true) (hup : s.flag F.TRK_STAT_JTX_UP = true) (ht : s.tracking = false) :
    ∃ t, exec .trkSample s = .next t ∧ t.out = [.dac 0 0] ∧ t.b.pos.trkN = s.b.pos.trkN + 1 ∧
      plainFrame [] [.bPos, .bTim, .bAge] s t := by
  refine ⟨_, trkSample_run hp, ?_⟩
  rw [ht, hup, if_neg (by decide), on_true]
  have hframe := atDac_framed s
  obtain ⟨tim, age, pt, hu⟩ := atDac_run s
  rw [hu] at hframe ⊢
  exact ⟨rfl, rfl, framed_trans hframe (within_emit (by decide) _)⟩

/-- A DAC sample of the waveform (R224, R225). -/
theorem trkSample_tracks (hp : s.powered 5 = true) (hup : s.flag F.TRK_STAT_JTX_UP = true) (ht : s.tracking = true)
    (hff : s.flag F.TRK_CFG_FF = false) (hfec : s.flag F.TRK_CFG_FEC = false) :
    ∃ t, exec .trkSample s = .next t ∧ t.b.pos.trkN = s.b.pos.trkN + 1 ∧
      (let i := s.shotPhase (s.dacTime s.b.pos.trkN + (s.rd R.TRK_DAC_LAT * 1024 : Nat))
       let off := toSigned 16 (if s.scanRev then s.fld F.TRK_OFFX_OFFX_R else s.fld F.TRK_OFFX_OFFX_F)
       t.fld F.TRK_STAT_INDEX = i ∧
         Out.dac (s.dacCode ((s.rampEntry i).1 + 4 * off)).1 (s.dacCode (s.rampEntry i).2).1 ∈ t.out) ∧
      eventFrame [R.TRK_STAT, R.TRK_CLIP_CNT] [.bPos, .bTim, .bAge, .fresh] s t := by
  refine ⟨_, trkSample_run hp, ?_⟩
  rw [ht, if_pos rfl]
  generalize hq : s.dacTime s.b.pos.trkN + (s.rd R.TRK_DAC_LAT * 1024 : Nat) = q
  have hframe := atDac_framed s
  obtain ⟨tim, age, pt, hu⟩ := atDac_run s
  rw [trackWave_run (by rw [hu]; exact hff) (by rw [hu]; exact hfec) (by rw [hu]; exact hup)]
  have hphase : s.atDac.shotPhase q = s.shotPhase q := by rw [hu]; rfl
  have hcode : s.atDac.dacCode = s.dacCode := by rw [hu]; rfl
  have hentry : s.atDac.rampEntry = s.rampEntry := by rw [hu]; rfl
  have hrev : s.atDac.scanRev = s.scanRev := by rw [hu]; rfl
  have hfld : s.atDac.fld = s.fld := by rw [hu]; rfl
  have htrk : s.atDac.b.pos.trkN = s.b.pos.trkN + 1 := by rw [hu]
  rw [hphase, hcode, hentry, hrev, hfld]
  generalize s.atDac = u at *
  generalize hw : (Act.emit _).run _ = w
  have hwN : w.b.pos.trkN = s.b.pos.trkN + 1 := by rw [← hw]; exact htrk
  have hwI : w.fld F.TRK_STAT_INDEX = s.shotPhase q := by
    rw [← hw]
    refine (fld_setF_same _ _ _ (by decide)).trans (Nat.mod_eq_of_lt (shotPhase_lt s q))
  obtain ⟨hn, hout, hindex⟩ := noteClip_keeps ((s.dacCode ((s.rampEntry (s.shotPhase q)).1 + 4 * toSigned 16
    (if s.scanRev then s.fld F.TRK_OFFX_OFFX_R else s.fld F.TRK_OFFX_OFFX_F))).2 || (s.dacCode (s.rampEntry (s.shotPhase q)).2).2) w
  refine ⟨hn.trans hwN, ⟨hindex.trans hwI, hout _ ?_⟩, ?_⟩
  · rw [← hw]
    exact List.mem_append_right _ (List.mem_singleton_self _)
  · refine framed_trans (framed_mono (by simp) (by decide) hframe) (framed_trans (t := w) ?_ (within_noteClip _ _))
    rw [← hw]
    exact framed_trans (framed_trans (within_draw (by decide) u) (within_setF (by decide) _)) (within_emit (by decide) _)

/-! ### The RAMP table (R226, R230) -/

theorem trkStep_index (s : State) : (trkStep.run s).fld F.TRK_IDX_INDEX = (s.fld F.TRK_IDX_INDEX + 1) % 2 ^ 12 :=
  fld_setF_same s F.TRK_IDX_INDEX _ (by decide)

theorem trkStep_b (s : State) : (trkStep.run s).b = s.b := by rw [trkStep, run_dyn, setF_b]

theorem within_trkStep {rg : Nat → Bool} {ps : List Part} (h : rg R.TRK_IDX = true) : trkStep.Within rg ps :=
  within_dyn fun _ => within_setF h

/-- A read of TRK_DATA. -/
theorem trkDataAccess_reads (hr : s.reaches 0xB2 = true) :
    ∃ t, exec (.trkDataAccess none) s = .next t ∧ .completion (leBytes 4 s.trkData) false ∈ t.out ∧
      t.fld F.TRK_IDX_INDEX = (s.fld F.TRK_IDX_INDEX + 1) % 2 ^ 12 ∧ accessFrame [R.TRK_IDX] [] s t := by
  have hdata : (s.served 0xB2).trkData = s.trkData := by
    rw [State.trkData, State.trkData, served_pos, served_fld _ _ _ (by decide)]
  have hwithin : trkDataRead.Within (fun a => accessRegs a || [R.TRK_IDX].contains a) (accessParts s ++ []) :=
    within_dyn fun _ => within_seq (within_emit (by simp [accessParts, eventParts])) (within_trkStep (by decide))
  refine ⟨_, perform_fromPage s 0xB2 trkDataRead hr, ?_, ?_, accessFrame_run s 0xB2 hwithin⟩ <;>
    rw [trkDataRead, run_dyn, run_seq, hdata]
  · show _ ∈ (s.served 0xB2).out ++ [_]
    simp
  · rw [trkStep_index]
    exact congrArg (fun i => (i + 1) % 2 ^ 12) (served_fld s 0xB2 F.TRK_IDX_INDEX (by decide))

/-- A write of TRK_DATA outside ARMED, WRITING and RACKING. -/
theorem trkDataAccess_writes (hr : s.reaches 0xB2 = true) (hl : s.locked = false) (w : Word) :
    ∃ t, exec (.trkDataAccess (some w)) s = .next t ∧
      spGet (fun _ => (0 : Word)) t.b.pos.ramp (s.fld F.TRK_IDX_INDEX) = w ∧
      (∀ i, i ≠ s.fld F.TRK_IDX_INDEX → spGet (fun _ => (0 : Word)) t.b.pos.ramp i = spGet (fun _ => 0) s.b.pos.ramp i) ∧
      t.fld F.TRK_IDX_INDEX = (s.fld F.TRK_IDX_INDEX + 1) % 2 ^ 12 ∧ accessFrame [R.TRK_IDX] [.bPos] s t := by
  have hindex : (s.served 0xB2).fld F.TRK_IDX_INDEX = s.fld F.TRK_IDX_INDEX := served_fld _ _ _ (by decide)
  have hrun : (trkDataWrite w).run (s.served 0xB2) = trkStep.run ((onPos fun p =>
      { p with ramp := spPut (fun _ => 0) p.ramp (s.fld F.TRK_IDX_INDEX) w, lastTrk := w }).run (s.served 0xB2)) := by
    rw [trkDataWrite, run_dyn, served_locked, hl, if_neg (by decide), run_seq, hindex]
  refine ⟨_, perform_toPage s 0xB2 (trkDataWrite w) hr, ?_⟩
  rw [hrun]
  refine ⟨?_, fun i hi => ?_, ?_, ?_⟩
  · rw [trkStep_b, run_onPos]
    exact spGet_spPut_same _ _ _ _
  · rw [trkStep_b, run_onPos]
    exact (spGet_spPut_ne _ _ _ _ _ hi.symm).trans (by rw [served_pos])
  · rw [trkStep_index]
    exact congrArg (fun i => (i + 1) % 2 ^ 12) hindex
  · exact accessFrame_run (a := .seq (onPos fun p =>
      { p with ramp := spPut (fun _ => 0) p.ramp (s.fld F.TRK_IDX_INDEX) w, lastTrk := w }) trkStep) s 0xB2
      (within_seq (within_onPos (by simp)) (within_trkStep (by decide)))

/-- A write of TRK_DATA in ARMED, WRITING and RACKING is an error of its page. -/
theorem trkDataAccess_locked (hr : s.reaches 0xB2 = true) (hl : s.locked = true)
    (he : s.rd (pageReg 0xB2 0x020) / 2 ^ 16 % 2 ^ 15 = 0) (w : Word) :
    ∃ t, exec (.trkDataAccess (some w)) s = .next t ∧ t.rd (pageReg 0xB2 0x020) = 2 ^ 16 + Err.locked ∧
      t.fld F.TRK_IDX_INDEX = (s.fld F.TRK_IDX_INDEX + 1) % 2 ^ 12 ∧
      accessFrame [pageReg 0xB2 0x020, pageReg 0xB2 0x024, R.TRK_IDX] [] s t := by
  have herr : (err R.TRK_DATA Err.locked).Within [pageReg 0xB2 0x020, pageReg 0xB2 0x024].contains [] :=
    within_errD (page := 0xB2) rfl (by decide) (by decide)
  have hrun : (trkDataWrite w).run (s.served 0xB2) = trkStep.run ((err R.TRK_DATA Err.locked).run (s.served 0xB2)) := by
    rw [trkDataWrite, run_dyn, served_locked, hl, if_pos rfl, run_seq]
  refine ⟨_, perform_toPage s 0xB2 (trkDataWrite w) hr, ?_⟩
  rw [hrun]
  refine ⟨?_, ?_, ?_⟩
  · rw [(within_trkStep (rg := [R.TRK_IDX].contains) (ps := []) (by decide) _).2.1 _ (by decide)]
    exact (errD_first (s.served 0xB2) rfl (by decide) (by decide) (by decide) (by rw [served_rd _ _ _ (by decide)]; exact he)).1
  · rw [trkStep_index, framed_fld (herr _) _ (by decide), served_fld _ _ _ (by decide)]
  · exact accessFrame_run (a := .seq (err R.TRK_DATA Err.locked) trkStep) s 0xB2 (within_seq
      (herr.mono (fun a ha => by simp only [List.contains_eq_mem, decide_eq_true_eq] at ha ⊢; simp at ha ⊢; tauto) (by simp))
      (within_trkStep (by decide)))

/-! ### The statement -/

/-- Settles O35: a freeze is the freeze of its index at the state to which time has come; a shot's trigger is followed through
overspeed, deadline, late moves, held triggers and the racking that waits. -/
theorem frozenEdgesTriggerShotsAndTheDeflectionFollows : Obligations.FrozenEdgesTriggerShotsAndTheDeflectionFollows := by
  unfold Obligations.FrozenEdgesTriggerShotsAndTheDeflectionFollows
  intro s
  refine ⟨fun e hp ha hm hs hw => edgeFreeze_meetsSample hp ha hm hs hw, fun e hp ha hm hs => ?_, fun hp hup => ?_, fun hr => ?_⟩
  · exact ⟨fun hk => edgeFreeze_takePoint hp ha hm hs hk, fun hk hn => ⟨fun hf => edgeFreeze_tooFast hp ha hm hs hk hn hf,
      fun cause hf hh hd hw hrack hz => edgeFreeze_racks hp ha hm hs hk hn hf hh hd hw hrack hz,
      fun v at' hf hv hl hh hw => edgeFreeze_sealed hp ha hm hs hk hn hf hv hl hh hw⟩⟩
  · exact ⟨fun ht => trkSample_idle hp hup ht, fun ht hff hfec => trkSample_tracks hp hup ht hff hfec⟩
  · exact ⟨trkDataAccess_reads hr, fun w => ⟨fun hl => trkDataAccess_writes hr hl w, fun hl he => trkDataAccess_locked hr hl he w⟩⟩

end Sys2Proof.Machine
end

section
/-! SUPPORT. Scopes with room for entry to FAULT, and messages that come late (R23, R283, R462). -/

namespace Sys2Proof.Machine

variable {A : Scope} (s : State)

/-! ### Entry to FAULT -/

/-- A scope has room for entry to FAULT: the frozen edges may go, and the role may change. -/
structure Scope.HasFaults (A : Scope) : Prop extends A.HasCourse where
  fault : A.regs R.TOP_FAULT = true
  roles : [Part.role, .fresh] ⊆ A.parts
  edges : ∀ b x, A.blocks b { b with sht := x }

section
variable (h : A.HasFaults)
include h

theorem faults_changeRole (r : Role) : A.Allows (changeRole r) s := by
  simp only [changeRole, sendRole, allows_dyn, allows_on, allows_cons, allows_role, allows_raise, allows_seq, allows_draw,
    allows_nil, implies_true, and_true]
  exact fun _ => ⟨h.roles (by decide), fun _ => ⟨trivial, fun t => ⟨allows_each _ t fun p _ u =>
    allows_netSend _ u (by simp) _ _ _ _ _ _, fun _ => h.roles (by decide)⟩⟩⟩

theorem faults_faultEntry (cause page detail : Nat) : A.Allows (faultEntry cause page detail) s := by
  have htake : ∀ (l : List Nat) t, A.Allows (each l fun m => takeFrames m true) t := fun l t =>
    allows_each _ t fun m _ u => seals_takeFrames u h.toHasSeals m true
  simp [faultEntry, h.fault, course_enter _ h.toHasCourse, seals_pairSend _ h.toHasSeals, htake, course_cutShots _ h.toHasCourse,
    h.edges, h.job, faults_changeRole _ h, course_stopMotion _ h.toHasCourse]

end

/-! ### Late messages (R462) -/

/-- What a late message leaves alone once it is reported: the count of discarded messages. -/
def lateScope : Scope where
  regs a := a != R.PAR_MSG_ERR
  parts := [.ledFrame, .ledShot, .dev, .prevDev, .role, .fresh]
  blocks _ _ := True
  refl _ := trivial
  trans _ _ := trivial
  net _ _ := trivial

@[simp] theorem lateScope_blocks (b c : Blocks) : lateScope.blocks b c := trivial

theorem lateScope_reg {a : Nat} (h : a ≠ R.PAR_MSG_ERR) : (eventRegs a || lateScope.regs a) = true := by simp [lateScope, h]

theorem lateScope_hasFaults : lateScope.HasFaults where
  regs a ha := by
    simp only [lateScope, bne_iff_ne]
    rintro rfl
    exact absurd ha (by decide)
  frame := by decide
  plk _ _ := trivial
  cask _ _ := trivial
  par _ _ _ _ _ := trivial
  recs _ _ _ := trivial
  course := by decide
  parts := by decide
  job _ _ := trivial
  mot _ _ := trivial
  sht _ _ _ := trivial
  fault := by decide
  roles := by decide
  edges _ _ := trivial

/-! ### What a disarm leaves alone (R20) -/

theorem late_tapReg (k : Nat) : (eventRegs (R.TP_STAT k) || lateScope.regs (R.TP_STAT k)) = true := lateScope_reg (by
  unfold R.TP_STAT R.PAR_MSG_ERR; omega)
theorem late_steerReg (i : Nat) : (eventRegs (R.CSK_STEER i) || lateScope.regs (R.CSK_STEER i)) = true := lateScope_reg (by
  unfold R.CSK_STEER R.PAR_MSG_ERR; omega)
theorem late_engineReg (e : Nat) : (eventRegs (R.PE_STAT e) || lateScope.regs (R.PE_STAT e)) = true := lateScope_reg (by
  unfold R.PE_STAT R.PAR_MSG_ERR; omega)
theorem late_pageStat (p : Nat) : (eventRegs (pageReg p 0x00C) || lateScope.regs (pageReg p 0x00C)) = true := lateScope_reg (by
  unfold pageReg R.PAR_MSG_ERR; omega)

theorem late_steerAuto (lane : Nat) : lateScope.Allows (steerAuto lane) s := by
  have hstat : (eventRegs R.BST_STAT || lateScope.regs R.BST_STAT) = true := by decide
  simp only [steerAuto, unserve, pageStat, allows_dyn]
  split
  · simp [late_steerReg]
  · split
    · simp [late_steerReg, late_tapReg, late_pageStat, hstat]
    · simp [faults_faultEntry _ lateScope_hasFaults]

theorem late_retireTap (k : Nat) : lateScope.Allows (retireTap k) s := by
  rw [retireTap, allows_dyn, allows_ite]
  refine ⟨fun _ => trivial, fun _ => ?_⟩
  cases s.laneOf k <;> simp [unserve, late_tapReg, late_steerReg, late_steerAuto]

theorem late_retireTaps (ended : Bool) : lateScope.Allows (retireTaps ended) s := by
  have hcounts : ∀ (l : List Nat) t, lateScope.Allows (each l fun k => setF (F.TP_STAT_RETRIES k) 0) t := fun l t =>
    allows_each _ t fun k _ _ => late_tapReg k
  have hretire : ∀ (l : List Nat) t, lateScope.Allows (each l retireTap) t := fun l t => allows_each _ t fun k _ u => late_retireTap u k
  simp [retireTaps, hcounts, hretire]

theorem late_stopPress : lateScope.Allows stopPress s := by
  have hbusy : ∀ (l : List Cluster) t, lateScope.Allows (each l fun c => setB (F.PE_STAT_BUSY c.engine) false) t := fun l t =>
    allows_each _ t fun c _ _ => late_engineReg c.engine
  have hruns : ∀ (l : List Run) t, lateScope.Allows (each l fun r => .seq (each r.busy fun c => setB (F.PE_STAT_BUSY c.engine) false)
      (setBin r.stripe.bin fun x => { x with state := .ready })) t := fun l t =>
    allows_each _ t fun r _ u => ⟨hbusy _ u, fun _ => trivial⟩
  simp [stopPress, hruns]

theorem late_noteTriggered : lateScope.Allows noteTriggered s :=
  allows_each _ s fun _ _ t => course_noteUnresolved t lateScope_hasFaults.toHasCourse _

theorem late_deferredStep : lateScope.Allows deferredStep s := by
  have hstat : (eventRegs R.TIM_STAT || lateScope.regs R.TIM_STAT) = true := by decide
  simp only [deferredStep, allows_dyn]
  split
  · simp [stepTim, noteRate, hstat]
  · trivial

theorem late_disarmDone : lateScope.Allows disarmDone s := by
  simp [disarmDone, course_enter _ lateScope_hasFaults.toHasCourse, late_deferredStep]

theorem late_refuseState (page cmd : Nat) : lateScope.Allows (refuseState page cmd) s := by
  have href : (eventRegs R.TOP_REFUSE || lateScope.regs R.TOP_REFUSE) = true := by decide
  simp [refuseState, refuse, href]

theorem late_disarmNow : lateScope.Allows disarmNow s := by
  simp [disarmNow, late_refuseState, seals_dropTaps _ lateScope_hasFaults.toHasSeals, late_stopPress, late_noteTriggered,
    course_abandonShots _ lateScope_hasFaults.toHasCourse, resetShots, late_retireTaps,
    course_stopMotion _ lateScope_hasFaults.toHasCourse, late_disarmDone]

theorem late_lateStop (shot : Nat) : lateScope.Allows (lateStop shot) s := by
  simp [lateStop, late_disarmNow, course_stopSafeFrom _ lateScope_hasFaults.toHasCourse]

/-! ### Messages discarded (R266, R462) -/

theorem discardMessage_reports : (discardMessage.run s).rd R.PAR_MSG_ERR = (s.rd R.PAR_MSG_ERR + 1) % 2 ^ 32 ∧
    (discardMessage.run s).raised E.PAR_MSG_ERR = true := by
  rw [discardMessage, run_seq]
  exact ⟨by rw [raise_rd _ _ _ (by decide), rd_addR_same], raise_raised (by decide) _⟩

/-- A late message is counted once and reported, whatever the stop brings that it makes. -/
theorem lateMessage_reports : (lateMessage.run s).rd R.PAR_MSG_ERR = (s.rd R.PAR_MSG_ERR + 1) % 2 ^ 32 ∧
    (lateMessage.run s).raised E.PAR_MSG_ERR = true := by
  rw [lateMessage, run_dyn, run_acts_cons, run_acts_cons, run_acts_cons, run_acts_nil]
  obtain ⟨hcnt, hraised⟩ := discardMessage_reports s
  generalize discardMessage.run s = a at *
  have rel := (seals_pairSend a lateScope_hasFaults.toHasSeals 7 s.firstUnsigned (stopData s 2)).rel.trans
    (late_lateStop _ s.firstUnsigned).rel
  exact ⟨(rel.rd _ (by decide)).trans hcnt, rel.raised _ (by decide) hraised⟩

end Sys2Proof.Machine
end

section
/-! SUPPORT. Messages that name a period, a sample or a shot, FAULT notices, and damaged messages (R243, R263, R266, R279, R280,
R283, R289), and the statement on pair commands. -/

namespace Sys2Proof.Machine

variable {s t u : State} {w k : Nat}

/-! ### Messages that name a period or a sample -/

theorem forPeriod_ahead (h : s.periodNow < fullIndex s.periodNow w) (f : Nat → Act) :
    (forPeriod w f).run s = (f (fullIndex s.periodNow w)).run s := by
  rw [forPeriod, run_dyn]
  exact congrArg (fun a => Act.run a s) (if_neg (not_le.mpr h))

theorem forPeriod_late (h : fullIndex s.periodNow w ≤ s.periodNow) (f : Nat → Act) : (forPeriod w f).run s = lateMessage.run s := by
  rw [forPeriod, run_dyn]
  exact congrArg (fun a => Act.run a s) (if_pos h)

theorem forSample_ahead (h : s.b.pos.n ≤ fullIndex s.b.pos.n w) (f : Nat → Act) :
    (forSample w f).run s = (f (fullIndex s.b.pos.n w)).run s := by
  rw [forSample, run_dyn]
  exact congrArg (fun a => Act.run a s) (if_neg (not_lt.mpr h))

theorem forSample_late (h : fullIndex s.b.pos.n w < s.b.pos.n) (f : Nat → Act) : (forSample w f).run s = lateMessage.run s := by
  rw [forSample, run_dyn]
  exact congrArg (fun a => Act.run a s) (if_pos h)

/-- An intact message that the device acts on where a condition holds has its effect on the state with nothing put out. -/
theorem perform_whole (c : State → Bool) (a : State → Act) (hc : c { s with out := [] } = true) :
    perform (whole true (.dyn fun s => on (c s) (a s))) s = .next ((a { s with out := [] }).run { s with out := [] }) := by
  rw [perform_eq, whole, if_pos rfl, run_dyn, hc, on_true]

section
variable (hp : s.paired = true)
include hp

theorem speed_run (w : Word) (v : BitVec 64) : exec (.speed w ⟨v, true⟩) s = .next ((forPeriod w.toNat fun k =>
    onMot fun m => { m with mateSpeed := (k % 2 ^ 32, v.toNat) :: m.mateSpeed.take 63 }).run { s with out := [] }) :=
  perform_whole State.paired _ hp

theorem mateCommit_run (w : Word) (axes : BitVec 4) (c : Fin 4) : exec (.mateCommit w axes ⟨c, true⟩) s = .next ((forSample w.toNat
    fun j => onPos fun p => { p with commits := p.commits ++ [(j, axes.toNat, 3)] }).run { s with out := [] }) :=
  perform_whole State.paired _ hp

theorem roleMsg_run (w : Word) (a : Bool) : exec (.roleMsg w ⟨a, true⟩) s = .next ((forPeriod w.toNat fun k =>
    onPar fun p => { p with roleAt := some (k, !a) }).run { s with out := [] }) :=
  perform_whole State.paired _ hp

theorem reentry_run (w shot : Word) (hn : s.b.sht.rackN = some shot.toNat) : exec (.reentry shot ⟨w, true⟩) s =
    .next ((forPeriod w.toNat fun k => onMot fun m => { m with reentryMate := some k }).run { s with out := [] }) :=
  perform_whole (fun s => s.paired && s.b.sht.rackN == some shot.toNat) _ (by
    have hp' : ({ s with out := [] } : State).paired = true := hp
    simp [hp', hn])

theorem regwr_run (w : Word) (addr : BitVec 20) (v : Word) : exec (.regwr w addr ⟨v, true⟩) s =
    .next ((regwrIn w.toNat addr.toNat v).run { s with out := [] }) :=
  perform_whole (fun s => s.paired || s.role == .joining) _ (by
    have hp' : ({ s with out := [] } : State).paired = true := hp
    simp [hp'])

end

/-- A write of the motion page takes effect at a period (R263). -/
theorem regwrIn_motion {addr : Nat} (ha : addr / 0x1000 = 0xB4) (v : Word) : regwrIn w addr v = forPeriod w fun k =>
    acts [on false (.seq enterJoiner noteArmRequest), onMot fun m => { m with writes := m.writes ++ [(k, addr, v)] }] := by
  have hjob : addr ≠ R.JOB_CMD := by
    rintro rfl
    exact absurd ha (by decide)
  rw [regwrIn, if_neg (fun h => hjob h.1), if_pos (.inr ha), show (addr == R.JOB_CMD) = false by simpa using hjob, Bool.false_and]

/-- A write of any page but those of jobs and motion takes effect before a sample (R263). -/
theorem regwrIn_sample {addr : Nat} (h7 : addr / 0x1000 ≠ 7) (hm : addr / 0x1000 ≠ 0xB4) (v : Word) : regwrIn w addr v =
    forSample w fun j => onPos fun p => { p with writes := p.writes ++ [(j, addr, v)] } := by
  have hjob : addr ≠ R.JOB_CMD := by
    rintro rfl
    exact absurd h7 (by decide)
  rw [regwrIn, if_neg (fun h => hjob h.1), if_neg (not_or.mpr ⟨h7, hm⟩)]

/-- What messages ahead of their period bring about. -/
theorem periodMessages_act (hp : s.paired = true) {w : Word} (hk : s.periodNow < fullIndex s.periodNow w.toNat) :
    (∀ v, ∃ t, exec (.speed w ⟨v, true⟩) s = .next t ∧
      (fullIndex s.periodNow w.toNat % 2 ^ 32, v.toNat) ∈ t.b.mot.mateSpeed ∧
      plainFrame [] [.bMot] s t) ∧
    (∀ a, ∃ t, exec (.roleMsg w ⟨a, true⟩) s = .next t ∧ t.b.par.roleAt = some (fullIndex s.periodNow w.toNat, !a) ∧
      plainFrame [] [.bPar] s t) ∧
    (∀ shot : Word, s.b.sht.rackN = some shot.toNat → ∃ t, exec (.reentry shot ⟨w, true⟩) s = .next t ∧
      t.b.mot.reentryMate = some (fullIndex s.periodNow w.toNat) ∧ plainFrame [] [.bMot] s t) ∧
    (∀ (addr : BitVec 20) (v : Word), addr.toNat / 0x1000 = 0xB4 → ∃ t, exec (.regwr w addr ⟨v, true⟩) s = .next t ∧
      t.b.mot.writes = s.b.mot.writes ++ [(fullIndex s.periodNow w.toNat, addr.toNat, v)] ∧ plainFrame [] [.bMot] s t) := by
  have hk' : ({ s with out := [] } : State).periodNow < fullIndex ({ s with out := [] } : State).periodNow w.toNat := hk
  refine ⟨fun v => ⟨_, speed_run hp w v, ?_⟩, fun a => ⟨_, roleMsg_run hp w a, ?_⟩,
    fun shot hn => ⟨_, reentry_run hp w shot hn, ?_⟩,
    fun addr v ha => ⟨_, regwr_run hp w addr v, ?_⟩⟩
  · rw [forPeriod_ahead hk']
    exact ⟨List.mem_cons_self, plainFrame_run s (within_onMot (by decide))⟩
  · rw [forPeriod_ahead hk']
    exact ⟨rfl, plainFrame_run s (within_onPar (by decide))⟩
  · rw [forPeriod_ahead hk']
    exact ⟨rfl, plainFrame_run s (within_onMot (by decide))⟩
  · rw [regwrIn_motion ha, forPeriod_ahead hk']
    exact ⟨rfl, plainFrame_run s (within_cons within_nop (within_cons (within_onMot (by decide)) within_nil))⟩

/-- What messages ahead of their sample bring about. -/
theorem sampleMessages_act (hp : s.paired = true) {w : Word} (hj : s.b.pos.n ≤ fullIndex s.b.pos.n w.toNat) :
    (∀ (axes : BitVec 4) (c : Fin 4), ∃ t, exec (.mateCommit w axes ⟨c, true⟩) s = .next t ∧
      t.b.pos.commits = s.b.pos.commits ++ [(fullIndex s.b.pos.n w.toNat, axes.toNat, 3)] ∧ plainFrame [] [.bPos] s t) ∧
    (∀ (addr : BitVec 20) (v : Word), addr.toNat / 0x1000 ≠ 7 → addr.toNat / 0x1000 ≠ 0xB4 →
      ∃ t, exec (.regwr w addr ⟨v, true⟩) s = .next t ∧
        t.b.pos.writes = s.b.pos.writes ++ [(fullIndex s.b.pos.n w.toNat, addr.toNat, v)] ∧ plainFrame [] [.bPos] s t) := by
  have hj' : ({ s with out := [] } : State).b.pos.n ≤ fullIndex ({ s with out := [] } : State).b.pos.n w.toNat := hj
  refine ⟨fun axes c => ⟨_, mateCommit_run hp w axes c, ?_⟩, fun addr v h7 hm => ⟨_, regwr_run hp w addr v, ?_⟩⟩
  · rw [forSample_ahead hj']
    exact ⟨rfl, plainFrame_run s (within_onPos (by decide))⟩
  · rw [regwrIn_sample h7 hm, forSample_ahead hj']
    exact ⟨rfl, plainFrame_run s (within_onPos (by decide))⟩

/-- A message that names a period that has begun is counted and reported (R462). -/
theorem periodMessages_late (hp : s.paired = true) {w : Word} (hk : fullIndex s.periodNow w.toNat ≤ s.periodNow) :
    ∀ c ∈ [Instr.speed w ⟨0, true⟩, .roleMsg w ⟨true, true⟩, .regwr w (BitVec.ofNat 20 R.MOT_CMD) ⟨1, true⟩],
      ∃ t, exec c s = .next t ∧ t.rd R.PAR_MSG_ERR = (s.rd R.PAR_MSG_ERR + 1) % 2 ^ 32 ∧ t.raised E.PAR_MSG_ERR = true := by
  have hk' : fullIndex ({ s with out := [] } : State).periodNow w.toNat ≤ ({ s with out := [] } : State).periodNow := hk
  have hlate := lateMessage_reports { s with out := [] }
  have hrun : ∀ c ∈ [Instr.speed w ⟨0, true⟩, .roleMsg w ⟨true, true⟩, .regwr w (BitVec.ofNat 20 R.MOT_CMD) ⟨1, true⟩],
      exec c s = .next (lateMessage.run { s with out := [] }) := by
    simp only [List.forall_mem_cons, List.not_mem_nil, false_imp_iff, implies_true, and_true]
    exact ⟨by rw [speed_run hp, forPeriod_late hk'], by rw [roleMsg_run hp, forPeriod_late hk'],
      by rw [regwr_run hp, regwrIn_motion (by decide), forPeriod_late hk']⟩
  exact fun c hc => ⟨_, hrun c hc, hlate⟩

/-- A message that names a sample that has been processed is counted and reported (R462). -/
theorem mateCommit_late (hp : s.paired = true) {w : Word} (hj : fullIndex s.b.pos.n w.toNat < s.b.pos.n) :
    ∃ t, exec (.mateCommit w 15 ⟨0, true⟩) s = .next t ∧ t.rd R.PAR_MSG_ERR = (s.rd R.PAR_MSG_ERR + 1) % 2 ^ 32 ∧
      t.raised E.PAR_MSG_ERR = true := by
  refine ⟨_, mateCommit_run hp w 15 0, ?_⟩
  rw [forSample_late (by exact hj)]
  exact lateMessage_reports { s with out := [] }

/-! ### STOP (R19, R280) -/

theorem stopMsg_run (hp : s.paired = true) (w : Word) (seq : Word) (hw : s.run.isSome = false ∨ s.b.sht.first ≤ w.toNat) :
    exec (.stopMsg w 0 ⟨seq, true⟩) s = .next ((stopSafeFrom w.toNat).run { s with out := [] }) := by
  have hahead : ¬ (({ s with out := [] } : State).run.isSome = true ∧ w.toNat < ({ s with out := [] } : State).b.sht.first) := by
    rintro ⟨hr, hlt⟩
    rcases hw with h | h
    · exact absurd (h.symm.trans hr) (by decide)
    · exact absurd hlt (not_lt.mpr h)
  refine (perform_whole State.paired _ hp).trans ?_
  exact congrArg (fun a => Host.Outcome.next (Act.run a { s with out := [] })) (if_neg hahead)

/-- The shot unit in which a stop cuts the shots from one on. -/
def ShotBlk.cutFrom (n : Nat) (b : ShotBlk) : ShotBlk :=
  { b with stopFrom := some n, floor := none, rackWait := none, reentered := none }

/-- A cut under no stop names its first shot, or the next one to be strobed. -/
theorem cutShots_first (s : State) (k : Nat) (h : s.b.sht.stopFrom = none) : ∃ u, (cutShots k).run s = safePoint.run u ∧
    u.b.sht.stopFrom = some (max k s.b.sht.first) ∧ u.b.sht.first = s.b.sht.first ∧ u.dev = s.dev := by
  rw [cutShots, run_dyn, h]
  dsimp only
  rw [run_acts_cons, run_acts_cons, run_acts_cons, run_acts_cons, run_acts_cons, run_acts_cons, run_acts_nil]
  have hu : ((onSht (ShotBlk.cutFrom (max k s.b.sht.first))).run s).b.sht = s.b.sht.cutFrom (max k s.b.sht.first) := rfl
  have hdev : ((onSht (ShotBlk.cutFrom (max k s.b.sht.first))).run s).dev = s.dev := rfl
  unfold ShotBlk.cutFrom at hu hdev
  generalize (onSht _).run s = u at *
  generalize s.b.sht.recs.filter _ = cut
  have rel := ((((allows_dropTaps u (max k s.b.sht.first)).mono sealScope_le_cutScope).rel.trans
    (allows_each cutScope _ (l := cut) fun x _ t => allows_cutRecord t x).rel).trans
      ((allows_holdSeals _ (s.b.sht.recs.length + 1) (max k s.b.sht.first)).mono sealScope_le_cutScope).rel).trans
        (allows_abandonCut _).rel
  exact ⟨_, rfl, by rw [rel.blocks.1, hu], by rw [rel.blocks.2, hu], (rel.part .dev (by decide) (by decide)).trans hdev⟩

/-- At its safe point a stop of a device that writes or racks drains it, and not before. -/
theorem safePoint_ends (hd : s.dev = .writing ∨ s.dev = .racking) (hn : s.b.sht.stopFrom = some k) :
    (safePoint.run s).dev = if k ≤ s.b.sht.first then .draining else s.dev := by
  have hedge : s.dev.edge .draining = true := by rcases hd with h | h <;> simp [h, DevState.edge]
  rw [safePoint, run_dyn, hn]
  dsimp only
  split
  · rename_i hle
    rw [decide_eq_true hle, on_true, run_seq, enter_run _ (by exact hedge), raise_dev]
    rfl
  · rename_i hle
    rw [decide_eq_false hle, on_false, run_nop]

/-- A stop that the mate sends withholds from the shot that it names (R280). -/
theorem stopMsg_cuts (hp : s.paired = true) (w seq : Word) (hd : s.dev = .writing ∨ s.dev = .racking)
    (hw : s.run.isSome = false ∨ s.b.sht.first ≤ w.toNat) (hn : s.b.sht.stopFrom = none) :
    ∃ t, exec (.stopMsg w 0 ⟨seq, true⟩) s = .next t ∧ t.b.sht.stopFrom = some (max w.toNat s.b.sht.first) ∧
      t.dev = if w.toNat ≤ s.b.sht.first then .draining else s.dev := by
  refine ⟨_, stopMsg_run hp w seq hw, ?_⟩
  have harmed : ¬ s.dev = .armed := by rcases hd with h | h <;> simp [h]
  rw [stopSafeFrom, run_dyn, if_neg harmed, if_pos hd, run_acts_cons, run_acts_cons, run_acts_cons, run_acts_nil]
  have hmot : framed (fun _ => false) [.out, .bMot] s ((on s.b.sht.stopFrom.isNone (stopMotion .stop)).run { s with out := [] }) :=
    framed_clear s (by decide) (within_on (within_stopMotion (by decide) _) _)
  generalize (on s.b.sht.stopFrom.isNone (stopMotion .stop)).run { s with out := [] } = a at *
  have hjob : framed (fun _ => false) [.out, .bMot, .bJob] s ((onJob fun j => { j with
      stopEnd := false, pendSafe := false, turnWait := false }).run a) :=
    framed_trans (framed_mono (fun _ h => h) (by decide) hmot) (within_onJob (by decide) _)
  generalize (onJob fun j => { j with stopEnd := false, pendSafe := false, turnWait := false }).run a = b at *
  have hsht : b.b.sht = s.b.sht := hjob.2.2 .bSht (by decide)
  have hdev : b.dev = s.dev := hjob.2.2 .dev (by decide)
  obtain ⟨c, hc, hstop, hfirst, hcdev⟩ := cutShots_first b w.toNat (by rw [hsht, hn])
  rw [hsht] at hstop hfirst
  rw [hc]
  refine ⟨by rw [safePoint_stopFrom, hstop], ?_⟩
  rw [safePoint_ends (by rw [hcdev, hdev]; exact hd) hstop, hfirst, hcdev, hdev]
  simp

/-- A stop that comes in ARMED waits (R19, R280). -/
theorem stopMsg_waits (hp : s.paired = true) (w seq : Word) (hd : s.dev = .armed)
    (hw : s.run.isSome = false ∨ s.b.sht.first ≤ w.toNat) :
    ∃ t, exec (.stopMsg w 0 ⟨seq, true⟩) s = .next t ∧ t.dev = .armed ∧ t.b.job.pendSafe = true ∧
      plainFrame [] [.bJob] s t := by
  refine ⟨_, stopMsg_run hp w seq hw, ?_⟩
  have hrun : (stopSafeFrom w.toNat).run { s with out := [] } = (onJob fun j => { j with pendSafe := true }).run { s with out := [] } := by
    rw [stopSafeFrom, run_dyn, if_pos (by exact hd)]
  rw [hrun]
  exact ⟨hd, rfl, plainFrame_run s (within_onJob (by decide))⟩

end Sys2Proof.Machine
end

section
/-! SUPPORT. FAULT notices and damaged messages (R266, R282, R283), and the statement on pair commands. -/

namespace Sys2Proof.Machine

variable {s t u : State}

/-! ### The loss of a mate (R281, R282) -/

/-- What follows the loss of a mate leaves alone: what is known of the mate, and the role once it is taken over. -/
def noticeScope : Scope where
  regs _ := true
  parts := [.ledFrame, .ledShot, .dev, .prevDev, .fresh]
  blocks b c := c.par.mate = b.par.mate ∧ c.par.mateFault = b.par.mateFault ∧ c.par.mateSeq = b.par.mateSeq
  refl _ := ⟨rfl, rfl, rfl⟩
  trans h k := ⟨k.1.trans h.1, k.2.1.trans h.2.1, k.2.2.trans h.2.2⟩
  net _ _ := ⟨rfl, rfl, rfl⟩

theorem noticeScope_hasCourse : noticeScope.HasCourse where
  regs _ _ := rfl
  frame := by decide
  plk _ _ := ⟨rfl, rfl, rfl⟩
  cask _ _ := ⟨rfl, rfl, rfl⟩
  par _ _ h1 h2 h3 := ⟨h1, h2, h3⟩
  recs _ _ _ := ⟨rfl, rfl, rfl⟩
  course _ _ := rfl
  parts := by decide
  job _ _ := ⟨rfl, rfl, rfl⟩
  mot _ _ := ⟨rfl, rfl, rfl⟩
  sht _ _ _ := ⟨rfl, rfl, rfl⟩

theorem noticeScope_sendRole (s : State) : noticeScope.Allows sendRole s := by
  simp only [sendRole, allows_dyn, allows_seq, allows_draw]
  exact ⟨allows_each _ s fun p _ u => allows_netSend _ u (by simp) _ _ _ _ _ _, fun _ => by decide⟩

theorem noticeScope_sendFrame (s : State) (f : LtqFrame) (late : Bool) : noticeScope.Allows (sendFrame f late) s := by
  have hreg : ∀ a, noticeScope.regs a = true := fun _ => rfl
  have hout : ∀ (l : List Partner) t, noticeScope.Allows (each l fun p => .dyn fun t =>
      netSend (t.ltqPorts f.queue) p.id (t.session p.id) f.type (if late then 4 else 0) 0 f.payload) t := fun l t =>
    allows_each _ t fun p _ u => allows_netSend _ u (ltqPorts_port u f.queue) _ _ _ _ _ _
  simp [sendFrame, hreg, hout]

theorem noticeScope_catchUp (s : State) : noticeScope.Allows catchUp s := by
  have hreg : ∀ a, noticeScope.regs a = true := fun _ => rfl
  rw [catchUp, allows_dyn, allows_on]
  refine fun _ => allows_each _ s fun x _ t => ?_
  simp [hreg, noticeScope_sendFrame]

/-- A STANDBY that takes over is ACTIVE from then on, and reports it (R282). -/
theorem takeover_takes (h : s.role = .standby) :
    noticeScope.Rel { s with role := .active } (takeover.run s) ∧ (takeover.run s).raised E.PAR_TAKEOVER = true := by
  have hedge : s.role.edge .active = true := by simp [h, Role.edge]
  rw [takeover, run_dyn, h, show (Role.standby == Role.standby) = true from rfl, on_true, run_acts_cons, run_acts_cons,
    run_acts_cons, run_acts_cons, run_acts_nil, changeRole, run_dyn, hedge, on_true, run_acts_cons, run_acts_cons, run_acts_cons,
    run_acts_nil, run_role _ _ hedge]
  generalize ({ s with role := .active } : State) = a
  have hrole := (allows_raise noticeScope a E.PAR_ROLE_CHANGE).rel.trans (noticeScope_sendRole _).rel
  generalize sendRole.run ((raise E.PAR_ROLE_CHANGE).run a) = b at *
  have hsend := (show noticeScope.Allows (addR R.PAR_TAKEOVER_CNT 1) _ from rfl).rel.trans
    (noticeScope_catchUp ((addR R.PAR_TAKEOVER_CNT 1).run ((raise E.PAR_TAKEOVER).run b))).rel
  exact ⟨(hrole.trans (allows_raise noticeScope b E.PAR_TAKEOVER).rel).trans hsend,
    hsend.raised _ (by decide) (raise_raised (by decide) b)⟩

theorem takeover_other (h : s.role ≠ .standby) : takeover.run s = s := by
  have hrole : (s.role == .standby) = false := by simpa using h
  rw [takeover, run_dyn, hrole, on_false, run_nop]

/-- What a mate that is LOST brings about. -/
structure State.LosesMate (s t : State) : Prop where
  mate : t.b.par.mate = .lost
  mateFault : t.b.par.mateFault = s.b.par.mateFault
  mateSeq : t.b.par.mateSeq = s.b.par.mateSeq
  lost : t.raised E.PAR_MATE_LOST = true
  role : s.role = .standby → t.role = .active ∧ t.raised E.PAR_TAKEOVER = true

theorem State.LosesMate.of_notice (h : s.LosesMate t) (r : noticeScope.Rel t u) : s.LosesMate u where
  mate := r.blocks.1.trans h.mate
  mateFault := r.blocks.2.1.trans h.mateFault
  mateSeq := r.blocks.2.2.trans h.mateSeq
  lost := r.raised _ (by decide) h.lost
  role hs := ⟨(r.part .role (by decide) (by decide)).trans (h.role hs).1, r.raised _ (by decide) (h.role hs).2⟩

theorem mateLost_loses (hp : s.paired = true) (hm : s.b.par.mate ≠ .lost) : s.LosesMate (mateLost.run s) := by
  have hne : (s.b.par.mate != .lost) = true := by simpa using hm
  rw [mateLost, run_dyn, hp, hne, Bool.and_self, on_true, run_acts_cons, run_acts_cons, run_acts_cons, run_acts_cons, run_acts_nil]
  refine State.LosesMate.of_notice ?_ (course_settleAll _ noticeScope_hasCourse).rel
  have hframe := raise_framed ((onPar fun p => { p with mate := .lost }).run s) E.PAR_MATE_LOST
  have hraised := raise_raised (e := E.PAR_MATE_LOST) (by decide) ((onPar fun p => { p with mate := .lost }).run s)
  generalize (raise E.PAR_MATE_LOST).run _ = a at *
  have hpar : a.b.par = { s.b.par with mate := .lost } := hframe.2.2 .bPar (by decide)
  have hrole : a.role = s.role := hframe.2.2 .role (by decide)
  have hlost : s.role ≠ .standby → s.LosesMate a := fun hs =>
    ⟨by rw [hpar], by rw [hpar], by rw [hpar], hraised, fun h => absurd h hs⟩
  by_cases hs : s.role = .standby
  · obtain ⟨rel, htake⟩ := takeover_takes (hrole.trans hs)
    obtain ⟨hmate, hfault, hseq⟩ := rel.blocks
    exact ⟨hmate.trans (by rw [hpar]), hfault.trans (by rw [hpar]), hseq.trans (by rw [hpar]), rel.raised _ (by decide) hraised,
      fun _ => ⟨rel.part .role (by decide) (by decide), htake⟩⟩
  · rw [takeover_other (by rw [hrole]; exact hs)]
    exact hlost hs

/-- A FAULT notice makes the mate LOST and passes the ACTIVE role (R283). -/
theorem stopMsg_notices (hp : s.paired = true) (w seq : Word) (hm : s.b.par.mate ≠ .lost) :
    ∃ t, exec (.stopMsg w 1 ⟨seq, true⟩) s = .next t ∧ t.b.par.mate = .lost ∧ t.b.par.mateFault = true ∧
      t.b.par.mateSeq = seq.toNat ∧ t.raised E.PAR_MATE_LOST = true ∧
      (s.role = .standby → t.role = .active ∧ t.raised E.PAR_TAKEOVER = true) := by
  refine ⟨(faultNotice w.toNat seq.toNat).run { s with out := [] }, perform_whole State.paired _ hp, ?_⟩
  rw [faultNotice, run_dyn, run_acts_cons, run_acts_cons, run_acts_cons, run_acts_nil, run_onPar]
  have hlost := State.LosesMate.of_notice (mateLost_loses (s := { s with
    out := [], b := { s.b with par := { s.b.par with mateSeq := seq.toNat, mateFault := true } } }) hp hm)
    (course_withhold _ noticeScope_hasCourse (({ s with out := [] } : State).firstUntriggered (max w.toNat s.b.sht.first)) 7 true).rel
  exact ⟨hlost.mate, hlost.mateFault, hlost.mateSeq, hlost.lost, hlost.role⟩

/-! ### Damaged messages (R266) -/

/-- A command whose message comes damaged discards it. -/
theorem perform_damaged (h : s.pairHears = true) (a : Act) :
    perform (whole false a) s = .next (discardMessage.run { s with out := [] }) := by
  have h' : ({ s with out := [] } : State).pairHears = true := h
  rw [perform_eq, whole, if_neg (by decide), run_dyn, h', on_true]

/-- A damaged message is counted, reported, and changes nothing else. -/
theorem damaged_reports (h : s.pairHears = true) (a : Act) : ∃ t, perform (whole false a) s = .next t ∧
    t.rd R.PAR_MSG_ERR = (s.rd R.PAR_MSG_ERR + 1) % 2 ^ 32 ∧ t.raised E.PAR_MSG_ERR = true ∧ eventFrame [R.PAR_MSG_ERR] [] s t := by
  obtain ⟨hcnt, hraised⟩ := discardMessage_reports { s with out := [] }
  exact ⟨_, perform_damaged h a, hcnt, hraised,
    eventFrame_run s (within_seq (within_addR (by decide)) (within_raise eventFrame_allows))⟩

/-! ### The statement -/

/-- Settles O41: each message by what its command does of the period, sample or shot that it names; a late one is reported before
its stop, which no longer changes the count of discarded messages. -/
theorem pairCommandsActAtThePointTheyName : Obligations.PairCommandsActAtThePointTheyName := by
  unfold Obligations.PairCommandsActAtThePointTheyName
  refine ⟨fun s w hp => ⟨⟨fun hk => periodMessages_act hp hk, fun hk => periodMessages_late hp hk⟩,
    ⟨fun hj => sampleMessages_act hp hj, fun hj => mateCommit_late hp hj⟩,
    fun seq => ⟨fun hd hw hn => stopMsg_cuts hp w seq hd hw hn,
      fun hd hw => stopMsg_waits hp w seq hd hw, fun hm => stopMsg_notices hp w seq hm⟩⟩, ?_⟩
  intro s w x d v addr off axes cause reason data b hh
  simp only [List.forall_mem_cons, List.not_mem_nil, false_imp_iff, implies_true, and_true]
  exact ⟨damaged_reports hh _, damaged_reports hh _, damaged_reports hh _, damaged_reports hh _, damaged_reports hh _,
    damaged_reports hh _, damaged_reports hh _, damaged_reports hh _, damaged_reports hh _, damaged_reports hh _,
    damaged_reports hh _, damaged_reports hh _⟩

end Sys2Proof.Machine
end

section
/-! SUPPORT. What follows from a position sample, and what it leaves alone (R206, R214 to R219, R222, R249). -/

namespace Sys2Proof.Machine

/-! ### The measurement's scopes -/

/-- The registers on which the judgement of a sample rests, and the count of its CRC failures. -/
def judgeRegs : List Nat := [R.POS_STAT, R.POS_RLIM, R.POS_JRX_ERR, R.AX_CTRL 0, R.AX_CTRL 1, R.AX_CTRL 2, R.AX_CTRL 3]

/-- What a sample's consequences leave alone: the registers on which judgements rest, and a part of the positions. -/
def measureScope {α : Type} (part : PosBlk → α) : Scope where
  regs a := !judgeRegs.contains a
  parts := [.ledFrame, .ledShot, .dev, .prevDev, .role, .fresh]
  blocks b c := part c.pos = part b.pos
  refl _ := rfl
  trans h k := k.trans h
  net _ _ := rfl

variable {α : Type} (part : PosBlk → α) (s : State)

theorem measureScope_hasFaults : (measureScope part).HasFaults where
  regs a ha := by
    simp only [measureScope, Bool.not_eq_true', List.contains_eq_mem, decide_eq_false_iff_not]
    intro hm
    have hnone : ∀ a ∈ judgeRegs, sealScope.regs a = false := by decide
    exact absurd ha (by simp [hnone a hm])
  frame := by simp [measureScope]
  plk _ _ := rfl
  cask _ _ := rfl
  par _ _ _ _ _ := rfl
  recs _ _ _ := rfl
  course _ ha := (by decide : ∀ a ∈ courseRegs, (!judgeRegs.contains a) = true) _ ha
  parts := by simp [measureScope]
  job _ _ := rfl
  mot _ _ := rfl
  sht _ _ _ := rfl
  fault := (by decide : (!judgeRegs.contains R.TOP_FAULT) = true)
  roles := by simp [measureScope]
  edges _ _ := rfl

theorem measureScope_reg {a : Nat} (h : judgeRegs.contains a = false) : (eventRegs a || (measureScope part).regs a) = true := by
  have hreg : (measureScope part).regs a = true := by
    show (!judgeRegs.contains a) = true
    rw [h, Bool.not_false]
  rw [hreg, Bool.or_true]

/-! ### Frozen edges and predictions (R215 to R222) -/

theorem measure_onSht (f : ShotBlk → ShotBlk) : (measureScope part).Allows (onSht f) s := rfl
theorem measure_onMot (f : MotBlk → MotBlk) : (measureScope part).Allows (onMot f) s := rfl

theorem measure_trigger (n : Nat) (e : Int) (fast : Bool) : (measureScope part).Allows (trigger n e fast) s := by
  have h := measureScope_hasFaults part
  have hcnt : (eventRegs R.SHT_OVERSPEED_CNT || (measureScope part).regs R.SHT_OVERSPEED_CNT) = true := measureScope_reg part (by decide)
  have hbook : Ledger.shot.part ∈ eventParts ++ (measureScope part).parts := h.toHasCourse.shot
  simp [trigger, hbook, hcnt, seals_putRec _ h.toHasSeals, course_noteUnresolved _ h.toHasCourse, course_abandonShots _ h.toHasCourse,
    seals_holdSeals _ h.toHasSeals, course_withhold _ h.toHasCourse, course_missDeadline _ h.toHasCourse,
    course_lateMove _ h.toHasCourse, course_heldTrigger _ h.toHasCourse, course_rackDue _ h.toHasCourse]

theorem measure_freezeIndex (k e : Int) (late : Bool) : (measureScope part).Allows (freezeIndex k e late) s := by
  have hlo : (eventRegs R.SHT_EDGE_LO || (measureScope part).regs R.SHT_EDGE_LO) = true := measureScope_reg part (by decide)
  have hhi : (eventRegs R.SHT_EDGE_HI || (measureScope part).regs R.SHT_EDGE_HI) = true := measureScope_reg part (by decide)
  rw [freezeIndex, allows_dyn]
  exact ⟨measure_onSht part s _, fun t => ⟨(allows_on _ _ _ _).mpr fun _ => ⟨hlo, fun _ => ⟨hhi, fun _ => trivial⟩⟩, fun t =>
    ⟨(allows_on _ _ _ _).mpr fun _ => measure_trigger part t _ _ _, fun _ => trivial⟩⟩⟩

theorem measure_reverseSeen : (measureScope part).Allows reverseSeen s :=
  ⟨measureScope_reg part (by decide), fun t => allows_raise _ t _⟩

theorem measure_reverseWatch (r : Run) : (measureScope part).Allows (reverseWatch r) s := by
  rw [reverseWatch, allows_dyn]
  split
  · exact (allows_on _ _ _ _).mpr fun _ => ⟨measure_onSht part s _, fun t => measure_reverseSeen part t⟩
  · trivial

theorem measure_armIndex (r : Run) : (measureScope part).Allows (armIndex r) s := by
  have hcnt : (eventRegs R.SHT_BACKLASH_CNT || (measureScope part).regs R.SHT_BACKLASH_CNT) = true := measureScope_reg part (by decide)
  simp [armIndex, measure_onSht, measure_reverseSeen, hcnt, -allows_onSht]

theorem measure_takePrediction (r : Run) (arrival : Int) : (measureScope part).Allows (takePrediction r arrival) s := by
  have hvel : (eventRegs R.POS_VEL || (measureScope part).regs R.POS_VEL) = true := measureScope_reg part (by decide)
  rw [takePrediction, allows_dyn]
  dsimp only
  split
  · simp [measure_onSht, measure_freezeIndex, hvel, -allows_onSht]
  · trivial

theorem measure_crossError : (measureScope part).Allows crossError s := by
  have herr : (eventRegs R.SHT_PRED_ERR || (measureScope part).regs R.SHT_PRED_ERR) = true := measureScope_reg part (by decide)
  rw [crossError, allows_dyn]
  split
  · exact ⟨measure_onSht part s _, fun t => allows_each _ t fun _ _ u => ⟨herr, fun _ => herr⟩⟩
  · trivial

theorem measure_shotSample (arrival : Int) : (measureScope part).Allows (shotSample arrival) s := by
  refine ⟨measure_crossError part s, fun t => ?_⟩
  rw [allows_dyn]
  split
  · simp [measure_reverseWatch, measure_armIndex, measure_takePrediction]
  · trivial

theorem measure_freezeAfter (arrival : Int) : (measureScope part).Allows (freezeAfter arrival) s := by
  rw [freezeAfter, allows_dyn, allows_on]
  refine fun _ => ⟨measure_onSht part s _, fun t => ?_⟩
  split
  · exact (allows_on _ _ _ _).mpr fun _ => measure_freezeIndex part t _ _ _
  · trivial

/-! ### Following error and yaw (R206, R249) -/

theorem measure_feAxis (axis : Nat) (e warn trip : Rat) : (measureScope part).Allows (feAxis axis e warn trip) s := by
  have h := measureScope_hasFaults part
  simp [feAxis, measure_onMot, faults_faultEntry _ h, course_stopMotion _ h.toHasCourse, -allows_onMot]

theorem measure_followingError (n : Nat) : (measureScope part).Allows (followingError n) s := by
  have hmax : (eventRegs R.MOT_FE_MAX || (measureScope part).regs R.MOT_FE_MAX) = true := measureScope_reg part (by decide)
  simp [followingError, hmax, measure_feAxis]

/-- The positions but for the level of YAW. -/
def PosBlk.besideYaw (p : PosBlk) : PosBlk := { p with yawArmed := true }

theorem measure_yawCheck : (measureScope PosBlk.besideYaw).Allows yawCheck s := by
  have hyaw : (eventRegs R.POS_YAW || (measureScope PosBlk.besideYaw).regs R.POS_YAW) = true := measureScope_reg _ (by decide)
  have hpos : ∀ (v : Bool) t, (measureScope PosBlk.besideYaw).Allows (onPos fun p => { p with yawArmed := v }) t := fun _ _ => rfl
  simp [yawCheck, hyaw, hpos, course_stopSafe _ (measureScope_hasFaults _).toHasCourse, -allows_onPos]

/-! ### FAULT is not left (R19) -/

/-- An effect keeps a property of the device state. -/
def Act.KeepsDev (D : DevState → Prop) (a : Act) : Prop := ∀ s : State, D s.dev → D (a.run s).dev

section
variable {D : DevState → Prop} {a b : Act}

theorem keepsDev_of_dev (h : ∀ s, (a.run s).dev = s.dev) : a.KeepsDev D := fun s hs => by rw [h]; exact hs
theorem keepsDev_within {rg : Nat → Bool} {ps : List Part} (h : a.Within rg ps) (hp : .dev ∉ ps) : a.KeepsDev D :=
  keepsDev_of_dev fun s => (h s).2.2 .dev hp
theorem keepsDev_scope {A : Scope} (h : ∀ s, A.Allows a s) (hp : Part.dev ∉ eventParts ++ A.parts) : a.KeepsDev D :=
  keepsDev_of_dev fun s => (h s).rel.part .dev (by decide) hp
@[simp] theorem keepsDev_nop : Act.nop.KeepsDev D := fun _ h => h
@[simp] theorem keepsDev_seq (ha : a.KeepsDev D) (hb : b.KeepsDev D) : (Act.seq a b).KeepsDev D := fun s h => hb _ (ha s h)
theorem keepsDev_dyn {f : State → Act} (h : ∀ s, (f s).KeepsDev D) : (Act.dyn f).KeepsDev D := fun s => h s s
theorem keepsDev_acts {as : List Act} (h : ∀ a ∈ as, a.KeepsDev D) : (acts as).KeepsDev D := by
  induction as with
  | nil => exact keepsDev_nop
  | cons a as ih => exact keepsDev_seq (h a (by simp)) (ih fun b hb => h b (by simp [hb]))
@[simp] theorem keepsDev_on {c : Bool} (h : a.KeepsDev D) : (on c a).KeepsDev D := by
  cases c
  · exact keepsDev_nop
  · exact h
theorem keepsDev_ite {c : Prop} [Decidable c] (ha : a.KeepsDev D) (hb : b.KeepsDev D) : (if c then a else b).KeepsDev D := by
  split
  · exact ha
  · exact hb
theorem keepsDev_each {β : Type} {l : List β} {f : β → Act} (h : ∀ x, (f x).KeepsDev D) : (each l f).KeepsDev D := by
  intro s hs
  exact each_keeps (P := fun t => D t.dev) (fun x _ t ht => h x t ht) hs
@[simp] theorem keepsDev_onSht {f : ShotBlk → ShotBlk} : (onSht f).KeepsDev D := fun _ h => h
@[simp] theorem keepsDev_onMot {f : MotBlk → MotBlk} : (onMot f).KeepsDev D := fun _ h => h
@[simp] theorem keepsDev_onPos {f : PosBlk → PosBlk} : (onPos f).KeepsDev D := fun _ h => h
@[simp] theorem keepsDev_onAxis {i : Nat} {f : Axis → Axis} : (onAxis i f).KeepsDev D := fun _ h => h
@[simp] theorem keepsDev_onJob {f : JobBlk → JobBlk} : (onJob f).KeepsDev D := fun _ h => h
@[simp] theorem keepsDev_book {l : Ledger} {n : Nat} : (bookIn l n).KeepsDev D := fun _ h => h
@[simp] theorem keepsDev_setR {r v : Nat} : (setR r v).KeepsDev D := fun _ h => h
@[simp] theorem keepsDev_setF {f : Fld} {v : Nat} : (setF f v).KeepsDev D := fun _ h => h
@[simp] theorem keepsDev_setB {f : Fld} {v : Bool} : (setB f v).KeepsDev D := fun _ h => h
@[simp] theorem keepsDev_addR {r v : Nat} : (addR r v).KeepsDev D := fun _ h => h
@[simp] theorem keepsDev_raise {e : Evt} : (raise e).KeepsDev D := keepsDev_of_dev fun s => raise_dev s e
@[simp] theorem keepsDev_putRec {k : Nat} {f : ShotRec → ShotRec} : (putRec k f).KeepsDev D :=
  keepsDev_of_dev fun s => by rw [run_putRec]
@[simp] theorem keepsDev_noteUnresolved {k : Nat} : (noteUnresolved k).KeepsDev D := keepsDev_onSht
@[simp] theorem keepsDev_stopMotion {p : Phase} : (stopMotion p).KeepsDev D := keepsDev_dyn fun _ => keepsDev_onMot
@[simp] theorem keepsDev_holdSeals {fuel m : Nat} : (holdSeals fuel m).KeepsDev D :=
  keepsDev_scope (fun s => allows_holdSeals s fuel m) (by decide)
@[simp] theorem keepsDev_dropTaps {k : Nat} : (dropTaps k).KeepsDev D := keepsDev_scope (fun s => allows_dropTaps s k) (by decide)
@[simp] theorem keepsDev_abandonShots : abandonShots.KeepsDev D := keepsDev_scope allows_abandonCut (by decide)

end

/-- The device is in FAULT. -/
def Faulted (d : DevState) : Prop := d = .fault

@[simp] theorem faulted_cutShots (k : Nat) : (cutShots k).KeepsDev Faulted := fun s h =>
  ((cutShots_fault h k).part .dev (by decide) (by decide)).trans h

@[simp] theorem faulted_stopSafe : stopSafe.KeepsDev Faulted := fun s h => by
  have hd : s.dev = .fault := h
  rw [stopSafe, run_dyn, if_neg (by simp [hd])]
  exact h

@[simp] theorem faulted_faultEntry (cause page detail : Nat) : (faultEntry cause page detail).KeepsDev Faulted := fun s h => by
  have hd : s.dev = .fault := h
  rw [faultEntry_idle (by simp [State.inJob, hd])]
  exact h

/-- In FAULT no racking is due. -/
theorem rackDue_fault {s : State} (h : s.dev = .fault) : rackDue.run s = s := by
  rw [rackDue, run_dyn]
  split
  · rw [h, show (DevState.fault == DevState.writing) = false from rfl, show (DevState.fault == DevState.racking) = false from rfl,
      Bool.false_and, Bool.or_false, Bool.false_and, Bool.false_and, on_false, run_nop]
  · rw [run_nop]

@[simp] theorem faulted_rackDue : rackDue.KeepsDev Faulted := fun s h => by
  rw [rackDue_fault h]
  exact h

@[simp] theorem faulted_rackTrigger (k cause : Nat) : (rackTrigger k cause).KeepsDev Faulted := fun s h => by
  have hd : s.dev = .fault := h
  rw [rackTrigger, run_dyn, if_neg (by simp [hd]), if_neg (by simp [hd])]
  exact h

@[simp] theorem faulted_withhold (k cause : Nat) (rack : Bool) : (withhold k cause rack).KeepsDev Faulted :=
  keepsDev_dyn fun _ => keepsDev_ite keepsDev_nop (keepsDev_ite (keepsDev_on (faulted_rackTrigger _ _)) (keepsDev_ite
    (keepsDev_seq (keepsDev_on (keepsDev_seq keepsDev_addR keepsDev_raise)) (faulted_cutShots k))
    (keepsDev_acts (by simp))))

@[simp] theorem faulted_missDeadline (k : Nat) : (missDeadline k).KeepsDev Faulted := keepsDev_dyn fun _ => by simp

@[simp] theorem faulted_lateMove (k : Nat) (edge : Int) : (lateMove k edge).KeepsDev Faulted := by
  refine keepsDev_dyn fun s => ?_
  split
  · exact keepsDev_on (keepsDev_acts (by simp))
  · exact keepsDev_nop

@[simp] theorem faulted_heldTrigger (k : Nat) : (heldTrigger k).KeepsDev Faulted :=
  keepsDev_dyn fun _ => keepsDev_on (keepsDev_acts (by simp))

@[simp] theorem faulted_trigger (k : Nat) (edge : Int) (fast : Bool) : (trigger k edge fast).KeepsDev Faulted := by
  have hfast : (on fast (acts [addR R.SHT_OVERSPEED_CNT 1, raise E.SHT_OVERSPEED, withhold k 4 true])).KeepsDev Faulted :=
    keepsDev_on (keepsDev_acts (by simp))
  refine keepsDev_dyn fun s => keepsDev_seq keepsDev_book (keepsDev_seq keepsDev_putRec (keepsDev_seq ?_ keepsDev_nop))
  exact keepsDev_ite (keepsDev_acts (by simp)) (keepsDev_acts (by simp [hfast]))

@[simp] theorem faulted_freezeIndex (k edge : Int) (late : Bool) : (freezeIndex k edge late).KeepsDev Faulted :=
  keepsDev_dyn fun _ => keepsDev_seq keepsDev_onSht (keepsDev_seq (keepsDev_on (keepsDev_acts (by simp))) (keepsDev_acts (by simp)))

@[simp] theorem keepsDev_reverseSeen {D : DevState → Prop} : reverseSeen.KeepsDev D := keepsDev_seq keepsDev_addR keepsDev_raise

@[simp] theorem keepsDev_reverseWatch {D : DevState → Prop} (r : Run) : (reverseWatch r).KeepsDev D := by
  refine keepsDev_dyn fun s => ?_
  split
  · simp
  · exact keepsDev_nop

@[simp] theorem keepsDev_armIndex {D : DevState → Prop} (r : Run) : (armIndex r).KeepsDev D :=
  keepsDev_dyn fun _ => keepsDev_ite (by simp) (keepsDev_ite (by simp) (keepsDev_ite keepsDev_onSht (keepsDev_ite (by simp)
    (keepsDev_ite keepsDev_onSht (by simp)))))

@[simp] theorem faulted_takePrediction (r : Run) (arrival : Int) : (takePrediction r arrival).KeepsDev Faulted := by
  refine keepsDev_dyn fun s => ?_
  dsimp only
  split
  · exact keepsDev_ite keepsDev_nop (keepsDev_ite (by simp) (by simp))
  · exact keepsDev_nop

@[simp] theorem keepsDev_crossError {D : DevState → Prop} : crossError.KeepsDev D := by
  refine keepsDev_dyn fun s => ?_
  split
  · exact keepsDev_seq keepsDev_onSht (keepsDev_each fun _ => keepsDev_dyn fun _ => by simp)
  · exact keepsDev_nop

@[simp] theorem faulted_shotSample (arrival : Int) : (shotSample arrival).KeepsDev Faulted := by
  have htake : ∀ r, (Act.dyn fun t => on t.b.sht.armed (takePrediction r arrival)).KeepsDev Faulted := fun r =>
    keepsDev_dyn fun _ => by simp
  refine keepsDev_seq keepsDev_crossError (keepsDev_dyn fun s => ?_)
  split
  · exact keepsDev_on (keepsDev_acts (by simp [htake]))
  · exact keepsDev_nop

@[simp] theorem faulted_freezeAfter (arrival : Int) : (freezeAfter arrival).KeepsDev Faulted := by
  refine keepsDev_dyn fun s => keepsDev_on (keepsDev_seq keepsDev_onSht ?_)
  split
  · simp
  · exact keepsDev_nop

@[simp] theorem faulted_feAxis (axis : Nat) (e warn trip : Rat) : (feAxis axis e warn trip).KeepsDev Faulted := by
  refine keepsDev_dyn fun s => keepsDev_seq (keepsDev_ite (by simp) (by simp)) (keepsDev_seq (keepsDev_ite ?_ keepsDev_onMot) keepsDev_nop)
  exact keepsDev_on (keepsDev_seq keepsDev_onMot (keepsDev_seq keepsDev_raise (keepsDev_seq
    (keepsDev_ite (faulted_faultEntry _ _ _) (by simp)) keepsDev_nop)))

@[simp] theorem faulted_followingError (n : Nat) : (followingError n).KeepsDev Faulted :=
  keepsDev_dyn fun _ => keepsDev_seq keepsDev_setF (keepsDev_seq keepsDev_setF (keepsDev_seq (faulted_feAxis _ _ _ _)
    (keepsDev_seq (keepsDev_ite (faulted_feAxis _ _ _ _) (faulted_feAxis _ _ _ _)) keepsDev_nop)))

@[simp] theorem faulted_yawCheck : yawCheck.KeepsDev Faulted :=
  keepsDev_dyn fun _ => keepsDev_seq keepsDev_setR (keepsDev_seq (keepsDev_ite (keepsDev_acts (by simp)) (by simp)) keepsDev_nop)

/-- No position that a sample gives leads out of FAULT. -/
theorem faulted_positionSample (n : Nat) (good : Bool) : (positionSample n good).KeepsDev Faulted :=
  keepsDev_dyn fun _ => keepsDev_seq keepsDev_onPos (keepsDev_seq (keepsDev_on (keepsDev_acts (by simp))) (keepsDev_acts (by simp)))

/-! ### The position that a sample gives (R204, R205) -/

/-- What follows from the position of a sample. -/
def afterPosition (n : Nat) (good : Bool) (arrival : Int) : Act :=
  .seq (on good (acts [followingError n, shotSample arrival, yawCheck])) (freezeAfter arrival)

theorem measure_afterPosition (n : Nat) (good : Bool) (arrival : Int) :
    (measureScope PosBlk.besideYaw).Allows (afterPosition n good arrival) s := by
  simp [afterPosition, measure_followingError, measure_shotSample, measure_yawCheck, measure_freezeAfter]

/-- A sample's position is the newest of the record; of the positions only the level of YAW changes besides, and no register on
which judgements rest. -/
theorem positionSample_effect (n : Nat) (good : Bool) : ∃ t, (positionSample n good).run s = t ∧
    (measureScope PosBlk.besideYaw).Rel { s with b := { s.b with pos := { s.b.pos with
      yc := s.yc, xc := s.xc, hist := (n, s.yc, good) :: s.b.pos.hist.take 129 } } } t := by
  rw [positionSample, run_dyn]
  exact ⟨_, rfl, (measure_afterPosition _ n good (s.sampleArrival n)).rel⟩

end Sys2Proof.Machine
end

section
/-! SUPPORT. What a sample does of one axis (R201 to R203, R207). -/

namespace Sys2Proof.Machine

variable {s t u : State} {i j : Nat}

/-! ### Entry to FAULT from a job (R19, R23) -/

/-- Shots are at stake, or the device is in FAULT. -/
def AtStake (d : DevState) : Prop := d = .armed ∨ d = .writing ∨ d = .racking ∨ d = .draining ∨ d = .fault

theorem atStake_of_inJob (h : s.inJob = true) : AtStake s.dev := by
  simp only [State.inJob, Bool.or_eq_true, beq_iff_eq] at h
  rcases h with ((h | h) | h) | h <;> simp [AtStake, h]

theorem inJob_of_atStake (h : AtStake s.dev) : s.inJob = true ∨ s.dev = .fault := by
  rcases h with h | h | h | h | h <;> simp [State.inJob, h]

theorem faulted_changeRole (r : Role) : (changeRole r).KeepsDev Faulted :=
  keepsDev_of_dev fun s => by
    have hwithin : (changeRole r).Within eventRegs (eventParts ++ [.role, .fresh]) :=
      within_dyn fun _ => within_on (within_cons (within_role (by decide)) (within_cons
        ((within_raise eventAllows).mono (fun _ h => h) (by simp +contextual)) (within_cons (within_dyn fun _ => within_seq
          (within_each fun _ => within_dyn fun _ => (within_netSend eventAllows (by simp)).mono (fun _ h => h) (by simp +contextual))
          (within_draw (by decide))) within_nil)))
    exact (hwithin s).2.2 .dev (by decide)

/-- Where shots are at stake an entry to FAULT leads there. -/
theorem faultEntry_dev (h : s.inJob = true) (cause page detail : Nat) : ((faultEntry cause page detail).run s).dev = .fault := by
  have hedge : s.dev.edge .fault = true := by
    rcases inJob_of_atStake (atStake_of_inJob h) with - | h'
    · simp only [State.inJob, Bool.or_eq_true, beq_iff_eq] at h
      rcases h with ((h | h) | h) | h <;> simp [h, DevState.edge]
    · simp [State.inJob, h'] at h
  rw [faultEntry, run_dyn]
  dsimp only
  rw [if_pos h, run_acts_cons, run_acts_cons]
  have henter : ∀ v, ((enter .fault).run ((setR R.TOP_FAULT v).run s)).dev = .fault := fun v => by
    rw [enter_run _ (by exact hedge), raise_dev]
    rfl
  have hsend : ∀ c : Bool, (on c (pairSend 7 s.b.sht.first (stopData s 1))).KeepsDev Faulted := fun c =>
    keepsDev_on (keepsDev_scope (fun t => allows_pairSend t _ _ _) (by decide))
  have htake : ∀ l : List Nat, (each l fun m => takeFrames m true).KeepsDev Faulted := fun l =>
    keepsDev_each fun m => keepsDev_scope (fun t => allows_takeFrames t m true) (by decide)
  have hrole : ∀ c : Prop, [Decidable c] → (if c then changeRole .standby else stopMotion .stop).KeepsDev Faulted := fun c _ =>
    keepsDev_ite (faulted_changeRole _) keepsDev_stopMotion
  refine keepsDev_acts (D := Faulted) ?_ _ (henter _)
  simp [hsend, htake, hrole]

theorem faulted_axisFault (i : Nat) : (axisFault i).KeepsDev Faulted := keepsDev_dyn fun _ => keepsDev_on (faulted_faultEntry _ _ _)

/-- The loss of an axis where shots are at stake is a fault (R203). -/
theorem axisFault_dev (h : AtStake s.dev) (i : Nat) : ((axisFault i).run s).dev = .fault := by
  rw [axisFault, run_dyn]
  rcases inJob_of_atStake h with h | h
  · rw [h, on_true, faultEntry_dev h]
  · rw [show s.inJob = false by simp [State.inJob, h], on_false, run_nop, h]

theorem atStake_axisFault (i : Nat) : (axisFault i).KeepsDev AtStake := fun s h => by
  rw [axisFault_dev h]
  simp [AtStake]

/-! ### One axis's part of a sample -/

/-- What a bad or a good sample does of an axis's count, phase and run of bad samples, and whether it is lost. -/
def Axis.core (x : Axis) : Int × Option Nat × Nat × Bool := (x.cnt, x.phi, x.badRun, x.lost)

/-- An axis that takes a good sample of a phase. -/
def Axis.takeGood (iq : Int × Int) (phi : Nat) (step : Int) (y : Axis) : Axis :=
  { y with
    cnt := toSigned 48 (ofSigned 48 (y.cnt + step)), phi := some phi, badRun := 0
    win := spPut (fun _ => {}) y.win (phi / 64) ((sectorOf y.win (phi / 64)).add iq.1 iq.2) }

/-- The phase step of a sample. -/
def Axis.stepTo (a : Axis) (phi : Nat) : Int := match a.phi with | some p => unwrap ((phi : Int) - p) | none => 0

/-- What is noted of a sample on an axis: its radius, and a slip. -/
def noteSample (i rho : Nat) (slip : Bool) : Act :=
  .seq (setF (F.AX_STAT_RADIUS i) rho) (on slip (.seq (setB (F.AX_STAT_SLIP i) true) (raise E.POS_SLIP)))

/-- An axis that loses its position. -/
def loseAxis (i : Nat) (valid : Bool) : Act :=
  acts [onAxis i fun y => { y with badRun := y.badRun + 1, lost := true }, raise E.POS_AXIS_LOST, on valid (axisFault i)]

/-- What a judged sample does of an axis. -/
def takeSample (i : Nat) (iq : Int × Int) (j : Bool × Nat × Bool) (a : Axis) (valid : Bool) : Act :=
  if a.lost then .nop
  else if j.1 then .seq (onAxis i (Axis.takeGood iq j.2.1 (a.stepTo j.2.1))) (closeWindow i)
  else if a.badRun + 1 < 4 then onAxis i fun y => { y with badRun := y.badRun + 1 }
  else loseAxis i valid

theorem axisSample_run (u : State) (i : Nat) (x : Sample) (bad : Bool) : (axisSample i x bad).run u = (onAxis i rampStep).run
    ((takeSample i (u.rawIQ x i) (u.judge i (u.rawIQ x i) bad) (u.b.pos.axis i) (u.axisValid i)).run
      ((noteSample i (radius (heyApply (u.b.pos.axis i).params (u.rawIQ x i).1 (u.rawIQ x i).2))
        (u.judge i (u.rawIQ x i) bad).2.2).run u)) := by
  have hact : axisSample i x bad = .dyn fun s => acts [
      setF (F.AX_STAT_RADIUS i) (radius (heyApply (s.b.pos.axis i).params (s.rawIQ x i).1 (s.rawIQ x i).2)),
      on (s.judge i (s.rawIQ x i) bad).2.2 (.seq (setB (F.AX_STAT_SLIP i) true) (raise E.POS_SLIP)),
      takeSample i (s.rawIQ x i) (s.judge i (s.rawIQ x i) bad) (s.b.pos.axis i) (s.axisValid i), onAxis i rampStep] := rfl
  rw [hact, run_dyn, run_acts_cons, run_acts_cons, run_acts_cons, run_acts_cons, run_acts_nil, noteSample, run_seq]

theorem within_noteSample (i rho : Nat) (slip : Bool) :
    (noteSample i rho slip).Within (fun a => eventRegs a || [R.AX_STAT i].contains a) (eventParts ++ []) :=
  within_seq (within_setF (by simp)) (within_on (within_seq (within_setB (by simp)) (within_raise eventFrame_allows)))

/-! ### What a sample on one axis leaves alone -/

theorem measure_axisFault {α : Type} {part : PosBlk → α} (s : State) (i : Nat) : (measureScope part).Allows (axisFault i) s := by
  simp [axisFault, faults_faultEntry _ (measureScope_hasFaults part)]

section
variable {α : Type} {part : PosBlk → α} (hi : i < 4) (hpart : ∀ p f, part (p.setAxis i f) = part p)
include hi

theorem measure_axisReg {a : Nat} (ha : a ∈ [R.AX_STAT i, R.AX_CAND_PQ i, R.AX_CAND_RS i, R.AX_WIN i]) :
    (eventRegs a || (measureScope part).regs a) = true := by
  have h : ∀ i < 4, ∀ a ∈ [R.AX_STAT i, R.AX_CAND_PQ i, R.AX_CAND_RS i, R.AX_WIN i], judgeRegs.contains a = false := by decide
  exact measureScope_reg part (h i hi a ha)

theorem measure_closeWindow (s : State) (hwin : ∀ p, part (p.setAxis i fun x => { x with win := [] }) = part p) :
    (measureScope part).Allows (closeWindow i) s := by
  have hstat : (eventRegs (R.AX_STAT i) || (measureScope part).regs (R.AX_STAT i)) = true := measure_axisReg hi (by simp)
  have hpq : (eventRegs (R.AX_CAND_PQ i) || (measureScope part).regs (R.AX_CAND_PQ i)) = true := measure_axisReg hi (by simp)
  have hrs : (eventRegs (R.AX_CAND_RS i) || (measureScope part).regs (R.AX_CAND_RS i)) = true := measure_axisReg hi (by simp)
  have hw : (eventRegs (R.AX_WIN i) || (measureScope part).regs (R.AX_WIN i)) = true := measure_axisReg hi (by simp)
  have haxis : ∀ t, (measureScope part).Allows (onAxis i fun x => { x with win := [] }) t := fun t => hwin (t.b.pos)
  have hfresh : Part.fresh ∈ (measureScope part).parts := by simp [measureScope]
  simp [closeWindow, satF, hstat, hpq, hrs, hw, haxis, hfresh]

include hpart

theorem measure_axisSample (s : State) (x : Sample) (bad : Bool) : (measureScope part).Allows (axisSample i x bad) s := by
  have hstat : (eventRegs (R.AX_STAT i) || (measureScope part).regs (R.AX_STAT i)) = true := measure_axisReg hi (by simp)
  have haxis : ∀ f t, (measureScope part).Allows (onAxis i f) t := fun f t => hpart t.b.pos f
  have hclose : ∀ t, (measureScope part).Allows (closeWindow i) t := fun t => measure_closeWindow hi t fun p => hpart p _
  simp [axisSample, hstat, haxis, hclose, measure_axisFault]

end

theorem keepsDev_axisSample {D : DevState → Prop} (h : (axisFault i).KeepsDev D) (x : Sample) (bad : Bool) :
    (axisSample i x bad).KeepsDev D := by
  have hclose : (closeWindow i).KeepsDev D := keepsDev_within (rg := fun _ => true) (ps := [.bPos, .fresh])
    (within_dyn fun _ => within_on (within_cons (within_setR rfl) (within_cons (within_setR rfl) (within_cons (within_draw (by decide))
      (within_cons (within_setB rfl) (within_cons (within_dyn fun _ => within_setF rfl) (within_cons (within_onAxis (by decide) _ _)
        within_nil))))))) (by decide)
  refine keepsDev_dyn fun u => keepsDev_seq keepsDev_setF (keepsDev_seq (by simp) (keepsDev_seq ?_ (keepsDev_seq keepsDev_onAxis
    keepsDev_nop)))
  exact keepsDev_ite keepsDev_nop (keepsDev_ite (keepsDev_seq keepsDev_onAxis hclose) (keepsDev_ite keepsDev_onAxis
    (keepsDev_acts (by simp [h]))))

/-! ### What a sample brings about of its axis -/

/-- What a judged sample makes of an axis that is not lost. -/
def Axis.afterSample (a : Axis) (j : Bool × Nat × Bool) : Int × Option Nat × Nat × Bool :=
  if j.1 then (toSigned 48 (ofSigned 48 (a.cnt + a.stepTo j.2.1)), some j.2.1, 0, a.lost)
  else (a.cnt, a.phi, a.badRun + 1, decide (3 ≤ a.badRun))

theorem core_rampStep (x : Axis) : (rampStep x).core = x.core := by
  unfold rampStep
  cases x.ramp <;> rfl

/-- The core of one axis. -/
def PosBlk.coreOf (i : Nat) (p : PosBlk) : Int × Option Nat × Nat × Bool := (p.axis i).core

theorem coreOf_setAxis (p : PosBlk) (i : Nat) {f : Axis → Axis} (h : ∀ x, (f x).core = x.core) :
    (p.setAxis i f).coreOf i = p.coreOf i := by rw [PosBlk.coreOf, PosBlk.axis_setAxis_same, h, PosBlk.coreOf]

theorem core_closeWindow (hi : i < 4) (s : State) : ((closeWindow i).run s).b.pos.coreOf i = s.b.pos.coreOf i :=
  (measure_closeWindow (part := PosBlk.coreOf i) hi s fun p => coreOf_setAxis p i fun _ => rfl).rel.blocks

/-- A good sample moves its axis's count by the phase step. -/
theorem takeSample_good (hi : i < 4) {a : Axis} {j : Bool × Nat × Bool} (iq : Int × Int) (valid : Bool) (hl : a.lost = false)
    (hj : j.1 = true) (ha : s.b.pos.axis i = a) :
    ((takeSample i iq j a valid).run s).b.pos.coreOf i = a.afterSample j := by
  rw [takeSample, hl, if_neg (by decide), if_pos hj, run_seq, core_closeWindow hi, run_onAxis, PosBlk.coreOf,
    PosBlk.axis_setAxis_same, ha, Axis.afterSample, if_pos hj]
  rfl

/-- A bad sample counts, and the fourth in a row loses the axis. -/
theorem takeSample_bad {a : Axis} {j : Bool × Nat × Bool} (iq : Int × Int) (valid : Bool) (hl : a.lost = false)
    (hj : j.1 = false) (ha : s.b.pos.axis i = a) :
    ((takeSample i iq j a valid).run s).b.pos.coreOf i = a.afterSample j ∧ (3 ≤ a.badRun →
      ((takeSample i iq j a valid).run s).raised E.POS_AXIS_LOST = true ∧
        (valid = true → AtStake s.dev → ((takeSample i iq j a valid).run s).dev = .fault)) := by
  have hj' : ¬ j.1 = true := by simp [hj]
  rw [takeSample, hl, if_neg (by decide), if_neg hj', Axis.afterSample, if_neg hj']
  by_cases hb : a.badRun + 1 < 4
  · have hfew : ¬ 3 ≤ a.badRun := by omega
    rw [if_pos hb, run_onAxis, PosBlk.coreOf, PosBlk.axis_setAxis_same, ha, decide_eq_false hfew]
    exact ⟨congrArg (fun l => (a.cnt, a.phi, a.badRun + 1, l)) hl, fun h => absurd h hfew⟩
  · have hmany : 3 ≤ a.badRun := by omega
    rw [if_neg hb, loseAxis, run_acts_cons, run_acts_cons, run_acts_cons, run_acts_nil, decide_eq_true hmany]
    have hcore : ((onAxis i fun y => { y with badRun := y.badRun + 1, lost := true }).run s).b.pos.coreOf i =
        (a.cnt, a.phi, a.badRun + 1, true) := by
      rw [run_onAxis, PosBlk.coreOf, PosBlk.axis_setAxis_same, ha]
      rfl
    have hdev : ((onAxis i fun y => { y with badRun := y.badRun + 1, lost := true }).run s).dev = s.dev := rfl
    generalize (onAxis i fun y => { y with badRun := y.badRun + 1, lost := true }).run s = b at *
    have hraise := raise_framed b E.POS_AXIS_LOST
    have hlost := raise_raised (e := E.POS_AXIS_LOST) (by decide) b
    generalize (raise E.POS_AXIS_LOST).run b = c at *
    have hfault : (measureScope (PosBlk.coreOf i)).Rel c ((on valid (axisFault i)).run c) :=
      ((allows_on _ _ _ _).mpr fun _ => measure_axisFault c i).rel
    refine ⟨hfault.blocks.trans ((congrArg (PosBlk.coreOf i) (hraise.2.2 .bPos (by decide))).trans hcore), fun _ =>
      ⟨hfault.raised _ (by decide) hlost, fun hv hs => ?_⟩⟩
    rw [hv, on_true]
    refine axisFault_dev ?_ i
    rwa [hraise.2.2 .dev (by decide), hdev]

/-- What a sample brings about of an axis that is not lost. -/
theorem axisSample_takes (hi : i < 4) (x : Sample) (bad : Bool) (hl : (s.b.pos.axis i).lost = false) :
    ((axisSample i x bad).run s).b.pos.coreOf i = (s.b.pos.axis i).afterSample (s.judge i (s.rawIQ x i) bad) ∧
      ((s.judge i (s.rawIQ x i) bad).1 = false → 3 ≤ (s.b.pos.axis i).badRun →
        ((axisSample i x bad).run s).raised E.POS_AXIS_LOST = true ∧
          (s.axisValid i = true → AtStake s.dev → ((axisSample i x bad).run s).dev = .fault)) := by
  rw [axisSample_run]
  generalize s.judge i (s.rawIQ x i) bad = j
  generalize s.rawIQ x i = iq
  have hnote := within_noteSample i (radius (heyApply (s.b.pos.axis i).params iq.1 iq.2)) j.2.2 s
  generalize (noteSample i (radius (heyApply (s.b.pos.axis i).params iq.1 iq.2)) j.2.2).run s = u at *
  have hpos : u.b.pos.axis i = s.b.pos.axis i := congrArg (fun p => PosBlk.axis p i) (hnote.2.2 .bPos (by decide))
  have hdev : u.dev = s.dev := hnote.2.2 .dev (by decide)
  have hcore : ∀ v : State, ((onAxis i rampStep).run v).b.pos.coreOf i = v.b.pos.coreOf i := fun v =>
    coreOf_setAxis v.b.pos i core_rampStep
  have hraise : ∀ v : State, ((onAxis i rampStep).run v).raised E.POS_AXIS_LOST = v.raised E.POS_AXIS_LOST := fun _ => rfl
  have hstay : ∀ v : State, ((onAxis i rampStep).run v).dev = v.dev := fun _ => rfl
  rw [hcore, hraise, hstay]
  cases hj : j.1 with
  | true => exact ⟨takeSample_good hi iq _ hl hj hpos, fun h => absurd h (by decide)⟩
  | false =>
    obtain ⟨htaken, hlost⟩ := takeSample_bad iq (s.axisValid i) hl hj hpos
    refine ⟨htaken, fun _ hb => ?_⟩
    obtain ⟨hraised, hfault⟩ := hlost hb
    exact ⟨hraised, fun hv hs => hfault hv (hdev ▸ hs)⟩

end Sys2Proof.Machine
end

section
/-! SUPPORT. A position sample as a whole (R198 to R206, R228). -/

namespace Sys2Proof.Machine

variable {s t u : State} {i : Nat} {x : Sample} {ok : Bool}

/-! ### One effect for each axis, each axis once -/

/-- Where one effect of a list without repetition brings about `P` under `Q`, the others keep `Q` and `P`, and `Q` holds at
first, `P` holds after all of them. -/
theorem each_brings_once {α : Type} {P Q : State → Prop} {f : α → Act} {l : List α} {y : α} (hl : l.Nodup) (hy : y ∈ l)
    (hq : ∀ z ∈ l, z ≠ y → ∀ s, Q s → Q ((f z).run s)) (hb : ∀ s, Q s → P ((f y).run s))
    (hk : ∀ z ∈ l, z ≠ y → ∀ s, P s → P ((f z).run s)) (h : Q s) : P ((each l f).run s) := by
  induction l generalizing s with
  | nil => exact absurd hy (by simp)
  | cons z l ih =>
    obtain ⟨hz, hl⟩ := List.nodup_cons.mp hl
    have hk' : ∀ w ∈ l, w ≠ y → ∀ s, P s → P ((f w).run s) := fun w hw => hk w (by simp [hw])
    rcases List.mem_cons.mp hy with rfl | hy
    · exact each_keeps (fun w hw s => hk' w hw (fun hwy => hz (hwy ▸ hw)) s) (hb s h)
    · exact ih hl hy (fun w hw => hq w (by simp [hw])) hk' (hq z (by simp) (fun hzy => hz (hzy ▸ hy)) s h)

/-! ### What comes before the axes' parts (R212, R228, R263) -/

theorem sampleDue_none (hw : s.b.pos.writes = []) (hc : s.b.pos.commits = []) (n : Nat) : (sampleDue n).run s = s := by
  have hpos : ∀ p : PosBlk, p.writes = [] → p.commits = [] → { p with
      writes := p.writes.filter fun e => decide (n < e.1), commits := p.commits.filter fun e => decide (n < e.1) } = p := by
    intro p hw hc
    rw [hw, hc, List.filter_nil, List.filter_nil, ← hw, ← hc]
  rw [sampleDue, run_dyn, hw, hc, List.filter_nil, List.filter_nil, run_acts_cons, run_acts_cons, run_acts_cons, run_acts_nil,
    each_nil, each_nil, run_onPos, hpos _ hw hc]

/-- A CRC failure is counted once for its multiblock (R228). -/
theorem noteCrc_effect (s : State) (n : Nat) (ok : Bool) :
    framed [R.POS_JRX_ERR].contains [.bPos] s ((noteCrc n ok).run s) ∧
      (∀ i, ((noteCrc n ok).run s).b.pos.axis i = s.b.pos.axis i) ∧
      ((noteCrc n ok).run s).rd R.POS_JRX_ERR = (s.rd R.POS_JRX_ERR +
        if ok = false ∧ s.b.pos.crcBlock ≠ some (n / s.blockSamples) then 1 else 0) % 2 ^ 32 := by
  refine ⟨within_dyn (fun _ => within_on (within_seq (within_onPos (by decide)) (within_addR (by decide)))) s, ?_⟩
  rw [noteCrc, run_dyn]
  dsimp only
  by_cases h : ok = false ∧ s.b.pos.crcBlock ≠ some (n / s.blockSamples)
  · have hc : (!ok && s.b.pos.crcBlock != some (n / s.blockSamples)) = true := by simpa [h.1] using h.2
    rw [if_pos h, hc, on_true, run_seq, rd_addR_same]
    exact ⟨fun _ => rfl, rfl⟩
  · have hc : (!ok && s.b.pos.crcBlock != some (n / s.blockSamples)) = false := by
      cases ok <;> simp at h ⊢
      exact h
    rw [if_neg h, hc, on_false, run_nop, Nat.add_zero, Nat.mod_eq_of_lt (rd_lt _ _)]
    exact ⟨fun _ => rfl, rfl⟩

/-- The state that the axes' parts of a sample find. -/
def State.atSample (s : State) (ok : Bool) : State :=
  (noteCrc s.b.pos.n ok).run ((sampleDue s.b.pos.n).run ((advanceTo (s.sampleArrival s.b.pos.n)).run
    ((bistPage 0xB0).run { s with out := [] })))

/-- Whether a sample counts as one whose CRC failed (R202, R228). -/
def State.crcBad (s : State) (ok : Bool) : Bool := s.crcFailed s.b.pos.n ok && s.flag F.POS_CFG_CRC_CHK

/-- A sample is good on every axis. -/
def State.sampleGood (s : State) (x : Sample) (ok : Bool) : Bool :=
  axisList.all fun i => s.axisValid i && (s.judge i (s.rawIQ x i) (s.crcBad ok)).1

/-- The axes' parts of a sample. -/
def axesSample (x : Sample) (bad : Bool) : Act := each axisList fun i => axisSample i x bad

theorem posSample_run (hup : s.flag F.POS_STAT_JRX_UP = true) (hp : s.powered 5 = true) : exec (.posSample x ok) s =
    .next ((positionSample s.b.pos.n (s.sampleGood x ok)).run ((onPos fun p => { p with n := s.b.pos.n + 1 }).run
      ((axesSample x (s.crcBad ok)).run (s.atSample ok)))) := by
  have hgo : (({ s with out := [] } : State).flag F.POS_STAT_JRX_UP && ({ s with out := [] } : State).powered 5) = true := by
    have hup' : ({ s with out := [] } : State).flag F.POS_STAT_JRX_UP = true := hup
    have hp' : ({ s with out := [] } : State).powered 5 = true := hp
    rw [hup', hp', Bool.and_self]
  show execPosSample x ok s = _
  rw [execPosSample, perform_eq, run_dyn, if_pos hgo]
  rfl

/-- With no write and no commit that waits, the axes' parts find the positions and what judges them as they were. -/
theorem atSample_found (hw : s.b.pos.writes = []) (hc : s.b.pos.commits = []) :
    (s.atSample ok).dev = s.dev ∧ (∀ i, (s.atSample ok).b.pos.axis i = s.b.pos.axis i) ∧
      (∀ a ∈ judgeRegs, a ≠ R.POS_JRX_ERR → (s.atSample ok).rd a = s.rd a) ∧
      (s.atSample ok).rd R.POS_JRX_ERR = (s.rd R.POS_JRX_ERR +
        if ok = false ∧ s.b.pos.crcBlock ≠ some (s.b.pos.n / s.blockSamples) then 1 else 0) % 2 ^ 32 := by
  rw [State.atSample]
  have hbist := within_bistPage (page := 0xB0) { s with out := [] }
  have hpos : ((bistPage 0xB0).run { s with out := [] }).b.pos = s.b.pos := hbist.2.2 .bPos (by decide)
  have hdev : ((bistPage 0xB0).run { s with out := [] }).dev = s.dev := hbist.2.2 .dev (by decide)
  have hrd : ∀ a, accessRegs a = false → ((bistPage 0xB0).run { s with out := [] }).rd a = s.rd a := fun a ha => hbist.2.1 a ha
  generalize (bistPage 0xB0).run { s with out := [] } = a at *
  obtain ⟨tim, age, pt, hadv⟩ := advanceTo_run a (s.sampleArrival s.b.pos.n)
  rw [hadv, sampleDue_none (by rw [hpos]; exact hw) (by rw [hpos]; exact hc)]
  generalize hv : State.mk .. = v
  have hvpos : v.b.pos = { s.b.pos with pt := pt } := by rw [← hv, hpos]
  have hvdev : v.dev = s.dev := by rw [← hv]; exact hdev
  have hvrd : ∀ a, accessRegs a = false → v.rd a = s.rd a := by rw [← hv]; exact hrd
  obtain ⟨hframe, haxis, hcnt⟩ := noteCrc_effect v s.b.pos.n ok
  have hblock : v.blockSamples = s.blockSamples := by
    have hlanes : v.fld F.POS_CFG_LANES = s.fld F.POS_CFG_LANES := by rw [State.fld, hvrd _ (by decide), State.fld]
    rw [State.blockSamples, hlanes, State.blockSamples]
  have hjudge : ∀ a ∈ judgeRegs, accessRegs a = false := by decide
  refine ⟨(hframe.2.2 .dev (by decide)).trans hvdev, fun i => (haxis i).trans (by rw [hvpos]; rfl), fun a ha hne => ?_, ?_⟩
  · exact (hframe.2.1 a (by simpa using hne)).trans (hvrd a (hjudge a ha))
  · rw [hcnt, hvrd _ (by decide), hblock, hvpos]

/-! ### The axes' parts -/

theorem measure_rd {α : Type} {part : PosBlk → α} (h : (measureScope part).Rel s t) {a : Nat} (ha : a ∈ judgeRegs) :
    t.rd a = s.rd a := by
  have hevent : ∀ a ∈ judgeRegs, eventRegs a = false := by decide
  refine h.rd a ?_
  rw [hevent a ha, Bool.false_or]
  show (!judgeRegs.contains a) = false
  simp [ha]

/-- Judgements rest on the axis, on its configuration and on the limits. -/
theorem judge_congr (hr : ∀ a ∈ judgeRegs, a ≠ R.POS_JRX_ERR → t.rd a = s.rd a) (ha : t.b.pos.axis i = s.b.pos.axis i) (hi : i < 4)
    (x : Sample) (bad : Bool) : t.judge i (t.rawIQ x i) bad = s.judge i (s.rawIQ x i) bad ∧ t.axisValid i = s.axisValid i := by
  have hctrl : ∀ i < 4, R.AX_CTRL i ∈ judgeRegs ∧ R.AX_CTRL i ≠ R.POS_JRX_ERR := by decide
  have hswap : t.flag (F.AX_CTRL_SWAPIQ i) = s.flag (F.AX_CTRL_SWAPIQ i) := by
    rw [State.flag, State.fld, hr _ (hctrl i hi).1 (hctrl i hi).2, State.flag, State.fld]
  have hlim : ∀ f : Fld, f.addr = R.POS_RLIM → t.fld f = s.fld f := fun f hf => by
    rw [State.fld, hf, hr _ (by decide) (by decide), State.fld, hf]
  have hstat : ∀ f : Fld, f.addr = R.POS_STAT → t.flag f = s.flag f := fun f hf => by
    rw [State.flag, State.fld, hf, hr _ (by decide) (by decide), State.flag, State.fld, hf]
  have hraw : t.rawIQ x i = s.rawIQ x i := by rw [State.rawIQ, State.rawIQ, hswap]
  refine ⟨?_, by rw [State.axisValid, State.axisValid, hstat _ rfl, hstat _ rfl, ha]⟩
  rw [hraw, State.judge, State.judge, ha, hlim F.POS_RLIM_RMIN rfl, hlim F.POS_RLIM_RMAX rfl]

/-- What a sample brings about of an axis. -/
def State.AxisTaken (s : State) (i : Nat) (j : Bool × Nat × Bool) (t : State) : Prop :=
  t.b.pos.coreOf i = (s.b.pos.axis i).afterSample j ∧ (j.1 = false → 3 ≤ (s.b.pos.axis i).badRun →
    t.raised E.POS_AXIS_LOST = true ∧ (s.axisValid i = true → s.inJob = true → t.dev = .fault))

theorem axisSample_keepsAxis {j : Nat} (hi : i < 4) (hj : j < 4) (hne : j ≠ i) (s : State) (x : Sample) (bad : Bool) :
    (measureScope fun p => p.axis i).Rel s ((axisSample j x bad).run s) :=
  (measure_axisSample hj (fun p f => p.axis_setAxis_ne hj hi hne.symm f) s x bad).rel

/-- The axes' parts of a sample bring about for each axis that is not lost what its own part does. -/
theorem axesSample_takes (hi : i < 4) (hl : (s.b.pos.axis i).lost = false) (bad : Bool) (hd : u.dev = s.dev)
    (ha : u.b.pos.axis i = s.b.pos.axis i) (hr : ∀ a ∈ judgeRegs, a ≠ R.POS_JRX_ERR → u.rd a = s.rd a) :
    s.AxisTaken i (s.judge i (s.rawIQ x i) bad) ((axesSample x bad).run u) := by
  refine each_brings_once (Q := fun v => (∀ a ∈ judgeRegs, a ≠ R.POS_JRX_ERR → v.rd a = s.rd a) ∧
    v.b.pos.axis i = s.b.pos.axis i ∧ (s.inJob = true → AtStake v.dev)) (by decide) (mem_axisList.mpr hi) ?_ ?_ ?_
    ⟨hr, ha, fun h => hd ▸ atStake_of_inJob h⟩
  · rintro j hj hne v ⟨hvr, hva, hvd⟩
    have rel := axisSample_keepsAxis hi (mem_axisList.mp hj) hne v x bad
    exact ⟨fun a ham hne => (measure_rd rel ham).trans (hvr a ham hne), rel.blocks.trans hva, fun h =>
      keepsDev_axisSample (atStake_axisFault j) x bad v (hvd h)⟩
  · rintro v ⟨hvr, hva, hvd⟩
    obtain ⟨hjudge, hvalid⟩ := judge_congr hvr hva hi x bad
    have htakes := axisSample_takes (s := v) hi x bad (by rw [hva]; exact hl)
    rw [hjudge, hvalid, hva] at htakes
    obtain ⟨hcore, hlost⟩ := htakes
    exact ⟨hcore, fun hj hb => ⟨(hlost hj hb).1, fun hv h => (hlost hj hb).2 hv (hvd h)⟩⟩
  · rintro j hj hne v ⟨hcore, hlost⟩
    have rel := axisSample_keepsAxis hi (mem_axisList.mp hj) hne v x bad
    exact ⟨(congrArg Axis.core rel.blocks).trans hcore, fun hg hb => ⟨rel.raised _ (by decide) (hlost hg hb).1, fun hv h =>
      keepsDev_axisSample (faulted_axisFault j) x bad v ((hlost hg hb).2 hv h)⟩⟩

/-! ### The whole sample -/

/-- A sample that arrives is the newest of the record, and the next one is awaited. -/
theorem recordSample_effect (v : State) (n : Nat) (good : Bool) : ∃ t,
    (positionSample n good).run ((onPos fun p => { p with n := n + 1 }).run v) = t ∧ t.b.pos.n = n + 1 ∧
      t.b.pos.hist.head? = some (n, t.b.pos.yc, good) ∧ (∀ i, t.b.pos.axis i = v.b.pos.axis i) ∧
      (∀ a ∈ judgeRegs, t.rd a = v.rd a) ∧ v.keepsRaised t ∧ (v.dev = .fault → t.dev = .fault) := by
  obtain ⟨t, ht, rel⟩ := positionSample_effect ((onPos fun p => { p with n := n + 1 }).run v) n good
  have hpos := rel.blocks
  refine ⟨t, ht, congrArg PosBlk.n hpos, ?_, fun i => congrArg (fun p => p.axis i) hpos, fun a ha => (measure_rd rel ha).trans rfl,
    rel.raised, fun h => ?_⟩
  · have hhist := congrArg PosBlk.hist hpos
    have hyc := congrArg PosBlk.yc hpos
    change t.b.pos.hist = _ at hhist
    change t.b.pos.yc = _ at hyc
    rw [hhist, hyc]
    rfl
  · rw [← ht]
    exact faulted_positionSample n good _ h

/-- POS_SAMPLE (R198 to R203, R228). -/
theorem posSample_takes (hup : s.flag F.POS_STAT_JRX_UP = true) (hp : s.powered 5 = true) (x : Sample) (ok : Bool) :
    ∃ t, exec (.posSample x ok) s = .next t ∧ t.b.pos.n = s.b.pos.n + 1 ∧
      (∃ good, t.b.pos.hist.head? = some (s.b.pos.n, t.b.pos.yc, good)) ∧
      (s.b.pos.writes = [] → s.b.pos.commits = [] →
        t.rd R.POS_JRX_ERR = (s.rd R.POS_JRX_ERR +
          if ok = false ∧ s.b.pos.crcBlock ≠ some (s.b.pos.n / s.blockSamples) then 1 else 0) % 2 ^ 32 ∧
        ∀ i < 4, (s.b.pos.axis i).lost = false → s.AxisTaken i (s.judge i (s.rawIQ x i) (s.crcBad ok)) t) := by
  obtain ⟨t, ht, hn, hhist, haxis, hregs, hkept, hfault⟩ := recordSample_effect ((axesSample x (s.crcBad ok)).run (s.atSample ok))
    s.b.pos.n (s.sampleGood x ok)
  refine ⟨t, (posSample_run hup hp).trans (congrArg _ ht), hn, ⟨_, hhist⟩, fun hw hc => ?_⟩
  obtain ⟨hdev, hsame, hrd, hcnt⟩ := atSample_found (ok := ok) hw hc
  have hall : (measureScope fun _ : PosBlk => ()).Rel (s.atSample ok) ((axesSample x (s.crcBad ok)).run (s.atSample ok)) :=
    (allows_each _ _ fun i hi u => measure_axisSample (mem_axisList.mp hi) (fun _ _ => rfl) u x _).rel
  refine ⟨(hregs _ (by decide)).trans ((measure_rd hall (by decide)).trans hcnt), fun i hi hl => ?_⟩
  obtain ⟨hcore, hlost⟩ := axesSample_takes (x := x) hi hl (s.crcBad ok) hdev (hsame i) hrd
  exact ⟨(congrArg Axis.core (haxis i)).trans hcore, fun hj hb => ⟨hkept _ (by decide) (hlost hj hb).1, fun hv h =>
    hfault ((hlost hj hb).2 hv h)⟩⟩

end Sys2Proof.Machine
end

section
/-! SUPPORT. Sync, SYSREF, REALIGN, CLEAR_LOST and discarded windows (R197, R200, R203, R207, R223), and the statement on samples
and axes. -/

namespace Sys2Proof.Machine

variable {s t u : State} {i : Nat}

/-! ### Windows that are discarded (R207) -/

theorem satF_b (s : State) (f : Fld) : ((satF f).run s).b = s.b := by rw [satF, run_dyn, setF_b]

theorem fld_satF (s : State) {f : Fld} (hf : f.lo + f.width ≤ 32) :
    ((satF f).run s).fld f = min (s.fld f + 1) (2 ^ f.width - 1) := by
  have hpos := Nat.two_pow_pos f.width
  rw [satF, run_dyn, fld_setF_same _ _ _ hf, Nat.mod_eq_of_lt (by omega)]

theorem fld_onPos (s : State) (f : PosBlk → PosBlk) (g : Fld) : ((onPos f).run s).fld g = s.fld g := rfl
theorem flag_onPos (s : State) (f : PosBlk → PosBlk) (g : Fld) : ((onPos f).run s).flag g = s.flag g := rfl

/-- EST_DISCARD of an axis. -/
theorem estDiscard_discards (s : State) (ax : Fin 4) : ∃ t, exec (.estDiscard ax) s = .next t ∧ (t.b.pos.axis ax).win = [] ∧
    t.fld (F.AX_WIN_DISCARDED ax) = min (s.fld (F.AX_WIN_DISCARDED ax) + 1) 0xFFFF ∧ t.raised E.POS_EST_DISCARD = true ∧
    eventFrame [R.AX_WIN ax] [.bPos] s t := by
  have hevent : ∀ i < 4, eventRegs (R.AX_WIN i) = false := by decide
  refine ⟨(acts [onAxis ax fun x => { x with win := [] }, satF (F.AX_WIN_DISCARDED ax), raise E.POS_EST_DISCARD]).run
    { s with out := [] }, rfl, ?_, ?_, ?_, ?_⟩
  · rw [run_acts_cons, run_acts_cons, run_acts_cons, run_acts_nil, (raise_framed _ _).2.2 .bPos (by decide), satF_b, run_onAxis,
      PosBlk.axis_setAxis_same]
  · rw [run_acts_cons, run_acts_cons, run_acts_cons, run_acts_nil, raise_fld _ _ (F.AX_WIN_DISCARDED ax) (hevent ax ax.isLt),
      fld_satF _ (by simp), onAxis,
      fld_onPos]
    rfl
  · rw [run_acts_cons, run_acts_cons, run_acts_cons, run_acts_nil]
    exact raise_raised (by decide) _
  · exact eventFrame_run s (within_cons (within_onAxis (by decide) _ _) (within_cons (within_dyn fun _ => within_setF (by simp))
      (within_cons (within_raise eventFrame_allows) within_nil)))

/-! ### Sync (R197, R203, R223) -/

theorem jrxSyncChange_run (up : Bool) (h : up = false ∨ s.powered 5 = true) :
    exec (.jrxSyncChange up) s = .next ((jrxSync up).run { s with out := [] }) := by
  have hgo : (!up || ({ s with out := [] } : State).powered 5) = true := by
    rcases h with rfl | h
    · rfl
    · have h' : ({ s with out := [] } : State).powered 5 = true := h
      rw [h', Bool.or_true]
  show execJrxSyncChange up s = _
  rw [execJrxSyncChange, perform_eq, run_dyn, hgo, on_true]

/-- The receiver loses sync: with a valid axis and shots at stake that is a fault. -/
theorem jrxSyncChange_down (hup : s.flag F.POS_STAT_JRX_UP = true) : ∃ t, exec (.jrxSyncChange false) s = .next t ∧
    t.flag F.POS_STAT_JRX_UP = false ∧ t.raised E.POS_JRX_DOWN = true ∧
    (s.inJob = false → eventFrame [R.POS_STAT] [] s t) ∧
    (s.inJob = true → (∃ i < 4, s.axisValid i = true) → t.dev = .fault) := by
  refine ⟨_, jrxSyncChange_run false (.inl rfl), ?_⟩
  have hup' : ({ s with out := [] } : State).flag F.POS_STAT_JRX_UP = true := hup
  rw [jrxSync, run_dyn, hup']
  dsimp only
  rw [show (true != false) = true from rfl, on_true, run_acts_cons, run_acts_cons, run_acts_cons, run_acts_nil, Bool.not_false, on_true,
    Bool.true_and]
  have hframe := eventFrame_run (regs := [R.POS_STAT]) (parts := []) (a := .seq (setB F.POS_STAT_JRX_UP false)
    (raise E.POS_JRX_DOWN)) s (within_seq (within_setB (by decide)) (within_raise eventFrame_allows))
  rw [run_seq] at hframe
  have hflag : ((raise E.POS_JRX_DOWN).run ((setB F.POS_STAT_JRX_UP false).run { s with out := [] })).flag F.POS_STAT_JRX_UP = false := by
    rw [State.flag, raise_fld _ _ _ (by decide), ← State.flag, flag_setB_same _ _ _ (by decide) (by decide)]
  have hraised := raise_raised (e := E.POS_JRX_DOWN) (by decide) ((setB F.POS_STAT_JRX_UP false).run { s with out := [] })
  generalize (raise E.POS_JRX_DOWN).run ((setB F.POS_STAT_JRX_UP false).run { s with out := [] }) = a at *
  have hdev : a.dev = s.dev := hframe.2.2 .dev (by decide)
  generalize hc : (axisList.any fun i => ({ s with out := [] } : State).axisValid i) = c
  have rel : (measureScope fun _ : PosBlk => ()).Rel a ((on c (axisFault 0)).run a) :=
    ((allows_on _ _ _ _).mpr fun _ => measure_axisFault a 0).rel
  refine ⟨?_, rel.raised _ (by decide) hraised, fun hj => ?_, fun hj hv => ?_⟩
  · rw [State.flag, State.fld, measure_rd rel (by decide), ← State.fld, ← State.flag, hflag]
  · have hidle : (axisFault 0).run a = a := by
      rw [axisFault, run_dyn, show a.inJob = false by rw [State.inJob, hdev]; exact hj, on_false, run_nop]
    cases c
    · rw [on_false, run_nop]
      exact hframe
    · rw [on_true, hidle]
      exact hframe
  · obtain ⟨i, hi, hvalid⟩ := hv
    have hany : c = true := by
      rw [← hc, List.any_eq_true]
      exact ⟨i, mem_axisList.mpr hi, hvalid⟩
    rw [hany, on_true]
    exact axisFault_dev (hdev ▸ atStake_of_inJob hj) 0

/-- The receiver gains sync. -/
theorem jrxSyncChange_up (hp : s.powered 5 = true) : ∃ t, exec (.jrxSyncChange true) s = .next t ∧
    t.flag F.POS_STAT_JRX_UP = true ∧ plainFrame [R.POS_STAT] [] s t := by
  have hrun : (jrxSync true).run { s with out := [] } =
      (on (s.flag F.POS_STAT_JRX_UP != true) (setB F.POS_STAT_JRX_UP true)).run { s with out := [] } := by
    rw [jrxSync, run_dyn]
    dsimp only
    change (on (s.flag F.POS_STAT_JRX_UP != true) _).run _ = _
    cases s.flag F.POS_STAT_JRX_UP <;> rfl
  refine ⟨_, jrxSyncChange_run true (.inr hp), ?_, ?_⟩ <;> rw [hrun]
  · cases hup : s.flag F.POS_STAT_JRX_UP with
    | true => exact hup
    | false => exact flag_setB_same _ _ _ (by decide) (by decide)
  · exact plainFrame_run s (within_on (within_setB (by decide)))

/-- The converters' link gains or loses sync. -/
theorem jtxSyncChange_changes (s : State) (up : Bool) : ∃ t, exec (.jtxSyncChange up) s = .next t ∧
    t.flag F.TRK_STAT_JTX_UP = up ∧ (s.flag F.TRK_STAT_JTX_UP = true → up = false → t.raised E.TRK_JTX_DOWN = true) ∧
    eventFrame [R.TRK_STAT] [] s t := by
  have hset : ((setB F.TRK_STAT_JTX_UP up).run { s with out := [] }).flag F.TRK_STAT_JTX_UP = up :=
    flag_setB_same _ _ _ (by decide) (by decide)
  have hrun : exec (.jtxSyncChange up) s = .next ((on (s.flag F.TRK_STAT_JTX_UP != up) (.seq (setB F.TRK_STAT_JTX_UP up)
      (on (!up) (raise E.TRK_JTX_DOWN)))).run { s with out := [] }) := by
    show execJtxSyncChange up s = _
    rw [execJtxSyncChange, perform_eq, run_dyn]
    rfl
  refine ⟨_, hrun, ?_, fun hup hdown => ?_, eventFrame_run s (within_on (within_seq (within_setB (by decide))
    (within_on (within_raise eventFrame_allows))))⟩
  · cases hc : s.flag F.TRK_STAT_JTX_UP != up with
    | false =>
      rw [on_false, run_nop]
      show s.flag F.TRK_STAT_JTX_UP = up
      simpa using hc
    | true =>
      rw [on_true, run_seq]
      cases up with
      | true =>
        rw [Bool.not_true, on_false, run_nop]
        exact hset
      | false =>
        rw [Bool.not_false, on_true, State.flag, raise_fld _ _ _ (by decide), ← State.flag, hset]
  · rw [hup, hdown, show (true != false) = true from rfl, on_true, run_seq, Bool.not_false, on_true]
    exact raise_raised (by decide) _

/-! ### SYSREF (R198, R200) -/

/-- The first edge after REALIGN zeroes PT. -/
theorem sysrefEdge_aligns (b : Bool) (hr : s.b.pos.realign = true) : ∃ t, exec (.sysrefEdge b) s = .next t ∧ t.b.pos.pt = 0 ∧
    t.b.pos.n = 0 ∧ t.flag F.POS_STAT_SYSREF_OK = true ∧ t.b.pos.realign = false ∧ plainFrame [R.POS_STAT] [.bPos] s t := by
  have hrun : exec (.sysrefEdge b) s = .next ((Act.seq (onPos fun p => { p with
      realign := false, pt := 0, n := 0, hist := [], trkN := 0, crcBlock := none }) (setB F.POS_STAT_SYSREF_OK true)).run
        { s with out := [] }) := by
    show execSysrefEdge b s = _
    rw [execSysrefEdge, perform_eq, run_dyn, if_pos (by exact hr)]
  refine ⟨_, hrun, ?_, ?_, ?_, ?_, plainFrame_run s (within_seq (within_onPos (by decide)) (within_setB (by decide)))⟩ <;> rw [run_seq]
  · rw [setB_b, run_onPos]
  · rw [setB_b, run_onPos]
  · exact flag_setB_same _ _ _ (by decide) (by decide)
  · rw [setB_b, run_onPos]

theorem sysrefEdge_run (b : Bool) (hr : s.b.pos.realign = false) : exec (.sysrefEdge b) s =
    .next ((on (!b && !s.flag F.POS_STAT_SYSREF_MOVED) (.seq (setB F.POS_STAT_SYSREF_MOVED true) (raise E.POS_SYSREF_MOVED))).run
      { s with out := [] }) := by
  show execSysrefEdge b s = _
  have hr' : ¬ ({ s with out := [] } : State).b.pos.realign = true := by simp [hr]
  rw [execSysrefEdge, perform_eq, run_dyn, if_neg hr']
  rfl

/-- An edge off the boundary is reported once. -/
theorem sysrefEdge_moved (hr : s.b.pos.realign = false) (hm : s.flag F.POS_STAT_SYSREF_MOVED = false) :
    ∃ t, exec (.sysrefEdge false) s = .next t ∧ t.flag F.POS_STAT_SYSREF_MOVED = true ∧ t.raised E.POS_SYSREF_MOVED = true ∧
      t.b.pos.pt = s.b.pos.pt ∧ eventFrame [R.POS_STAT] [] s t := by
  have hframe : eventFrame [R.POS_STAT] [] s ((Act.seq (setB F.POS_STAT_SYSREF_MOVED true) (raise E.POS_SYSREF_MOVED)).run
      { s with out := [] }) := eventFrame_run s (within_seq (within_setB (by decide)) (within_raise eventFrame_allows))
  refine ⟨_, sysrefEdge_run false hr, ?_⟩
  rw [hm, Bool.not_false, Bool.and_self, on_true]
  refine ⟨?_, ?_, congrArg PosBlk.pt (hframe.2.2 .bPos (by decide)), hframe⟩ <;> rw [run_seq]
  · rw [State.flag, raise_fld _ _ _ (by decide), ← State.flag, flag_setB_same _ _ _ (by decide) (by decide)]
  · exact raise_raised (by decide) _

/-- An edge on the boundary changes nothing. -/
theorem sysrefEdge_onBoundary (hr : s.b.pos.realign = false) : ∃ t, exec (.sysrefEdge true) s = .next t ∧ plainFrame [] [] s t := by
  refine ⟨_, sysrefEdge_run true hr, ?_⟩
  rw [Bool.not_true, Bool.false_and, on_false]
  exact plainFrame_run s within_nop

/-! ### REALIGN and CLEAR_LOST (R200, R203) -/

/-- REALIGN in READY. -/
theorem realign_waits (hr : s.reaches 0xB0 = true) (hd : s.dev = .ready) : ∃ t, exec .realign s = .next t ∧
    t.flag F.POS_STAT_SYSREF_OK = false ∧ t.flag F.POS_STAT_SYSREF_MOVED = false ∧ t.b.pos.realign = true ∧
    t.b.pos.pt = s.b.pos.pt ∧ accessFrame [R.POS_STAT] [.bPos] s t := by
  have hready : (s.served 0xB0).dev = .ready := by rw [served_dev, hd]
  have hrun : realignCmd.run (s.served 0xB0) = (acts [setB F.POS_STAT_SYSREF_OK false, setB F.POS_STAT_SYSREF_MOVED false,
      onPos fun p => { p with realign := true }]).run (s.served 0xB0) := by
    rw [realignCmd, run_dyn, hready, if_neg (by decide)]
  refine ⟨_, perform_toPage s 0xB0 realignCmd hr, ?_⟩
  rw [hrun]
  have hok : ∀ v : State, ((setB F.POS_STAT_SYSREF_MOVED false).run ((setB F.POS_STAT_SYSREF_OK false).run v)).flag
      F.POS_STAT_SYSREF_OK = false := fun v => by
    rw [State.flag, fld_setB_bits _ F.POS_STAT_SYSREF_MOVED F.POS_STAT_SYSREF_OK false (by decide) (by decide) (by decide),
      ← State.flag, flag_setB_same _ _ _ (by decide) (by decide)]
  refine ⟨?_, ?_, ?_, ?_, accessFrame_run s 0xB0 (within_cons (within_setB (by decide)) (within_cons (within_setB (by decide))
    (within_cons (within_onPos (by simp)) within_nil)))⟩ <;> rw [run_acts_cons, run_acts_cons, run_acts_cons, run_acts_nil]
  · rw [flag_onPos, hok]
  · rw [flag_onPos, flag_setB_same _ _ _ (by decide) (by decide)]
  · rw [run_onPos]
  · rw [run_onPos, setB_b, setB_b, served_pos]

/-- CLEAR_LOST of one axis. -/
def clearAxis (i : Nat) : Act :=
  .seq (onAxis i fun x => { x with lost := false, badRun := 0, phi := none }) (setB (F.AX_STAT_SLIP i) false)

/-- What CLEAR_LOST brings about of an axis. -/
def State.AxisCleared (i : Nat) (t : State) : Prop :=
  (t.b.pos.axis i).lost = false ∧ (t.b.pos.axis i).badRun = 0 ∧ (t.b.pos.axis i).phi = none ∧ t.flag (F.AX_STAT_SLIP i) = false

theorem clearAxis_pos (u : State) (i : Nat) : ((clearAxis i).run u).b.pos =
    u.b.pos.setAxis i fun x => { x with lost := false, badRun := 0, phi := none } := by
  rw [clearAxis, run_seq, setB_b, run_onAxis]

theorem clearAxis_clears (u : State) (i : Nat) : State.AxisCleared i ((clearAxis i).run u) := by
  refine ⟨?_, ?_, ?_, ?_⟩
  · rw [clearAxis_pos, PosBlk.axis_setAxis_same]
  · rw [clearAxis_pos, PosBlk.axis_setAxis_same]
  · rw [clearAxis_pos, PosBlk.axis_setAxis_same]
  · rw [clearAxis, run_seq]
    exact flag_setB_same _ _ _ (by simp) (by simp)

theorem clearAxis_other {j : Nat} (hi : i < 4) (hj : j < 4) (hne : j ≠ i) (u : State) :
    ((clearAxis j).run u).b.pos.axis i = u.b.pos.axis i ∧ ((clearAxis j).run u).flag (F.AX_STAT_SLIP i) = u.flag (F.AX_STAT_SLIP i) := by
  have hregs : ∀ j < 4, ∀ i < 4, j ≠ i → R.AX_STAT j ≠ R.AX_STAT i := by decide
  refine ⟨by rw [clearAxis_pos, PosBlk.axis_setAxis_ne _ hj hi hne.symm], ?_⟩
  rw [clearAxis, run_seq, State.flag, State.fld, rd_setB_ne _ _ _ _ (hregs j hj i hi hne)]
  rfl

theorem within_clearAxis {rg : Nat → Bool} {ps : List Part} (hr : rg (R.AX_STAT i) = true) (hp : .bPos ∈ ps) :
    (clearAxis i).Within rg ps := within_seq (within_onAxis hp _ _) (within_setB hr)

/-- CLEAR_LOST in READY. -/
theorem clearLost_clears (hr : s.reaches 0xB0 = true) (hd : s.dev = .ready) (axes : BitVec 4) :
    ∃ t, exec (.clearLost axes) s = .next t ∧
      (∀ i < 4, axes.toNat.testBit i = true → State.AxisCleared i t) ∧
      (∀ i < 4, axes.toNat.testBit i = false → t.b.pos.axis i = s.b.pos.axis i) ∧
      accessFrame ((List.range 4).map R.AX_STAT) [.bPos] s t := by
  have hready : (s.served 0xB0).dev = .ready := by rw [served_dev, hd]
  have hrun : (clearLostCmd axes.toNat).run (s.served 0xB0) =
      (each (axisList.filter fun i => axes.toNat.testBit i) clearAxis).run (s.served 0xB0) := by
    rw [clearLostCmd, run_dyn, hready, if_neg (by decide)]
    rfl
  have hmem : ∀ {j}, j ∈ axisList.filter (fun i => axes.toNat.testBit i) ↔ j < 4 ∧ axes.toNat.testBit j = true := fun {j} => by
    rw [List.mem_filter, mem_axisList]
  refine ⟨_, perform_toPage s 0xB0 (clearLostCmd axes.toNat) hr, ?_⟩
  rw [hrun]
  refine ⟨fun i hi hb => ?_, fun i hi hb => ?_, accessFrame_run s 0xB0 (within_eachMem fun j hj => within_clearAxis ?_ (by simp))⟩
  · refine each_brings_under (Q := fun _ => True) (hmem.mpr ⟨hi, hb⟩) (fun _ _ _ _ => trivial) (fun u _ => clearAxis_clears u i)
      (fun j hj hne u hu => ?_) trivial
    obtain ⟨haxis, hslip⟩ := clearAxis_other hi (hmem.mp hj).1 hne u
    rw [State.AxisCleared, haxis, hslip]
    exact hu
  · refine each_keeps (P := fun u => u.b.pos.axis i = s.b.pos.axis i) (fun j hj u hu => ?_) (by rw [served_pos])
    have hne : j ≠ i := by
      rintro rfl
      exact absurd (hmem.mp hj).2 (by simp [hb])
    exact (clearAxis_other hi (hmem.mp hj).1 hne u).1.trans hu
  · have hstat : ((List.range 4).map R.AX_STAT).contains (R.AX_STAT j) = true := by
      simpa using ⟨j, (hmem.mp hj).1, rfl⟩
    rw [hstat, Bool.or_true]

/-- REALIGN and CLEAR_LOST outside READY. -/
theorem positionCommands_refused (hr : s.reaches 0xB0 = true) (hd : s.dev ≠ .ready) :
    ∀ c ∈ [(Instr.realign, 1), (.clearLost 15, 2)], ∃ t, exec c.1 s = .next t ∧
      t.rd R.TOP_REFUSE = 0xB0 * 2 ^ 24 + c.2 * 2 ^ 16 + 0x10 * 2 ^ 8 + s.dev.code ∧
      accessFrame [R.TOP_REFUSE, pageReg 0xB0 0x020, pageReg 0xB0 0x024] [] s t := by
  have hne : ((s.served 0xB0).dev != .ready) = true := by rw [served_dev]; simpa using hd
  simp only [List.forall_mem_cons, List.not_mem_nil, false_imp_iff, implies_true, and_true]
  exact ⟨refused_recorded (reg := R.POS_CMD) hr (by decide) (by decide) (by decide) (by decide)
      (by rw [realignCmd, run_dyn, hne, if_pos rfl]),
    refused_recorded (reg := R.POS_CMD) hr (by decide) (by decide) (by decide) (by decide)
      (by rw [clearLostCmd, run_dyn, hne, if_pos rfl])⟩

/-! ### The statement -/

/-- What a good sample makes of an axis. -/
theorem State.AxisTaken.good {j : Bool × Nat × Bool} (h : s.AxisTaken i j t) (hl : (s.b.pos.axis i).lost = false) (hj : j.1 = true) :
    (t.b.pos.axis i).phi = some j.2.1 ∧ (t.b.pos.axis i).badRun = 0 ∧ (t.b.pos.axis i).lost = false ∧
      (t.b.pos.axis i).cnt = toSigned 48 (ofSigned 48 ((s.b.pos.axis i).cnt + (s.b.pos.axis i).stepTo j.2.1)) := by
  have hcore := h.1
  rw [Axis.afterSample, if_pos hj, hl] at hcore
  obtain ⟨hcnt, hphi, hrun, hlost⟩ : _ ∧ _ ∧ _ ∧ _ := by simpa only [PosBlk.coreOf, Axis.core, Prod.mk.injEq] using hcore
  exact ⟨hphi, hrun, hlost, hcnt⟩

/-- What a bad sample makes of an axis. -/
theorem State.AxisTaken.bad {j : Bool × Nat × Bool} (h : s.AxisTaken i j t) (hj : j.1 = false) :
    (t.b.pos.axis i).cnt = (s.b.pos.axis i).cnt ∧ (t.b.pos.axis i).badRun = (s.b.pos.axis i).badRun + 1 ∧
      (t.b.pos.axis i).lost = decide (3 ≤ (s.b.pos.axis i).badRun) := by
  have hcore := h.1
  rw [Axis.afterSample, if_neg (by simp [hj])] at hcore
  obtain ⟨hcnt, -, hrun, hlost⟩ : _ ∧ _ ∧ _ ∧ _ := by simpa only [PosBlk.coreOf, Axis.core, Prod.mk.injEq] using hcore
  exact ⟨hcnt, hrun, hlost⟩

/-- The new count of an axis that takes a good sample, by whether it had a phase. -/
theorem stepTo_count (a : Axis) (phi : Nat) : toSigned 48 (ofSigned 48 (a.cnt + a.stepTo phi)) = (match a.phi with
    | some p => toSigned 48 (ofSigned 48 (a.cnt + unwrap ((phi : Int) - p)))
    | none => toSigned 48 (ofSigned 48 a.cnt)) := by
  rw [Axis.stepTo]
  cases a.phi with
  | none => rw [add_zero]
  | some p => rfl

/-- Settles O34: each axis's part of a sample leaves the other axes and what judges them alone, and nothing that follows a sample
changes counts, phases or losses, or leads out of FAULT. -/
theorem samplesMoveCountsAndAxesAreLostAndRestored : Obligations.SamplesMoveCountsAndAxesAreLostAndRestored := by
  unfold Obligations.SamplesMoveCountsAndAxesAreLostAndRestored
  intro s
  refine ⟨fun x ok hup hp => ?_, estDiscard_discards s, ⟨jrxSyncChange_down, jrxSyncChange_up, jtxSyncChange_changes s⟩, fun b =>
    ⟨sysrefEdge_aligns b, fun hr hb hm => hb ▸ sysrefEdge_moved hr hm, fun hr hb => hb ▸ sysrefEdge_onBoundary hr⟩, fun hr =>
    ⟨fun hd => ⟨realign_waits hr hd, clearLost_clears hr hd⟩, positionCommands_refused hr⟩⟩
  obtain ⟨t, ht, hn, hhist, htaken⟩ := posSample_takes hup hp x ok
  refine ⟨t, ht, hn, hhist, fun hw hc => (htaken hw hc).1, fun hw hc i hi hl => ?_⟩
  have haxis : s.AxisTaken i (s.judge i (s.rawIQ x i) (s.crcBad ok)) t := (htaken hw hc).2 i hi hl
  refine ⟨fun hj => ?_, fun hj => ?_⟩
  · obtain ⟨hphi, hrun, hlost, hcnt⟩ := haxis.good hl hj
    exact ⟨hphi, hrun, hlost, hcnt.trans (stepTo_count _ _)⟩
  · obtain ⟨hcnt, hrun, hlost⟩ := haxis.bad hj
    exact ⟨hcnt, hrun, hlost, haxis.2 hj⟩

end Sys2Proof.Machine
end
